-- ==== Sys2Proof/Word.lean ====
section
/-! DEFINITION. The word types of the model. Bit vectors stand for what the spec treats as bits: register contents,
sample words, addresses while they are computed, and fields of packets and instruction words. -/

namespace Sys2Proof

/-- One byte. -/
abbrev Byte := BitVec 8

/-- A 16-bit half word. -/
abbrev Half := BitVec 16

/-- A 32-bit word: the width of a direct-window register (R431) and of an s32 sample. -/
abbrev Word := BitVec 32

/-- A 64-bit word. -/
abbrev Long := BitVec 64

/-- An address on Col, 40 bits (R199). -/
abbrev ColAddr := BitVec 40

/-- A sparse table: key and value pairs, keys strictly rising, no entry equal to what an unlisted key reads as.
`Machine/Store.lean` gives its read and its write. -/
abbrev Store (α : Type) := List (Nat × α)

/-- Byte memory in the host's cell form, same canonical form as `Store`, an unlisted address reading 0. -/
abbrev Memory := List Host.Cell

end Sys2Proof
end

