-- ==== Sys2Proof/Config.lean ====
section
/-! DEFINITION. What an implementation fixes and the free values: constants with no body, so that a claim about them
holds whatever they are. `State.fresh` counts the draws. -/

namespace Sys2Proof

/-- The `n`th word drawn from an open source: random draws of the DRBG (R482), undefined or unstated values. -/
opaque Config.freeWord : Nat → Word

/-- The AES-CMAC of NIST SP 800-38B under a 256-bit key (R405): a published standard that the spec names and does not
restate (log 3). -/
opaque Config.aesCmac : BitVec 256 → List Byte → BitVec 128

/-- SHA-384 (R476), as the published standard has it (log 3). -/
opaque Config.sha384 : List Byte → BitVec 384

/-- ECDSA P-384 verification of a message under a public key and a signature (R476), as the published standard has it
(log 3). -/
opaque Config.ecdsaVerify : List Byte → List Byte → List Byte → Bool

/-- Whether a quotient that is no whole number is rounded up, where the spec states no rounding (log 21). -/
opaque Config.meanUp : Int → Nat → Bool

/-- The CRC that an audit tap stores for a window that missed a sample, by the window's start, the CRC of the samples that
came and the tap's count: the spec states no value (log 42). -/
opaque Config.gapCrc : Word → Word → Word → Word

/-- Whether the slew of a residual, of which a part comes from phase steps, raises the output frequency or lowers it: the
spec's rules give both signs (log 23). -/
opaque Config.slewRaises : Int → Int → Bool

/-- The clockClass of a master in a holdover that came after a PTP reference, by the holdover's seconds: the spec gives none
(log 75). -/
opaque Config.ptpHoldoverClass : Nat → BitVec 8

/-- What a register shows of a count of nanoseconds that does not fit in it: the spec states no value (log 24). -/
opaque Config.wideNs : Int → Word

end Sys2Proof
end

