-- ==== Sys2Proof/Machine/Bits.lean ====
section
/-! DEFINITION. Bit, byte and number helpers: byte order, fields, saturating counters, CRC-32C. Registers and memory
are little-endian, network fields big-endian (R6). -/

namespace Sys2Proof.Machine

/-- The `n` little-endian bytes of a number (R6). -/
def leBytes : Nat → Nat → List Byte
  | 0, _ => []
  | n + 1, x => BitVec.ofNat 8 x :: leBytes n (x / 256)

/-- The number that little-endian bytes spell (R6). -/
def leNat : List Byte → Nat
  | [] => 0
  | b :: bs => b.toNat + 256 * leNat bs

/-- Little-endian bytes of a half word. -/
def le16 (x : Half) : List Byte := leBytes 2 x.toNat
/-- Little-endian bytes of a word. -/
def le32 (x : Word) : List Byte := leBytes 4 x.toNat
/-- Little-endian bytes of a long. -/
def le64 (x : Long) : List Byte := leBytes 8 x.toNat

/-- The number of the `n` bytes at offset `o` of a byte list, little-endian; missing bytes count as 0. -/
def leAt (bs : List Byte) (o n : Nat) : Nat := leNat ((bs.drop o).take n)

/-- The number that big-endian bytes spell (R6). -/
def beNat (bs : List Byte) : Nat := bs.foldl (fun a b => a * 256 + b.toNat) 0

/-- One bit of a register from a flag, at place `n`. -/
def bitAt (n : Nat) (b : Bool) : Word := if b then BitVec.ofNat 32 (2 ^ n) else 0

/-- A field of a register: the value `v` placed at bit `n`. -/
def fieldAt (n : Nat) (v : Nat) : Word := BitVec.ofNat 32 (v * 2 ^ n)

/-- Bit `n` of a number. -/
def natBit (x n : Nat) : Bool := x.testBit n

/-- Counter of width `w` that stops at its greatest value. -/
def satInc {w : Nat} (x : BitVec w) : BitVec w := if x = BitVec.allOnes w then x else x + 1

/-- Add to a counter that stops at its greatest value. -/
def satAdd {w : Nat} (x : BitVec w) (n : Nat) : BitVec w := BitVec.ofNat w (min (x.toNat + n) (2 ^ w - 1))

/-- The signed difference of two wave numbers, as 32-bit serial numbers (R27). -/
def serialDiff (a b : Word) : Int := (a - b).toInt

/-- Clamp an integer to the range of an s32 word. -/
def clampS32 (x : Int) : Int := max (-(2 ^ 31)) (min x (2 ^ 31 - 1))

/-- The s32 word of a clamped integer. -/
def satS32 (x : Int) : Word := BitVec.ofInt 32 (clampS32 x)

/-- An integer clamped to the range `lo` to `hi`. -/
def clampInt (lo hi x : Int) : Int := max lo (min x hi)

/-- A quotient as a whole number, its rounding free where it is none (log 21). -/
def rounded (x : Int) (n : Nat) : Int :=
  if x.fmod n = 0 then x.fdiv n else if Config.meanUp x n then x.fdiv n + 1 else x.fdiv n

/-- A signed count of nanoseconds, given in nths, as a register shows it (log 21, 24). -/
def nsWord (x : Int) (n : Nat) : Word :=
  if -2147483648 ≤ rounded x n ∧ rounded x n < 2147483648 then BitVec.ofInt 32 (rounded x n) else Config.wideNs (rounded x n)

/-- The same for an unsigned count. -/
def nsCount (x : Int) (n : Nat) : Word :=
  if 0 ≤ rounded x n ∧ rounded x n < 4294967296 then BitVec.ofInt 32 (rounded x n) else Config.wideNs (rounded x n)

/-- One bit step of the reflected CRC-32C with polynomial 0x1EDC6F41 (PRESUMED: log 14). -/
def crc32cBit (c : Word) : Word := if c.getLsbD 0 then (c >>> 1) ^^^ 0x82F63B78#32 else c >>> 1

/-- One byte of CRC-32C. -/
def crc32cByte (c : Word) (b : Byte) : Word :=
  (List.range 8).foldl (fun x _ => crc32cBit x) (c ^^^ b.setWidth 32)

/-- CRC-32C over bytes, initial value and final XOR all ones (R364). -/
def crc32c (bs : List Byte) : Word := (bs.foldl crc32cByte 0xFFFF_FFFF#32) ^^^ 0xFFFF_FFFF#32

/-- Continue a CRC-32C held in its running form. -/
def crc32cMore (c : Word) (bs : List Byte) : Word := bs.foldl crc32cByte c

/-- The members below `n` of a bit set. -/
def bitsOf {w : Nat} (x : BitVec w) : List Nat := (List.range w).filter fun i => x.getLsbD i

/-- Set or clear one bit of a bit set. -/
def setBit {w : Nat} (x : BitVec w) (n : Nat) (b : Bool) : BitVec w :=
  if b then x ||| BitVec.ofNat w (2 ^ n) else x &&& ~~~ (BitVec.ofNat w (2 ^ n))

end Sys2Proof.Machine
end

