-- ==== Sys2Proof/Machine/CairnState.lean ====
section
/-! DEFINITION. The state of the Cairn engines (R123 to R158). -/

namespace Sys2Proof.Machine

/-- A far-port transfer in progress (R145, R147). Addresses are in words of the local memory and bytes of Tarn. -/
structure FarXfer where
  inbound : Bool
  toY : Bool
  tarn : Nat
  loc : Nat
  words : Nat
  deriving DecidableEq, Repr

/-- A hardware loop: first and last instruction index of its body and the iterations still to start, LCn (R135, R172). -/
structure LoopFrame where
  first : Nat
  last : Nat
  left : Nat
  deriving DecidableEq, Repr

/-- One engine. Register lanes are keyed 4·register + lane. -/
structure Engine where
  v : Store Word
  acc : Store (BitVec 80)
  s : Store Word
  p : Store Nat
  m : Store Int
  l : Store Nat
  b : Store Nat
  nstate : Store Word
  flags : Word
  /-- The wave context (R149). -/
  wave : Word
  xfIn : Word
  xfOut : Word
  xfIdx : Word
  node : Word
  who : Word
  /-- Instruction index within the bank half of WHO[12]. -/
  pc : Nat
  /-- Open loops, outermost first: LC0 to LC2. -/
  loops : List LoopFrame
  /-- The body that the loop cache holds, first and last index (R136). -/
  cache : Option (Nat × Nat)
  x : Store Word
  y : Store Word
  c : Store Word
  progA : Store Long
  progB : Store Long
  far : List FarXfer
  /-- The entry that runs: partition and index; none while the engine is idle. -/
  entry : Option (Nat × Nat)
  /-- END has issued: no further instruction issues until the next dispatch (R150). -/
  ended : Bool
  /-- The engine has trapped in this wave and completes its entries without running them (R151). -/
  trapped : Bool
  /-- The parameter write window is open (R153). -/
  window : Bool
  trapCnt : Word
  satCnt : Word
  /-- Lookout time at which an entry last saturated (R156). -/
  satAt : Option Nat
  /-- Words of local memory that hold a double-bit error: memory 1 X, 2 Y, 3 C, and word; 0 and an instruction index of
  0 to 4095 for program memory (R129, R151). -/
  bad : List (Nat × Nat)
  deriving DecidableEq, Repr

/-- An engine at reset: registers cleared as at a dispatch (R131); memories have no stated reset value (log 4). -/
def Engine.init : Engine :=
  { v := [], acc := [], s := [], p := [], m := [], l := [], b := [], nstate := [], flags := 0, wave := 0, xfIn := 0
    xfOut := 0, xfIdx := 0, node := 0, who := 0, pc := 0, loops := [], cache := none, x := [], y := [], c := []
    progA := [], progB := [], far := [], entry := none, ended := false, trapped := false, window := false
    trapCnt := 0, satCnt := 0, satAt := none, bad := [] }

/-- The engines and their shared registers (R155, R156). -/
structure Crn where
  engines : Store Engine
  trapPend : BitVec 24
  lastEngine : Nat
  lastCause : Nat
  lastNode : Nat
  lastMcnt : Word
  trapRun : Word
  trapStallTh : Nat
  deriving DecidableEq, Repr

def Crn.init : Crn :=
  { engines := [], trapPend := 0, lastEngine := 0, lastCause := 0, lastNode := 0, lastMcnt := 0, trapRun := 0
    trapStallTh := 16 }

end Sys2Proof.Machine
end

