-- ==== Sys2Proof/Machine/DmaState.lean ====
section
/-! DEFINITION. The state of Col (R199 to R211, R229) and of the DMA engine (R212 to R229). -/

namespace Sys2Proof.Machine

/-- Col's error registers, fences and port gates, and the memories' counters. -/
structure Col where
  fenced : BitVec 20
  /-- The last error response: target, master, kind and write, and its address (R229). -/
  errTarget : Nat
  errMaster : Nat
  errKind : Nat
  errWrite : Bool
  errAddr : Nat
  errCnt : Word
  timeoutCnt : Word
  /-- Power-gated master and target ports (R211). -/
  gatedMasters : BitVec 13
  gatedTargets : BitVec 20
  /-- Path timeout, µs, and scrub period, s (R202, R210). -/
  pathTimeout : Nat
  scrubPeriod : Nat
  corrCnt : Word
  dbeCnt : Word
  /-- Address of the last uncorrectable Tarn error, once there has been one. -/
  dbeAddr : Nat
  dbeSeen : Bool
  ddrCorr : Word
  ddrDbe : Word
  ddrAddr : Nat
  deriving DecidableEq, Repr

/-- Col at reset (R202, R210, R229); no reset value is given for a port's gate (log 33). -/
def Col.init : Col :=
  { fenced := 0, errTarget := 0, errMaster := 0, errKind := 0, errWrite := false, errAddr := 0, errCnt := 0
    timeoutCnt := 0, gatedMasters := 0, gatedTargets := 0, pathTimeout := 20, scrubPeriod := 10, corrCnt := 0
    dbeCnt := 0, dbeAddr := 0, dbeSeen := false, ddrCorr := 0, ddrDbe := 0, ddrAddr := 0 }

/-- What a running channel does next. -/
inductive DmaPhase where
  | idle
  | fetch
  | waitEvt
  | move
  | complete
  deriving DecidableEq, Repr

/-- One channel: its registers (R226 to R228) and the transfer in progress. -/
structure DmaCh where
  /-- DMA_CTRL bits 2 to 11. -/
  ctrl : Word
  running : Bool
  src : BitVec 40
  dst : BitVec 40
  count : Word
  desc : BitVec 40
  cur : BitVec 40
  remain : Word
  pace : Word
  evtMcnt : Word
  doneCnt : Word
  doneAck : Word
  evtPend : Nat
  stopReason : Nat
  reqDrop : Byte
  evtOvr : Byte
  /-- Latched at the start: DMA_PACE, the internal t and whether the match is armed (R219). -/
  lPace : Word
  t : Word
  tArmed : Bool
  linked : Bool
  phase : DmaPhase
  /-- The transfer or descriptor: its control word, addresses, length and NEXT. -/
  dctrl : Word
  mSrc : Nat
  mDst : Nat
  mCount : Nat
  next : Long
  /-- Consecutive empty descriptors (R224). -/
  hops : Nat
  /-- What the channel did at the engine's stop: DMA_RESUME restarts it from there (R223). -/
  resume : Option DmaPhase
  deriving DecidableEq, Repr

/-- A channel at reset (R226 to R228): PRIO 3, BURST 4. -/
def DmaCh.init : DmaCh :=
  { ctrl := 0x418, running := false, src := 0, dst := 0, count := 0, desc := 0, cur := 0, remain := 0, pace := 0
    evtMcnt := 0, doneCnt := 0, doneAck := 0, evtPend := 0, stopReason := 0, reqDrop := 0, evtOvr := 0, lPace := 0
    t := 0, tArmed := false, linked := false, phase := .idle, dctrl := 0, mSrc := 0, mDst := 0, mCount := 0, next := 0
    hops := 0, resume := none }

/-- The DMA engine. -/
structure Dma where
  ch : Store DmaCh
  stopped : Bool
  errAddr : Nat
  errWrite : Bool
  busErrCnt : Word
  /-- Request lines that are high: 0 to 63 TDM ports, 64 to 127 stream units (R218). -/
  lines : BitVec 128
  deriving DecidableEq, Repr

def Dma.init : Dma := { ch := [], stopped := false, errAddr := 0, errWrite := false, busErrCnt := 0, lines := 0 }

end Sys2Proof.Machine
end

