-- ==== Sys2Proof/Syntax/Fabric.lean ====
section
/-! DEFINITION. Operands of the fabric and graph commands (R89, R122). -/

namespace Sys2Proof

/-- Payload of FAB_SET_GOVERNOR. -/
structure FabSetGovernor where
  mode : Byte
  fixed : Half
  target : Byte
  deadband : Byte
  floor : Byte
  upGain : Half
  upMax : Byte
  downStep : Byte
  interval : Half
  settle : Half
  recovery : Half
  deriving DecidableEq, Repr

/-- Payload of GRAPH_LOAD_CHUNK. -/
structure GraphChunk where
  offset : Word
  length : Half
  data : List Byte
  deriving DecidableEq, Repr

/-- Payload of GRAPH_COMMIT and of GRAPH_HALT: the named wave, N and the flags. -/
structure GraphWave where
  wave : Word
  n : Half
  flags : Half
  deriving DecidableEq, Repr

/-- Payload of NODE_SET_GAIN. -/
structure NodeSetGain where
  node : Half
  param : Byte
  maskFlag : Byte
  a : Word
  gain : Word
  mask : Long
  deriving DecidableEq, Repr

/-- The transactions the governor runs on TW0 (R82). -/
inductive GovXfer where
  | voutMode
  | readVout
  | writeVout
  | poll
  deriving DecidableEq, Repr

end Sys2Proof
end

