-- ==== Sys2Proof/Machine/FabricState.lean ====
section
/-! DEFINITION. The state of the fabric: waves and images, slack telemetry, misses and the voltage governor (R60 to R90);
and of Ridge: banks, commits, halts, crossfades and gain changes (R91 to R122). -/

namespace Sys2Proof.Machine

/-- Governor state (R87). -/
inductive GovState where
  | idle
  | tracking
  | emergency
  | stalled
  deriving DecidableEq, Repr

/-- The control-law parameters (R81). Percentages are of Ts. -/
structure GovParams where
  fixed : Nat
  target : Nat
  deadband : Nat
  floor : Nat
  upGain : Nat
  upMax : Nat
  downStep : Nat
  interval : Nat
  settle : Nat
  recovery : Nat
  deriving DecidableEq, Repr

/-- The defaults of R81; the commanded voltage of FIXED has no stated reset value (log 25). -/
def GovParams.init : GovParams :=
  { fixed := 0, target := 20, deadband := 5, floor := 5, upGain := 50, upMax := 20, downStep := 1, interval := 100
    settle := 20, recovery := 1000 }

/-- The fabric's telemetry, miss and governor registers. -/
structure Fab where
  auto : Bool
  govState : GovState
  busFault : Bool
  voutMismatch : Bool
  coreUv : Bool
  slackLast : Word
  slackMin : Word
  slackMean : Word
  winSum : Int
  winCount : Nat
  missCnt : Word
  skipCnt : Word
  lateCnt : Word
  missRun : Word
  lastMiss : Word
  /-- Lookout time of the last miss, and the burst window: its start and its misses (R76, R87). -/
  lastMissAt : Option Nat
  winStart : Option Nat
  winMisses : Nat
  vcmd : Half
  vread : Half
  writes : Word
  emergCnt : Word
  hist : Store Word
  n : Nat
  w : Nat
  burstTh : Nat
  stallTh : Nat
  params : GovParams
  /-- FAB_SET_GOVERNOR waits for the next update interval, or for the recovery hold to end (R90). -/
  newParams : Option (Bool × GovParams)
  emergAt : Nat
  /-- Minimum slack of the interval's counted waves, 2 ns units (R81). -/
  intervalMin : Option Int
  /-- Lookout time until which waves are excluded after a write (R81). -/
  settleUntil : Nat
  /-- Minimum slack of the last interval that counted a wave (R86). -/
  lastInterval : Option Int
  /-- The transaction in flight and its failures so far (R83, R85). -/
  xfer : Option GovXfer
  failures : Nat
  /-- Transactions still to run, and the value that waits for the bus (R82, R85). -/
  queue : List GovXfer
  waitingV : Option Nat
  mismatchRun : Nat
  deriving DecidableEq, Repr

/-- The fabric at reset (R70, R76, R80, R81, R87, R88). -/
def Fab.init : Fab :=
  { auto := false, govState := .idle, busFault := false, voutMismatch := false, coreUv := false, slackLast := 0
    slackMin := 0x7FFF_FFFF, slackMean := 0, winSum := 0, winCount := 0, missCnt := 0, skipCnt := 0, lateCnt := 0
    missRun := 0, lastMiss := 0, lastMissAt := none, winStart := none, winMisses := 0, vcmd := 0, vread := 0
    writes := 0, emergCnt := 0, hist := [], n := 12, w := 640, burstTh := 8, stallTh := 16
    params := GovParams.init, newParams := none, emergAt := 0, intervalMin := none, settleUntil := 0, lastInterval := none, xfer := none
    failures := 0, queue := [], waitingV := none, mismatchRun := 0 }

/-- The wave in the fabric (R62 to R64, R72 to R74). -/
structure Wave where
  /-- The running wave's index; none while the fabric is idle. -/
  running : Option Word
  /-- A wave whose sample edge has passed and that waits for the token before it (R73). -/
  waiting : Option Word
  /-- The wave of the present period has been launched and its token has returned (by the guard). -/
  tokenIn : Bool
  /-- The present period has a wave of its own: launched, waiting or skipped. -/
  expected : Bool
  /-- An engine trapped in the present wave (R152). -/
  trapped : Bool
  /-- Schedule entries of the running wave dispatched and completed, as partition and index. -/
  dispatched : List (Nat × Nat)
  completed : List (Nat × Nat)
  /-- The output image of the last wave that met its deadline (R72). -/
  lastGood : Store Word
  /-- The output image of the wave whose token returned in time, for the guard to move. -/
  fresh : Option (Store Word)
  /-- The output guard of the present period has run. -/
  guarded : Bool
  deriving DecidableEq, Repr

def Wave.init : Wave :=
  { running := none, waiting := none, tokenIn := false, expected := false, trapped := false, dispatched := []
    completed := [], lastGood := [], fresh := none, guarded := true }

/-- Bank state (R101, R120). -/
inductive BankState where
  | empty
  | building
  | ready
  | pending
  | live
  | idle
  deriving DecidableEq, Repr

/-- A schedule entry (R99). -/
structure Entry where
  target : Nat
  part : Nat
  node : Nat
  start : Nat
  wait : Nat
  retiring : Bool
  last : Bool
  succ : List Nat
  cost : Nat
  /-- The entry's node has retired: it is not dispatched and counts as no entry (R103, R112). -/
  dormant : Bool
  deriving DecidableEq, Repr

/-- A node table entry (R97). -/
structure Node where
  id : Nat
  kind : Nat
  place : Nat
  signature : Long
  stateMem : Nat
  channels : Nat
  zcTimeout : Nat
  stateOfs : Nat
  stateSize : Nat
  paramOfs : Nat
  paramSize : Nat
  retiring : Bool
  deriving DecidableEq, Repr

/-- An edge table entry (R98). -/
structure Edge where
  srcNode : Nat
  srcPort : Nat
  srcCh : Nat
  dstNode : Nat
  dstPort : Nat
  dstCh : Nat
  channels : Nat
  estate : Nat
  deriving DecidableEq, Repr

/-- A binding entry (R100). -/
structure Binding where
  kind : Nat
  unit : Nat
  first : Nat
  count : Nat
  node : Nat
  port : Nat
  nodeCh : Nat
  deriving DecidableEq, Repr

/-- A Meridian slice descriptor (R179). -/
structure Slice where
  firstIn : Nat
  ins : Nat
  firstCol : Nat
  cols : Nat
  part : Nat
  accumulate : Bool
  final : Bool
  deriving DecidableEq, Repr

/-- One partition's part of a bank. -/
structure BankPart where
  entries : List Entry
  nodes : List Node
  edges : List Edge
  bindings : List Binding
  slices : List Slice
  deriving DecidableEq, Repr

def BankPart.init : BankPart := { entries := [], nodes := [], edges := [], bindings := [], slices := [] }

/-- A bank (R96, R101), and the corner time and the rate code of its image (R67). -/
structure Bank where
  state : BankState
  parts : List BankPart
  corner : Word
  rate : Nat
  deriving DecidableEq, Repr

def Bank.init : Bank :=
  { state := .empty, parts := [BankPart.init, BankPart.init, BankPart.init, BankPart.init], corner := 0, rate := 1 }

/-- A section of initial values to write when the bank is built: memory code, engine and bytes by offset (R95, R103). -/
structure InitData where
  mem : Nat
  place : Nat
  offset : Nat
  bytes : List Byte
  deriving DecidableEq, Repr

/-- The build in progress: who asked, and what it will come to (R101, R103). -/
structure Build where
  part : Nat
  udp : Bool
  rate : Nat
  outcome : Option (List BankPart × Word × Nat)
  /-- Program halves to load: engine and instruction words. -/
  programs : List (Nat × List Long)
  inits : List InitData
  rejectNotOwner : Bool
  rejectNoRes : Bool
  reason : Nat
  deriving DecidableEq, Repr

/-- A pending commit (R109). -/
structure Commit where
  m : Word
  n : Nat
  part : Nat
  deriving DecidableEq, Repr

/-- An accepted halt: h, N and the first wave of its fade once it has begun (R111). -/
structure Halt where
  h : Word
  n : Nat
  began : Option Word
  deriving DecidableEq, Repr

/-- A gain cell to write or to read back: engine, byte address in C memory, node, and the change (R154). -/
structure GainCell where
  engine : Nat
  addr : Nat
  part : Nat
  node : Nat
  gain : Word
  a : Word
  t : Nat
  /-- The write found RAMPING set and has been held (R154). -/
  held : Bool
  deriving DecidableEq, Repr

/-- Ridge. -/
structure Rdg where
  live : Option Nat
  lastLive : Option Nat
  bankA : Bank
  bankB : Bank
  commit : Option Commit
  halt : Option Halt
  commitM : Word
  applied : Word
  xfadeEnd : Word
  xfadeN : Nat
  /-- First wave of the crossfade that runs. -/
  xfade : Option Word
  commitLate : Bool
  resPart : Nat
  resRunning : Bool
  resMs : Nat
  /-- Partitions whose build another partition's rebuild has discarded (R101). -/
  lost : BitVec 4
  generation : Word
  commitCnt : Word
  rejectCnt : Word
  lastReject : Nat
  lastRejectPart : Nat
  gainTimeoutCnt : Word
  gainDropCnt : Word
  build : Option Build
  /-- ZC_TIMEOUT set by NODE_SET_TIMEOUT, by partition and node. -/
  timeouts : List (Nat × Nat × Nat)
  /-- Parameter lines that wait for their engine's window (R153), and cells written and not yet seen complete (R154). -/
  cellWrites : List GainCell
  cells : List GainCell
  deriving DecidableEq, Repr

/-- Ridge at reset (R101, R120, R121). -/
def Rdg.init : Rdg :=
  { live := none, lastLive := none, bankA := Bank.init, bankB := Bank.init, commit := none, halt := none
    commitM := 0, applied := 0, xfadeEnd := 0, xfadeN := 0, xfade := none, commitLate := false, resPart := 0
    resRunning := false, resMs := 1000, lost := 0, generation := 0, commitCnt := 0, rejectCnt := 0, lastReject := 0
    lastRejectPart := 0, gainTimeoutCnt := 0, gainDropCnt := 0, build := none, timeouts := [], cellWrites := []
    cells := [] }

end Sys2Proof.Machine
end

