-- ==== Sys2Proof/Machine/LookoutState.lean ====
section
/-! DEFINITION. The state of Lookout (R451 to R470): records, masks, counters, timers, watchdogs. -/

namespace Sys2Proof.Machine

/-- Fault class (R456). -/
inductive Cls where
  | notice
  | service
  | severe
  deriving DecidableEq, Repr

/-- Hardware action (R457). -/
inductive Act where
  | none
  | mute
  | chMute
  | domainReset
  | failSilent
  deriving DecidableEq, Repr

/-- State of a record (R462, R469). -/
inductive RecState where
  | idle
  | noted
  | raised
  | claimed
  | acted
  deriving DecidableEq, Repr

/-- One record (R460 to R462, R469). Times are Lookout times in microseconds. -/
structure Record where
  state : RecState
  cls : Cls
  /-- 0 to 3 partition, 4 supervisor, 7 none. -/
  claimedBy : Nat
  first : Nat
  route : BitVec 4
  claimExpired : Bool
  inst : Half
  mcnt : Word
  merged : Word
  count : Word
  /-- [0] MUTE, [1] CH_MUTE, [2] DOMAIN_RESET, [3] FAIL_SILENT. -/
  actions : BitVec 4
  time : Word
  escEnd : Nat
  claimEnd : Nat
  serviceSinceClaim : Bool
  lastFault : Nat
  muteHeld : Bool
  chMute : BitVec 16
  /-- Power-stage channels named by faults of the record: the channels that CH_MUTE acts on (R457). -/
  chCause : BitVec 16
  /-- Actions of the SERVICE faults of the record, as `actions` numbers them: those the escalation runs (R459, R462). -/
  due : BitVec 4
  /-- The FAULT cause of R422 is set in the routed partitions. -/
  irq : Bool
  deriving DecidableEq, Repr

/-- A record at reset (R469). -/
def Record.init : Record :=
  { state := .idle, cls := .notice, claimedBy := 0, first := 0, route := 0, claimExpired := false, inst := 0
    mcnt := 0, merged := 0, count := 0, actions := 0, time := 0, escEnd := 0, claimEnd := 0
    serviceSinceClaim := false, lastFault := 0, muteHeld := false, chMute := 0, chCause := 0, due := 0, irq := false }

/-- Lookout. -/
structure Lkt where
  /-- Microseconds since reset on Lookout's timers. -/
  now : Nat
  oscB : Bool
  /-- The last comparison found XO_IN wrong; sample edges have stopped for 3 Ts (R451). -/
  xoBad : Bool
  edgeLoss : Bool
  failSilent : Bool
  escTime : Nat
  claimTime : Nat
  supWdog : Nat
  /-- The watchdog period in force: it changes at a kick (R470). -/
  supPeriod : Nat
  supKicked : Bool
  /-- The core has not kicked since its SUMMIT_CORE_STOP fault (R458). -/
  core0Stop : Bool
  core1Stop : Bool
  /-- Summit cores 0 and 1 run (R457, R514). -/
  coresRun : Bool
  clearRefused : Bool
  clearSource : Nat
  faultCnt : Word
  sigpathLast : Byte
  srcMask : BitVec 256
  srcCnt : Store Byte
  /-- Class and action set by FLT_SET_CLASS; an unlisted source has those of R458. -/
  classes : Store (Option (Cls × Act))
  records : Store Record
  deriving DecidableEq, Repr

/-- Lookout at reset (R469). -/
def Lkt.init : Lkt :=
  { now := 0, oscB := false, xoBad := false, edgeLoss := false, failSilent := false, escTime := 2000, claimTime := 1000
    supWdog := 1000, supPeriod := 1000, supKicked := false, core0Stop := false, core1Stop := false, coresRun := true, clearRefused := false, clearSource := 0
    faultCnt := 0, sigpathLast := 0, srcMask := 0, srcCnt := [], classes := [], records := [] }

/-- The condition of XO_LOSS holds (R451). -/
def Lkt.xoLoss (l : Lkt) : Bool := l.xoBad || l.edgeLoss

end Sys2Proof.Machine
end

