-- ==== Sys2Proof/Machine/MemoryState.lean ====
section
/-! DEFINITION. Tarn and DRAM, with the words that hold an uncorrectable error (R199 to R204). -/

namespace Sys2Proof.Machine

/-- The memories, byte-addressed from the base of each: Tarn is Col 0x00_0000_0000, DRAM is Col 0x01_0000_0000. A byte
that nothing has written reads 0 (log 4). -/
structure Mem where
  tarn : Memory
  dram : Memory
  /-- Tarn word indexes and DRAM line indexes that hold a double-bit error. -/
  tarnBad : List Nat
  dramBad : List Nat
  deriving DecidableEq, Repr

def Mem.init : Mem := { tarn := [], dram := [], tarnBad := [], dramBad := [] }

end Sys2Proof.Machine
end

