-- ==== Sys2Proof/Machine/MeridianState.lean ====
section
/-! DEFINITION. The state of Meridian (R175 to R198). -/

namespace Sys2Proof.Machine

/-- The mode of a change (R185, R186). -/
inductive MtxMode where
  | step
  | ramp (n : Nat)
  | zc
  deriving DecidableEq, Repr

/-- Where a change stands: its armed wave still ahead, watching for a crossing, or ramping from a wave over n samples
from the effective gain that was in effect. -/
inductive ChgPhase where
  | ahead
  | watching
  | ramping (start : Word) (n : Nat) (old : Int)
  deriving DecidableEq, Repr

/-- A change waiting or running on a crosspoint, keyed 2048·column + input (R185 to R188). -/
structure Change where
  key : Nat
  target : Word
  a : Word
  mode : MtxMode
  /-- T of R186, in waves. -/
  timeout : Nat
  part : Nat
  /-- An entry of the partition's armed bulk update. -/
  bulk : Bool
  /-- It holds a ramp slot (R187). -/
  slot : Bool
  phase : ChgPhase
  deriving DecidableEq, Repr

/-- A bulk arm: in its check, or armed (R190). -/
structure Arm where
  a : Word
  mode : MtxMode
  count : Nat
  /-- The check runs, for the command that came over UDP or by mailbox. -/
  checking : Bool
  udp : Bool
  deriving DecidableEq, Repr

/-- Meridian. -/
structure Mtx where
  /-- GAIN and INV of every crosspoint; CHG follows from `changes` (R176). -/
  gains : Store Word
  /-- Changes in the order of their acceptance. -/
  changes : List Change
  arms : Store (Option Arm)
  /-- The staging windows, byte by byte: partition p at 0x8000·p (R189). -/
  staging : Store Byte
  quotas : List Nat
  /-- ZC_TIMEOUT by column, ms; an unlisted column has 10 (R186). -/
  zcTimeout : Store Nat
  /-- Partial sums by column (R180). -/
  partials : Store Int
  /-- Inputs that slices read in the last launched wave, and in the one before (R186). -/
  cur : Store (Option Word)
  prev : Store (Option Word)
  lastWave : Word
  activeXp : Nat
  activeBlocks : Nat
  satCnt : Word
  lastSat : Nat
  satAt : Option Nat
  zcCnt : Word
  replaceCnt : Word
  stageDrop : Word
  eccCorr : Word
  eccDbe : Word
  lastBulk : Word
  /-- Gain words with a double-bit error that no read has met, and crosspoints held at 0 after one (R195). -/
  bad : List Nat
  held : List Nat
  deriving DecidableEq, Repr

/-- Meridian at reset (R177, R186, R187, R196, R197). -/
def Mtx.init : Mtx :=
  { gains := [], changes := [], arms := [], staging := [], quotas := [2048, 2048, 2048, 2048], zcTimeout := []
    partials := [], cur := [], prev := [], lastWave := 0, activeXp := 0, activeBlocks := 0, satCnt := 0, lastSat := 0
    satAt := none, zcCnt := 0, replaceCnt := 0, stageDrop := 0, eccCorr := 0, eccDbe := 0, lastBulk := 0, bad := []
    held := [] }

end Sys2Proof.Machine
end

