-- ==== Sys2Proof/Syntax/Network.lean ====
section
/-! DEFINITION. Operand types of the network rows (R284 to R314): command payloads in field order, and timestamps. -/

namespace Sys2Proof

/-- A timestamp of R321: seconds, and quarter nanoseconds within the second. -/
structure Stamp where
  sec : BitVec 48
  quarters : Word
  deriving DecidableEq, Repr

/-- Payload of NET_SET_PORT (R313). -/
structure NetSetPort where
  port : Byte
  enable : Byte
  speed : Byte
  fec : Byte
  maxFrame : Half
  preempt : Byte
  addFrag : Byte
  pauseMode : Byte
  domain : Byte
  pvid : Half
  holdDown : Half
  watchdog : Half
  release : Half
  deriving DecidableEq, Repr

/-- Payload of NET_SET_SWITCH (R313). -/
structure NetSetSwitch where
  express : Word
  share : Word
  high : Byte
  low : Byte
  causes : Byte
  unknown : Byte
  ageing : Half
  deriving DecidableEq, Repr

/-- Payload of NET_FDB_WRITE (R313). -/
structure NetFdbWrite where
  addr : BitVec 48
  vlan : Half
  domain : Byte
  mask : Byte
  flags : Byte
  reserved : Byte
  deriving DecidableEq, Repr

/-- Payload of NET_SET_FILTER (R313). -/
structure NetSetFilter where
  index : Byte
  enable : Byte
  ring : Byte
  kind : Byte
  etherType : Half
  proto : Byte
  reserved : Byte
  dstPort : Half
  vlan : Half
  deriving DecidableEq, Repr

/-- Payload of NET_SET_RING (R313). -/
structure NetSetRing where
  dir : Byte
  ring : Byte
  enable : Byte
  size : Byte
  base : Long
  queue : Half
  cls : Byte
  domain : Byte
  deriving DecidableEq, Repr

/-- How the verify procedure of 802.3br ends (R296). -/
inductive VerifyEnd where
  | passed
  | failed
  deriving DecidableEq, Repr

end Sys2Proof
end

