-- ==== Sys2Proof/Machine/NetState.lean ====
section
/-! DEFINITION. The state of the switch, its external ports and the host rings (R284 to R312). -/

namespace Sys2Proof.Machine

/-- The class of a frame (R289). -/
inductive FrameClass where
  | ptp
  | media
  | heartbeat
  | control
  | bulk
  deriving DecidableEq, Repr

/-- A frame in an egress queue, without its FCS. Ingress ports: 0 to 3 external, 4 host, 5 media (R288). -/
structure QFrame where
  bytes : List Byte
  ingress : Nat
  cls : FrameClass
  /-- The ingress timestamp of a frame from an external port, in quarter ns with the port's correction (R321). -/
  stamp : Option Int
  /-- The last descriptor of a frame that asked for an egress timestamp (R322). -/
  tsDesc : Option Nat
  deriving DecidableEq, Repr

/-- A frame that waits for a receive ring (R304, R306). -/
structure RxFrame where
  bytes : List Byte
  stamp : Option Int
  port : Nat
  /-- The matching filter; 255 for ring 0 or the default ring. -/
  filter : Nat
  deriving DecidableEq, Repr

/-- An external port: configuration, status (R311), queues (R292) and counters (R312). -/
structure NetPort where
  enabled : Bool
  speed : Nat
  fec : Nat
  maxFrame : Nat
  preempt : Bool
  addFrag : Nat
  pauseMode : Nat
  domain : Nat
  pvid : Nat
  holdDown : Nat
  watchdog : Nat
  release : Nat
  test : Nat
  linkUp : Bool
  localFault : Bool
  remoteFault : Bool
  preemptActive : Bool
  paused : Bool
  /-- The pause time last loaded, in quanta (R297). -/
  quanta : Half
  pauseBlocked : Bool
  pauseTxOn : Bool
  express : List QFrame
  control : List QFrame
  bulk : List QFrame
  /-- The last frame sent, without its FCS (the model's own record of what leaves the port). -/
  sent : List Byte
  rxFrames : Word
  rxBytes : Long
  txFrames : Word
  txBytes : Long
  errFcs : Byte
  errRunt : Byte
  errOver : Byte
  errVlan : Byte
  rxPause : Word
  txPause : Word
  wdogCnt : Word
  expDrop : Word
  preDrop : Word
  fragCnt : Word
  swCrc : Word
  linkDownCnt : Word
  /-- Lookout time of the express drop that raised NET_EXP_DROP last (R314). -/
  expRaised : Option Nat
  /-- Ingress, egress and asymmetry corrections in ps (R321). -/
  tsIn : Int
  tsOut : Int
  asym : Int
  tcCnt : Word
  tcMax : Word
  deriving DecidableEq, Repr

/-- Port `n` at reset (R285, R286, R288, R296 to R298, R311). -/
def NetPort.init (n : Nat) : NetPort :=
  { enabled := false, speed := 0, fec := 0, maxFrame := 1522, preempt := false, addFrag := 0, pauseMode := 1
    domain := n % 2, pvid := 0, holdDown := 100, watchdog := 200, release := 10, test := 0, linkUp := false
    localFault := false, remoteFault := false, preemptActive := false, paused := false, quanta := 0
    pauseBlocked := false, pauseTxOn := false, express := [], control := [], bulk := [], sent := [], rxFrames := 0
    rxBytes := 0, txFrames := 0, txBytes := 0, errFcs := 0, errRunt := 0, errOver := 0, errVlan := 0, rxPause := 0
    txPause := 0, wdogCnt := 0, expDrop := 0, preDrop := 0, fragCnt := 0, swCrc := 0, linkDownCnt := 0
    expRaised := none, tsIn := 0, tsOut := 0, asym := 0, tcCnt := 0, tcMax := 0 }

/-- A forwarding table entry (R291): its ports among the six, and whether it is static. -/
structure FdbEntry where
  mask : BitVec 6
  isStatic : Bool
  deriving DecidableEq, Repr

/-- A VLAN table entry (R291): membership and egress-tag masks over the six ports. -/
structure VlanEntry where
  members : BitVec 6
  tagged : BitVec 6
  deriving DecidableEq, Repr

/-- A host receive filter (R302). -/
structure Filter where
  enable : Bool
  ring : Nat
  kind : Nat
  etherType : Half
  proto : Byte
  dstPort : Half
  vlan : Half
  deriving DecidableEq, Repr

def Filter.init : Filter :=
  { enable := false, ring := 0, kind := 0, etherType := 0, proto := 0, dstPort := 0, vlan := 0 }

/-- A host ring (R301 to R310). -/
structure Ring where
  base : BitVec 40
  size : Nat
  enable : Bool
  irqEn : Bool
  bulk : Bool
  domain : Nat
  regionStop : Bool
  head : Nat
  frames : Word
  discard : Word
  qdrop : Word
  queueKiB : Nat
  queue : List RxFrame
  deriving DecidableEq, Repr

/-- A ring at reset (R306, R310). -/
def Ring.init : Ring :=
  { base := 0, size := 0, enable := false, irqEn := false, bulk := false, domain := 0, regionStop := false, head := 0
    frames := 0, discard := 0, qdrop := 0, queueKiB := 64, queue := [] }

/-- The switch, its ports and the host rings. -/
structure Net where
  ports : List NetPort
  expressLimit : Nat
  share : Nat
  high : Nat
  low : Nat
  causes : BitVec 3
  dropUnknown : Bool
  ageing : Nat
  fdb : Store (Option FdbEntry)
  learnDrop : Word
  vlans : Store (Option VlanEntry)
  filters : Store Filter
  rx : List Ring
  tx : List Ring
  /-- The ring of frames that match no filter (R302). -/
  defaultRing : Nat
  deriving DecidableEq, Repr

/-- The network at reset (R291, R292, R299, R300, R302, R309 to R312). -/
def Net.init : Net :=
  { ports := [NetPort.init 0, NetPort.init 1, NetPort.init 2, NetPort.init 3]
    expressLimit := 176000, share := 131072, high := 75, low := 25, causes := 7, dropUnknown := false, ageing := 300
    fdb := [], learnDrop := 0, vlans := [], filters := [], rx := List.replicate 8 Ring.init
    tx := List.replicate 8 Ring.init, defaultRing := 1 }

end Sys2Proof.Machine
end

