-- ==== Sys2Proof/Syntax/Tdm.lean ====
section
/-! DEFINITION. Operands of the TDM commands (R258) and events (R240 to R254). -/

namespace Sys2Proof

/-- Payload of TDM_SET_GROUP. -/
structure TdmSetGroup where
  group : Byte
  foreign : Byte
  rate : Byte
  deriving DecidableEq, Repr

/-- Payload of TDM_SET_PORT. -/
structure TdmSetPort where
  port : Byte
  role : Byte
  mode : Byte
  n : Byte
  l : Half
  w : Byte
  offset : Byte
  fsWidth : Byte
  flags : Byte
  timeout : Half
  deriving DecidableEq, Repr

/-- Payload of TDM_SET_RING. -/
structure TdmSetRing where
  port : Byte
  ringSlots : Byte
  depth : Half
  base : Word
  dmaReqEn : Byte
  reqFrames : Half
  deriving DecidableEq, Repr

/-- Payload of TDM_STAGE_MASK. -/
structure TdmStageMask where
  port : Byte
  rx : Word
  tx : Word
  deriving DecidableEq, Repr

/-- One received frame as the port sees it: its wave index k (R238, R239), the bit clocks between FSYNC leading edges,
its phase (nanoseconds in a synchronous group, bit clocks from the timing port's edge in a foreign one, signed), the
slots whose parity check fails (R245) and the slot words by slot number. -/
structure TdmFrame where
  k : Word
  bitClocks : Half
  phase : Word
  parity : Word
  words : List Word
  deriving DecidableEq, Repr

/-- A direction of a port's slots. -/
inductive TdmDir where
  | rx
  | tx
  deriving DecidableEq, Repr

end Sys2Proof
end

