-- ==== Sys2Proof/Machine/TdmState.lean ====
section
/-! DEFINITION. The state of the TDM ports, their slot gates, and the groups with their converters (R231 to R258). -/

namespace Sys2Proof.Machine

/-- Port state (R256). -/
inductive PortState where
  | stopped
  | starting
  | running
  | stopping
  deriving DecidableEq, Repr

/-- A slot gate (R248). A fade carries the index of its next sample, 32 when all 32 have gone. -/
inductive Gate where
  | closed
  | opening
  | fadeIn (i : Nat)
  | isOpen
  | closing
  | fadeOut (i : Nat)
  deriving DecidableEq, Repr

/-- When a committed mask pair takes effect (R246, R247): after its silencing phase, at the next start, whose first frame
counts the epoch, or at the first frame after re-lock. -/
inductive MaskWhen where
  | silencing
  | atStart
  | relock
  deriving DecidableEq, Repr

/-- One slot of one direction: its gate, the last sample before its gate (none where there has been no frame), and the word
it last carried. -/
structure Slot where
  gate : Gate
  prev : Option Word
  last : Word
  deriving DecidableEq, Repr

def Slot.init : Slot := { gate := .closed, prev := none, last := 0 }

/-- One port. -/
structure Port where
  state : PortState
  slave : Bool
  locked : Bool
  epoch : Byte
  rxMask : Word
  txMask : Word
  stageRx : Word
  stageTx : Word
  commit : Option (Word × Word × MaskWhen)
  frameErr : Byte
  phaseErr : Byte
  parErr : Byte
  syncLost : Byte
  mode : Nat
  n : Nat
  l : Nat
  w : Nat
  offset : Nat
  fsWidth : Nat
  bclkInv : Bool
  fsInv : Bool
  tri : Bool
  gateMs : Nat
  ringSet : Bool
  ringBase : Nat
  ringSlots : Nat
  depth : Nat
  dmaReqEn : Bool
  reqFrames : Nat
  /-- Entries written since the last DMA request (R244). -/
  reqCount : Nat
  goodRun : Nat
  errRun : Nat
  /-- Entries written in SEARCH since the loss of lock, 32 when the fade is over (R240). -/
  searchCount : Nat
  /-- The next transmit frame repeats the one before (R240). -/
  txHold : Bool
  rx : Store Slot
  tx : Store Slot
  deriving DecidableEq, Repr

/-- A port at reset: the defaults of R233 and R248, the register values of R256 and R257. -/
def Port.init : Port :=
  { state := .stopped, slave := false, locked := false, epoch := 0, rxMask := 0, txMask := 0, stageRx := 0
    stageTx := 0, commit := none, frameErr := 0, phaseErr := 0, parErr := 0, syncLost := 0, mode := 0, n := 8
    l := 256, w := 32, offset := 1, fsWidth := 0, bclkInv := false, fsInv := false, tri := false, gateMs := 8
    ringSet := false, ringBase := 0, ringSlots := 1, depth := 2, dmaReqEn := false, reqFrames := 1, reqCount := 0
    goodRun := 0, errRun := 0, searchCount := 32, txHold := false, rx := [], tx := [] }

/-- One group and its converter. -/
structure Group where
  foreign : Bool
  frate : Nat
  asrcLock : Bool
  /-- Measured rate against nominal, signed ppb. -/
  ofs : Word
  unlockCnt : Word
  zcCnt : Word
  /-- Samples of the unlock fade still to come (R254). -/
  fadeLeft : Nat
  deriving DecidableEq, Repr

/-- A group at reset: synchronous (R232). -/
def Group.init : Group :=
  { foreign := false, frate := 0, asrcLock := false, ofs := 0, unlockCnt := 0, zcCnt := 0, fadeLeft := 0 }

/-- The TDM ports and groups. -/
structure Tdm where
  ports : Store Port
  groups : Store Group
  /-- Every transmit slot has been faded to 0 by a Lookout mute or a teardown and carries 0 (R457, R428, R465). -/
  muted : Bool
  deriving DecidableEq, Repr

def Tdm.init : Tdm := { ports := [], groups := [], muted := false }

end Sys2Proof.Machine
end

