-- ==== Sys2Proof/Syntax/Pair.lean ====
section
/-! DEFINITION. Operand types of the redundancy rows (R370 to R402): command payloads in field order, and what the Noril
link and the heartbeats bring. -/

namespace Sys2Proof

/-- Payload of RED_SET_PAIR (R402). -/
structure RedSetPair where
  pair : Half
  node : Byte
  preferred : Byte
  ports : Byte
  reserved : Byte
  etherType : Half
  claim : Half
  addr : BitVec 48
  vlan : Half
  deriving DecidableEq, Repr

/-- One entry of the shared-channel table (R384, R402). -/
structure SharedEntry where
  node : Byte
  port : Byte
  slot : Byte
  reserved : Byte
  deriving DecidableEq, Repr

/-- The path on which a heartbeat arrives or falls silent (R387). -/
inductive HbPath where
  | noril
  | network
  deriving DecidableEq, Repr

/-- A heartbeat as received (R385): the payload of its table, and the station address of the frame that brought it. -/
structure Heartbeat where
  version : Byte
  node : Byte
  pair : Half
  state : Byte
  hflags : Byte
  epoch : Word
  hseq : Word
  mcnt : Word
  generation : Word
  matchRun : Word
  tag : BitVec 128
  source : BitVec 48
  deriving DecidableEq, Repr

/-- A WAVE frame as received (R383): its index, the sender's state, its shared samples in ascending shared-channel index,
and the payload CRCs of the packets that it closes, by transmit context. `latency` is the arrival after the edge in ns. -/
structure WaveFrame where
  p : Word
  state : Byte
  shared : List Word
  closing : List (Byte × Word)
  latency : Word
  deriving DecidableEq, Repr

/-- A forwarded command (R388, R389): its partition, opcode, resolved payload, and the data from memory that it takes. -/
structure MirrorCmd where
  part : Fin 4
  opcode : Half
  payload : List Byte
  data : List Byte
  deriving DecidableEq, Repr

/-- A mirror record (R390): the partition, its offset in the box and its bytes. -/
structure MirrorRec where
  part : Fin 4
  offset : Word
  bytes : List Byte
  deriving DecidableEq, Repr

/-- A PENDING bank in a snapshot (R391): the images, m and N. -/
structure SnapPending where
  images : List (List Byte)
  m : Word
  n : Half
  part : Fin 4
  deriving DecidableEq, Repr

/-- Where a waiting change of a snapshot stands (R186, R391). -/
inductive SnapPhase where
  | ahead
  | watching
  | ramping (start : Word) (n : Half) (old : Int)
  deriving DecidableEq, Repr

/-- A waiting change of the gain store (R185 to R188, R391): crosspoint 2048·column + input, partition, target word, armed
wave, mode (0 STEP, 1 RAMP over n, 2 ZC with its timeout in waves), and whether it belongs to a bulk update. -/
structure SnapChange where
  key : Nat
  part : Fin 4
  target : Word
  a : Word
  mode : Fin 3
  n : Half
  timeout : Nat
  bulk : Bool
  phase : SnapPhase
  deriving DecidableEq, Repr

/-- A snapshot (R391): the commands that make up the effective configuration, each partition's last committed image, the
generation, a pending bank, the gain store's words by crosspoint and its waiting
changes, and the parameter words by engine and byte address. -/
structure Snapshot where
  config : List MirrorCmd
  images : List (List Byte)
  generation : Word
  pendingBank : Option SnapPending
  gains : List (Nat × Word)
  changes : List SnapChange
  params : List (Fin 24 × Nat × Word)
  deriving DecidableEq, Repr

end Sys2Proof
end

