-- ==== Sys2Proof/Machine/PairState.lean ====
section
/-! DEFINITION. The state of the node pair and the Noril link (R375 to R401). -/

namespace Sys2Proof.Machine

/-- The node's state (R377). -/
inductive NodeSt where
  | unpaired
  | claiming
  | observer
  | standby
  | active
  | failSilent
  deriving DecidableEq, Repr

/-- The join of an observer (R391). -/
inductive Join where
  | idle
  /-- JOIN sent; the snapshot is awaited. -/
  | asked
  /-- The snapshot is here; adoption at the wave. -/
  | adopting (wave : Word) (snap : Snapshot)
  | complete
  deriving DecidableEq, Repr

/-- A mirror-class frame not yet acknowledged (R381, R382). -/
structure NrlFrame where
  kind : Byte
  flags : Byte
  seq : Word
  payload : List Byte
  deriving DecidableEq, Repr

/-- A shared channel at the receiving node (R384). -/
structure SharedCh where
  last : Word
  missing : Nat
  gate : Gate
  deriving DecidableEq, Repr

def SharedCh.init : SharedCh := { last := 0, missing := 0, gate := .isOpen }

/-- The Noril link (R380 to R383). -/
structure Nrl where
  up : Bool
  /-- A snapshot is being sent or received (R391, R401). -/
  snapshot : Bool
  crcErr : Word
  waveMiss : Word
  retx : Word
  hbBad : Word
  waveLat : Word
  joinRestart : Word
  /-- Sequence number of the next mirror-class frame; frames sent and unacknowledged, oldest first. -/
  txSeq : Word
  unacked : List NrlFrame
  /-- Mirror-class frames not yet sent, and the last WAVE frame sent (the model's own record). -/
  waiting : List NrlFrame
  sentWave : Option WaveFrame
  /-- The next sequence number expected, and frames received since the last ACK. -/
  rxSeq : Word
  sinceAck : Nat
  deriving DecidableEq, Repr

def Nrl.init : Nrl :=
  { up := false, snapshot := false, crcErr := 0, waveMiss := 0, retx := 0, hbBad := 0, waveLat := 0, joinRestart := 0
    txSeq := 0, unacked := [], waiting := [], sentWave := none, rxSeq := 0, sinceAck := 0 }

/-- The pair. -/
structure Red where
  pairId : Half
  nodeId : Nat
  preferred : Bool
  hbA : Nat
  hbB : Nat
  etherType : Half
  claimMs : Nat
  hbAddr : BitVec 48
  hbVlan : Half
  state : NodeSt
  epoch : Word
  epochCurrent : Bool
  /-- The claim window has expired and the tie was lost (R378). -/
  lostTie : Bool
  /-- The highest epoch heard, and whether a peer has been heard in this state (R378). -/
  heardEpoch : Word
  heard : Bool
  peerState : Nat
  peerEpoch : Word
  peerPreferred : Bool
  peerGeneration : Word
  peerStation : Option (BitVec 48)
  lastHseq : Option Word
  nrlOk : Bool
  netOk : Bool
  twoActive : Bool
  /-- RED_NO_TAKEOVER's condition (R378, R458). -/
  noTakeover : Bool
  leaveCause : Nat
  matchRun : Word
  mismatch : Word
  withheld : Word
  unverified : Word
  failover : Word
  lastFailover : Word
  stateDiff : Word
  hseq : Word
  /-- Since the first missing WAVE frame: none while none is missing, else whether a valid network heartbeat has come
  (R395). -/
  missing : Option Bool
  /-- WAVE frames since the last MCNT skew (R394). -/
  skewFree : Nat
  /-- The last WAVE index received. -/
  waveSeen : Option Word
  /-- The active's CRCs by closing wave and context, and this node's own (R393). -/
  peerCrcs : List (Word × List (Nat × Word))
  ownCrcs : List (Word × List (Nat × Word))
  shared : Store (Option SharedEntry)
  sharedCh : Store SharedCh
  /-- The peer's shared samples by WAVE index. -/
  sharedIn : List (Word × List Word)
  handover : Option Word
  join : Join
  /-- At the active: the peer's join is complete (R388), and the adoption wave it was given. -/
  peerJoined : Bool
  adoption : Option Word
  recorded : List MirrorCmd
  /-- Mirror period number and the wave from which boundaries are counted (R390). -/
  mirrorNo : Word
  mirrorFrom : Word
  nrl : Nrl
  deriving DecidableEq, Repr

/-- The pair at reset: UNPAIRED (R375, R378, R379, R400, R401). -/
def Red.init : Red :=
  { pairId := 0, nodeId := 0, preferred := false, hbA := 0, hbB := 1, etherType := 0x88B5, claimMs := 500, hbAddr := 0
    hbVlan := 0, state := .unpaired, epoch := 0, epochCurrent := false, lostTie := false, heardEpoch := 0
    heard := false, peerState := 0, peerEpoch := 0, peerPreferred := false, peerGeneration := 0, peerStation := none
    lastHseq := none, nrlOk := false, netOk := false, twoActive := false, noTakeover := false, leaveCause := 0
    matchRun := 0, mismatch := 0, withheld := 0, unverified := 0, failover := 0, lastFailover := 0, stateDiff := 0
    hseq := 0, missing := none, skewFree := 0, waveSeen := none, peerCrcs := [], ownCrcs := [], shared := []
    sharedCh := [], sharedIn := [], handover := none, join := .idle, peerJoined := false, adoption := none
    recorded := [], mirrorNo := 0, mirrorFrom := 0, nrl := Nrl.init }

end Sys2Proof.Machine
end

