-- ==== Sys2Proof/Syntax/Clock.lean ====
section
/-! DEFINITION. Operands of the clock commands and events (R32 to R58). Payload fields keep the widths of R56, so a
value out of range can be sent and is refused by the command. -/

namespace Sys2Proof

/-- Payload of CLK_REF_CONFIG (R56). -/
structure ClkRefConfig where
  index : Byte
  enable : Byte
  rank : Byte
  form : Byte
  nominal : Byte
  qualTime : Half
  startQual : Half
  bandwidth : Word
  maxClass : Byte
  offsetLimit : Word
  deriving DecidableEq, Repr

/-- Payload of CLK_SELECT (R56). -/
structure ClkSelect where
  mode : Byte
  manual : Byte
  revertive : Byte
  deriving DecidableEq, Repr

/-- Payload of CLK_SET_TIMERS (R56). -/
structure ClkSetTimers where
  wtr : Half
  slewLimit : Half
  slewWindow : Word
  disagree : Word
  capture : Word
  acquire : Half
  deriving DecidableEq, Repr

/-- Payload of CLK_SET_HOLDOVER (R56). -/
structure ClkSetHoldover where
  method : Byte
  oscClass : Byte
  specWindow : Word
  w : Byte
  wc : Byte
  g : Byte
  deriving DecidableEq, Repr

/-- Payload of CLK_REALIGN (R46, R56): the rate of a SLEW, or m of a STEP. -/
structure ClkRealign where
  method : Byte
  arg : Word
  deriving DecidableEq, Repr

/-- What Polestar measures of one reference (R32, R43, R44): its frequency against XO_IN in ppt, and the time from the
next sample edge to the reference's edge position in quarter nanoseconds, both signed. -/
structure RefMeas where
  fofs : Word
  phase : Long
  deriving DecidableEq, Repr

end Sys2Proof
end

