-- ==== Sys2Proof/Machine/PolestarState.lean ====
section
/-! DEFINITION. The state of Polestar (R27 to R59): its registers, its six references, its selection, slew, holdover and
trim state, and the accepted commands that wait for the next sample edge (R56). -/

namespace Sys2Proof.Machine

/-- Polestar's state code (R53). -/
inductive PstState where
  | acquire
  | freerun
  | locked
  | holdover
  deriving DecidableEq, Repr

/-- Selection mode (R39). -/
inductive SelMode where
  | auto
  | manual
  | none
  deriving DecidableEq, Repr

/-- The stored configuration of one reference (R34 to R37, R57, R58). -/
structure RefCfg where
  enable : Bool
  rank : Nat
  form : Byte
  nominal : Byte
  qualTime : Half
  startQual : Half
  bandwidth : Word
  maxClass : Byte
  offsetLimit : Word
  deriving DecidableEq, Repr

/-- One reference: configuration and condition. Phases are in `slewUnit`s (1/28,224,000 ns). -/
structure RefSt where
  cfg : RefCfg
  present : Bool
  valid : Bool
  qualified : Bool
  /-- Lookout time at which the present validity began (the qualification timer's start, R37). -/
  validSince : Nat
  /-- Lookout time at which qualification began. -/
  qualSince : Nat
  /-- The wait-to-restore timer runs (R41). -/
  wtrRun : Bool
  wtrSince : Nat
  /-- The wait-to-restore has expired and the reference waits for the slew to end (R42). -/
  wtrDone : Bool
  fofs : Word
  phase : Int
  deriving DecidableEq, Repr

/-- A realignment in progress (R46, R47). -/
inductive Realign where
  | idle
  /-- SLEW at its own rate, in 0.01 ns/ms. -/
  | slew (rate : Nat)
  /-- STEP waiting for its step edge at MCNT m, with whole-sample part D. -/
  | step (m : Word) (d : Int)
  /-- The sub-sample slew after the step edge. -/
  | sub
  deriving DecidableEq, Repr

/-- An accepted clock command whose effect waits for the next sample edge (R56, R58). -/
inductive ClkApply where
  | rate (code : Nat)
  | refConfig (index : Nat) (cfg : RefCfg)
  | select (mode : SelMode) (manual : Nat) (revertive : Bool)
  | timers (p : ClkSetTimers)
  | holdover (p : ClkSetHoldover)
  | trim (ppt : Int)
  | phaseStep (ns : Int)
  | realign (r : Realign)
  deriving DecidableEq, Repr

/-- Polestar. -/
structure Pst where
  state : PstState
  /-- Selected reference; 7 when none. -/
  selref : Nat
  mode : SelMode
  manref : Nat
  revertive : Bool
  rate : Nat
  phaseHeld : Bool
  outOfSpec : Bool
  pullLimit : Bool
  mcnt : Word
  /-- Sample edges are about to begin: the next edge shows the MCNT already set (R29, R40). -/
  firstEdge : Bool
  ptpSec : BitVec 48
  /-- PTP nanoseconds in `slewUnit`s. -/
  ptpFrac : Nat
  /-- Residual being slewed, in `slewUnit`s (R44). -/
  resid : Int
  /-- The part of that residual that phase steps have added and that is not yet slewed away (R48, R325). -/
  stepLeft : Int
  /-- Residual held under PHASE_HELD, in `slewUnit`s (R45). -/
  held : Int
  /-- Accumulated phase offset in ns (R48). -/
  phaseOfs : Int
  /-- Output frequency offset, ppt. -/
  fofs : Int
  /-- The DPLL control word of the selected reference, ppt. -/
  loopWord : Int
  trim : Int
  hoElapsedBase : Nat
  /-- Lookout time of the entry to the present holdover. -/
  hoSince : Nat
  /-- The present holdover runs under the native method (R51, R52). -/
  hoNative : Bool
  /-- The reference that the present or last holdover came after, 7 before the first (R320). -/
  hoRef : Nat
  /-- Frozen holdover frequency, ppt. -/
  hoFreq : Int
  /-- Native holdover estimate (PST_HOFREQ); none until a second has been recorded. -/
  hoEstimate : Option Int
  switchCnt : Word
  holdoverCnt : Word
  /-- The six references, index 0 to 5 (R34). -/
  refs : List RefSt
  wtr : Half
  slewLimit : Half
  slewWindow : Word
  disagreeTh : Word
  capture : Word
  acquireWin : Half
  hoMethod : Bool
  oscClass : Nat
  specWindow : Word
  hoW : Byte
  hoWc : Byte
  hoG : Byte
  /-- Recorded control words: Lookout time and mean ppt, newest first, at most 256 (R50). -/
  hist : List (Nat × Int)
  /-- The second in progress saw a slew or an invalid reference, so it is not recorded (R50). -/
  secDirty : Bool
  /-- Equal-rank pairs that disagree: key 6·low + high, value the windows below the threshold so far (R43). -/
  pairs : Store (Option Nat)
  realign : Realign
  waiting : List ClkApply
  deriving DecidableEq, Repr

/-- The default configuration of reference `n` (R32, R36, R37; rank 1 to 6 has no stated reset value: log 20). -/
def RefCfg.init (n : Nat) : RefCfg :=
  { enable := false, rank := 6, form := 0, nominal := 0
    qualTime := if n = 0 ∨ n = 1 ∨ n = 5 then 100 else 20
    startQual := 100
    bandwidth := if n = 0 ∨ n = 1 then 100 else if n = 5 then 10 else 10000
    maxClass := 7, offsetLimit := 1000 }

/-- Reference `n` at reset. -/
def RefSt.init (n : Nat) : RefSt :=
  { cfg := RefCfg.init n, present := false, valid := false, qualified := false, validSince := 0, qualSince := 0
    wtrRun := false, wtrSince := 0, wtrDone := false, fofs := 0, phase := 0 }

/-- Polestar at reset: the register values of R53 to R55 and the defaults of R36, R40, R41, R43 to R45, R51, R52. -/
def Pst.init : Pst :=
  { state := .acquire, selref := 7, mode := .auto, manref := 7, revertive := true, rate := 1
    phaseHeld := false, outOfSpec := false, pullLimit := false, mcnt := 0, firstEdge := false
    ptpSec := 0, ptpFrac := 0, resid := 0, stepLeft := 0, held := 0, phaseOfs := 0, fofs := 0, loopWord := 0, trim := 0
    hoElapsedBase := 0, hoSince := 0, hoNative := true, hoRef := 7, hoFreq := 0, hoEstimate := none, switchCnt := 0, holdoverCnt := 0
    refs := [RefSt.init 0, RefSt.init 1, RefSt.init 2, RefSt.init 3, RefSt.init 4, RefSt.init 5]
    wtr := 60, slewLimit := 100, slewWindow := 100000, disagreeTh := 2000000, capture := 100000000
    acquireWin := 1000, hoMethod := false, oscClass := 0, specWindow := 30, hoW := 16, hoWc := 60, hoG := 30
    hist := [], secDirty := false, pairs := [], realign := .idle, waiting := [] }

end Sys2Proof.Machine
end

