-- ==== Sys2Proof/Syntax/Power.lean ====
section
/-! DEFINITION. Operands of the power-stage commands (R283). -/

namespace Sys2Proof

/-- Payload of PWS_SET_STAGE. -/
structure PwsSetStage where
  f0 : Half
  divider : Half
  uv : Half
  ov : Half
  deriving DecidableEq, Repr

/-- Payload of PWS_SET_CHANNEL. -/
structure PwsSetChannel where
  channel : Byte
  retries : Byte
  d : Half
  limit : Half
  dcTh : Half
  dcTime : Half
  retryDelay : Half
  deriving DecidableEq, Repr

end Sys2Proof
end

