-- ==== Sys2Proof/Machine/PowerState.lean ====
section
/-! DEFINITION. The state of the power stage (R260 to R283). -/

namespace Sys2Proof.Machine

/-- Channel state (R271, R281). -/
inductive PwsState where
  | off
  | starting
  | playing
  | stopping
  | retryWait
  | busWait
  | latched
  deriving DecidableEq, Repr

/-- The stages of the start sequence (R272). -/
inductive StartStage where
  | check
  | hold
  | unmute
  deriving DecidableEq, Repr

/-- Where a stop sequence ends (R271, R277, R278). -/
inductive StopTo where
  | off
  | busWait
  | latchedDc
  deriving DecidableEq, Repr

/-- One channel. -/
structure PwsCh where
  state : PwsState
  stage : StartStage
  stopTo : StopTo
  /-- The channel was STOPPING when the bus left its range (R271). -/
  wasStopping : Bool
  /-- Mute gain in steps of 1/32 (R269). -/
  gain : Nat
  /-- The gates switch: released and not yet stopped. -/
  released : Bool
  /-- The current limit holds both gates low for the half-cycle (R274). -/
  halfOff : Bool
  staggerLock : Bool
  limiting : Bool
  /-- Lookout time of the last clamped sample (R265). -/
  clipAt : Option Nat
  latchCause : Nat
  retries : Nat
  /-- The retry delay has expired while the bus was out of range (R278). -/
  retryDue : Bool
  hostMute : Bool
  /-- The last start failed its pre-release check (R271). -/
  startFailed : Bool
  dc : Word
  dcOver : Nat
  limitShutCnt : Word
  clipCnt : Word
  /-- The reconstruction register (R263). -/
  sample : Word
  d : Nat
  limit : Nat
  dcTh : Nat
  dcTime : Nat
  retryDelay : Nat
  maxRetries : Nat
  deriving DecidableEq, Repr

/-- A channel at reset (R281, R282; D has no stated reset value: log 22). -/
def PwsCh.init : PwsCh :=
  { state := .off, stage := .check, stopTo := .off, wasStopping := false, gain := 0, released := false
    halfOff := false, staggerLock := false, limiting := false, clipAt := none, latchCause := 0, retries := 0
    retryDue := false, hostMute := true, startFailed := false, dc := 0, dcOver := 0, limitShutCnt := 0
    clipCnt := 0, sample := 0, d := 1000, limit := 600, dcTh := 200, dcTime := 200, retryDelay := 1000
    maxRetries := 3 }

/-- The power stage. -/
structure Pws where
  busUv : Bool
  busOv : Bool
  staggerRef : Bool
  /-- Measured bus voltage, 10 mV units. -/
  vbus : Half
  idleKhz : Nat
  divider : Nat
  /-- Thresholds in 0.1 V. -/
  uv : Nat
  ov : Nat
  ch : Store PwsCh
  deriving DecidableEq, Repr

/-- The power stage at reset (R280, R282, R278; the bus divider has no stated reset value: log 22). -/
def Pws.init : Pws :=
  { busUv := false, busOv := false, staggerRef := false, vbus := 0, idleKhz := 450, divider := 100, uv := 240
    ov := 1550, ch := [] }

end Sys2Proof.Machine
end

