-- ==== Sys2Proof/Syntax/Ptp.lean ====
section
/-! DEFINITION. Operand types of the time rows (R315 to R335). -/

namespace Sys2Proof

/-- Payload of PTP_SET_INSTANCE (R335). -/
structure PtpSetInstance where
  inst : Byte
  enable : Byte
  profile : Byte
  domain : Byte
  logSync : Byte
  logAnnounce : Byte
  logDelay : Byte
  timeout : Byte
  unicast : Byte
  master : Byte
  reserved : Half
  jump : Word
  outlier : Word
  deriving DecidableEq, Repr

/-- Payload of PTP_SET_PORT_TS (R335). -/
structure PtpSetPortTs where
  port : Byte
  reserved : BitVec 24
  ingress : Word
  egress : Word
  asym : Word
  deriving DecidableEq, Repr

/-- Payload of PTP_SET_MASTER (R335): the six clockClass values in the order of R320. -/
structure PtpSetMaster where
  inst : Byte
  priority1 : Byte
  priority2 : Byte
  accuracy : Byte
  timeSource : Byte
  variance : Half
  class1 : Byte
  class2 : Byte
  class3 : Byte
  class4 : Byte
  class5 : Byte
  class6 : Byte
  utcOfs : Half
  flags : Byte
  deriving DecidableEq, Repr

/-- Payload of PTP_SET_ALARM (R335). -/
structure PtpSetAlarm where
  alarm : Byte
  unit : Byte
  reserved : Half
  target : Word
  period : Word
  deriving DecidableEq, Repr

/-- What an Announce message carries of its sender's grandmaster (IEEE 1588-2019, R318), and the addresses that the frame
came from (R316). -/
structure Announce where
  mac : BitVec 48
  ip : Word
  domain : Byte
  source : BitVec 80
  gmId : Long
  priority1 : Byte
  priority2 : Byte
  clockClass : Byte
  accuracy : Byte
  variance : Half
  steps : Half
  utcOfs : Half
  utcValid : Bool
  leap61 : Bool
  leap59 : Bool
  deriving DecidableEq, Repr

/-- A Sync or a Follow_Up (R317): the time it carries and its correctionField in quarter nanoseconds; a Sync also has its
ingress timestamp. -/
structure SyncMsg where
  domain : Byte
  source : BitVec 80
  seq : Half
  twoStep : Bool
  origin : Stamp
  correction : Long
  ingress : Stamp
  deriving DecidableEq, Repr

/-- A Delay_Resp (R317, R319). -/
structure DelayResp where
  domain : Byte
  source : BitVec 80
  seq : Half
  receive : Stamp
  correction : Long
  logInterval : Byte
  deriving DecidableEq, Repr

end Sys2Proof
end

