-- ==== Sys2Proof/Machine/PtpState.lean ====
section
/-! DEFINITION. The state of the PTP instances, the alarms and the PPS capture (R315 to R335). -/

namespace Sys2Proof.Machine

/-- The states of a PTP port (R333). -/
inductive PtpPort where
  | initializing
  | faulty
  | disabled
  | listening
  | preMaster
  | master
  | passive
  | uncalibrated
  | slave
  deriving DecidableEq, Repr

/-- A Sync that waits for its Follow_Up or for the exchange (R317): t1 is none until it is known. Times in quarter ns. -/
structure SyncWait where
  seq : Half
  t1 : Option Int
  t2 : Int
  deriving DecidableEq, Repr

/-- An accepted offset (R331): Lookout time in µs, the offset in quarter ns, and the node's own movement so far. -/
structure Accepted where
  time : Nat
  offset : Int
  moved : Int
  deriving DecidableEq, Repr

/-- One PTP instance. -/
structure PtpInst where
  enable : Bool
  profile : Nat
  domain : Byte
  logSync : Byte
  logAnnounce : Byte
  logDelay : Byte
  timeout : Byte
  unicast : Bool
  capable : Bool
  /-- Jump threshold and outlier limit, ns (R319, R331). -/
  jump : Nat
  outlier : Nat
  /-- Master attributes of PTP_SET_MASTER (R320). -/
  priority1 : Byte
  priority2 : Byte
  accuracy : Byte
  timeSource : Byte
  variance : Half
  classes : List Byte
  utcOfs : Half
  utcFlag : Bool
  state : PtpPort
  jumpRefused : Bool
  /-- Foreign masters heard, newest last (R318), and the chosen one. -/
  foreign : List Announce
  chosen : Option Announce
  twoStepGm : Bool
  sync : Option SyncWait
  /-- The Delay_Req that waits for its answer: sequence and egress time (R317). -/
  request : Option (Half × Int)
  nextSeq : Half
  /-- The log interval that the master grants for Delay_Req, not below the instance's own (R317). -/
  granted : Byte
  rawOffsets : List Int
  rawDelays : List Int
  /-- Offsets measured from the present master. -/
  measured : Nat
  /-- The accepted offsets, newest first, at most 8 (R331). -/
  accepted : List Accepted
  /-- The grandmaster selected last (R318). -/
  lastGm : Option Long
  /-- Grandmaster of the last accepted offset. -/
  acceptedGm : Option Long
  ofs : Int
  mpd : Int
  syncCnt : Word
  syncLostCnt : Word
  drespCnt : Word
  outlierCnt : Word
  gmCnt : Word
  jumpCnt : Word
  /-- Sequence numbers of the messages that a master sends. -/
  masterSeq : Half
  /-- The last message that the instance sent, from its PTP header on (the model's own record). -/
  sent : List Byte
  deriving DecidableEq, Repr

/-- An instance at reset: the ST 2059-2 defaults (R316, R319, R320, R331, R333); log 36 for the attributes that no rule
gives. -/
def PtpInst.init : PtpInst :=
  { enable := false, profile := 0, domain := 127, logSync := 0xFD, logAnnounce := 0xFE, logDelay := 0xFD, timeout := 3
    unicast := false, capable := false, jump := 1000, outlier := 2000, priority1 := 128, priority2 := 128
    accuracy := 0xFE, timeSource := 0xA0, variance := 0xFFFF, classes := [6, 13, 7, 14, 52, 248, 58], utcOfs := 0
    utcFlag := false, state := .disabled, jumpRefused := false, foreign := [], chosen := none, twoStepGm := false
    sync := none, request := none, nextSeq := 0, granted := 0xFD, rawOffsets := [], rawDelays := [], measured := 0
    accepted := [], lastGm := none, acceptedGm := none, ofs := 0, mpd := 0, syncCnt := 0, syncLostCnt := 0, drespCnt := 0
    outlierCnt := 0, gmCnt := 0, jumpCnt := 0, masterSeq := 0, sent := [] }

/-- An alarm (R328, R329, R334). -/
structure Alarm where
  armed : Bool
  ptp : Bool
  target : Word
  period : Word
  fireMcnt : Word
  missed : Word
  deriving DecidableEq, Repr

def Alarm.init : Alarm := { armed := false, ptp := false, target := 0, period := 0, fireMcnt := 0, missed := 0 }

/-- Network time. -/
structure Ptp where
  inst0 : PtpInst
  inst1 : PtpInst
  alarms : Store Alarm
  /-- The seconds that PTP_SET_TIME has named (R326). -/
  setTime : Option (BitVec 48)
  ppsNs : Word
  ppsSec : BitVec 48
  /-- The movements that the node's own PTP counter has made, in slew units (R331). -/
  moved : Int
  deriving DecidableEq, Repr

def Ptp.init : Ptp :=
  { inst0 := PtpInst.init, inst1 := PtpInst.init, alarms := [], setTime := none, ppsNs := 0, ppsSec := 0
    moved := 0 }

end Sys2Proof.Machine
end

