-- ==== Sys2Proof/Syntax/Stream.lean ====
section
/-! DEFINITION. Operand types of the stream rows (R337 to R368): command payloads in field order, and received packets. -/

namespace Sys2Proof

/-- One path block of a transmit context (R343). -/
structure TxPath where
  dstMac : BitVec 48
  dstIp : Word
  srcPort : Half
  dstPort : Half
  deriving DecidableEq, Repr

/-- The fields of a transmit context (R343). -/
structure TxCfg where
  channels : Byte
  format : Byte
  ptime : Byte
  launch : Byte
  paths : Byte
  label : Byte
  pt : Byte
  dscp : Byte
  ttl : Byte
  vlan : Half
  plimit : Half
  ssrc : Word
  srcIp : Word
  a : TxPath
  b : TxPath
  deriving DecidableEq, Repr

/-- One path block of a receive context (R349). -/
structure RxPath where
  dstIp : Word
  dstPort : Half
  srcFilter : Word
  vlan : Half
  deriving DecidableEq, Repr

/-- The fields of a receive context (R349). -/
structure RxCfg where
  channels : Byte
  format : Byte
  ptime : Byte
  senderG : Byte
  paths : Byte
  group : Byte
  l : Half
  depth : Half
  base : Word
  rtpOfs : Word
  pt : Byte
  ssrcEn : Byte
  ssrc : Word
  a : RxPath
  b : RxPath
  deriving DecidableEq, Repr

/-- Payload of TAP_SET (R368). -/
structure TapSet where
  tap : Byte
  kind : Byte
  unit : Half
  channel : Byte
  flags : Byte
  n : Half
  m : Word
  crc : Word
  deriving DecidableEq, Repr

/-- The direction of a stream context (R337). -/
inductive StreamDir where
  | tx
  | rx
  deriving DecidableEq, Repr

end Sys2Proof
end

