-- ==== Sys2Proof/Machine/StreamState.lean ====
section
/-! DEFINITION. The state of the stream contexts, the alignment groups and the audit taps (R337 to R373, R401). -/

namespace Sys2Proof.Machine

/-- STOPPED, ARMED or RUNNING (R337). -/
inductive CtxState where
  | stopped
  | armed
  | running
  deriving DecidableEq, Repr

/-- A packet that a transmit context has closed and not yet launched (R345, R346): its closing wave, sequence number, RTP
timestamp, payload, and whether every one of its waves fell while a bank was LIVE (R347). -/
structure TxPacket where
  closing : Word
  seq : Half
  ts : Word
  payload : List Byte
  allLive : Bool
  deriving DecidableEq, Repr

/-- A transmit context. -/
structure TxCtx where
  cfg : Option TxCfg
  /-- The AES3 channel status block (R342). -/
  cs : List Byte
  state : CtxState
  start : Word
  /-- First wave and sequence number of the packet in progress. -/
  first : Word
  seq : Half
  stop : Option Word
  /-- The words of the waves gathered, oldest first, and whether a bank was LIVE at each. -/
  gathered : List (List Word)
  live : Bool
  closed : List TxPacket
  /-- Counters of R366: packets sent, last sequence number and timestamp sent, STEP_DROP. -/
  pkts : Word
  lastSeq : Half
  lastTs : Word
  stepDrop : Word
  deriving DecidableEq, Repr

def TxCtx.init : TxCtx :=
  { cfg := none, cs := List.replicate 24 0, state := .stopped, start := 0, first := 0, seq := 0, stop := none
    gathered := [], live := true, closed := [], pkts := 0, lastSeq := 0, lastTs := 0, stepDrop := 0 }

/-- Concealment state (R359). -/
inductive Conceal where
  | playing
  | hold
  | fadeOut
  | muted
  | fadeIn
  deriving DecidableEq, Repr

/-- Saddle's view of one path of a receive context (R373, R401). -/
structure PathStat where
  up : Bool
  pkts : Word
  firsts : Word
  deriving DecidableEq, Repr

def PathStat.init : PathStat := { up := false, pkts := 0, firsts := 0 }

/-- A receive context. -/
structure RxCtx where
  cfg : Option RxCfg
  state : CtxState
  start : Word
  stop : Option Word
  /-- The stop fade runs (R360). -/
  stopping : Bool
  conceal : Conceal
  /-- The gain g in Q2.30, the missing-sample count n and the held values h (R359). -/
  gain : Nat
  missing : Nat
  held : List Word
  /-- Highest sequence number accepted since the start (R350). -/
  seq : Option Half
  lastTs : Word
  pkts : Word
  late : Word
  lateSmp : Word
  early : Word
  dup : Word
  fmtErr : Word
  seqGap : Word
  concealCnt : Word
  concealSmp : Word
  muteCnt : Word
  a : PathStat
  b : PathStat
  diff : Word
  skew : Word
  skewMax : Word
  /-- Timestamps that have arrived on one path only: path B or not, and the reception instant in ns (R373). -/
  arrivals : List (Word × Bool × Nat)
  /-- Lookout times at which the once-a-second notices were raised last (R369, R372). -/
  concealAt : Option Nat
  lateAt : Option Nat
  earlyAt : Option Nat
  diffAt : Option Nat
  deriving DecidableEq, Repr

def RxCtx.init : RxCtx :=
  { cfg := none, state := .stopped, start := 0, stop := none, stopping := false, conceal := .playing, gain := 0
    missing := 0, held := [], seq := none, lastTs := 0, pkts := 0, late := 0, lateSmp := 0, early := 0, dup := 0
    fmtErr := 0, seqGap := 0, concealCnt := 0, concealSmp := 0, muteCnt := 0, a := PathStat.init, b := PathStat.init
    diff := 0, skew := 0, skewMax := 0, arrivals := [], concealAt := none, lateAt := none, earlyAt := none
    diffAt := none }

/-- An audit tap (R363, R364, R367). -/
structure Tap where
  armed : Bool
  kind : Nat
  unit : Nat
  channel : Nat
  repeats : Bool
  expected : Option Word
  n : Nat
  /-- First index of the window, samples taken so far, the running CRC, and whether one was missing. -/
  m : Word
  taken : Nat
  crc : Word
  gap : Bool
  /-- A window that has ended and whose result is not yet stored: its first index, CRC and gap. -/
  ended : Option (Word × Word × Bool)
  done : Bool
  incomplete : Bool
  mismatch : Bool
  result : Word
  startOf : Word
  doneCnt : Word
  deriving DecidableEq, Repr

def Tap.init : Tap :=
  { armed := false, kind := 0, unit := 0, channel := 0, repeats := false, expected := none, n := 1, m := 0, taken := 0
    crc := 0xFFFF_FFFF, gap := false, ended := none, done := false, incomplete := false, mismatch := false, result := 0
    startOf := 0, doneCnt := 0 }

/-- The stream contexts, groups and taps. -/
structure Stm where
  tx : Store TxCtx
  rx : Store RxCtx
  /-- P of an alignment group, once it has been set (R357). -/
  groups : Store (Option Nat)
  taps : Store Tap
  /-- STM_SEL (R366): context and direction, receive or not. -/
  selCtx : Byte
  selRx : Bool
  /-- The path-down time in packet times (R373). -/
  pathDown : Nat
  deriving DecidableEq, Repr

def Stm.init : Stm :=
  { tx := [], rx := [], groups := [], taps := [], selCtx := 0, selRx := false, pathDown := 8 }

end Sys2Proof.Machine
end

