-- ==== Sys2Proof/Syntax/Falver.lean ====
section
/-! DEFINITION. Who sends a Falver command: the operands that every command row shares (R404 to R417). -/

namespace Sys2Proof

/-- The requesters of the register window: PCIe functions PF0 to PF3, SPI partitions 0 to 3 and Summit ports 8 to 10
(the requester list before R433). -/
inductive Requester where
  | pf (p : Fin 4)
  | spi (p : Fin 4)
  | summit (port : Fin 3)
  deriving DecidableEq, Repr

/-- The partition a requester acts for (R421). -/
def Requester.part : Requester → Fin 4
  | .pf p => p
  | .spi p => p
  | .summit _ => 0

/-- The requester's number, 0 to 10: the key of its shadows. -/
def Requester.ix : Requester → Nat
  | .pf p => p.val
  | .spi p => 4 + p.val
  | .summit n => 8 + n.val

/-- The transport that brought a host's command: the partition's mailbox, or UDP (R409, R417). -/
inductive Via where
  | mailbox
  | udp
  deriving DecidableEq, Repr

/-- Who sends a command: a partition, over one of its two command slots. -/
structure Sender where
  part : Fin 4
  via : Via
  deriving DecidableEq, Repr

end Sys2Proof
end

