-- ==== Sys2Proof/Syntax/Profile.lean ====
section
/-! DEFINITION. The sections of a profile as BOOT_PROFILE_APPLIED takes them (R426): the byte layout of its regions and
platform sections is not given, so the row's operand carries what they say (log 5). -/

namespace Sys2Proof

/-- The fixed uses that the profile gives to regions (R200, R390, R426). -/
inductive RegionUse where
  | none
  | inputImages
  | outputImages
  | meridianIn
  | meridianOut
  | rings
  | streamBuffers
  | hostRings
  | staging
  | mirrorInbox
  | mirrorOutbox
  deriving DecidableEq, Repr

/-- A memory region of the profile (R200, R208, R426). -/
structure Region where
  base : Nat
  size : Nat
  owner : Nat
  hostVisible : Bool
  use : RegionUse
  deriving DecidableEq, Repr

/-- The platform section (R426), and the default ring where the profile names another than ring 1 (R302). -/
structure Platform where
  station : BitVec 48
  hostIp : Word
  hostMask : Word
  hostGateway : Word
  udpPort : Half
  dramSize : Byte
  regAddr : Byte
  quotas : List Half
  defaultRing : Option (Fin 8)
  deriving DecidableEq, Repr

/-- A command of the command section: a Falver packet without counter and tag (R426). -/
structure BootCmd where
  part : Byte
  opcode : Half
  payload : List Byte
  deriving DecidableEq, Repr

/-- What the sections of a profile say: owners in the order of the ownership section, regions, platform, commands. -/
structure Bundle where
  owners : List Byte
  regions : List Region
  platform : Platform
  commands : List BootCmd
  deriving DecidableEq, Repr

end Sys2Proof
end

