-- ==== Sys2Proof/Syntax/Security.lean ====
section
/-! DEFINITION. Operands of the security commands (R491) and of the system profile commands (R424). -/

namespace Sys2Proof

/-- Payload of SEC_KEY_PROGRAM. -/
structure SecKeyProgram where
  kind : Byte
  index : Byte
  slot : Byte
  value : BitVec 384
  deriving DecidableEq, Repr

/-- Payload of SEC_KEY_REVOKE. -/
structure SecKeyRevoke where
  kind : Byte
  index : Byte
  slot : Byte
  deriving DecidableEq, Repr

/-- Payload of SEC_ARB_ADVANCE. -/
structure SecArbAdvance where
  value : Word
  flags : Byte
  deriving DecidableEq, Repr

/-- Payload of SEC_FW_WRITE and of SYS_PROFILE_WRITE: copy or slot, offset, length and data. -/
structure FlashWrite where
  unit : Byte
  offset : Word
  length : Half
  data : List Byte
  deriving DecidableEq, Repr

/-- Payload of SYS_PROFILE_LOAD. -/
structure ProfileLoad where
  slot : Byte
  flags : Byte
  deriving DecidableEq, Repr

/-- Payload of SYS_PROFILE_ERASE. -/
structure ProfileErase where
  slot : Byte
  flags : Byte
  deriving DecidableEq, Repr

end Sys2Proof
end

