-- ==== Sys2Proof/Machine/SystemState.lean ====
section
/-! DEFINITION. The state of the command interface (R404 to R430), the SYS block and the indirect pair (R431 to R450),
security (R471 to R492), boot and the keep-alive domain (R509 to R526), ownership (R22) and the pins. -/

namespace Sys2Proof.Machine

/-- A resource unit of R22, in the order of the ownership section (R426). -/
inductive Res where
  | tdmGroup (g : Nat)
  | txCtx (c : Nat)
  | rxCtx (c : Nat)
  | cluster (c : Nat)
  | column (c : Nat)
  | pwsCh (c : Nat)
  | dmaCh (c : Nat)
  | tw (c : Nat)
  | rxRing (r : Nat)
  | txRing (r : Nat)
  | alarm (a : Nat)
  | tap (t : Nat)
  deriving DecidableEq, Repr

/-- The status codes of R418. -/
inductive Status where
  | ok | pending | busy | badOpcode | badLength | badParam | notOwner | locked | authFail | replay
  | noResource | graphReject | timeout | internal
  deriving DecidableEq, Repr

/-- What a command answers: a status and a payload. -/
structure Reply where
  status : Status
  payload : List Byte
  deriving DecidableEq, Repr

/-- Work inside a command that runs until COMMAND_EXECUTION_END: flash erases, verifications, a profile load. -/
inductive Job where
  | fwErase (copy : Nat)
  | fwVerify (copy : Nat)
  | profileErase (slot : Nat)
  | profileSeal (slot : Nat)
  | profileLoad (slot : Nat) (flags : Byte)
  | graphVerify
  | bulkArm
  | pwsStart (mask : Half)
  deriving DecidableEq, Repr

/-- State of a command slot (R413). -/
inductive SlotSt where
  | empty
  | pending
  | ready
  deriving DecidableEq, Repr

/-- The header fields of the command in a slot (R404). -/
structure PktHdr where
  tag : Word
  opcode : Half
  counter : Long
  newSession : Bool
  payload : List Byte
  deriving DecidableEq, Repr

/-- One command slot of a partition: mailbox or UDP (R409, R413, R417). -/
structure CmdSlot where
  state : SlotSt
  /-- Accepted while another command of its partition executes (R417). -/
  waiting : Bool
  hdr : PktHdr
  /-- The key that authenticated the command; none for an unkeyed partition (R407, R473). -/
  key : Option (BitVec 256)
  result : Option Reply
  job : Option Job
  /-- A reply is held for the peer's outcome (R389). -/
  held : Bool
  /-- The stored reply, as a packet (R409). -/
  stored : Option (PktHdr × List Byte)
  replay : Bool
  /-- The UDP command's source addresses and port, its ingress port, and the longest packet of its transport (R416). -/
  srcMac : BitVec 48
  srcIp : Word
  srcPort : Half
  ingress : Nat
  limit : Nat
  deriving DecidableEq, Repr

def PktHdr.init : PktHdr := { tag := 0, opcode := 0, counter := 0, newSession := false, payload := [] }

/-- An empty slot. -/
def CmdSlot.init : CmdSlot :=
  { state := .empty, waiting := false, hdr := PktHdr.init, key := none, result := none, job := none, held := false
    stored := none, replay := false, srcMac := 0, srcIp := 0, srcPort := 0, ingress := 0, limit := 4064 }

/-- One partition's mailbox, UDP slot and replay state (R408, R412). -/
structure PartCmd where
  area : Store Byte
  mbox : CmdSlot
  udp : CmdSlot
  dbIgnored : Bool
  session : Word
  lastCtr : Long
  irqEn : BitVec 6
  /-- A ring of the partition has completed a frame since the last CMD_ACK[4] (R422). -/
  ringEvent : Bool
  /-- An alarm of the partition has fired since the last CMD_ACK[5] (R422). -/
  alarmEvent : Bool
  /-- AUTH_FAIL refusals in the 1 s window that began at `authWindow`, and whether the burst was raised in it (R492). -/
  authWindow : Nat
  authCount : Nat
  authRaised : Bool
  /-- AUTH_FAIL replies over UDP in the present second (R416). -/
  udpAuthWindow : Nat
  udpAuthReplies : Nat
  deriving DecidableEq, Repr

def PartCmd.init (session : Word) : PartCmd :=
  { area := [], mbox := CmdSlot.init, udp := CmdSlot.init, dbIgnored := false, session := session, lastCtr := 0
    irqEn := 0, ringEvent := false, alarmEvent := false, authWindow := 0, authCount := 0, authRaised := false
    udpAuthWindow := 0, udpAuthReplies := 0 }

/-- What the loaded profile sets: partitions, owners, regions, platform (R420, R426). -/
structure Own where
  partEn : BitVec 4
  spiMask : BitVec 4
  /-- Owner of each unit, by its place in the ownership section; an unlisted unit belongs to partition 0 (R22). -/
  owners : Store Nat
  regions : List Region
  station : BitVec 48
  hostIp : Word
  hostMask : Word
  hostGateway : Word
  udpPort : Half
  dramSize : Nat
  regAddr : Byte
  udpDrop : Word
  deriving DecidableEq, Repr

def Own.init : Own :=
  { partEn := 1, spiMask := 1, owners := [], regions := [], station := 0, hostIp := 0, hostMask := 0, hostGateway := 0
    udpPort := 6590, dramSize := 0, regAddr := 0, udpDrop := 0 }

/-- A requester's own registers, shadows and block latches (R435 to R437, R441). -/
structure Shadow where
  indAddr : Word
  autoInc : Bool
  wideAddr : Option Nat
  wideHi : Word
  stagedAddr : Option Nat
  stagedLo : Word
  ptpSec : BitVec 48
  mcntLatch : Word
  hist : List Word
  ppsSec : BitVec 48
  /-- The latched stream context window (R366). -/
  ctx : List Word
  /-- What the requester's last access read, oldest word first (the model's own record of a read's data). -/
  rdata : List Word
  deriving DecidableEq, Repr

def Shadow.init : Shadow :=
  { indAddr := 0, autoInc := true, wideAddr := none, wideHi := 0, stagedAddr := none, stagedLo := 0, ptpSec := 0
    mcntLatch := 0, hist := [], ppsSec := 0, ctx := [], rdata := [] }

/-- The SYS block (R441) and the configuration CRC engine (R444 to R447). -/
structure Sys where
  grade : Bool
  fwVersion : Word
  lock : Word
  wrIgnored : Word
  lastAddr : Half
  lastPart : Nat
  lastReason : Nat
  scDrop : Word
  crcEnable : Bool
  crcMismatch : Bool
  crcRefValid : Bool
  crcWait : Bool
  /-- A commit has been requested since the pass in progress began (R446). -/
  crcWaitLate : Bool
  crcDirty : Bool
  crcLast : Word
  crcRef : Word
  crcPassCnt : Word
  crcMismatchCnt : Word
  /-- The last clean pass differed (R447). -/
  crcDiffered : Bool
  indErr : Word
  /-- Indirect words written since reset, by address. -/
  ind : Store Word
  shadows : Store Shadow
  deriving DecidableEq, Repr

def Sys.init : Sys :=
  { grade := false, fwVersion := 0, lock := 0, wrIgnored := 0, lastAddr := 0, lastPart := 0, lastReason := 0
    scDrop := 0, crcEnable := true, crcMismatch := false, crcRefValid := false, crcWait := false
    crcWaitLate := false, crcDirty := false, crcLast := 0, crcRef := 0, crcPassCnt := 0, crcMismatchCnt := 0
    crcDiffered := false, indErr := 0, ind := [], shadows := [] }

/-- The one-time-programmable store (R471). -/
structure Otp where
  partKeys : Store (BitVec 256)
  partProg : Byte
  partRevoked : Byte
  pairKeys : Store (BitVec 256)
  pairProg : BitVec 2
  pairRevoked : BitVec 2
  imgHashes : Store (BitVec 384)
  imgProg : BitVec 4
  imgRevoked : BitVec 4
  floor : Nat
  dbgDisable : Bool
  deviceId : Long
  deriving DecidableEq, Repr

def Otp.init : Otp :=
  { partKeys := [], partProg := 0, partRevoked := 0, pairKeys := [], pairProg := 0, pairRevoked := 0, imgHashes := []
    imgProg := 0, imgRevoked := 0, floor := 0, dbgDisable := false, deviceId := 0 }

/-- Security (R471 to R492). -/
structure Sec where
  otp : Otp
  bootCopy : Nat
  fwFallback : Bool
  /-- The running firmware verified under a programmed hash; the loaded profile did. -/
  fwAuth : Bool
  profileAuth : Bool
  fwSlot : Option Nat
  fwEvaluated : Bool
  fwRollback : Word
  debugOpen : Bool
  lock : BitVec 4
  authFail : Store Word
  debugAttempts : Word
  nonce : Option (BitVec 256)
  nonceAt : Nat
  drbgStopped : Bool
  deriving DecidableEq, Repr

def Sec.init : Sec :=
  { otp := Otp.init, bootCopy := 0, fwFallback := false, fwAuth := false, profileAuth := false, fwSlot := none
    fwEvaluated := false, fwRollback := 0, debugOpen := false, lock := 0, authFail := [], debugAttempts := 0
    nonce := none, nonceAt := 0, drbgStopped := false }

/-- The kinds of teardown: profile load, restart, deep-off entry (R428, R520). -/
inductive Teardown where
  | load (slot : Nat)
  | restart
  | deepOff
  deriving DecidableEq, Repr

/-- The boot sequence (R516) and a teardown in progress. -/
structure Boot where
  otpSensed : Bool
  tarnFilled : Bool
  dramTrained : Bool
  dramFailed : Bool
  /-- DDR_TRAIN_BYTE, DDR_RATE and DDR_RETRAIN_CNT (R558). -/
  dramByte : BitVec 4
  dramRate : Nat
  retrainCnt : Word
  eccDone : Bool
  fwRunning : Bool
  halted : Bool
  profileApplied : Bool
  bootDone : Bool
  profileOk : Bool
  slot : Nat
  profileId : Word
  profileRollback : Word
  /-- Profile failure code, failed slot, and the failing command's index, opcode and status (R424). -/
  failCode : Nat
  failSlot : Nat
  failIndex : Nat
  failOpcode : Half
  failStatus : Byte
  commands : List BootCmd
  index : Nat
  /-- The boot's command that is PENDING: its partition and work, and the reply that the work has come to. -/
  job : Option (Nat × Job)
  result : Option Reply
  /-- The boot ROM waits for Polestar to leave ACQUIRE (R517), and whether it has waited. -/
  acquireWait : Bool
  acquireWaited : Bool
  teardown : Option Teardown
  /-- The teardown's first wave, once it has an instant of its own. -/
  tearWave : Option Word
  tearStarted : Bool
  deriving DecidableEq, Repr

def Boot.init : Boot :=
  { otpSensed := false, tarnFilled := false, dramTrained := false, dramFailed := false, dramByte := 0
    dramRate := 0, retrainCnt := 0, eccDone := false
    fwRunning := false, halted := false, profileApplied := false, bootDone := false, profileOk := false, slot := 0
    profileId := 0, profileRollback := 0, failCode := 0, failSlot := 0, failIndex := 0, failOpcode := 0
    failStatus := 0, commands := [], index := 0, job := none, result := none, acquireWait := false, acquireWaited := false, teardown := none
    tearWave := none, tearStarted := false }

/-- The keep-alive domain (R520 to R524). -/
structure Ka where
  lastStart : Nat
  pwrEn : Bool
  deepOff : Bool
  latchSlot : Nat
  latchValid : Bool
  latchSource : Bool
  latchOnce : Bool
  arbCount : Word
  wakeCnt : Word
  /-- PWR_EN waits 20 ms to rise again after a wake during entry (R521). -/
  reassert : Bool
  /-- VKA has been newly applied and no boot has begun since (R523). -/
  vkaNew : Bool
  deriving DecidableEq, Repr

def Ka.init : Ka :=
  { lastStart := 0, pwrEn := true, deepOff := false, latchSlot := 0, latchValid := false, latchSource := false
    latchOnce := false, arbCount := 0, wakeCnt := 0, reassert := false, vkaNew := false }

/-- The levels of the input pins that the block reads, true for high (R513, R515, R521, R532, R541, R542). -/
structure Pins where
  porstN : Bool
  sysrstN : Bool
  wakeN : Bool
  perstN : Bool
  testEn : Bool
  profileSel : BitVec 3
  profileSampled : BitVec 3
  /-- Bank 3V3 sense of VDD_IOX0 to VDD_IOX8 as taken at the last PORST_N rise (R532). -/
  ioxSense : BitVec 9
  /-- The boundary cells have the pins (R485). -/
  boundary : Bool
  deriving DecidableEq, Repr

def Pins.init : Pins :=
  { porstN := true, sysrstN := true, wakeN := true, perstN := true, testEn := false, profileSel := 0
    profileSampled := 0, ioxSense := 0, boundary := false }

/-- Flash: firmware copies and profile slots (R425, R477). An unlisted byte is erased (reads 0xFF). -/
structure Flash where
  bytes : Store Byte
  /-- The seal of each profile slot (R425). -/
  sealed : BitVec 8
  deriving DecidableEq, Repr

def Flash.init : Flash := { bytes := [], sealed := 0 }

end Sys2Proof.Machine
end

