-- ==== Sys2Proof/Machine/Store.lean ====
section
/-! DEFINITION. Reading and writing the sparse tables in which the model keeps numbered units, table entries and
byte memory. Every table keeps one canonical form, so equal contents are equal data. -/

namespace Sys2Proof.Machine

/-- The entry at key `i`; an unlisted key reads as `d`. -/
def Store.look {α : Type} (d : α) : Store α → Nat → α
  | [], _ => d
  | (k, v) :: t, i => if i = k then v else Store.look d t i

/-- Drop every entry at key `i`. -/
def Store.drop {α : Type} (st : Store α) (i : Nat) : Store α := st.filter fun e => e.1 != i

/-- Write `v` at key `i`, keeping the keys rising; writing `d` removes the entry. A read after a write holds of every
table, of one out of its canonical form too. -/
def Store.put {α : Type} [DecidableEq α] (d : α) : Store α → Nat → α → Store α
  | [], i, v => if v = d then [] else [(i, v)]
  | (k, x) :: t, i, v =>
    if i < k then (if v = d then (k, x) :: Store.drop t i else (i, v) :: (k, x) :: t)
    else if i = k then (if v = d then Store.drop t i else (i, v) :: t)
    else (k, x) :: Store.put d t i v

/-- Change the entry at key `i` by `f`. -/
def Store.upd {α : Type} [DecidableEq α] (d : α) (st : Store α) (i : Nat) (f : α → α) : Store α :=
  Store.put d st i (f (Store.look d st i))

/-- Change the entries at the keys of a list, in order. -/
def Store.updAll {α : Type} [DecidableEq α] (d : α) (st : Store α) (is : List Nat) (f : α → α) : Store α :=
  is.foldl (fun acc i => Store.upd d acc i f) st

/-- Change every listed entry by `f`, dropping the entries that come to read as `d`. -/
def Store.mapAll {α : Type} [DecidableEq α] (d : α) (st : Store α) (f : Nat → α → α) : Store α :=
  st.filterMap fun (k, v) => if f k v = d then none else some (k, f k v)

/-- Write consecutive entries from key `i`. -/
def Store.putAll {α : Type} [DecidableEq α] (d : α) (st : Store α) : Nat → List α → Store α
  | _, [] => st
  | i, v :: vs => Store.putAll d (Store.put d st i v) (i + 1) vs

/-- The entries at `n` consecutive keys from `i`. -/
def Store.slice {α : Type} (d : α) (st : Store α) (i n : Nat) : List α :=
  (List.range n).map fun j => Store.look d st (i + j)

/-- Every key of `st` is at least `lo`, keys rise, and no entry equals `d`. -/
def Store.wfFrom {α : Type} [DecidableEq α] (d : α) : Nat → Store α → Bool
  | _, [] => true
  | lo, (k, v) :: t => decide (lo ≤ k) && !decide (v = d) && Store.wfFrom d (k + 1) t

/-- The canonical form of a table. -/
def Store.wf {α : Type} [DecidableEq α] (d : α) (st : Store α) : Bool := Store.wfFrom d 0 st

/-- The canonical form of byte memory. -/
def Memory.wf (m : Memory) : Bool := Store.wf (0 : Byte) m

/-- Read one byte of memory. -/
def Memory.read (m : Memory) (a : Nat) : Byte := Store.look (0 : Byte) m a

/-- Write one byte of memory. -/
def Memory.write (m : Memory) (a : Nat) (b : Byte) : Memory := Store.put (0 : Byte) m a b

/-- Write consecutive bytes. -/
def Memory.writeBytes (m : Memory) (a : Nat) (bs : List Byte) : Memory := Store.putAll (0 : Byte) m a bs

/-- Read `n` consecutive bytes. -/
def Memory.readBytes (m : Memory) (a n : Nat) : List Byte := Store.slice (0 : Byte) m a n

end Sys2Proof.Machine
end

