-- ==== Sys2Proof/Syntax/TwoWire.lean ====
section
/-! DEFINITION. Operands of the two-wire rows (R493 to R508). -/

namespace Sys2Proof

/-- How a two-wire attempt ends on the bus (R495 to R502). The place of a loss is its byte index, the first address byte
being 0. -/
inductive TwOutcome where
  | done
  | addrNack
  | dataNack
  | pecErr
  | arbLost (place : BitVec 6)
  | busErr (place : BitVec 6)
  deriving DecidableEq, Repr

/-- What an attempt leaves behind (R495, R499): the data bytes acknowledged or read, the bytes read, and whether the bus
needed a recovery, which then freed SDA or did not. -/
structure TwEnd where
  outcome : TwOutcome
  doneBytes : BitVec 6
  read : List Byte
  recovery : Option Bool
  deriving DecidableEq, Repr

end Sys2Proof
end

