-- ==== Sys2Proof/Machine/TwState.lean ====
section
/-! DEFINITION. The state of the two-wire controllers TW0 to TW3 and of the target port TWT (R493 to R508). -/

namespace Sys2Proof.Machine

/-- TW_STAT.STATE (R507). -/
inductive TwSt where
  | idle
  | queued
  | active
  | retryWait
  deriving DecidableEq, Repr

/-- What has the bus (R496). -/
inductive TwBus where
  | free
  | host
  | alert
  | governor
  deriving DecidableEq, Repr

/-- One controller. -/
structure TwCtl where
  cfg : Word
  xfer : Word
  tx : Store Byte
  rx : List Byte
  state : TwSt
  bus : TwBus
  result : Nat
  doneBytes : BitVec 6
  lostAt : BitVec 6
  /-- ABORT has been written during the transaction (R502). -/
  aborting : Bool
  /-- The configuration that the transaction on the bus began with (R502). -/
  cfgInUse : Word
  /-- Further attempts made after an address NACK, and after a loss (R497, R502). -/
  addrTries : Nat
  arbTries : Nat
  alert : Bool
  alertStuck : Bool
  /-- Alert-response reads of the present episode (R500). -/
  reads : Nat
  busStuck : Bool
  /-- The last 8 responses, newest first. -/
  log : List Byte
  alertCnt : Word
  xferCnt : Word
  retryCnt : Word
  arbCnt : Word
  stretchCnt : Word
  recoverCnt : Word
  pecCnt : Word
  deriving DecidableEq, Repr

/-- A controller at reset (R507): SPEED 1, STRETCH_TO 25, ADDR_RETRY 3, ARB_RETRY 3, RETRY_DELAY 10, ARA_EN. -/
def TwCtl.init : TwCtl :=
  { cfg := 0x010A_3365, xfer := 0, tx := [], rx := List.replicate 32 0, state := .idle, bus := .free, result := 0
    doneBytes := 0, lostAt := 0, aborting := false, cfgInUse := 0x010A_3365, addrTries := 0, arbTries := 0
    alert := false, alertStuck := false, reads := 0, busStuck := false, log := [], alertCnt := 0, xferCnt := 0
    retryCnt := 0, arbCnt := 0, stretchCnt := 0, recoverCnt := 0, pecCnt := 0 }

/-- The target port (R504 to R508). -/
structure Twt where
  addr : BitVec 7
  en : Bool
  alertOnFault : Bool
  alertReq : Bool
  protoErr : Word
  wrCnt : Word
  out : Store Byte
  inb : Store Byte
  pointer : BitVec 7
  /-- The bytes that the port returned last (the model's own record). -/
  sent : List Byte
  /-- Lookout time at which TWT_FAULT was raised last (R505). -/
  faultAt : Option Nat
  deriving DecidableEq, Repr

/-- The target port at reset (R508). -/
def Twt.init : Twt :=
  { addr := 0x5A, en := false, alertOnFault := false, alertReq := false, protoErr := 0, wrCnt := 0, out := [], inb := []
    pointer := 0, sent := [], faultAt := none }

/-- The two-wire blocks. -/
structure Tw where
  ctl : List TwCtl
  twt : Twt
  deriving DecidableEq, Repr

def Tw.init : Tw := { ctl := List.replicate 4 TwCtl.init, twt := Twt.init }

end Sys2Proof.Machine
end

