-- ==== Sys2Proof/Syntax/Cairn.lean ====
section
/-! DEFINITION. Cairn instruction words by their slots (R159 to R174): one constructor per operation, with the fields
that it uses. -/

namespace Sys2Proof

/-- The modification of an address-generator field (R162): a signed immediate, or the modifier of its pointer. -/
inductive AgMod where
  | imm (v : BitVec 4)
  | m
  deriving DecidableEq, Repr

/-- An address-generator field (R162). MEM is 0 no access, 1 X, 2 Y, 3 C; FORM true is a single word. -/
structure Ag where
  mem : BitVec 2
  form : Bool
  ptr : BitVec 3
  mod : AgMod
  deriving DecidableEq, Repr

/-- The MAC-class slot (R167 to R170). -/
inductive MacOp where
  | mnop
  | mpy (acc : BitVec 2) (ty : BitVec 3) (sa sb : BitVec 4)
  | mac (acc : BitVec 2) (ty : BitVec 3) (sa sb : BitVec 4)
  | lda (acc : BitVec 2) (ty : BitVec 3) (sa : BitVec 4)
  | adda (acc : BitVec 2) (ty : BitVec 3) (sa : BitVec 4)
  | sha (acc : BitVec 2) (sh : BitVec 4)
  | nrw (acc : BitVec 2) (vd : BitVec 3) (sh : BitVec 4)
  | dnrw (acc : BitVec 2) (vd : BitVec 3) (sh : BitVec 4)
  | nrwc (acc : BitVec 2) (vd : BitVec 3) (sh : BitVec 4)
  | nrwe (acc : BitVec 2) (vd : BitVec 3)
  | add (vd : BitVec 3) (sa sb : BitVec 4)
  | sub (vd : BitVec 3) (sa sb : BitVec 4)
  | max (vd : BitVec 3) (sa sb : BitVec 4)
  | min (vd : BitVec 3) (sa sb : BitVec 4)
  | abs (vd : BitVec 3) (sa : BitVec 4)
  | neg (vd : BitVec 3) (sa : BitVec 4)
  | and (vd : BitVec 3) (sa sb : BitVec 4)
  | or (vd : BitVec 3) (sa sb : BitVec 4)
  | xor (vd : BitVec 3) (sa sb : BitVec 4)
  | shl (vd : BitVec 3) (sa n : BitVec 4)
  | shr (vd : BitVec 3) (sa n : BitVec 4)
  | shv (vd : BitVec 3) (sa sb : BitVec 4)
  | norm (vd : BitVec 3) (sa : BitVec 4)
  | expn (vd : BitVec 3) (sa : BitVec 4)
  | sel (vd : BitVec 3) (sa sb : BitVec 4)
  deriving DecidableEq, Repr

/-- The short move of format A (R171). -/
inductive ShortMove where
  | snop
  | ldv (vd : BitVec 3)
  | st (vs : BitVec 3) (lane : BitVec 2)
  | cpy
  | movv (vd vs : BitVec 3)
  | movsv (sd vs : BitVec 3) (lane : BitVec 2)
  | bcst (vd ss : BitVec 3)
  | waitf (dirs : BitVec 2)
  deriving DecidableEq, Repr

/-- The long move of format B (R172). -/
inductive LongMove where
  | lnop
  | br (cond : BitVec 4) (target : BitVec 11)
  | call (sd : BitVec 3) (target : BitVec 11)
  | ret (ss : BitVec 3)
  | addsi (sd ss : BitVec 3) (imm : BitVec 11)
  | alus (sd ss st : BitVec 3) (op : BitVec 3)
  | mova (cls : BitVec 2) (n sx : BitVec 3) (dir : Bool)
  | movc (sd : BitVec 3) (src : BitVec 4)
  | lds (sd : BitVec 3)
  | sts (ss : BitVec 3)
  | movvs (vd ss : BitVec 3) (lane : BitVec 2)
  | setdw (b : BitVec 6)
  deriving DecidableEq, Repr

/-- The control operation of format C (R173). -/
inductive Control where
  | loop (ss : BitVec 3) (len : BitVec 11)
  | loopi (count : Half) (len : BitVec 11)
  | seta (cls : BitVec 2) (n : BitVec 3) (value : Half)
  | movi (sd : BitVec 3) (imm : Word)
  | far (out toY : Bool) (pn ss : BitVec 3) (lines : Byte)
  | seed (ss : BitVec 3)
  | stop
  deriving DecidableEq, Repr

/-- An instruction word by format (R159, R160). -/
inductive CWord where
  | a (mac : MacOp) (ag0 ag1 ag2 : Ag) (move : ShortMove)
  | b (mac : MacOp) (ag0 ag1 : Ag) (move : LongMove)
  | c (op : Control)
  deriving DecidableEq, Repr

/-- What stands beside the MAC-class slot in its word. -/
inductive MacRest where
  | a (ag0 ag1 ag2 : Ag) (move : ShortMove)
  | b (ag0 ag1 : Ag) (move : LongMove)
  deriving DecidableEq, Repr

/-- What stands beside the short move in its word. -/
structure ShortRest where
  mac : MacOp
  ag0 : Ag
  ag1 : Ag
  ag2 : Ag
  deriving DecidableEq, Repr

/-- What stands beside the long move in its word. -/
structure LongRest where
  mac : MacOp
  ag0 : Ag
  ag1 : Ag
  deriving DecidableEq, Repr

/-- The word of a MAC-class operation. -/
def MacRest.word (r : MacRest) (m : MacOp) : CWord :=
  match r with
  | .a x y z v => .a m x y z v
  | .b x y v => .b m x y v

/-- The word of a short move. -/
def ShortRest.word (r : ShortRest) (v : ShortMove) : CWord := .a r.mac r.ag0 r.ag1 r.ag2 v

/-- The word of a long move. -/
def LongRest.word (r : LongRest) (v : LongMove) : CWord := .b r.mac r.ag0 r.ag1 v

/-- An address-generator field of zeros: it does nothing (R159). -/
def Ag.idle : Ag := { mem := 0, form := false, ptr := 0, mod := .imm 0 }

end Sys2Proof
end

