-- ==== Sys2Proof/Syntax/Memory.lean ====
section
/-! DEFINITION. What the patrol scrubber meets in a word of Tarn (R201, R202). -/

namespace Sys2Proof

/-- The bits of a stored word that are wrong: none, one, or two. -/
inductive WordErr where
  | none
  | single
  | double
  deriving DecidableEq, Repr

end Sys2Proof
end

