-- ==== Sys2Proof/Syntax/Meridian.lean ====
section
/-! DEFINITION. Operands of the matrix commands (R198). -/

namespace Sys2Proof

/-- Payload of MTX_SET_GAINS; the count is that of the entries. -/
structure MtxSetGains where
  a : Word
  mode : Byte
  reserved : Byte
  n : Half
  reserved2 : Half
  entries : List Long
  deriving DecidableEq, Repr

/-- Payload of MTX_BULK_ARM. -/
structure MtxBulkArm where
  a : Word
  mode : Byte
  reserved : Byte
  n : Half
  count : Half
  deriving DecidableEq, Repr

end Sys2Proof
end

