-- ==== Sys2Proof/Syntax.lean ====
section
/-! DEFINITION. The commands of the block: one constructor per row of the opcode table, with the operands of the
row (log 2, 8). A Falver command names its sender; a register access names its requester; an event brings
what the device measures or receives with it. Rows without operands and the Cairn words stand last, so that Lean's compiler,
which numbers at most 245 constructors that have operands, can build the rest. -/

namespace Sys2Proof

/-- The rows of the opcode table. -/
inductive Instr where
  /-- COMPLETION_TOKEN (R62). -/
  | completionToken (slack : Word)
  /-- OUTPUT_GUARD (R62). -/
  | outputGuard (parity : List (Fin 64 × Word))
  /-- REFERENCE_VALID (R36). -/
  | referenceValid (ref : Fin 6) (m : RefMeas)
  /-- REFERENCE_QUALIFIED (R40). -/
  | referenceQualified (ref : Fin 6) (m : RefMeas) (sec : BitVec 48) (ns : Word)
  /-- REFERENCE_LOST (R36). -/
  | referenceLost (ref : Fin 6) (present : Bool)
  /-- WAIT_TO_RESTORE_EXPIRY (R41). -/
  | waitToRestoreExpiry (ref : Fin 6)
  /-- HOLDOVER_HISTORY_SECOND (R50). -/
  | holdoverHistorySecond (mean : Long)
  /-- DISAGREE_WINDOW (R43). -/
  | disagreeWindow (ms : List RefMeas)
  /-- PST_PTP_NS_READ (R55). -/
  | pstPtpNsRead (q : Requester)
  /-- CLK_GET_STATUS (R56). -/
  | clkGetStatus (q : Sender)
  /-- CLK_SET_RATE (R29). -/
  | clkSetRate (q : Sender) (code : Byte)
  /-- CLK_REF_CONFIG (R58). -/
  | clkRefConfig (q : Sender) (c : ClkRefConfig)
  /-- CLK_SELECT (R39). -/
  | clkSelect (q : Sender) (c : ClkSelect)
  /-- CLK_SET_TIMERS (R58). -/
  | clkSetTimers (q : Sender) (c : ClkSetTimers)
  /-- CLK_SET_HOLDOVER (R51). -/
  | clkSetHoldover (q : Sender) (c : ClkSetHoldover)
  /-- CLK_SET_TRIM (R49). -/
  | clkSetTrim (q : Sender) (ppt : Long)
  /-- CLK_PHASE_STEP (R48). -/
  | clkPhaseStep (q : Sender) (ns : Word)
  /-- CLK_REALIGN (R46). -/
  | clkRealign (q : Sender) (c : ClkRealign)
  /-- CLK_GET_REF (R56). -/
  | clkGetRef (q : Sender) (index : Byte)
  /-- GOVERNOR_POLL (R82). -/
  | governorPoll (ok : Bool) (mv : Half)
  /-- GOVERNOR_WRITE_DONE (R85). -/
  | governorWriteDone (ok : Bool) (data : Half)
  /-- HIST_LATCH_READ (R71). -/
  | histLatchRead (q : Requester)
  /-- FAB_SET_GOVERNOR (R90). -/
  | fabSetGovernor (q : Sender) (c : FabSetGovernor)
  /-- FAB_SET_ESCALATION (R76). -/
  | fabSetEscalation (q : Sender) (burst stall : Half)
  /-- FAB_SET_TELEMETRY (R70). -/
  | fabSetTelemetry (q : Sender) (n : Byte) (w : Half)
  /-- FAB_CLEAR_TELEMETRY (R89). -/
  | fabClearTelemetry (q : Sender)
  /-- GRAPH_LOAD_CHUNK (R122). -/
  | graphLoadChunk (q : Sender) (c : GraphChunk)
  /-- GRAPH_VERIFY (R103). -/
  | graphVerify (q : Sender) (length : Word)
  /-- GRAPH_COMMIT (R109). -/
  | graphCommit (q : Sender) (c : GraphWave)
  /-- GRAPH_CANCEL (R110). -/
  | graphCancel (q : Sender)
  /-- GRAPH_STATUS (R122). -/
  | graphStatus (q : Sender)
  /-- GRAPH_GET_LAYOUT (R122). -/
  | graphGetLayout (q : Sender)
  /-- GRAPH_SET_RESERVATION (R101). -/
  | graphSetReservation (q : Sender) (ms : Half)
  /-- GRAPH_HALT (R111). -/
  | graphHalt (q : Sender) (c : GraphWave)
  /-- NODE_SET_GAIN (R115). -/
  | nodeSetGain (q : Sender) (c : NodeSetGain)
  /-- NODE_SET_TIMEOUT (R116). -/
  | nodeSetTimeout (q : Sender) (node ms : Half)
  /-- ENTRY_DISPATCH (R150). -/
  | entryDispatch (p : Fin 4) (entry : Fin 4096)
  /-- ENTRY_COMPLETION (R150). -/
  | entryCompletion (p : Fin 4) (entry : Fin 4096)
  /-- PARAM_WRITE_WINDOW (R153). -/
  | paramWriteWindow (e : Fin 24)
  /-- FAR_TRANSFER_COMPLETE (R147). -/
  | farTransferComplete (e : Fin 24) (inbound : Bool)
  /-- CRN_SET_TRAP_ESCALATION (R157). -/
  | crnSetTrapEscalation (q : Sender) (th : Half)
  /-- CRN_GET_STATUS (R157). -/
  | crnGetStatus (q : Sender)
  /-- CRN_READ_MEM (R158). -/
  | crnReadMem (q : Sender) (engine mem : Byte) (addr count : Half)
  /-- MTX_SET_GAINS (R185). -/
  | mtxSetGains (q : Sender) (c : MtxSetGains)
  /-- MTX_BULK_ARM (R190). -/
  | mtxBulkArm (q : Sender) (c : MtxBulkArm)
  /-- BULK_ARM_CHECK_DONE (R190). -/
  | bulkArmCheckDone (p : Fin 4)
  /-- MTX_BULK_CANCEL (R190). -/
  | mtxBulkCancel (q : Sender)
  /-- MTX_SET_COLUMN (R198). -/
  | mtxSetColumn (q : Sender) (col ms : Half)
  /-- MTX_GET_GAINS (R198). -/
  | mtxGetGains (q : Sender) (col first count : Half)
  /-- MTX_GET_STATUS (R198). -/
  | mtxGetStatus (q : Sender)
  /-- MTX_SET_QUOTA (R187). -/
  | mtxSetQuota (q : Sender) (qs : List Half)
  /-- MTX_ZC_TIMEOUT (R186). -/
  | mtxZcTimeout (col : Fin 512) (input : Fin 2048)
  /-- STAGING_WINDOW_WRITE (R189). -/
  | stagingWindowWrite (p : Fin 4) (offset : BitVec 15) (bytes : List Byte)
  /-- COL_PATH_TIMEOUT (R210). -/
  | colPathTimeout (m : Fin 13) (t : Fin 20) (addr : ColAddr) (write : Bool)
  /-- DMA_RUN (R213). -/
  | dmaRun (q : Requester) (ch : Fin 32) (ctrl : Word)
  /-- DMA_STOP (R225). -/
  | dmaStop (q : Requester) (ch : Fin 32) (ctrl : Word)
  /-- DMA_DESC_FETCH (R216). -/
  | dmaDescFetch (ch : Fin 32)
  /-- DMA_BURST (R217). -/
  | dmaBurst (ch : Fin 32)
  /-- DMA_REQUEST (R218). -/
  | dmaRequest (line : Fin 128)
  /-- DMA_TIMER_EVENT (R219). -/
  | dmaTimerEvent (ch : Fin 32)
  /-- DMA_MCNT_MATCH (R219). -/
  | dmaMcntMatch (ch : Fin 32)
  /-- DMA_COMPLETION (R221). -/
  | dmaCompletion (ch : Fin 32)
  /-- DMA_ERROR_RESPONSE (R223). -/
  | dmaErrorResponse (addr : ColAddr) (write : Bool)
  /-- DMA_RESUME (R223). -/
  | dmaResume (q : Sender)
  /-- MEM_SET_SCRUB (R230). -/
  | memSetScrub (q : Sender) (period timeout : Half)
  /-- MEM_GET_STATUS (R230). -/
  | memGetStatus (q : Sender)
  /-- TDM_SET_GROUP (R232). -/
  | tdmSetGroup (q : Sender) (c : TdmSetGroup)
  /-- TDM_SET_PORT (R233). -/
  | tdmSetPort (q : Sender) (c : TdmSetPort)
  /-- TDM_SET_RING (R241). -/
  | tdmSetRing (q : Sender) (c : TdmSetRing)
  /-- TDM_STAGE_MASK (R246). -/
  | tdmStageMask (q : Sender) (c : TdmStageMask)
  /-- TDM_COMMIT (R246). -/
  | tdmCommit (q : Sender) (mask : Long)
  /-- TDM_START (R249). -/
  | tdmStart (q : Sender) (mask : Long)
  /-- TDM_STOP (R249). -/
  | tdmStop (q : Sender) (mask : Long)
  /-- TDM_GET_STATUS (R258). -/
  | tdmGetStatus (q : Sender) (port : Byte)
  /-- TDM_FRAME_RECEIVED (R242). -/
  | tdmFrameReceived (port : Fin 64) (frame : TdmFrame)
  /-- TDM_SLAVE_LOCK (R240). -/
  | tdmSlaveLock (port : Fin 64)
  /-- TDM_SYNC_LOST (R240). -/
  | tdmSyncLost (port : Fin 64)
  /-- TDM_GATE_TIMEOUT (R248). -/
  | tdmGateTimeout (port : Fin 64) (dir : TdmDir) (slot : Fin 32)
  /-- TDM_FADE_END (R248). -/
  | tdmFadeEnd (port : Fin 64) (dir : TdmDir) (slot : Fin 32)
  /-- MASK_EPOCH_CHANGE (R246). -/
  | maskEpochChange (port : Fin 64)
  /-- TDM_PORT_RUNNING (R249). -/
  | tdmPortRunning (port : Fin 64)
  /-- TDM_PORT_STOPPED (R249). -/
  | tdmPortStopped (port : Fin 64)
  /-- PWS_SET_STAGE (R283). -/
  | pwsSetStage (q : Sender) (c : PwsSetStage)
  /-- PWS_SET_CHANNEL (R283). -/
  | pwsSetChannel (q : Sender) (c : PwsSetChannel)
  /-- PWS_START (R272). -/
  | pwsStart (q : Sender) (mask : Half)
  /-- PWS_STOP (R273). -/
  | pwsStop (q : Sender) (mask : Half)
  /-- PWS_MUTE (R270). -/
  | pwsMute (q : Sender) (mask : Half) (mute : Byte)
  /-- PWS_CLEAR (R271). -/
  | pwsClear (q : Sender) (mask : Half)
  /-- PWS_GET_STATUS (R283). -/
  | pwsGetStatus (q : Sender) (channel : Byte)
  /-- PWS_PRE_RELEASE_CHECK (R272). -/
  | pwsPreReleaseCheck (ch : Fin 16) (fb isense : Word)
  /-- PWS_UNMUTE_START (R272). -/
  | pwsUnmuteStart (ch : Fin 16)
  /-- MUTE_STEP (R269). -/
  | muteStep (ch : Fin 16)
  /-- PWS_GATES_OFF (R273). -/
  | pwsGatesOff (ch : Fin 16)
  /-- LIMIT_SHUTDOWN (R275). -/
  | limitShutdown (ch : Fin 16)
  /-- RETRY_DELAY_EXPIRY (R275). -/
  | retryDelayExpiry (ch : Fin 16)
  /-- DC_WINDOW (R277). -/
  | dcWindow (ch : Fin 16) (mv : Word) (limited : Bool)
  /-- BUS_UNDERVOLTAGE (R278). -/
  | busUndervoltage (vbus : Half)
  /-- BUS_OVERVOLTAGE (R278). -/
  | busOvervoltage (vbus : Half)
  /-- BUS_RECOVERY (R278). -/
  | busRecovery (vbus : Half)
  /-- NET_SET_PORT (R284). -/
  | netSetPort (q : Sender) (c : NetSetPort)
  /-- NET_SET_SWITCH (R292). -/
  | netSetSwitch (q : Sender) (c : NetSetSwitch)
  /-- NET_FDB_WRITE (R291). -/
  | netFdbWrite (q : Sender) (c : NetFdbWrite)
  /-- NET_VLAN_WRITE (R291). -/
  | netVlanWrite (q : Sender) (vid : Half) (members taggedPorts : Byte)
  /-- NET_SET_FILTER (R302). -/
  | netSetFilter (q : Sender) (c : NetSetFilter)
  /-- NET_SET_RING (R306). -/
  | netSetRing (q : Sender) (c : NetSetRing)
  /-- NET_TEST (R313). -/
  | netTest (q : Sender) (port mode : Byte)
  /-- NET_GET_STATUS (R313). -/
  | netGetStatus (q : Sender) (port : Byte)
  /-- LINK_UP (R285). -/
  | linkUp (port : Fin 4) (remote : Bool)
  /-- LINK_LOSS (R285). -/
  | linkLoss (port : Fin 4) (fault : Bool)
  /-- FRAME_RECEIVED (R290). -/
  | frameReceived (port : Fin 4) (frame : List Byte) (fcsOk : Bool) (t : Stamp)
  /-- FRAME_TRANSMIT (R292). -/
  | frameTransmit (port : Fin 4) (fcsBad : Bool) (t : Stamp) (frags : Half)
  /-- PAUSE_RECEIVED (R297). -/
  | pauseReceived (port : Fin 4) (opcode quanta : Half)
  /-- RX_RING_DELIVERY (R304). -/
  | rxRingDelivery (ring : Fin 8)
  /-- NET_RING_DOORBELL (R304). -/
  | netRingDoorbell (q : Requester) (tx : Bool) (ring : Fin 8)
  /-- TX_RING_FRAME (R307). -/
  | txRingFrame (ring : Fin 8)
  /-- PTP_SET_INSTANCE (R316). -/
  | ptpSetInstance (q : Sender) (c : PtpSetInstance)
  /-- PTP_SET_PORT_TS (R321). -/
  | ptpSetPortTs (q : Sender) (c : PtpSetPortTs)
  /-- PTP_SET_MASTER (R320). -/
  | ptpSetMaster (q : Sender) (c : PtpSetMaster)
  /-- PTP_ACCEPT_JUMP (R332). -/
  | ptpAcceptJump (q : Sender) (inst : Byte) (gm : Long)
  /-- PTP_SET_TIME (R326). -/
  | ptpSetTime (q : Sender) (sec : Long)
  /-- PTP_SET_ALARM (R329). -/
  | ptpSetAlarm (q : Sender) (c : PtpSetAlarm)
  /-- PTP_CANCEL_ALARM (R335). -/
  | ptpCancelAlarm (q : Sender) (alarm : Byte)
  /-- PTP_GET_STATUS (R335). -/
  | ptpGetStatus (q : Sender) (inst : Byte)
  /-- ANNOUNCE_RECEIVED (R318). -/
  | announceReceived (inst : Fin 2) (a : Announce)
  /-- SYNC_RECEIVED (R317). -/
  | syncReceived (inst : Fin 2) (m : SyncMsg)
  /-- FOLLOW_UP_RECEIVED (R317). -/
  | followUpReceived (inst : Fin 2) (m : SyncMsg)
  /-- DELAY_REQ_SEND (R317). -/
  | delayReqSend (inst : Fin 2) (t : Stamp)
  /-- DELAY_RESP_RECEIVED (R319). -/
  | delayRespReceived (inst : Fin 2) (m : DelayResp)
  /-- SYNC_TIMEOUT (R36). -/
  | syncTimeout (inst : Fin 2)
  /-- ANNOUNCE_TIMEOUT (R36). -/
  | announceTimeout (inst : Fin 2)
  /-- MASTER_SYNC_SEND (R320). -/
  | masterSyncSend (inst : Fin 2) (t : Stamp)
  /-- MASTER_ANNOUNCE_SEND (R320). -/
  | masterAnnounceSend (inst : Fin 2)
  /-- PPS_EDGE (R327). -/
  | ppsEdge (after : Word)
  /-- PPS_CAPTURE_READ (R327). -/
  | ppsCaptureRead (q : Requester)
  /-- ALARM_FIRE (R328). -/
  | alarmFire (alarm : Fin 8)
  /-- STREAM_SET_TX (R343). -/
  | streamSetTx (q : Sender) (ctx : Byte) (c : TxCfg)
  /-- STREAM_SET_RX (R349). -/
  | streamSetRx (q : Sender) (ctx : Byte) (c : RxCfg)
  /-- STREAM_SET_CS (R342). -/
  | streamSetCs (q : Sender) (ctx : Byte) (block : List Byte)
  /-- STREAM_START (R345). -/
  | streamStart (q : Sender) (dir ctx : Byte) (q0 : Half) (wave : Word)
  /-- STREAM_STOP (R348). -/
  | streamStop (q : Sender) (dir ctx : Byte) (wave : Word)
  /-- STREAM_SET_GROUP (R357). -/
  | streamSetGroup (q : Sender) (group : Byte) (delay : Half)
  /-- STREAM_GET_CONTEXT (R368). -/
  | streamGetContext (q : Sender) (dir ctx : Byte)
  /-- STREAM_CLEAR (R368). -/
  | streamClear (q : Sender) (dir ctx : Byte)
  /-- TAP_SET (R364). -/
  | tapSet (q : Sender) (c : TapSet)
  /-- TAP_GET (R368). -/
  | tapGet (q : Sender) (tap : Byte)
  /-- TAP_WINDOW_END (R364). -/
  | tapWindowEnd (tap : Fin 16)
  /-- PACKET_LAUNCH (R346). -/
  | packetLaunch (ctx : Fin 256)
  /-- MEDIA_PACKET_RECEIVED (R353). -/
  | mediaPacketReceived (port : Fin 4) (frame : List Byte) (t : Stamp)
  /-- STREAM_RX_STOPPED (R360). -/
  | streamRxStopped (ctx : Fin 256)
  /-- STM_CTX_STAT_READ (R366). -/
  | stmCtxStatRead (q : Requester)
  /-- SAD_PATH_DOWN (R373). -/
  | sadPathDown (ctx : Fin 256) (pathB : Bool)
  /-- RED_SET_PAIR (R375). -/
  | redSetPair (q : Sender) (c : RedSetPair)
  /-- RED_SET_SHARED (R384). -/
  | redSetShared (q : Sender) (first : Half) (es : List SharedEntry)
  /-- SAD_SET_PATHDOWN (R373). -/
  | sadSetPathdown (q : Sender) (n : Half)
  /-- RED_HANDOVER (R378). -/
  | redHandover (q : Sender) (h : Word)
  /-- RED_FORCE_ACTIVE (R378). -/
  | redForceActive (q : Sender) (confirm : Word)
  /-- RED_RESYNC (R391). -/
  | redResync (q : Sender)
  /-- RED_GET_STATUS (R402). -/
  | redGetStatus (q : Sender)
  /-- HEARTBEAT_RECEIVED (R386). -/
  | heartbeatReceived (path : HbPath) (h : Heartbeat)
  /-- SILENCE_TIMEOUT (R387). -/
  | silenceTimeout (path : HbPath)
  /-- NORIL_WAVE_RECEIVED (R383). -/
  | norilWaveReceived (frame : WaveFrame)
  /-- MIRROR_CMD_RECEIVED (R389). -/
  | mirrorCmdReceived (m : MirrorCmd)
  /-- MIRROR_REC_RECEIVED (R390). -/
  | mirrorRecReceived (m : MirrorRec)
  /-- NORIL_ACK_RECEIVED (R382). -/
  | norilAckReceived (seq : Word)
  /-- SNAPSHOT_COMPLETE (R391). -/
  | snapshotComplete (wave : Word) (snap : Snapshot)
  /-- SYS_HELLO (R410). -/
  | sysHello (q : Sender) (newSession : Bool)
  /-- SYS_GET_INFO (R424). -/
  | sysGetInfo (q : Sender)
  /-- SYS_GET_OWNERSHIP (R424). -/
  | sysGetOwnership (q : Sender)
  /-- SYS_PROFILE_LOAD (R428). -/
  | sysProfileLoad (q : Sender) (c : ProfileLoad)
  /-- SYS_PROFILE_ERASE (R430). -/
  | sysProfileErase (q : Sender) (c : ProfileErase)
  /-- SYS_PROFILE_WRITE (R424). -/
  | sysProfileWrite (q : Sender) (c : FlashWrite)
  /-- SYS_PROFILE_SEAL (R424). -/
  | sysProfileSeal (q : Sender) (n : Byte)
  /-- SYS_PROFILE_LIST (R424). -/
  | sysProfileList (q : Sender)
  /-- TEARDOWN_RESET (R520). -/
  | teardownReset (sel : BitVec 3)
  /-- CMD_DOORBELL (R413). -/
  | cmdDoorbell (q : Requester) (m : Fin 4)
  /-- UDP_COMMAND_RECEIVED (R416). -/
  | udpCommandReceived (port : Fin 4) (frame : List Byte)
  /-- COMMAND_EXECUTION_END (R413). -/
  | commandExecutionEnd (q : Sender)
  /-- CMD_RSTAT_READ (R413). -/
  | cmdRstatRead (q : Requester) (m : Fin 4)
  /-- CMD_ACK_REPLY (R413). -/
  | cmdAckReply (q : Requester) (m : Fin 4)
  /-- CMD_ACK_RING (R422). -/
  | cmdAckRing (q : Requester) (m : Fin 4)
  /-- CMD_ACK_ALARM (R422). -/
  | cmdAckAlarm (q : Requester) (m : Fin 4)
  /-- MAILBOX_PACKET_WRITE (R413). -/
  | mailboxPacketWrite (q : Requester) (m : Fin 4) (word : Fin 1016) (w : Word)
  /-- SPI_FRAME (R415). -/
  | spiFrame (bytes : List Byte)
  /-- REGISTER_WRITE (R433). -/
  | registerWrite (q : Requester) (addr : Half) (w : Word) (whole : Bool)
  /-- WIDE_LO_READ (R436). -/
  | wideLoRead (q : Requester) (addr : Half)
  /-- WIDE_COUNTER_LO_WRITE (R437). -/
  | wideCounterLoWrite (q : Requester) (addr : Half) (w : Word)
  /-- WIDE_COUNTER_HI_WRITE (R437). -/
  | wideCounterHiWrite (q : Requester) (addr : Half) (w : Word)
  /-- SYS_LOCK (R442). -/
  | sysLock (q : Requester) (bits : Word)
  /-- CFG_CRC_COMMIT (R446). -/
  | cfgCrcCommit (q : Requester)
  /-- CFG_CRC_ENABLE (R446). -/
  | cfgCrcEnable (q : Requester) (on : Bool)
  /-- CFG_CRC_PASS (R445). -/
  | cfgCrcPass (result : Word)
  /-- IND_DATA_READ (R448). -/
  | indDataRead (q : Requester)
  /-- IND_DATA_WRITE (R448). -/
  | indDataWrite (q : Requester) (w : Word)
  /-- OSC_COMPARISON (R451). -/
  | oscComparison (b xo : Half)
  /-- LKT_SUP_KICK (R453). -/
  | lktSupKick (q : Requester) (w : Word)
  /-- SUMMIT_CORE_STOP (R453). -/
  | summitCoreStop (core1 : Bool)
  /-- SIGNAL_PATH (R454). -/
  | signalPath (src : Byte)
  /-- FAULT_REPORT (R462). -/
  | faultReport (src : Byte) (unit : Half)
  /-- ESCALATION_EXPIRY (R462). -/
  | escalationExpiry (rec : Fin 8)
  /-- CLAIM_TIME_EXPIRY (R462). -/
  | claimTimeExpiry (rec : Fin 8)
  /-- NOTED_EXPIRY (R462). -/
  | notedExpiry (rec : Fin 8)
  /-- LKT_CLAIM (R462). -/
  | lktClaim (q : Requester) (rec : Fin 8)
  /-- LKT_CLEAR (R464). -/
  | lktClear (q : Requester) (rec : Fin 8)
  /-- CORE_RESTART_COMPLETE (R514). -/
  | coreRestartComplete (digestOk : Bool)
  /-- FLT_GET_STATUS (R470). -/
  | fltGetStatus (q : Sender)
  /-- FLT_CLAIM (R462). -/
  | fltClaim (q : Sender) (rec : Byte)
  /-- FLT_CLEAR (R464). -/
  | fltClear (q : Sender) (rec : Byte)
  /-- FLT_SET_CLASS (R459). -/
  | fltSetClass (q : Sender) (src cls act : Byte)
  /-- FLT_SET_TIMERS (R470). -/
  | fltSetTimers (q : Sender) (esc : Word) (claim : Half) (sup : Word)
  /-- FLT_GET_COUNTS (R470). -/
  | fltGetCounts (q : Sender) (first : Byte) (count : Half)
  /-- SEC_GET_STATUS (R491). -/
  | secGetStatus (q : Sender)
  /-- SEC_KEY_PROGRAM (R473). -/
  | secKeyProgram (q : Sender) (c : SecKeyProgram)
  /-- SEC_KEY_REVOKE (R474). -/
  | secKeyRevoke (q : Sender) (c : SecKeyRevoke)
  /-- SEC_ARB_ADVANCE (R481). -/
  | secArbAdvance (q : Sender) (c : SecArbAdvance)
  /-- SEC_FW_ERASE (R479). -/
  | secFwErase (q : Sender) (copy : Byte)
  /-- SEC_FW_WRITE (R479). -/
  | secFwWrite (q : Sender) (c : FlashWrite)
  /-- SEC_FW_VERIFY (R476). -/
  | secFwVerify (q : Sender) (copy : Byte)
  /-- SEC_DEBUG_CHALLENGE (R484). -/
  | secDebugChallenge (q : Sender)
  /-- SEC_DEBUG_UNLOCK (R484). -/
  | secDebugUnlock (q : Sender) (block : List Byte)
  /-- SEC_SET_LOCK (R490). -/
  | secSetLock (q : Sender) (bits : Word)
  /-- TW_GO (R495). -/
  | twGo (q : Requester) (bus : Fin 4)
  /-- TW_ABORT (R502). -/
  | twAbort (q : Requester) (bus : Fin 4)
  /-- TW_TRANSACTION_START (R496). -/
  | twTransactionStart (bus : Fin 4)
  /-- TW_TRANSACTION_END (R495). -/
  | twTransactionEnd (bus : Fin 4) (outcome : TwEnd)
  /-- TW_RETRY_DELAY (R497). -/
  | twRetryDelay (bus : Fin 4)
  /-- TW_ALERT_ASSERT (R500). -/
  | twAlertAssert (bus : Fin 4)
  /-- TW_ALERT_RELEASE (R501). -/
  | twAlertRelease (bus : Fin 4)
  /-- TW_ALERT_RESPONSE_READ (R500). -/
  | twAlertResponseRead (bus : Fin 4) (byte : Option Byte)
  /-- TWT_READ (R505). -/
  | twtRead (n : Byte)
  /-- TWT_WRITE (R505). -/
  | twtWrite (bytes : List Byte)
  /-- TWT_ALERT (R506). -/
  | twtAlert (q : Requester)
  /-- PORST_RELEASE (R516). -/
  | porstRelease (sel : BitVec 3) (iox : BitVec 9) (settled : Bool)
  /-- SYSRST_RELEASE (R513). -/
  | sysrstRelease (sel : BitVec 3)
  /-- DRAM_TRAINING_DONE (R557). -/
  | dramTrainingDone (ok : Bool) (bytes : BitVec 4) (rate : BitVec 5)
  /-- BOOT_PROFILE_APPLIED (R427). -/
  | bootProfileApplied (b : Bundle)
  /-- KA_DEEP_OFF (R520). -/
  | kaDeepOff (q : Requester)
  /-- KA_RESTART (R520). -/
  | kaRestart (q : Requester)
  /-- WAKE (R521). -/
  | wake (low : Bool)
  /-- TEST_EN (R541). -/
  | testEn (high : Bool) (sel : BitVec 3)
  /-- PCIE_PERST (R542). -/
  | pciePerst (high : Bool)
  /-- ILLEGAL_INSTRUCTION (R159). -/
  | illegalInstruction (e : Fin 24) (word : Long)
  /-- CORE_WATCHDOG_KICK (R453). -/
  | coreWatchdogKick (core1 : Bool)
  /-- PCIE_BAR2_ACCESS (R414). -/
  | pcieBar2Access (p : Fin 4) (addr : ColAddr) (n : Half) (data : Option (List Byte))
  /-- DMA_REQUEST_WITHDRAWAL (R218). -/
  | dmaRequestWithdrawal (line : Fin 128)
  /-- SAMPLE_EDGE (R27). -/
  | sampleEdge
  /-- MISS_BURST (R76). -/
  | missBurst
  /-- FABRIC_STALL (R76). -/
  | fabricStall
  /-- TRAP_STALL (R152). -/
  | trapStall
  /-- ACQUIRE_WINDOW_EXPIRY (R40). -/
  | acquireWindowExpiry
  /-- SLEW_COMPLETE (R44). -/
  | slewComplete
  /-- HOLDOVER_SPEC_EXPIRY (R52). -/
  | holdoverSpecExpiry
  /-- GOVERNOR_UPDATE (R81). -/
  | governorUpdate
  /-- CORE_UV (R79). -/
  | coreUv
  /-- BANK_BUILD_COMPLETE (R101). -/
  | bankBuildComplete
  /-- RESERVATION_EXPIRY (R101). -/
  | reservationExpiry
  /-- CROSSFADE_END (R112). -/
  | crossfadeEnd
  /-- BANK_HALT_END (R111). -/
  | bankHaltEnd
  /-- PTP_SET_TIME_APPLY (R326). -/
  | ptpSetTimeApply
  /-- CLAIM_WINDOW_EXPIRY (R378). -/
  | claimWindowExpiry
  /-- HEARTBEAT_SEND (R385). -/
  | heartbeatSend
  /-- NORIL_LINK_UP (R380). -/
  | norilLinkUp
  /-- NORIL_LINK_DOWN (R380). -/
  | norilLinkDown
  /-- NORIL_WAVE_SEND (R383). -/
  | norilWaveSend
  /-- NORIL_WAVE_MISSING (R383). -/
  | norilWaveMissing
  /-- MIRROR_PERIOD_BOUNDARY (R390). -/
  | mirrorPeriodBoundary
  /-- NORIL_ACK_SEND (R382). -/
  | norilAckSend
  /-- NORIL_RETRANSMIT (R382). -/
  | norilRetransmit
  /-- JOIN_RECEIVED (R391). -/
  | joinReceived
  /-- SAMPLE_EDGE_TIMEOUT (R451). -/
  | sampleEdgeTimeout
  /-- SUP_WATCHDOG (R453). -/
  | supWatchdog
  /-- SUP_LOCKSTEP (R453). -/
  | supLockstep
  /-- DEBUG_NONCE_EXPIRY (R484). -/
  | debugNonceExpiry
  /-- DRBG_HEALTH_FAIL (R482). -/
  | drbgHealthFail
  /-- PRIVATE_JTAG_INSTRUCTION (R483). -/
  | privateJtagInstruction
  /-- BOUNDARY_TEST_SELECT (R485). -/
  | boundaryTestSelect
  /-- TWT_PROTOCOL_ERROR (R505). -/
  | twtProtocolError
  /-- TWT_SCL_TIMEOUT (R505). -/
  | twtSclTimeout
  /-- TWT_ALERT_RESPONSE (R506). -/
  | twtAlertResponse
  /-- PORST_ASSERT (R513). -/
  | porstAssert
  /-- SYSRST_ASSERT (R513). -/
  | sysrstAssert
  /-- BOOT_OTP_SENSED (R516). -/
  | bootOtpSensed
  /-- TARN_ZERO_FILL_DONE (R516). -/
  | tarnZeroFillDone
  /-- DRAM_ECC_INIT_DONE (R516). -/
  | dramEccInitDone
  /-- BOOT_FW_VERIFIED (R477). -/
  | bootFwVerified
  /-- BOOT_COMMAND_NEXT (R427). -/
  | bootCommandNext
  /-- BOOT_ACQUIRE_WAIT_END (R517). -/
  | bootAcquireWaitEnd
  /-- PWR_EN_REASSERT (R521). -/
  | pwrEnReassert
  /-- VKA_POWER_ON (R523). -/
  | vkaPowerOn
  /-- DRAM_RETRAIN (R557). -/
  | dramRetrain
  /-- FDB_AGE_OUT (R291). -/
  | fdbAgeOut (addr : BitVec 48) (vlan : Half) (domain : Bool)
  /-- PREEMPT_VERIFY (R296). -/
  | preemptVerify (port : Fin 4) (outcome : VerifyEnd)
  /-- PAUSE_EXPIRY (R297). -/
  | pauseExpiry (port : Fin 4)
  /-- PAUSE_WATCHDOG (R298). -/
  | pauseWatchdog (port : Fin 4)
  /-- PAUSE_RELEASE_END (R298). -/
  | pauseReleaseEnd (port : Fin 4)
  /-- PAUSE_TX_REPEAT (R300). -/
  | pauseTxRepeat (port : Fin 4)
  /-- ASRC_LOCK (R253). -/
  | asrcLock (group : Fin 8)
  /-- ASRC_RATE_MEASURE (R254). -/
  | asrcRateMeasure (group : Fin 8) (ofs : Word)
  /-- STAGGER_LOCK (R268). -/
  | staggerLock (ch : Fin 16) (locked : Bool)
  /-- FSYNC_TIMEOUT (R240). -/
  | fsyncTimeout (port : Fin 64)
  /-- FOLLOW_UP_TIMEOUT (R317). -/
  | followUpTimeout (inst : Fin 2)
  /-- DELAY_RESP_TIMEOUT (R317). -/
  | delayRespTimeout (inst : Fin 2)
  /-- MASTER_DELAY_REQ_RECEIVED (R320). -/
  | masterDelayReqReceived (inst : Fin 2) (domain : Byte) (source : BitVec 80) (seq : Half) (correction : Long) (t : Stamp)
  /-- SHARED_CHANNEL_FADE (R384). -/
  | sharedChannelFade (index : Fin 512)
  /-- COL_PORT_GATE (R211). -/
  | colPortGate (target : Bool) (port : Fin 20)
  /-- PATROL_SCRUB (R202). -/
  | patrolScrub (word : BitVec 23) (err : WordErr)
  /-- TW_STRETCH_TIMEOUT (R498). -/
  | twStretchTimeout (bus : Fin 4) (done : BitVec 6) (freed : Bool)
  /-- TW_SCL_STUCK_TIMEOUT (R499). -/
  | twSclStuckTimeout (bus : Fin 4)
  /-- TW_STUCK_RECOVERY_REPEAT (R499). -/
  | twStuckRecoveryRepeat (bus : Fin 4) (freed : Bool)
  /-- BUS_STUCK_CLEAR (R499). -/
  | busStuckClear (bus : Fin 4)
  /-- SOURCE_UNMASK (R454). -/
  | sourceUnmask (src : Byte)
  /-- PAIR_PULSE_TEST (R455). -/
  | pairPulseTest (failing : BitVec 256)
  /-- MIRROR_REPLY_TIMEOUT (R389). -/
  | mirrorReplyTimeout (q : Sender)
  /-- PEER_OUTCOME_REPORT (R389). -/
  | peerOutcomeReport (q : Sender)
  /-- RETRIES_RESET (R275). -/
  | retriesReset (ch : Fin 16)
  /-- CURRENT_LIMIT (R274). -/
  | currentLimit (ch : Fin 16)
  /-- GAIN_ZC_TIMEOUT (R116). -/
  | gainZcTimeout (e : Fin 24) (cell : Half)
  /-- MNOP (R168). -/
  | mnop (e : Fin 24) (rest : MacRest)
  /-- MPY (R168). -/
  | mpy (e : Fin 24) (acc : BitVec 2) (ty : BitVec 3) (sa sb : BitVec 4) (rest : MacRest)
  /-- MAC (R168). -/
  | mac (e : Fin 24) (acc : BitVec 2) (ty : BitVec 3) (sa sb : BitVec 4) (rest : MacRest)
  /-- LDA (R168). -/
  | lda (e : Fin 24) (acc : BitVec 2) (ty : BitVec 3) (sa : BitVec 4) (rest : MacRest)
  /-- ADDA (R168). -/
  | adda (e : Fin 24) (acc : BitVec 2) (ty : BitVec 3) (sa : BitVec 4) (rest : MacRest)
  /-- SHA (R168). -/
  | sha (e : Fin 24) (acc : BitVec 2) (sh : BitVec 4) (rest : MacRest)
  /-- NRW (R168). -/
  | nrw (e : Fin 24) (acc : BitVec 2) (vd : BitVec 3) (sh : BitVec 4) (rest : MacRest)
  /-- DNRW (R168). -/
  | dnrw (e : Fin 24) (acc : BitVec 2) (vd : BitVec 3) (sh : BitVec 4) (rest : MacRest)
  /-- NRWC (R168). -/
  | nrwc (e : Fin 24) (acc : BitVec 2) (vd : BitVec 3) (sh : BitVec 4) (rest : MacRest)
  /-- NRWE (R168). -/
  | nrwe (e : Fin 24) (acc : BitVec 2) (vd : BitVec 3) (rest : MacRest)
  /-- ADD (R169). -/
  | add (e : Fin 24) (vd : BitVec 3) (sa sb : BitVec 4) (rest : MacRest)
  /-- SUB (R169). -/
  | sub (e : Fin 24) (vd : BitVec 3) (sa sb : BitVec 4) (rest : MacRest)
  /-- MAX (R169). -/
  | max (e : Fin 24) (vd : BitVec 3) (sa sb : BitVec 4) (rest : MacRest)
  /-- MIN (R169). -/
  | min (e : Fin 24) (vd : BitVec 3) (sa sb : BitVec 4) (rest : MacRest)
  /-- ABS (R169). -/
  | abs (e : Fin 24) (vd : BitVec 3) (sa : BitVec 4) (rest : MacRest)
  /-- NEG (R169). -/
  | neg (e : Fin 24) (vd : BitVec 3) (sa : BitVec 4) (rest : MacRest)
  /-- AND (R169). -/
  | and (e : Fin 24) (vd : BitVec 3) (sa sb : BitVec 4) (rest : MacRest)
  /-- OR (R169). -/
  | or (e : Fin 24) (vd : BitVec 3) (sa sb : BitVec 4) (rest : MacRest)
  /-- XOR (R169). -/
  | xor (e : Fin 24) (vd : BitVec 3) (sa sb : BitVec 4) (rest : MacRest)
  /-- SHL (R169). -/
  | shl (e : Fin 24) (vd : BitVec 3) (sa n : BitVec 4) (rest : MacRest)
  /-- SHR (R169). -/
  | shr (e : Fin 24) (vd : BitVec 3) (sa n : BitVec 4) (rest : MacRest)
  /-- SHV (R169). -/
  | shv (e : Fin 24) (vd : BitVec 3) (sa sb : BitVec 4) (rest : MacRest)
  /-- NORM (R170). -/
  | norm (e : Fin 24) (vd : BitVec 3) (sa : BitVec 4) (rest : MacRest)
  /-- EXPN (R170). -/
  | expn (e : Fin 24) (vd : BitVec 3) (sa : BitVec 4) (rest : MacRest)
  /-- SEL (R169). -/
  | sel (e : Fin 24) (vd : BitVec 3) (sa sb : BitVec 4) (rest : MacRest)
  /-- SNOP (R171). -/
  | snop (e : Fin 24) (rest : ShortRest)
  /-- LDV (R171). -/
  | ldv (e : Fin 24) (vd : BitVec 3) (rest : ShortRest)
  /-- ST (R171). -/
  | st (e : Fin 24) (vs : BitVec 3) (lane : BitVec 2) (rest : ShortRest)
  /-- CPY (R171). -/
  | cpy (e : Fin 24) (rest : ShortRest)
  /-- MOVV (R171). -/
  | movv (e : Fin 24) (vd vs : BitVec 3) (rest : ShortRest)
  /-- MOVSV (R171). -/
  | movsv (e : Fin 24) (sd vs : BitVec 3) (lane : BitVec 2) (rest : ShortRest)
  /-- BCST (R171). -/
  | bcst (e : Fin 24) (vd ss : BitVec 3) (rest : ShortRest)
  /-- WAITF (R147). -/
  | waitf (e : Fin 24) (dirs : BitVec 2) (rest : ShortRest)
  /-- LNOP (R172). -/
  | lnop (e : Fin 24) (rest : LongRest)
  /-- BR (R172). -/
  | br (e : Fin 24) (cond : BitVec 4) (target : BitVec 11) (rest : LongRest)
  /-- CALL (R172). -/
  | call (e : Fin 24) (sd : BitVec 3) (target : BitVec 11) (rest : LongRest)
  /-- RET (R172). -/
  | ret (e : Fin 24) (ss : BitVec 3) (rest : LongRest)
  /-- ADDSI (R172). -/
  | addsi (e : Fin 24) (sd ss : BitVec 3) (imm : BitVec 11) (rest : LongRest)
  /-- ALUS (R172). -/
  | alus (e : Fin 24) (sd ss st op : BitVec 3) (rest : LongRest)
  /-- MOVA (R172). -/
  | mova (e : Fin 24) (cls : BitVec 2) (n sx : BitVec 3) (dir : Bool) (rest : LongRest)
  /-- MOVC (R172). -/
  | movc (e : Fin 24) (sd : BitVec 3) (src : BitVec 4) (rest : LongRest)
  /-- LDS (R172). -/
  | lds (e : Fin 24) (sd : BitVec 3) (rest : LongRest)
  /-- STS (R172). -/
  | sts (e : Fin 24) (ss : BitVec 3) (rest : LongRest)
  /-- MOVVS (R172). -/
  | movvs (e : Fin 24) (vd ss : BitVec 3) (lane : BitVec 2) (rest : LongRest)
  /-- SETDW (R172). -/
  | setdw (e : Fin 24) (b : BitVec 6) (rest : LongRest)
  /-- LOOP (R173). -/
  | loop (e : Fin 24) (ss : BitVec 3) (len : BitVec 11)
  /-- LOOPI (R173). -/
  | loopi (e : Fin 24) (count : Half) (len : BitVec 11)
  /-- SETA (R173). -/
  | seta (e : Fin 24) (cls : BitVec 2) (n : BitVec 3) (value : Half)
  /-- MOVI (R173). -/
  | movi (e : Fin 24) (sd : BitVec 3) (imm : Word)
  /-- FAR (R145). -/
  | far (e : Fin 24) (out toY : Bool) (pn ss : BitVec 3) (lines : Byte)
  /-- SEED (R144). -/
  | seed (e : Fin 24) (ss : BitVec 3)
  /-- END (R150). -/
  | endEntry (e : Fin 24)
  deriving DecidableEq, Repr

end Sys2Proof
end

