-- ==== Sys2Proof/Machine/State.lean ====
section
/-! DEFINITION. The machine's state as plain data, its value right after reset, and the ways a step can stop. -/

namespace Sys2Proof.Machine

/-- Faults. No command of this block stops the machine with a fault of the model: every error that the spec describes is
an effect on the state (an error flag, a status, a record of Lookout). -/
inductive Fault where
  /-- Raised by nothing; it keeps the type inhabited. Safe. -/
  | unreachable
  deriving DecidableEq, Repr

/-- Refusals. -/
inductive Refusal where
  /-- The command has no meaning in the model yet. Raised by `exec` alone. Safe. -/
  | notModelled (mnemonic : String)
  /-- A private JTAG instruction while debug is OPEN acts on the Summit cores and on Col, and the spec does not say how
  (R483). Raised by `execPrivateJtagInstruction`. Safe. -/
  | debugUnit
  deriving DecidableEq, Repr

/-- The whole state. -/
structure State where
  lkt : Lkt
  pst : Pst
  sys : Sys
  cmds : List PartCmd
  own : Own
  sec : Sec
  flash : Flash
  boot : Boot
  ka : Ka
  pins : Pins
  pws : Pws
  tdm : Tdm
  fab : Fab
  wave : Wave
  rdg : Rdg
  crn : Crn
  mtx : Mtx
  col : Col
  dma : Dma
  net : Net
  ptp : Ptp
  stm : Stm
  red : Red
  tw : Tw
  mem : Mem
  /-- How many free values have been drawn (the model's own). -/
  fresh : Nat
  /-- The commands that wait, first in, first out. -/
  pending : List Instr
  deriving DecidableEq, Repr

/-- A drawn session: any non-zero word other than the one it replaces (R408). -/
def pickSession (old w : Word) : Word :=
  if w ≠ 0 ∧ w ≠ old then w
  else if w + 1 ≠ 0 ∧ w + 1 ≠ old then w + 1
  else w + 2

/-- The machine right after reset: the instant 0 of R516, with nothing pending (log 1). -/
def State.reset : State :=
  { lkt := Lkt.init, pst := Pst.init, sys := Sys.init
    cmds := [PartCmd.init (pickSession 0 (Config.freeWord 0)), PartCmd.init (pickSession 0 (Config.freeWord 1)),
      PartCmd.init (pickSession 0 (Config.freeWord 2)), PartCmd.init (pickSession 0 (Config.freeWord 3))]
    own := Own.init, sec := Sec.init, flash := Flash.init, boot := Boot.init, ka := Ka.init, pins := Pins.init, pws := Pws.init, tdm := Tdm.init, fab := Fab.init
    wave := Wave.init, rdg := Rdg.init, crn := Crn.init, mtx := Mtx.init, col := Col.init, dma := Dma.init, net := Net.init, ptp := Ptp.init, stm := Stm.init, red := Red.init, tw := Tw.init, mem := Mem.init
    fresh := 4, pending := [] }

end Sys2Proof.Machine
end

