-- ==== Sys2Proof/Machine/Ops.lean ====
section
/-! DEFINITION. The named operations that the meanings share: whether the block is out of reset, free values, owners,
accessors of numbered units, slot gates at a Lookout mute, and replies. -/

namespace Sys2Proof.Machine

/-- The LKT, SYS and CORE01 domains are in reset: PORST_N or SYSRST_N low (R513), TEST_EN high (R541), deep-off (R520). -/
def State.held (s : State) : Bool := !s.pins.porstN || !s.pins.sysrstN || s.pins.testEn || s.ka.deepOff

/-- A command of a domain that is held in reset changes nothing (R513, R520, R541). -/
def whenUp (s t : State) : State := if s.held then s else t

/-- The next free word, and the state with the draw counted. -/
def draw (s : State) : Word × State := (Config.freeWord s.fresh, { s with fresh := s.fresh + 1 })

/-- `n` free words. -/
def drawN (s : State) (n : Nat) : List Word × State :=
  ((List.range n).map fun i => Config.freeWord (s.fresh + i), { s with fresh := s.fresh + n })

/-- A reply of status OK. -/
def Reply.ok (payload : List Byte) : Reply := { status := .ok, payload := payload }

/-- A reply that carries a status alone. -/
def Reply.code (st : Status) : Reply := { status := st, payload := [] }

/-- The status codes of R418. -/
def Status.byte : Status → Byte
  | .ok => 0x00 | .pending => 0x01 | .busy => 0x02 | .badOpcode => 0x10 | .badLength => 0x11 | .badParam => 0x12
  | .notOwner => 0x13 | .locked => 0x14 | .authFail => 0x20 | .replay => 0x21 | .noResource => 0x30
  | .graphReject => 0x31 | .timeout => 0x40 | .internal => 0x7F

/-- The place of a unit in the ownership section (R426). -/
def Res.place : Res → Nat
  | .tdmGroup g => g
  | .txCtx c => 8 + c
  | .rxCtx c => 264 + c
  | .cluster c => 520 + c
  | .column c => 526 + c
  | .pwsCh c => 1038 + c
  | .dmaCh c => 1054 + c
  | .tw c => 1085 + c
  | .rxRing r => 1088 + r
  | .txRing r => 1095 + r
  | .alarm a => 1103 + a
  | .tap t => 1111 + t

/-- The owner of a unit (R22): TW0 and host rings 0 belong to partition 0 only. -/
def ownerOf (s : State) (r : Res) : Nat :=
  match r with
  | .tw 0 => 0
  | .rxRing 0 => 0
  | .txRing 0 => 0
  | _ => Store.look 0 s.own.owners r.place

/-- Partition `p` owns every unit of a list (R23). -/
def ownsAll (s : State) (p : Nat) (rs : List Res) : Bool := rs.all fun r => ownerOf s r = p

/-- Microseconds on Lookout's timers since reset. -/
def State.time (s : State) : Nat := s.lkt.now

/-- The current MCNT (R27). -/
def State.mcnt (s : State) : Word := s.pst.mcnt

/-- The media rate in hertz for a RATE code (R53). -/
def rateHz : Nat → Nat
  | 0 => 44100
  | 1 => 48000
  | 2 => 88200
  | 3 => 96000
  | _ => 192000

/-- The media rate in effect. -/
def State.fs (s : State) : Nat := rateHz s.pst.rate

/-- Samples in a time of milliseconds, rounded up (R248). -/
def samplesOfMs (fs ms : Nat) : Nat := (ms * fs + 999) / 1000

/-- One partition's command state. -/
def State.part (s : State) (p : Nat) : PartCmd := s.cmds.getD p (PartCmd.init 0)

def State.setPart (s : State) (p : Nat) (c : PartCmd) : State := { s with cmds := s.cmds.set p c }

def State.record (s : State) (g : Nat) : Record := Store.look Record.init s.lkt.records g

def State.setRecord (s : State) (g : Nat) (r : Record) : State :=
  { s with lkt := { s.lkt with records := Store.put Record.init s.lkt.records g r } }

def State.port (s : State) (n : Nat) : Port := Store.look Port.init s.tdm.ports n

def State.setPort (s : State) (n : Nat) (p : Port) : State :=
  { s with tdm := { s.tdm with ports := Store.put Port.init s.tdm.ports n p } }

def State.group (s : State) (g : Nat) : Group := Store.look Group.init s.tdm.groups g

def State.setGroup (s : State) (g : Nat) (x : Group) : State :=
  { s with tdm := { s.tdm with groups := Store.put Group.init s.tdm.groups g x } }

def State.pwsCh (s : State) (c : Nat) : PwsCh := Store.look PwsCh.init s.pws.ch c

def State.setPwsCh (s : State) (c : Nat) (x : PwsCh) : State :=
  { s with pws := { s.pws with ch := Store.put PwsCh.init s.pws.ch c x } }

def State.shadow (s : State) (q : Nat) : Shadow := Store.look Shadow.init s.sys.shadows q

def State.setShadow (s : State) (q : Nat) (x : Shadow) : State :=
  { s with sys := { s.sys with shadows := Store.put Shadow.init s.sys.shadows q x } }

/-- The gate of an enabled transmit slot when every transmit slot fades to 0 with a timeout of 0 (R457, R428): a slot
already silent stays so, and a start gate still waiting is abandoned (R465). -/
def Gate.fadeNow : Gate → Gate
  | .closed => .closed
  | .opening => .closed
  | .fadeIn i => .fadeOut (32 - min i 32)
  | .isOpen => .fadeOut 0
  | .closing => .fadeOut 0
  | .fadeOut i => .fadeOut i

/-- The start gate of a slot (R248); a running fade out reverses from the gain in effect (R465). -/
def Gate.start (timeoutMs : Nat) : Gate → Gate
  | .closed => if timeoutMs = 0 then .fadeIn 0 else .opening
  | .opening => .opening
  | .fadeIn i => .fadeIn i
  | .isOpen => .isOpen
  | .closing => .isOpen
  | .fadeOut i => .fadeIn (32 - min i 32)

/-- The stop gate of a slot (R248); a slot that has not yet opened closes at once (R247). -/
def Gate.stop (timeoutMs : Nat) : Gate → Gate
  | .closed => .closed
  | .opening => .closed
  | .fadeIn i => .fadeOut (32 - min i 32)
  | .isOpen => if timeoutMs = 0 then .fadeOut 0 else .closing
  | .closing => .closing
  | .fadeOut i => .fadeOut i

/-- Change the gates of the slots of a mask. -/
def gateSlots (st : Store Slot) (mask : Word) (f : Gate → Gate) : Store Slot :=
  Store.updAll Slot.init st (bitsOf mask) fun x => { x with gate := f x.gate }

/-- Fade every transmit slot of every port to 0 with a timeout of 0, and hold it there (R428, R457). -/
def fadeAllTx (s : State) : State :=
  { s with tdm := { s.tdm with
      muted := true
      ports := Store.mapAll Port.init s.tdm.ports fun _ p => { p with tx := gateSlots p.tx p.txMask Gate.fadeNow } } }

/-- The transmit slots of a port that a silencing phase does not close (R246). -/
def Port.txKept (p : Port) : Word :=
  match p.commit with
  | some (_, tx, .silencing) => p.txMask &&& tx
  | _ => p.txMask

/-- Open every enabled transmit slot of every running port under its start gate when a Lookout mute ends (R464). -/
def openAllTx (s : State) : State :=
  { s with tdm := { s.tdm with
      muted := false
      ports := Store.mapAll Port.init s.tdm.ports fun _ p =>
        if p.state = .running ∨ p.state = .starting then
          { p with tx := gateSlots p.tx p.txKept (Gate.start p.gateMs) }
        else p } }

end Sys2Proof.Machine
end

