-- ==== Sys2Proof/Machine/Keys.lean ====
section
/-! DEFINITION. The keys in use (R471 to R474). -/

namespace Sys2Proof.Machine

/-- The key in the higher-numbered slot, of two from `base`, that is programmed and not revoked (R472). -/
def keyInUse {w : Nat} (keys : Store (BitVec 256)) (prog revoked : BitVec w) (base : Nat) : Option (BitVec 256) :=
  let ok (i : Nat) : Bool := prog.getLsbD i && !revoked.getLsbD i
  if ok (base + 1) then some (Store.look 0 keys (base + 1))
  else if ok base then some (Store.look 0 keys base)
  else none

/-- The key of a partition; none for an unkeyed one. -/
def partKey (s : State) (p : Nat) : Option (BitVec 256) :=
  keyInUse s.sec.otp.partKeys s.sec.otp.partProg s.sec.otp.partRevoked (2 * p)

/-- The pair key; none for an unkeyed pair. -/
def pairKey? (s : State) : Option (BitVec 256) :=
  keyInUse s.sec.otp.pairKeys s.sec.otp.pairProg s.sec.otp.pairRevoked 0

/-- The heartbeat tag of a message (R385); zeros for an unkeyed pair (log 43). -/
def pairTag (s : State) (bs : List Byte) : BitVec 128 :=
  match pairKey? s with
  | some k => Config.aesCmac k bs
  | none => 0

end Sys2Proof.Machine
end

