-- ==== Sys2Proof/Machine/Faults.lean ====
section
/-! DEFINITION. Reporting a fault to Lookout (R456 to R463): the source table, records, routing and hardware actions.
Every block's meanings call `reportFault`. -/

namespace Sys2Proof.Machine

/-- Class, action and whether the source is fixed, for the sources of R458; none for an unused number. -/
def sourceInfo (src : Nat) : Option (Cls × Act × Bool) :=
  if src = 0x000 then some (.service, .none, false)
  else if 0x001 ≤ src ∧ src ≤ 0x004 then some (.severe, .failSilent, true)
  else if src = 0x005 ∨ src = 0x006 then some (.service, .domainReset, false)
  else if src = 0x007 ∨ src = 0x008 then some (.service, .none, false)
  else if 0x020 ≤ src ∧ src ≤ 0x026 then some (.notice, .none, false)
  else if src = 0x027 ∨ src = 0x028 ∨ src = 0x02A then some (.service, .none, false)
  else if src = 0x029 ∨ src = 0x02B then some (.notice, .none, false)
  else if src = 0x040 ∨ src = 0x046 then some (.notice, .none, false)
  else if src = 0x041 ∨ src = 0x042 ∨ src = 0x045 then some (.service, .none, false)
  else if src = 0x043 ∨ src = 0x044 ∨ src = 0x05F then some (.severe, .failSilent, true)
  else if 0x047 ≤ src ∧ src ≤ 0x05E then some (.service, .none, false)
  else if src = 0x060 ∨ src = 0x063 ∨ src = 0x069 then some (.notice, .none, false)
  else if src = 0x061 ∨ src = 0x062 ∨ src = 0x065 ∨ src = 0x066 ∨ src = 0x067 ∨ src = 0x06A ∨ src = 0x06B then
    some (.service, .none, false)
  else if src = 0x064 then some (.severe, .failSilent, true)
  else if src = 0x068 then some (.service, .mute, false)
  else if 0x080 ≤ src ∧ src ≤ 0x08F then some (.service, .none, false)
  else if 0x090 ≤ src ∧ src ≤ 0x09F then some (.notice, .none, false)
  else if src = 0x0A0 then some (.notice, .none, false)
  else if src = 0x0A1 ∨ src = 0x0A2 then some (.service, .chMute, false)
  else if src = 0x0A3 ∨ src = 0x0A4 then some (.service, .none, false)
  else if 0x0B0 ≤ src ∧ src ≤ 0x0B3 then some (.service, .none, false)
  else if 0x0B4 ≤ src ∧ src ≤ 0x0C3 then some (.notice, .none, false)
  else if src = 0x0C4 ∨ src = 0x0C5 then some (.service, .none, false)
  else if 0x0C6 ≤ src ∧ src ≤ 0x0C8 then some (.notice, .none, false)
  else if src = 0x0D0 ∨ src = 0x0D2 ∨ src = 0x0D3 then some (.notice, .none, false)
  else if src = 0x0D1 ∨ src = 0x0D4 then some (.service, .none, false)
  else if 0x0E0 ≤ src ∧ src ≤ 0x0E4 then some (.service, .none, false)
  else if 0x0E5 ≤ src ∧ src ≤ 0x0E9 then some (.notice, .none, false)
  else if 0x0F0 ≤ src ∧ src ≤ 0x0F3 then some (.service, .none, false)
  else if src = 0x0F4 ∨ src = 0x0F8 ∨ src = 0x0F9 then some (.notice, .none, false)
  else if src = 0x0FA ∨ src = 0x0FB then some (.service, .none, false)
  else none

/-- The class and action in effect (R459): a fixed source keeps its own. -/
def classOf (s : State) (src : Nat) : Option (Cls × Act) :=
  match sourceInfo src with
  | none => none
  | some (c, a, fixed) =>
    if fixed then some (c, a)
    else match Store.look none s.lkt.classes src with
      | some ca => some ca
      | none => some (c, a)

/-- The resource unit that a source and its instance name (R458, R460). -/
def instRes (src inst : Nat) : Option Res :=
  if 0x047 ≤ src ∧ src ≤ 0x05E then some (.cluster ((src - 0x047) / 4))
  else if src = 0x067 ∨ src = 0x069 then some (.dmaCh inst)
  else if 0x080 ≤ src ∧ src ≤ 0x09F then some (.tdmGroup (src % 8))
  else if 0x0A0 ≤ src ∧ src ≤ 0x0A2 then some (.pwsCh inst)
  else if src = 0x0C8 then some (.alarm inst)
  else if 0x0D0 ≤ src ∧ src ≤ 0x0D3 then some (.rxCtx inst)
  else if src = 0x0D4 then some (.tap inst)
  else if src = 0x0E5 ∨ src = 0x0E6 then some (.rxCtx inst)
  else if 0x0F0 ≤ src ∧ src ≤ 0x0F3 then some (.tw (src - 0x0F0))
  else none

/-- The partitions that a fault routes to: partition 0 and the owner of the instance (R460). -/
def routeOf (s : State) (src : Nat) (inst : Half) : BitVec 4 :=
  match instRes src inst.toNat with
  | none => 1
  | some r => 1 ||| BitVec.ofNat 4 (2 ^ ownerOf s r)

/-- The power-stage channels that a source names (R276, R457): its instance, or every channel for a bus condition. -/
def causeChannels (src : Nat) (inst : Half) : BitVec 16 :=
  if 0x0A0 ≤ src ∧ src ≤ 0x0A2 then BitVec.ofNat 16 (2 ^ (inst.toNat % 16))
  else if src = 0x0A3 ∨ src = 0x0A4 then 0xFFFF
  else 0

/-- DOMAIN_RESET (R457, R512, R514): cores 0 and 1 stop; replies and stored replies of the slots go; a command that
executes keeps its slot and completes with INTERNAL when the cores return (R417); the frames in ring 0 go. -/
def domainReset (s : State) : State :=
  let slot (c : CmdSlot) : CmdSlot :=
    if c.state = .pending ∧ c.waiting then c
    else if c.state = .pending then { c with result := some { status := .internal, payload := [] }, job := none, held := false }
    else CmdSlot.init
  { s with
    lkt := { s.lkt with coresRun := false }
    cmds := s.cmds.map fun p =>
      { p with mbox := slot p.mbox, udp := slot p.udp, area := if p.mbox.state = .pending then p.area else []
               dbIgnored := false }
    net := { s.net with rx := s.net.rx.set 0 { s.net.rx.getD 0 Ring.init with queue := [] } }
    boot := if s.boot.profileApplied ∧ !s.boot.bootDone then
        { s.boot with commands := [], failCode := 4, failSlot := s.boot.slot, failIndex := s.boot.index }
      else s.boot }

/-- Fail-silent (R21, R379, R397): the media port's waiting frames go, and the node leaves its pair's succession. -/
def goFailSilent (s : State) : State :=
  let keep (q : List QFrame) : List QFrame := q.filter fun f => f.ingress != 5
  { s with
    lkt := { s.lkt with failSilent := true }
    net := { s.net with ports := s.net.ports.map fun p =>
      { p with express := keep p.express, control := keep p.control, bulk := keep p.bulk } }
    red := { s.red with state := .failSilent, epochCurrent := false, handover := none } }

/-- Run one hardware action for record `g` (R457); the record notes it. -/
def runAction (a : Act) (g : Nat) (s : State) : State :=
  let r := s.record g
  match a with
  | .none => s
  | .mute => fadeAllTx (s.setRecord g { r with actions := r.actions ||| 1, muteHeld := true })
  | .chMute => s.setRecord g { r with actions := r.actions ||| 2, chMute := r.chMute ||| r.chCause }
  | .domainReset => domainReset (s.setRecord g { r with actions := r.actions ||| 4 })
  | .failSilent => goFailSilent (s.setRecord g { r with actions := r.actions ||| 8 })

/-- The group of a source and its bit within the group (R458). -/
def groupOf (src : Nat) : Nat := src / 32

/-- Count a fault in the source's own counter and in LKT_FAULT_CNT (R461). -/
def countFault (src : Nat) (s : State) : State :=
  { s with lkt := { s.lkt with
      faultCnt := s.lkt.faultCnt + 1
      srcCnt := Store.upd 0 s.lkt.srcCnt src satInc } }

/-- The rank of a class (R461). -/
def Cls.rank : Cls → Nat
  | .notice => 0
  | .service => 1
  | .severe => 2

/-- The higher of two classes (R461). -/
def Cls.higher (a b : Cls) : Cls := if a.rank < b.rank then b else a

/-- An action's bit in LKT_REC_ACTIONS (R469); NONE has none. -/
def Act.bit : Act → BitVec 4
  | .none => 0
  | .mute => 1
  | .chMute => 2
  | .domainReset => 4
  | .failSilent => 8

/-- The action that a fault recorded now leaves for the escalation: its own, where its class is SERVICE (R459, R462). -/
def dueOf (s : State) (src : Nat) : BitVec 4 :=
  match classOf s src with
  | some (.service, a) => a.bit
  | _ => 0

/-- Open a record with its first fault (R460). -/
def openRecord (s : State) (src : Nat) (inst : Half) (c : Cls) (st : RecState) : Record :=
  { Record.init with
    state := st, cls := c, claimedBy := 7, first := src, route := routeOf s src inst, inst := inst, mcnt := s.mcnt
    count := 1, time := BitVec.ofNat 32 s.time, escEnd := s.time + s.lkt.escTime, lastFault := s.time
    chCause := causeChannels src inst, due := dueOf s src }

/-- Merge a fault into an open record (R461). -/
def mergeRecord (s : State) (src : Nat) (inst : Half) (c : Cls) (r : Record) : Record :=
  { r with
    merged := setBit r.merged (src % 32) true, count := satInc r.count, route := r.route ||| routeOf s src inst
    cls := r.cls.higher c, lastFault := s.time, chCause := r.chCause ||| causeChannels src inst
    due := r.due ||| dueOf s src }

/-- The record after a fault of class `c` (the transition table of R462), and whether its source's action runs at once. -/
def faultRecord (s : State) (src : Nat) (inst : Half) (c : Cls) (r : Record) : Record × Bool :=
  let m := mergeRecord s src inst c r
  match r.state, c with
  | .idle, .notice => (openRecord s src inst c .noted, false)
  | .idle, .service => ({ openRecord s src inst c .raised with irq := true }, false)
  | .idle, .severe => ({ openRecord s src inst c .acted with irq := true }, true)
  | .noted, .notice => (m, false)
  | .noted, .service => ({ m with state := .raised, escEnd := s.time + s.lkt.escTime, irq := true }, false)
  | .noted, .severe => ({ m with state := .acted, irq := true }, true)
  | .raised, .severe => ({ m with state := .acted, irq := true }, true)
  | .raised, _ => (m, false)
  | .claimed, .severe => ({ m with state := .acted }, true)
  | .claimed, .service =>
    if r.claimExpired then
      ({ m with state := .raised, claimedBy := 7, claimExpired := false, escEnd := s.time + s.lkt.escTime, irq := true }, false)
    else ({ m with serviceSinceClaim := true }, false)
  | .claimed, .notice => (m, false)
  | .acted, .notice => (m, false)
  | .acted, _ => (m, true)

/-- A record becomes RAISED or ACTED while ALERT_ON_FAULT is set (R506). -/
def noteAlert (old new : RecState) (s : State) : State :=
  if old ≠ new ∧ (new = .raised ∨ new = .acted) ∧ s.tw.twt.alertOnFault then
    { s with tw := { s.tw with twt := { s.tw.twt with alertReq := true } } }
  else s

/-- Take one fault of a source into its group's record, whatever its mask (R460 to R462). -/
def recordFault (src : Nat) (inst : Half) (s : State) : State :=
  match classOf s src with
  | none => s
  | some (c, a) =>
    let old := s.record (groupOf src)
    let (r, act) := faultRecord s src inst c old
    let s1 := noteAlert old.state r.state (countFault src (s.setRecord (groupOf src) r))
    if act then runAction a (groupOf src) s1 else s1

/-- A source reports a fault: a masked source is not seen (R454, R465). -/
def reportFault (src : Nat) (inst : Half) (s : State) : State :=
  if s.lkt.srcMask.getLsbD src then s else recordFault src inst s

/-- The instance that a source's own number stands for (R458); 0xFFFF for none. -/
def ownInst (src : Nat) : Half :=
  if src = 0x005 ∨ src = 0x006 then BitVec.ofNat 16 (src - 0x005)
  else if 0x020 ≤ src ∧ src ≤ 0x025 then BitVec.ofNat 16 (src - 0x020)
  else if 0x047 ≤ src ∧ src ≤ 0x05E then BitVec.ofNat 16 (src - 0x047)
  else if 0x080 ≤ src ∧ src ≤ 0x09F then BitVec.ofNat 16 (src % 8)
  else if 0x0B0 ≤ src ∧ src ≤ 0x0C3 then BitVec.ofNat 16 (src % 4)
  else if 0x0C4 ≤ src ∧ src ≤ 0x0C7 then BitVec.ofNat 16 (src % 2)
  else if 0x0F0 ≤ src ∧ src ≤ 0x0F3 then BitVec.ofNat 16 (src % 4)
  else 0xFFFF#16

/-- Report a source whose number names its instance, or that has none. -/
def reportOwn (src : Nat) (s : State) : State := reportFault src (ownInst src) s

/-- Report a list of such sources. -/
def reportAll (srcs : List Nat) (s : State) : State := srcs.foldl (fun t src => reportOwn src t) s

/-- Run the action of every SERVICE fault of the record, each action once (R462). -/
def escalate (g : Nat) (s : State) : State :=
  let r := s.record g
  let s1 := noteAlert r.state .acted (s.setRecord g { r with state := .acted })
  ([Act.mute, .chMute, .domainReset, .failSilent].filter fun a => r.due &&& a.bit != 0).foldl (fun t a => runAction a g t) s1

/-- A Lookout mute is held (R457, R468). -/
def lookoutMute (s : State) : Bool := (List.range 8).any fun g => (s.record g).muteHeld

/-- A CH_MUTE holds channel `c` (R457). -/
def chMuted (s : State) (c : Nat) : Bool := (List.range 8).any fun g => (s.record g).chMute.getLsbD c

/-- FAULT_N is asserted: a record is RAISED or ACTED (R463), or the boot has halted (R478). -/
def faultAsserted (s : State) : Bool :=
  s.boot.halted || (List.range 8).any fun g =>
    decide ((s.record g).state = .raised) || decide ((s.record g).state = .acted)

end Sys2Proof.Machine
end

