-- ==== Sys2Proof/Machine/PairOps.lean ====
section
/-! DEFINITION. The pair's state as other blocks use it: leaving step (R396) and the CRCs of the active (R393, R395). -/

namespace Sys2Proof.Machine

/-- A STANDBY node leaves step with a cause (R396). -/
def leaveStep (cause : Nat) (s : State) : State :=
  if s.red.state = .standby then
    reportOwn 0x0E8 { s with red := { s.red with state := .observer, leaveCause := cause } }
  else s

/-- The entry of a list of CRCs for a closing wave and a context. -/
def crcOf (l : List (Word × List (Nat × Word))) (c : Word) (ctx : Nat) : Option (Option Word) :=
  (l.find? fun e => e.1 == c).map fun e => (e.2.find? fun x => x.1 == ctx).map Prod.snd

/-- Note the payload CRC of a packet that this node has closed (R393); the last 8 waves are kept. -/
def noteCrc (c : Word) (ctx : Nat) (crc : Word) (s : State) : State :=
  let old := ((s.red.ownCrcs.find? fun e => e.1 == c).map Prod.snd).getD []
  let rest := s.red.ownCrcs.filter fun e => e.1 != c
  { s with red := { s.red with ownCrcs := ((c, old ++ [(ctx, crc)]) :: rest).take 8 } }

/-- What a STANDBY or another node does with a packet it has built (R377, R395). -/
inductive Launch where
  | send
  | unverified
  | mismatch
  | link
  | discard
  deriving DecidableEq, Repr

/-- The decision of R377 and R395 for a packet with payload CRC `crc` of closing wave `c`. -/
def launchOf (s : State) (c : Word) (ctx : Nat) (early : Bool) (crc : Word) : Launch :=
  match s.red.state with
  | .unpaired => .send
  | .active => .send
  | .standby =>
    if early then .send
    else match crcOf s.red.peerCrcs c ctx with
      | some (some x) => if x = crc then .send else .mismatch
      | some none => .mismatch
      | none => if s.red.missing = some true then .link else .unverified
  | _ => .discard

/-- The node sends heartbeats and Noril frames (R21, R375, R385). -/
def paired (s : State) : Bool := s.red.pairId != 0 && !s.lkt.failSilent

end Sys2Proof.Machine
end

