-- ==== Sys2Proof/Machine/CairnWord.lean ====
section
/-! DEFINITION. The encoding of Cairn instruction words (R159 to R173): the fields of each slot, the 64-bit word, and its
decoding. A word that defines no operation, or has a non-zero unused field, decodes to none (R161). -/

namespace Sys2Proof

/-- The field of `n` bits at bit `lo` of a number. -/
def field (x lo n : Nat) : Nat := x / 2 ^ lo % 2 ^ n

/-- The 11 bits of an address-generator field (R162). -/
def Ag.code (g : Ag) : Nat :=
  g.mem.toNat * 512 + (if g.form then 256 else 0) + g.ptr.toNat * 32 + match g.mod with
    | .imm v => v.toNat
    | .m => 16

/-- The address-generator field of 11 bits; none for a reserved MOD, or for FORM without an access (R162). -/
def Ag.ofCode (x : Nat) : Option Ag :=
  let form := field x 8 1 == 1
  if field x 4 1 = 1 ∧ field x 0 4 ≠ 0 then none
  else if field x 9 2 = 0 ∧ form then none
  else some
    { mem := BitVec.ofNat 2 (field x 9 2), form := form, ptr := BitVec.ofNat 3 (field x 5 3)
      mod := if field x 4 1 = 1 then .m else .imm (BitVec.ofNat 4 (field x 0 4)) }

/-- The fields MOP, ACC, VD, SA and SB of a MAC-class slot (R160, R168, R169). -/
structure MacFields where
  mop : Nat
  acc : Nat
  vd : Nat
  sa : Nat
  sb : Nat
  deriving DecidableEq, Repr

def MacOp.fields : MacOp → MacFields
  | .mnop => ⟨0, 0, 0, 0, 0⟩
  | .mpy a t x y => ⟨1, a.toNat, t.toNat, x.toNat, y.toNat⟩
  | .mac a t x y => ⟨2, a.toNat, t.toNat, x.toNat, y.toNat⟩
  | .lda a t x => ⟨3, a.toNat, t.toNat, x.toNat, 0⟩
  | .adda a t x => ⟨4, a.toNat, t.toNat, x.toNat, 0⟩
  | .sha a x => ⟨5, a.toNat, 0, x.toNat, 0⟩
  | .nrw a d x => ⟨6, a.toNat, d.toNat, x.toNat, 0⟩
  | .dnrw a d x => ⟨7, a.toNat, d.toNat, x.toNat, 0⟩
  | .nrwc a d x => ⟨8, a.toNat, d.toNat, x.toNat, 0⟩
  | .nrwe a d => ⟨9, a.toNat, d.toNat, 0, 0⟩
  | .add d x y => ⟨0x10, 0, d.toNat, x.toNat, y.toNat⟩
  | .sub d x y => ⟨0x11, 0, d.toNat, x.toNat, y.toNat⟩
  | .max d x y => ⟨0x12, 0, d.toNat, x.toNat, y.toNat⟩
  | .min d x y => ⟨0x13, 0, d.toNat, x.toNat, y.toNat⟩
  | .abs d x => ⟨0x14, 0, d.toNat, x.toNat, 0⟩
  | .neg d x => ⟨0x15, 0, d.toNat, x.toNat, 0⟩
  | .and d x y => ⟨0x16, 0, d.toNat, x.toNat, y.toNat⟩
  | .or d x y => ⟨0x17, 0, d.toNat, x.toNat, y.toNat⟩
  | .xor d x y => ⟨0x18, 0, d.toNat, x.toNat, y.toNat⟩
  | .shl d x y => ⟨0x19, 0, d.toNat, x.toNat, y.toNat⟩
  | .shr d x y => ⟨0x1A, 0, d.toNat, x.toNat, y.toNat⟩
  | .shv d x y => ⟨0x1B, 0, d.toNat, x.toNat, y.toNat⟩
  | .norm d x => ⟨0x1C, 0, d.toNat, x.toNat, 0⟩
  | .expn d x => ⟨0x1D, 0, d.toNat, x.toNat, 0⟩
  | .sel d x y => ⟨0x1E, 0, d.toNat, x.toNat, y.toNat⟩

/-- The MAC-class slot of five fields, before the check that unused fields are zero. -/
def MacOp.ofMop (f : MacFields) : Option MacOp :=
  let a := BitVec.ofNat 2 f.acc
  let d := BitVec.ofNat 3 f.vd
  let x := BitVec.ofNat 4 f.sa
  let y := BitVec.ofNat 4 f.sb
  match f.mop with
  | 0 => some .mnop
  | 1 => some (.mpy a d x y)
  | 2 => some (.mac a d x y)
  | 3 => some (.lda a d x)
  | 4 => some (.adda a d x)
  | 5 => some (.sha a x)
  | 6 => some (.nrw a d x)
  | 7 => some (.dnrw a d x)
  | 8 => some (.nrwc a d x)
  | 9 => some (.nrwe a d)
  | 16 => some (.add d x y)
  | 17 => some (.sub d x y)
  | 18 => some (.max d x y)
  | 19 => some (.min d x y)
  | 20 => some (.abs d x)
  | 21 => some (.neg d x)
  | 22 => some (.and d x y)
  | 23 => some (.or d x y)
  | 24 => some (.xor d x y)
  | 25 => some (.shl d x y)
  | 26 => some (.shr d x y)
  | 27 => some (.shv d x y)
  | 28 => some (.norm d x)
  | 29 => some (.expn d x)
  | 30 => some (.sel d x y)
  | _ => none

/-- An operation whose own fields give the word back: every field that it does not use is zero (R161). -/
def MacOp.ofFields (f : MacFields) : Option MacOp :=
  match MacOp.ofMop f with
  | none => none
  | some m => if m.fields = f then some m else none

/-- The 11 bits of a short move (R160, R171). -/
def ShortMove.code : ShortMove → Nat
  | .snop => 0
  | .ldv d => 0x100 + d.toNat * 32
  | .st v j => 0x200 + v.toNat * 32 + j.toNat * 8
  | .cpy => 0x300
  | .movv d v => 0x400 + d.toNat * 32 + v.toNat * 4
  | .movsv d v j => 0x500 + d.toNat * 32 + v.toNat * 4 + j.toNat
  | .bcst d x => 0x600 + d.toNat * 32 + x.toNat * 4
  | .waitf d => 0x700 + d.toNat

def ShortMove.ofSmop (x : Nat) : ShortMove :=
  let d := BitVec.ofNat 3 (field x 5 3)
  let v := BitVec.ofNat 3 (field x 2 3)
  match field x 8 3 with
  | 0 => .snop
  | 1 => .ldv d
  | 2 => .st d (BitVec.ofNat 2 (field x 3 2))
  | 3 => .cpy
  | 4 => .movv d v
  | 5 => .movsv d v (BitVec.ofNat 2 (field x 0 2))
  | 6 => .bcst d v
  | _ => .waitf (BitVec.ofNat 2 (field x 0 2))

/-- The short move of 11 bits (R161). -/
def ShortMove.ofCode (x : Nat) : Option ShortMove :=
  if (ShortMove.ofSmop x).code = x then some (ShortMove.ofSmop x) else none

/-- The 22 bits of a long move (R160, R172). -/
def LongMove.code : LongMove → Nat
  | .lnop => 0
  | .br k t => 0x01 * 2 ^ 17 + k.toNat * 2 ^ 13 + t.toNat
  | .call d t => 0x02 * 2 ^ 17 + d.toNat * 2 ^ 14 + t.toNat
  | .ret r => 0x03 * 2 ^ 17 + r.toNat * 2 ^ 14
  | .addsi d r i => 0x04 * 2 ^ 17 + d.toNat * 2 ^ 14 + r.toNat * 2 ^ 11 + i.toNat
  | .alus d r t o => 0x05 * 2 ^ 17 + d.toNat * 2 ^ 14 + r.toNat * 2 ^ 11 + t.toNat * 2 ^ 8 + o.toNat
  | .mova k n r w => 0x06 * 2 ^ 17 + k.toNat * 2 ^ 15 + n.toNat * 2 ^ 12 + r.toNat * 2 ^ 9 + (if w then 256 else 0)
  | .movc d o => 0x07 * 2 ^ 17 + d.toNat * 2 ^ 14 + o.toNat
  | .lds d => 0x08 * 2 ^ 17 + d.toNat * 2 ^ 14
  | .sts r => 0x09 * 2 ^ 17 + r.toNat * 2 ^ 14
  | .movvs d r j => 0x0A * 2 ^ 17 + d.toNat * 2 ^ 14 + r.toNat * 2 ^ 11 + j.toNat
  | .setdw b => 0x0B * 2 ^ 17 + b.toNat

def LongMove.ofLop (x : Nat) : LongMove :=
  let d := BitVec.ofNat 3 (field x 14 3)
  let r := BitVec.ofNat 3 (field x 11 3)
  let t := BitVec.ofNat 11 (field x 0 11)
  match field x 17 5 with
  | 1 => .br (BitVec.ofNat 4 (field x 13 4)) t
  | 2 => .call d t
  | 3 => .ret d
  | 4 => .addsi d r t
  | 5 => .alus d r (BitVec.ofNat 3 (field x 8 3)) (BitVec.ofNat 3 (field x 0 3))
  | 6 => .mova (BitVec.ofNat 2 (field x 15 2)) (BitVec.ofNat 3 (field x 12 3)) (BitVec.ofNat 3 (field x 9 3))
      (field x 8 1 == 1)
  | 7 => .movc d (BitVec.ofNat 4 (field x 0 4))
  | 8 => .lds d
  | 9 => .sts d
  | 10 => .movvs d r (BitVec.ofNat 2 (field x 0 2))
  | 11 => .setdw (BitVec.ofNat 6 (field x 0 6))
  | _ => .lnop

/-- The long move of 22 bits (R161). -/
def LongMove.ofCode (x : Nat) : Option LongMove :=
  if (LongMove.ofLop x).code = x then some (LongMove.ofLop x) else none

/-- The 62 bits of a control operation (R160, R173). -/
def Control.code : Control → Nat
  | .loop r n => 0x01 * 2 ^ 56 + r.toNat * 2 ^ 53 + n.toNat
  | .loopi k n => 0x02 * 2 ^ 56 + k.toNat * 2 ^ 12 + n.toNat
  | .seta k n v => 0x03 * 2 ^ 56 + k.toNat * 2 ^ 54 + n.toNat * 2 ^ 51 + v.toNat
  | .movi d i => 0x04 * 2 ^ 56 + d.toNat * 2 ^ 53 + i.toNat
  | .far o y p r n => 0x05 * 2 ^ 56 + (if o then 2 ^ 55 else 0) + (if y then 2 ^ 54 else 0) + p.toNat * 2 ^ 51
      + r.toNat * 2 ^ 48 + n.toNat
  | .seed r => 0x06 * 2 ^ 56 + r.toNat * 2 ^ 53
  | .stop => 0x07 * 2 ^ 56

def Control.ofCop (x : Nat) : Control :=
  let r := BitVec.ofNat 3 (field x 53 3)
  let n := BitVec.ofNat 11 (field x 0 11)
  match field x 56 6 with
  | 1 => .loop r n
  | 2 => .loopi (BitVec.ofNat 16 (field x 12 16)) n
  | 3 => .seta (BitVec.ofNat 2 (field x 54 2)) (BitVec.ofNat 3 (field x 51 3)) (BitVec.ofNat 16 (field x 0 16))
  | 4 => .movi r (BitVec.ofNat 32 (field x 0 32))
  | 5 => .far (field x 55 1 == 1) (field x 54 1 == 1) (BitVec.ofNat 3 (field x 51 3)) (BitVec.ofNat 3 (field x 48 3))
      (BitVec.ofNat 8 (field x 0 8))
  | 6 => .seed r
  | _ => .stop

/-- The control operation of 62 bits (R161). -/
def Control.ofCode (x : Nat) : Option Control :=
  if (Control.ofCop x).code = x then some (Control.ofCop x) else none

/-- Bits [61:44] of formats A and B. -/
def MacOp.code (m : MacOp) : Nat :=
  let f := m.fields
  f.mop * 2 ^ 13 + f.acc * 2 ^ 11 + f.vd * 2 ^ 8 + f.sa * 2 ^ 4 + f.sb

def MacOp.ofCode (x : Nat) : Option MacOp :=
  MacOp.ofFields ⟨field x 13 5, field x 11 2, field x 8 3, field x 4 4, field x 0 4⟩

/-- The 64-bit instruction word (R159, R160). -/
def CWord.encode : CWord → Long
  | .a m x y z v => BitVec.ofNat 64
      (m.code * 2 ^ 44 + Ag.code x * 2 ^ 33 + Ag.code y * 2 ^ 22 + Ag.code z * 2 ^ 11 + v.code)
  | .b m x y v => BitVec.ofNat 64 (1 * 2 ^ 62 + m.code * 2 ^ 44 + Ag.code x * 2 ^ 33 + Ag.code y * 2 ^ 22 + v.code)
  | .c o => BitVec.ofNat 64 (2 * 2 ^ 62 + o.code)

/-- The instruction that a 64-bit word spells; none where R161 finds it undefined. -/
def CWord.decode (w : Long) : Option CWord :=
  let x := w.toNat
  match field x 62 2 with
  | 0 =>
    match MacOp.ofCode (field x 44 18), Ag.ofCode (field x 33 11), Ag.ofCode (field x 22 11), Ag.ofCode (field x 11 11),
      ShortMove.ofCode (field x 0 11) with
    | some m, some g0, some g1, some g2, some v => some (.a m g0 g1 g2 v)
    | _, _, _, _, _ => none
  | 1 =>
    match MacOp.ofCode (field x 44 18), Ag.ofCode (field x 33 11), Ag.ofCode (field x 22 11),
      LongMove.ofCode (field x 0 22) with
    | some m, some g0, some g1, some v => some (.b m g0 g1 v)
    | _, _, _, _ => none
  | 2 => (Control.ofCode (field x 0 62)).map CWord.c
  | _ => none

/-- An address-generator field that names an access. -/
def Ag.reads (g : Ag) : Bool := g.mem != 0

/-- FORM is 0 without an access (R162). -/
def Ag.ok (g : Ag) : Bool := g.reads || !g.form

/-- The operand selectors of a MAC-class slot (R163): SHL and SHR take an immediate in SB. -/
def MacOp.selectors : MacOp → List (BitVec 4)
  | .mpy _ _ x y | .mac _ _ x y => [x, y]
  | .lda _ _ x | .adda _ _ x => [x]
  | .add _ x y | .sub _ x y | .max _ x y | .min _ x y | .and _ x y | .or _ x y | .xor _ x y | .shv _ x y
  | .sel _ x y => [x, y]
  | .abs _ x | .neg _ x | .norm _ x | .expn _ x | .shl _ x _ | .shr _ x _ => [x]
  | .mnop | .sha _ _ | .nrw _ _ _ | .dnrw _ _ _ | .nrwc _ _ _ | .nrwe _ _ => []

/-- The type code is defined for the operation (R167). -/
def MacOp.typeOk : MacOp → Bool
  | .lda _ t _ | .adda _ t _ => t.toNat % 4 != 2
  | _ => true

/-- A selector is defined, given which slots supply an operand (R163). -/
def selectorOk (r0 r1 r2 : Bool) (x : BitVec 4) : Bool :=
  match x.toNat with
  | 8 => r0
  | 9 => r1
  | 10 => r2
  | n => decide (n < 14)

/-- A word whose every field is defined may still break a rule between its slots (R162, R163, R167, R171, R172). -/
def CWord.legal : CWord → Bool
  | .a m x y z v =>
    let writes := match v with
      | .st _ _ | .cpy => true
      | _ => false
    m.typeOk && x.ok && y.ok && z.ok && m.selectors.all (selectorOk x.reads y.reads (z.reads && !writes))
      && match v with
        | .ldv _ => z.reads
        | .st _ j => z.reads && (z.form || j == 0)
        | .cpy => z.reads && x.reads && x.form == z.form
        | .waitf d => d != 0
        | _ => true
  | .b m x y v =>
    let writes := match v with
      | .sts _ => true
      | _ => false
    m.typeOk && x.ok && y.ok && m.selectors.all (selectorOk x.reads (y.reads && !writes) false)
      && match v with
        | .br k _ => decide (k.toNat ≤ 8)
        | .movc _ o => decide (o.toNat ≤ 9)
        | .lds _ => y.reads && y.form
        | .sts _ => y.reads && y.form
        | _ => true
  | .c o => match o with
    | .seta k _ v =>
      if k.toNat = 1 then decide (-16384 ≤ v.toInt ∧ v.toInt ≤ 16383)
      else if k.toNat = 2 then decide (v.toNat ≤ 16384)
      else decide (v.toNat ≤ 0x3FFF)
    | _ => true

end Sys2Proof
end

