-- ==== Sys2Proof/Machine/MemoryOps.lean ====
section
/-! DEFINITION. Plain reads and writes of Tarn and DRAM by the device's own blocks (R199 to R204). -/

namespace Sys2Proof.Machine

/-- The 32-bit words that a byte range covers whole (R201). -/
def wholeWords (a n : Nat) : List Nat :=
  (List.range (n / 4 + 1)).filterMap fun i =>
    let w := (a + 3) / 4 + i
    if a ≤ 4 * w ∧ 4 * w + 4 ≤ a + n then some w else none

/-- Write bytes of Tarn; a word written whole holds no error any more (R201). -/
def Mem.writeTarn (m : Mem) (a : Nat) (bs : List Byte) : Mem :=
  { m with
    tarn := Memory.writeBytes m.tarn a bs
    tarnBad := if m.tarnBad.isEmpty then [] else
      m.tarnBad.filter fun w => !(wholeWords a bs.length).contains w }

/-- Read bytes of Tarn. -/
def Mem.readTarn (m : Mem) (a n : Nat) : List Byte := Memory.readBytes m.tarn a n

/-- A word of Tarn, little-endian (R6). -/
def Mem.tarnWord (m : Mem) (a : Nat) : Word := BitVec.ofNat 32 (leNat (m.readTarn a 4))

/-- Write a word of Tarn. -/
def Mem.putWord (m : Mem) (a : Nat) (w : Word) : Mem := m.writeTarn a (le32 w)

/-- A byte range of Tarn meets a word that holds a double-bit error. -/
def Mem.tarnBadIn (m : Mem) (a n : Nat) : Bool := m.tarnBad.any fun w => decide (4 * w < a + n ∧ a < 4 * w + 4)

/-- A word of Tarn holds a double-bit error from now on; the list stays in rising order. -/
def Mem.markBad (m : Mem) (w : Nat) : Mem :=
  { m with tarnBad := m.tarnBad.filter (fun x => decide (x < w)) ++ w :: m.tarnBad.filter (fun x => decide (w < x)) }

/-- Write bytes of DRAM; a 32-byte line written whole holds no error any more (R204). -/
def Mem.writeDram (m : Mem) (a : Nat) (bs : List Byte) : Mem :=
  { m with
    dram := Memory.writeBytes m.dram a bs
    dramBad := m.dramBad.filter fun l => !decide (a ≤ 32 * l ∧ 32 * l + 32 ≤ a + bs.length) }

def Mem.readDram (m : Mem) (a n : Nat) : List Byte := Memory.readBytes m.dram a n

def Mem.dramBadIn (m : Mem) (a n : Nat) : Bool := m.dramBad.any fun l => decide (32 * l < a + n ∧ a < 32 * l + 32)

/-- The region of a fixed use that belongs to a partition. -/
def regionOf (s : State) (use : RegionUse) (part : Nat) : Option Region :=
  s.own.regions.find? fun r => r.use == use && r.owner == part

/-- The base of a region of a fixed use, whoever owns it; 0 where the profile names none. -/
def baseOf (s : State) (use : RegionUse) : Nat :=
  ((s.own.regions.find? fun r => r.use == use).map Region.base).getD 0

/-- A region owned by a partition holds a Col byte range (R208). -/
def inOwnRegion (s : State) (part a n : Nat) : Bool :=
  s.own.regions.any fun r => r.owner == part && decide (r.base ≤ a ∧ a + n ≤ r.base + r.size)

/-- A host-visible region of a partition holds a Col byte range (R208, R414). -/
def inHostRegion (s : State) (part a n : Nat) : Bool :=
  s.own.regions.any fun r => r.owner == part && r.hostVisible && decide (r.base ≤ a ∧ a + n ≤ r.base + r.size)

/-- The Col base of DRAM (R199). -/
def dramBase : Nat := 0x01_0000_0000

end Sys2Proof.Machine
end

