-- ==== Sys2Proof/Machine/ColErrors.lean ====
section
/-! DEFINITION. Col's targets and paths, and the record of an error response (R199, R203 to R207, R210, R211). -/

namespace Sys2Proof.Machine

/-- Usable DRAM in bytes: seven eighths of 1, 2, 4 or 8 GiB (R203); the profile's size code counts GiB (log 5). -/
def dramUsable (s : State) : Nat := s.own.dramSize * 0x4000_0000 / 8 * 7

/-- The target of a Col address; 31 is the default target (R199, R207). -/
def targetOf (s : State) (a : Nat) : Nat :=
  if a < 0x0200_0000 then a / 0x20_0000
  else if 0x4000_0000 ≤ a ∧ a < 0x4001_0000 then 17
  else if 0x6000_0000 ≤ a ∧ a < 0x6042_0000 then 19
  else if 0x8000_0000 ≤ a ∧ a < 0x9000_0000 then 18
  else if dramBase ≤ a ∧ a < dramBase + dramUsable s then 16
  else 31

/-- The staging windows of the gain store (R189). -/
def isStaging (a : Nat) : Bool := decide (0x6040_0000 ≤ a ∧ a < 0x6042_0000)

/-- A path from a master to a target for a read or a write (R206). -/
def pathOk (master target : Nat) (a : Nat) (write : Bool) : Bool :=
  if target < 16 then decide (master ≤ 12)
  else if target = 16 then decide (7 ≤ master ∧ master ≤ 12)
  else if target = 17 then decide (8 ≤ master ∧ master ≤ 11)
  else if target = 18 then !write && decide (7 ≤ master ∧ master ≤ 10)
  else if target = 19 then
    (master == 7 || master == 8 || master == 9 || master == 11) && (!write || isStaging a)
  else false

/-- Record an error response (R207, R229). -/
def colError (master target kind : Nat) (write : Bool) (a : Nat) (s : State) : State :=
  reportOwn 0x063 { s with col := { s.col with
    errTarget := target, errMaster := master, errKind := kind, errWrite := write, errAddr := a
    errCnt := s.col.errCnt + 1 } }

/-- A double-bit error of Tarn is met (R201). -/
def tarnDbe (a : Nat) (s : State) : State :=
  reportOwn 0x061 { s with col := { s.col with dbeCnt := s.col.dbeCnt + 1, dbeAddr := a, dbeSeen := true } }

/-- A double-bit error of DRAM is met (R204). -/
def dramDbe (a : Nat) (s : State) : State :=
  reportOwn 0x062 { s with col := { s.col with ddrDbe := s.col.ddrDbe + 1, ddrAddr := a } }

/-- A request wakes gated ports (R211). -/
def wakePorts (master target : Nat) (s : State) : State :=
  if s.col.gatedMasters.getLsbD master || s.col.gatedTargets.getLsbD target then
    { s with col := { s.col with
        gatedMasters := setBit s.col.gatedMasters master false
        gatedTargets := setBit s.col.gatedTargets target false } }
  else s

/-- Why an access gets an error response: its kind, before ECC (R206, R210). -/
def colDeny (s : State) (master a : Nat) (write : Bool) : Option (Nat × Nat) :=
  let t := targetOf s a
  if t = 31 then some (31, 0)
  else if !pathOk master t a write then some (31, 1)
  else if s.col.fenced.getLsbD t then some (t, 4)
  else none

/-- A word of bad Tarn within a range, as its byte address. -/
def firstBadTarn (m : Mem) (a n : Nat) : Option Nat :=
  (m.tarnBad.find? fun w => decide (4 * w < a + n ∧ a < 4 * w + 4)).map (4 * ·)

/-- A write of part of a DRAM line that holds a double-bit error: its read-modify-write meets the error (R204). -/
def partialBadDram (m : Mem) (a n : Nat) : Bool :=
  m.dramBad.any fun l => decide (32 * l < a + n ∧ a < 32 * l + 32) && !decide (a ≤ 32 * l ∧ 32 * l + 32 ≤ a + n)

/-- A write of part of a word that holds a double-bit error is refused (R201). -/
def partialBad (m : Mem) (a n : Nat) : Option Nat :=
  (m.tarnBad.find? fun w => decide (4 * w < a + n ∧ a < 4 * w + 4) && !(wholeWords a n).contains w).map (4 * ·)

end Sys2Proof.Machine
end

