-- ==== Sys2Proof/Machine/Images.lean ====
section
/-! DEFINITION. Where a sample stands in the input and the output images in Tarn (R11, R63, R147). The spec gives the
images to regions of the profile and states no layout: log 32. -/

namespace Sys2Proof.Machine

/-- Words of one image buffer. -/
def imageWords : Nat := 0x5000

/-- The word index of a TDM slot, in the image of its direction. -/
def imgTdm (port slot : Nat) : Nat := 32 * port + slot

/-- The word index of a channel of a stream context. -/
def imgStream (ctx ch : Nat) : Nat := 0x800 + 64 * ctx + ch

/-- The word index of a shared Noril channel in the input image. -/
def imgShared (i : Nat) : Nat := 0x4800 + i

/-- The word index of a power-stage channel in the output image. -/
def imgPws (c : Nat) : Nat := 0x4800 + c

/-- The address of word `i` of the input image of wave `w`: three buffers in turn (R63). -/
def inAddr (s : State) (w : Word) (i : Nat) : Nat :=
  baseOf s .inputImages + 4 * ((w.toNat % 3) * imageWords + i)

/-- The address of word `i` of the output image. -/
def outAddr (s : State) (i : Nat) : Nat := baseOf s .outputImages + 4 * i

/-- Write a sample into the input image of wave `w`. -/
def putInput (s : State) (w : Word) (i : Nat) (x : Word) : State :=
  { s with mem := s.mem.putWord (inAddr s w i) x }

/-- A word of the input image of wave `w`. -/
def getInput (s : State) (w : Word) (i : Nat) : Word := s.mem.tarnWord (inAddr s w i)

/-- A word of the output image. -/
def getOutput (s : State) (i : Nat) : Word := s.mem.tarnWord (outAddr s i)

/-- The resource unit to which word `i` of an image belongs: input image, or output image. -/
def imageUnit (output : Bool) (i : Nat) : Option Res :=
  if i < 0x800 then some (.tdmGroup (i / 256))
  else if i < 0x4800 then some (if output then .txCtx ((i - 0x800) / 64) else .rxCtx ((i - 0x800) / 64))
  else if output then (if i < 0x4810 then some (.pwsCh (i - 0x4800)) else none)
  else none

/-- Every word of a byte range lies in an image area whose unit the partition owns (R146). -/
def inOwnImage (s : State) (part a n : Nat) : Bool :=
  let part1 (use : RegionUse) (output : Bool) : Bool :=
    s.own.regions.any fun r => r.use == use && decide (r.base ≤ a ∧ a + n ≤ r.base + r.size)
      && (List.range (n / 4)).all fun j => match imageUnit output (((a - r.base) / 4 + j) % imageWords) with
        | some u => ownerOf s u == part
        | none => true
  part1 .inputImages false || part1 .outputImages true

/-- The Meridian input area and output area, by word index (R175): regions of the profile. -/
def mtxInAddr (s : State) (i : Nat) : Nat := baseOf s .meridianIn + 4 * i
def mtxOutAddr (s : State) (j : Nat) : Nat := baseOf s .meridianOut + 4 * j

/-- A byte range lies in the Meridian areas. -/
def inMeridianArea (s : State) (a n : Nat) : Bool :=
  s.own.regions.any fun r => (r.use == .meridianIn || r.use == .meridianOut)
    && decide (r.base ≤ a ∧ a + n ≤ r.base + r.size)

end Sys2Proof.Machine
end

