-- ==== Sys2Proof/Machine/Fabric.lean ====
section
/-! DEFINITION. Slack telemetry, deadline misses and the voltage governor (R60 to R90), as functions of the fabric's own
state. A pair's second part lists the fault sources to report. -/

namespace Sys2Proof.Machine

/-- The deadline D in 2 ns units (R62, R66): Ts less 1.5 µs, its rounding free (log 26). -/
def deadlineUnits (fs : Nat) : Int := rounded (1000000000 - 1500 * fs) (2 * fs)

/-- The whole 2 ns units in the load ceiling, which is 85 % of D (R66, log 26): a corner exceeds the one as it exceeds the
other. -/
def loadCeiling (fs : Nat) : Nat := 85 * (1000000000 - 1500 * fs) / (200 * fs)

/-- The histogram bin of a slack in 2 ns units (R70). -/
def slackBin (w : Nat) (units : Int) : Nat :=
  if units < 0 then 0 else min (2 * units.toNat / w + 1) 31

/-- The slack monitor records one wave (R68 to R70, R81). -/
def Fab.recordSlack (f : Fab) (now : Nat) (slack : Word) : Fab :=
  let x := clampInt (-(2 ^ 31 - 1)) (2 ^ 31 - 1) slack.toInt
  let sum := f.winSum + x
  let full := decide (f.winCount + 1 = 2 ^ f.n)
  { f with
    slackLast := BitVec.ofInt 32 x
    slackMin := if x < f.slackMin.toInt then BitVec.ofInt 32 x else f.slackMin
    slackMean := if full then BitVec.ofInt 32 (sum.fdiv (2 ^ f.n)) else f.slackMean
    winSum := if full then 0 else sum, winCount := if full then 0 else f.winCount + 1
    hist := Store.upd 0 f.hist (slackBin f.w x) satInc
    intervalMin := if now < f.settleUntil then f.intervalMin
      else match f.intervalMin with
        | none => some x
        | some y => some (min x y) }

/-- Clear the histogram and discard the window in progress (R70). -/
def Fab.clearWindow (f : Fab) : Fab := { f with hist := [], winSum := 0, winCount := 0 }

/-- The burst window is open: it began less than 1 s ago (R76). -/
def Fab.windowOpen (f : Fab) (now : Nat) : Bool :=
  match f.winStart with
  | none => false
  | some t => decide (now < t + 1000000)

/-- MISS_BURST (R76, R87). -/
def Fab.missBurst (f : Fab) (now : Nat) : Bool := f.windowOpen now && decide (f.burstTh ≤ f.winMisses)

/-- MISS_RECENT (R87). -/
def Fab.missRecent (f : Fab) (now : Nat) : Bool :=
  match f.lastMissAt with
  | none => false
  | some t => decide (now < t + 1000000)

/-- Count one missed wave k (R72, R76). -/
def Fab.countMiss (f : Fab) (now : Nat) (k : Word) : Fab :=
  let g := { f with missCnt := f.missCnt + 1, lastMiss := k, missRun := f.missRun + 1, lastMissAt := some now }
  if f.windowOpen now then { g with winMisses := f.winMisses + 1 }
  else { g with winStart := some now, winMisses := 1 }

/-- Write a voltage: at most one transaction is in flight, and the latest value waits (R85). -/
def Fab.writeVout (f : Fab) (v : Nat) : Fab :=
  let g := { f with vcmd := BitVec.ofNat 16 v }
  if f.xfer.isSome then { g with waitingV := some v } else { g with xfer := some .writeVout }

/-- A miss, or slack below the emergency floor, in AUTO: 850 mV and EMERGENCY (R77, R81). -/
def Fab.emergency (f : Fab) (now : Nat) : Fab :=
  if !f.auto then f
  else match f.govState with
    | .tracking => { f.writeVout 850 with govState := .emergency, emergAt := now, emergCnt := f.emergCnt + 1 }
    | .emergency => { f.writeVout 850 with emergAt := now }
    | _ => f

/-- The slack, in 2 ns units, lies below a percentage of Ts (R81). -/
def belowPercent (fs pct : Nat) (units : Int) : Bool := decide (2 * units * fs < (pct * 10000000 : Nat))

/-- Begin the transactions of an entry to AUTO or FIXED (R82). -/
def Fab.enter (f : Fab) (auto : Bool) (p : GovParams) : Fab :=
  let g := { f with auto := auto, params := p, newParams := none, failures := 0, waitingV := none
                    mismatchRun := 0, voutMismatch := false }
  if auto then { g with govState := .tracking, xfer := some .voutMode, queue := [.readVout] }
  else { g with govState := .idle, vcmd := BitVec.ofNat 16 p.fixed, xfer := some .voutMode, queue := [.writeVout] }

/-- Take stored parameters at an update interval (R90). -/
def Fab.takeParams (f : Fab) : Fab :=
  match f.newParams with
  | none => f
  | some (auto, p) =>
    if auto && f.auto && !decide (f.govState = .stalled) then { f with params := p, newParams := none }
    else f.enter auto p

/-- One update interval of the control law (R81), on counted waves. -/
def Fab.law (f : Fab) (fs : Nat) : Fab :=
  match f.intervalMin with
  | none => f
  | some s =>
    let p := f.params
    let e : Int := 2 * s * fs - (p.target * 10000000 : Nat)
    let dv : Int :=
      if e < 0 then min p.upMax (-(e.fdiv (p.upGain * fs : Nat)))
      else if e > (p.deadband * 10000000 : Nat) then -p.downStep
      else 0
    let v := (clampInt 700 850 (f.vcmd.toNat + dv)).toNat
    let g := { f with lastInterval := some s }
    if v = f.vcmd.toNat then g else g.writeVout v

/-- The governor runs its law: it is in AUTO, has not stalled, and has the starting value of its entry (R81 to R83). -/
def Fab.regulates (f : Fab) : Bool :=
  f.auto && !decide (f.govState = .stalled) && f.queue.isEmpty
    && !decide (f.xfer = some .voutMode) && !decide (f.xfer = some .readVout)

/-- The law at the end of an interval, where the governor runs it. -/
def Fab.regulate (f : Fab) (fs : Nat) : Fab := if f.regulates then f.law fs else f

/-- GOVERNOR_UPDATE (R81, R90): stored parameters wait for the recovery hold, and each interval counts its own waves. -/
def Fab.update (f : Fab) (now fs : Nat) : Fab :=
  let g : Fab := match f.govState with
    | .emergency =>
      if now < f.emergAt + f.params.recovery * 1000 then f
      else { f with govState := .tracking }.takeParams.regulate fs
    | .stalled => f.takeParams
    | _ => f.takeParams.regulate fs
  { g with intervalMin := none }

/-- The governor stalls (R83). -/
def Fab.stall (f : Fab) : Fab × List Nat :=
  ({ f with govState := .stalled, busFault := true, xfer := none, queue := [], waitingV := none, failures := 0 },
    if f.busFault then [] else [0x045])

/-- A reading of the output voltage is compared with the command (R84). -/
def Fab.compareVout (f : Fab) (mv : Nat) : Fab × List Nat :=
  let far := decide (f.vcmd.toNat ≠ 0 ∧ (15 < mv - f.vcmd.toNat ∨ 15 < f.vcmd.toNat - mv))
  let run := if far then f.mismatchRun + 1 else 0
  let set := decide (3 ≤ run)
  ({ f with vread := BitVec.ofNat 16 mv, mismatchRun := run, voutMismatch := set }
    , if set && !f.voutMismatch then [0x046] else [])

/-- Start the next transaction: a waiting value first, then what the entry still needs (R85). -/
def Fab.nextXfer (f : Fab) : Fab :=
  match f.waitingV, f.queue with
  | some _, _ => { f with waitingV := none, xfer := some .writeVout }
  | none, x :: xs => { f with xfer := some x, queue := xs }
  | none, [] => { f with xfer := none }

/-- A failed transaction is retried up to twice, then the governor stalls (R83). -/
def Fab.xferFailed (f : Fab) : Fab × List Nat :=
  if f.failures < 2 then ({ f with failures := f.failures + 1 }, []) else f.stall

/-- A governor transaction ends (R82 to R85): its outcome, and the byte or the millivolts that it read. -/
def Fab.xferDone (f : Fab) (now : Nat) (ok : Bool) (data : Nat) : Fab × List Nat :=
  match f.xfer with
  | none => (f, [])
  | some x =>
    if !ok then f.xferFailed
    else
      let g := { f with failures := 0, busFault := false }
      match x with
      | .voutMode => if data / 32 % 8 ≠ 0 then g.stall else (g.nextXfer, [])
      | .readVout =>
        ({ g with vread := BitVec.ofNat 16 data
                  vcmd := BitVec.ofNat 16 (max 700 (min data 850)) }.nextXfer, [])
      | .writeVout =>
        ({ g with writes := g.writes + 1, settleUntil := now + f.params.settle * 10 }.nextXfer, [])
      | .poll => (g.nextXfer, [])

/-- The 100 ms read of READ_VOUT and STATUS_WORD (R82 to R84). -/
def Fab.poll (f : Fab) (ok : Bool) (mv : Nat) : Fab × List Nat :=
  if f.govState = .stalled then (f, [])
  else if ok then { f with failures := 0, busFault := false }.compareVout mv
  else f.xferFailed

/-- Parameter checks of FAB_SET_GOVERNOR (R80, R81). -/
def fabGovernorOk (c : FabSetGovernor) : Bool :=
  let f := c.fixed.toNat
  decide (c.mode.toNat ≤ 1 ∧ 700 ≤ f ∧ f ≤ 850 ∧ 5 ≤ c.target.toNat ∧ c.target.toNat ≤ 60
    ∧ 1 ≤ c.deadband.toNat ∧ c.deadband.toNat ≤ 20 ∧ c.floor.toNat ≤ 20 ∧ c.floor.toNat < c.target.toNat
    ∧ 5 ≤ c.upGain.toNat ∧ c.upGain.toNat ≤ 500 ∧ 1 ≤ c.upMax.toNat ∧ c.upMax.toNat ≤ 150
    ∧ 1 ≤ c.downStep.toNat ∧ c.downStep.toNat ≤ 10 ∧ 25 ≤ c.interval.toNat ∧ c.interval.toNat ≤ 1000
    ∧ 5 ≤ c.settle.toNat ∧ c.settle.toNat ≤ 200 ∧ 10 ≤ c.recovery.toNat ∧ c.recovery.toNat ≤ 60000)

/-- The stored form of a FAB_SET_GOVERNOR payload. -/
def govParamsOf (c : FabSetGovernor) : GovParams :=
  { fixed := c.fixed.toNat, target := c.target.toNat, deadband := c.deadband.toNat, floor := c.floor.toNat
    upGain := c.upGain.toNat, upMax := c.upMax.toNat, downStep := c.downStep.toNat, interval := c.interval.toNat
    settle := c.settle.toNat, recovery := c.recovery.toNat }

/-- FAB_SET_GOVERNOR accepted: at the next update interval, or at once from AUTO to FIXED (R90). -/
def Fab.setGovernor (f : Fab) (auto : Bool) (p : GovParams) : Fab :=
  if f.auto && !auto then f.enter false p else { f with newParams := some (auto, p) }

def GovState.code : GovState → Nat
  | .idle => 0 | .tracking => 1 | .emergency => 2 | .stalled => 3

/-- AT_FLOOR and AT_CEILING (R86, R87). -/
def Fab.atFloor (f : Fab) (fs : Nat) : Bool :=
  f.auto && decide (f.vcmd.toNat = 700) && match f.lastInterval with
    | none => false
    | some s => decide (2 * s * fs > (f.params.target * 10000000 : Nat))

def Fab.atCeiling (f : Fab) (fs : Nat) : Bool :=
  f.auto && decide (f.vcmd.toNat = 850) && match f.lastInterval with
    | none => false
    | some s => belowPercent fs f.params.target s

end Sys2Proof.Machine
end

