-- ==== Sys2Proof/Machine/GraphImage.lean ====
section
/-! DEFINITION. The graph image and its verification (R91 to R107, R119, R179 to R181): reading an image's bytes, the
checks of R103 in their order, and what a build comes to. -/

namespace Sys2Proof.Machine

/-- What verification knows of the machine. -/
structure VerifyCtx where
  part : Nat
  rate : Nat
  ceiling : Nat
  generation : Word
  /-- The live bank's parts, none while no bank is LIVE. -/
  live : Option (List BankPart)
  owns : Res → Bool
  /-- The partition owns the memory region: memory code 3 Tarn or 4 DRAM, offset, size. -/
  ownsRegion : Nat → Nat → Nat → Bool
  /-- Slots of a port; shared channels; Meridian inputs. -/
  tdmSlots : Nat → Nat
  sharedLimit : Nat
  inputs : Nat

/-- A refusal of R119: the status and the reason code. -/
inductive Reject where
  | graph (reason : Nat)
  | notOwner
  | noResource
  deriving DecidableEq, Repr

/-- A directory entry (R95). -/
structure Section where
  type : Nat
  flags : Nat
  offset : Nat
  size : Nat
  target : Nat
  deriving DecidableEq, Repr

def readSection (bs : List Byte) (o : Nat) : Section :=
  { type := leAt bs o 2, flags := leAt bs (o + 2) 2, offset := leAt bs (o + 4) 4, size := leAt bs (o + 8) 4
    target := leAt bs (o + 12) 4 }

/-- The directory (R95). -/
def readDirectory (bs : List Byte) : List Section :=
  (List.range (leAt bs 0x0E 1)).map fun i => readSection bs (64 + 16 * i)

/-- TARGET is in the range that the type allows (R95). -/
def Section.targetOk (x : Section) : Bool :=
  if x.type = 2 then decide (x.target < 24)
  else if x.type = 7 then decide (x.target ≤ 4)
  else if x.type = 8 then decide (x.target = 2)
  else decide (x.target = 0xFFFF_FFFF)

/-- Two sections are distinct sections and do not overlap (R95). -/
def sectionsApart (x y : Section) : Bool :=
  (x.type != y.type || x.target != y.target)
    && (decide (x.offset + x.size ≤ y.offset) || decide (y.offset + y.size ≤ x.offset))

/-- Every pair of a list, earlier first, meets a test. -/
def allPairs {α : Type} (f : α → α → Bool) : List α → Bool
  | [] => true
  | x :: xs => xs.all (f x) && allPairs f xs

/-- The bytes of a section of a type and target; none if absent. -/
def sectionBytes (bs : List Byte) (ds : List Section) (type : Nat) (target : Option Nat) : Option (List Byte) :=
  match ds.find? fun d => d.type == type && (target.isNone || target == some d.target) with
  | none => none
  | some d => some ((bs.drop d.offset).take d.size)

/-- Section sizes agree with the counts of the header; an absent section holds nothing (R95). -/
def sizesOk (bs : List Byte) (ds : List Section) : Bool :=
  let size (t : Nat) : Nat := ((ds.find? fun d => d.type == t).map Section.size).getD 0
  decide (16 * leAt bs 0x1A 2 ≤ size 1) && size 4 == 32 * leAt bs 0x1C 2 && size 5 == 16 * leAt bs 0x1E 2
    && size 6 % 16 == 0 && size 3 % 16 == 0
    && ds.all fun d => d.type != 2 || decide (d.size % 8 = 0)

/-- Step 1 of R103: header and directory (R94, R95). -/
def headerOk (bs : List Byte) (length : Nat) : Bool :=
  let ds := readDirectory bs
  decide (64 ≤ length ∧ length ≤ 0x100000 ∧ leAt bs 0 4 = 0x4D494752 ∧ leAt bs 4 2 = 3 ∧ leAt bs 6 2 = 64
    ∧ leAt bs 8 4 = length ∧ 1 ≤ leAt bs 0x0E 1 ∧ leAt bs 0x0E 1 ≤ 40 ∧ leAt bs 0x0F 1 = 0 ∧ leAt bs 0x24 24 = 0
    ∧ 64 + 16 * leAt bs 0x0E 1 ≤ length)
    && ds.all (fun d => decide (1 ≤ d.type ∧ d.type ≤ 8 ∧ d.flags = 0 ∧ d.offset + d.size ≤ length
        ∧ 64 + 16 * leAt bs 0x0E 1 ≤ d.offset) && d.targetOk)
    && allPairs sectionsApart ds && sizesOk bs ds

/-- The image's CRC over its bytes with the CRC field as 0 (R94). -/
def imageCrc (bs : List Byte) : Word :=
  crc32c (bs.take 0x3C ++ [0, 0, 0, 0] ++ bs.drop 0x40)

def readNode (bs : List Byte) (o : Nat) : Node :=
  { id := leAt bs o 2, kind := leAt bs (o + 2) 1, place := leAt bs (o + 3) 1
    signature := BitVec.ofNat 64 (leAt bs (o + 4) 8), stateMem := leAt bs (o + 12) 1, channels := leAt bs (o + 13) 1
    zcTimeout := leAt bs (o + 14) 2, stateOfs := leAt bs (o + 16) 4, stateSize := leAt bs (o + 20) 4
    paramOfs := leAt bs (o + 24) 4, paramSize := leAt bs (o + 28) 2, retiring := natBit (leAt bs (o + 30) 2) 0 }

def readEdge (bs : List Byte) (o : Nat) : Edge :=
  { srcNode := leAt bs o 2, srcPort := leAt bs (o + 2) 1, srcCh := leAt bs (o + 3) 1, dstNode := leAt bs (o + 4) 2
    dstPort := leAt bs (o + 6) 1, dstCh := leAt bs (o + 7) 1, channels := leAt bs (o + 8) 1
    estate := leAt bs (o + 9) 1 }

/-- The successors in the overflow list from an index, up to 0xFFFF (log 27). -/
def overflowSuccs : List Byte → List Nat
  | a :: b :: t =>
    let x := a.toNat + 256 * b.toNat
    if x = 0xFFFF then [] else x :: overflowSuccs t
  | _ => []

def readEntry (sched : List Byte) (own i : Nat) : Entry :=
  let o := 16 * i
  let s0 := leAt sched (o + 8) 2
  let s1 := leAt sched (o + 10) 2
  let ext := leAt sched (o + 12) 2
  let fl := leAt sched (o + 7) 1
  { target := leAt sched o 1, part := leAt sched (o + 1) 1, node := leAt sched (o + 2) 2
    start := leAt sched (o + 4) 2, wait := leAt sched (o + 6) 1, retiring := natBit fl 0, last := natBit fl 1
    succ := (if s0 = 0xFFFF then [] else [s0]) ++ (if s1 = 0xFFFF then [] else [s1])
      ++ (if ext = 0xFFFF then [] else overflowSuccs (sched.drop (16 * own + 2 * ext)))
    cost := leAt sched (o + 14) 2, dormant := false }

def readBinding (bs : List Byte) (o : Nat) : Binding :=
  { kind := leAt bs o 1, unit := leAt bs (o + 2) 2, first := leAt bs (o + 4) 2, count := leAt bs (o + 6) 2
    node := leAt bs (o + 8) 2, port := leAt bs (o + 10) 1, nodeCh := leAt bs (o + 11) 1 }

def readSlice (bs : List Byte) (o : Nat) : Slice :=
  let fl := leAt bs (o + 9) 1
  { firstIn := leAt bs o 2, ins := leAt bs (o + 2) 2, firstCol := leAt bs (o + 4) 2, cols := leAt bs (o + 6) 2
    part := leAt bs (o + 8) 1, accumulate := natBit fl 0, final := natBit fl 1 }

/-- The tables of an image. -/
def readPart (bs : List Byte) (ds : List Section) : BankPart :=
  let sect (t : Nat) : List Byte := (sectionBytes bs ds t none).getD []
  let own := leAt bs 0x1A 2
  { entries := (List.range own).map fun i => readEntry (sect 1) own i
    nodes := (List.range (leAt bs 0x1C 2)).map fun i => readNode (sect 4) (32 * i)
    edges := (List.range (leAt bs 0x1E 2)).map fun i => readEdge (sect 5) (16 * i)
    bindings := (List.range ((sect 6).length / 16)).map fun i => readBinding (sect 6) (16 * i)
    slices := (List.range ((sect 3).length / 16)).map fun i => readSlice (sect 3) (16 * i) }

/-- The node of a part with an identity. -/
def BankPart.node? (p : BankPart) (id : Nat) : Option Node := p.nodes.find? fun n => n.id == id

/-- A live node that persists in the new image: same partition, identity and signature, and not dormant (R106). -/
def persists (live : Option (List BankPart)) (part : Nat) (n : Node) : Bool :=
  match live with
  | none => false
  | some ps => match (ps.getD part BankPart.init).node? n.id with
    | none => false
    | some o => o.signature == n.signature && !o.retiring

/-- Two byte ranges meet. -/
def rangesMeet (a la b lb : Nat) : Bool := decide (0 < la ∧ 0 < lb ∧ a < b + lb ∧ b < a + la)

/-- The memory regions of a node: a space (engine and memory, or Tarn or DRAM), an offset and a size. -/
def Node.regions (n : Node) : List (Nat × Nat × Nat × Nat) :=
  (if n.stateMem = 0xFF then [] else
    [(n.stateMem, if n.stateMem < 3 then n.place else 0, n.stateOfs, n.stateSize)])
  ++ (if n.paramSize = 0 then [] else [(2, n.place, n.paramOfs, n.paramSize)])

/-- A new node's regions meet a region of a live node that is not dormant (R106). -/
def overlapsLive (live : Option (List BankPart)) (n : Node) : Bool :=
  match live with
  | none => false
  | some ps => ps.any fun p => p.nodes.any fun o => !o.retiring &&
      n.regions.any fun r => o.regions.any fun q =>
        r.1 == q.1 && r.2.1 == q.2.1 && rangesMeet r.2.2.1 r.2.2.2 q.2.2.1 q.2.2.2

/-- The values and the placement of R97. -/
def Node.inRange (n : Node) : Bool :=
  decide (n.kind ≤ 3 ∧ (n.place ≤ 24 ∨ n.place = 0xFF) ∧ (n.stateMem ≤ 4 ∨ n.stateMem = 0xFF)
    ∧ 1 ≤ n.channels ∧ n.channels ≤ 64 ∧ n.zcTimeout ≤ 1000 ∧ n.id ≠ 0xFFFF)
    && (if n.kind = 0 ∨ n.kind = 3 then n.place == 0xFF
        else if n.kind = 2 then decide (n.place ≤ 23)
        else decide (n.place ≤ 24))

/-- The conditions of R119 that concern one node, in row order. -/
def checkNode (c : VerifyCtx) (n : Node) : Option Reject :=
  if n.retiring && !persists c.live c.part n then some (.graph 0x06)
  else if !persists c.live c.part n && overlapsLive c.live n then some (.graph 0x07)
  else if !n.inRange then some (.graph 0x0F)
  else if decide (n.place ≤ 23) && !c.owns (.cluster (n.place / 4)) then some .notOwner
  else if (n.stateMem == 3 || n.stateMem == 4) && !c.ownsRegion n.stateMem n.stateOfs n.stateSize then some .notOwner
  else none

/-- An edge of the live bank that is not retiring and joins nodes that persist. -/
def edgeLive (c : VerifyCtx) (p : BankPart) (e : Edge) : Bool :=
  match c.live with
  | none => false
  | some ps =>
    ((ps.getD c.part BankPart.init).edges.any fun o => decide (o.estate ≠ 2) && decide ({ o with estate := 0 } = { e with estate := 0 }))
      && (match p.node? e.srcNode with
        | none => false
        | some n => persists c.live c.part n)
      && (match p.node? e.dstNode with
        | none => false
        | some n => persists c.live c.part n)

/-- A node has an output channel range (R91). -/
def outputOk (n : Node) (port ch count : Nat) : Bool :=
  decide (n.kind ≠ 3 ∧ (n.kind = 2 → port = 0) ∧ ch + count ≤ n.channels)

/-- A node has an input channel range (R91). -/
def inputOk (n : Node) (port ch count : Nat) : Bool :=
  decide (n.kind ≠ 0 ∧ (n.kind = 2 → port < 16) ∧ ch + count ≤ n.channels)

/-- The conditions of R119 that concern one edge, in row order. -/
def checkEdge (c : VerifyCtx) (p : BankPart) (e : Edge) : Option Reject :=
  let inLive := edgeLive c p e
  if decide (2 < e.estate) || (e.estate == 1) == inLive then some (.graph 0x06)
  else match p.node? e.srcNode, p.node? e.dstNode with
    | some a, some b =>
      if decide (1 ≤ e.channels ∧ e.channels ≤ 64) && outputOk a e.srcPort e.srcCh e.channels
          && inputOk b e.dstPort e.dstCh e.channels then none
      else some (.graph 0x0F)
    | _, _ => some (.graph 0x0F)

/-- The instructions of an engine's program section. -/
def programLen (bs : List Byte) (ds : List Section) (engine : Nat) : Nat :=
  ((sectionBytes bs ds 2 (some engine)).getD []).length / 8

/-- The conditions of R119 and R181 that concern one schedule entry. -/
def checkEntry (c : VerifyCtx) (p : BankPart) (plen : Nat → Nat) (i : Nat) (e : Entry) : Option Reject :=
  if e.succ.any fun j => decide (j ≤ i ∨ p.entries.length ≤ j) then some (.graph 0x09)
  else if decide (e.target < 24 ∧ plen e.target ≤ e.start) then some (.graph 0x0A)
  else if decide (e.target = 24 ∧ p.slices.length ≤ e.start) then some (.graph 0x0E)
  else if decide (24 < e.target) || (p.node? e.node).isNone then some (.graph 0x0F)
  else if decide (e.part ≠ c.part) || (decide (e.target < 24) && !c.owns (.cluster (e.target / 4))) then some .notOwner
  else none

/-- The number of units or channels that a binding's kind and unit reach (R100, R243, R361). -/
def bindingRange (c : VerifyCtx) (b : Binding) : Nat :=
  if b.kind = 0 ∨ b.kind = 1 then (if b.unit < 64 then c.tdmSlots b.unit else 0)
  else if b.kind = 2 then (if b.unit < 256 then 64 else 0)
  else if b.kind = 3 then (if b.unit < 256 then 64 else 0)
  else if b.kind = 4 then 16
  else if b.kind = 5 then c.sharedLimit
  else if b.kind = 6 then c.inputs
  else 512

/-- The units of R22 that a binding reaches. -/
def bindingUnits (b : Binding) : List Res :=
  let each (f : Nat → Res) : List Res := (List.range b.count).map fun j => f (b.unit + j)
  if b.kind = 0 ∨ b.kind = 1 then [.tdmGroup (b.unit / 8)]
  else if b.kind = 2 then [.rxCtx b.unit]
  else if b.kind = 3 then [.txCtx b.unit]
  else if b.kind = 4 then each .pwsCh
  else if b.kind = 7 then each .column
  else []

/-- What a transmitting binding reaches, as keys that no other may share (R119). -/
def bindingKeys (b : Binding) : List (Nat × Nat × Nat) :=
  (List.range b.count).map fun j => if b.kind ≤ 3 then (b.kind, b.unit, b.first + j) else (b.kind, b.unit + j, 0)

def isSinkKind (k : Nat) : Bool := k == 1 || k == 3 || k == 4 || k == 6

/-- The conditions of R119 that concern one binding; earlier bindings of the image and the other parts' bindings come
first. -/
def checkBinding (c : VerifyCtx) (p : BankPart) (others : List Binding) (b : Binding) : Option Reject :=
  let reach := if b.kind ≤ 3 then b.first else b.unit
  let nodeFits := match p.node? b.node with
    | none => false
    | some n => n.kind == (if isSinkKind b.kind then 3 else 0) && decide (b.nodeCh + b.count ≤ n.channels)
  let taken := isSinkKind b.kind && others.any fun o => (bindingKeys o).any fun k => (bindingKeys b).contains k
  if decide (7 < b.kind ∨ b.count = 0 ∨ (3 < b.kind ∧ b.first ≠ 0) ∨ bindingRange c b < reach + b.count) || !nodeFits
      || taken then some (.graph 0x08)
  else if !(bindingUnits b).all c.owns || (b.kind == 5 && c.part != 0) then some .notOwner
  else none

/-- The conditions of R181 that concern one descriptor; `raw` is its 16 bytes. -/
def checkSlice (c : VerifyCtx) (raw : List Byte) (x : Slice) : Option Reject :=
  if decide (x.ins = 0 ∨ c.inputs < x.firstIn + x.ins ∨ x.cols = 0 ∨ 512 < x.firstCol + x.cols
      ∨ 4 ≤ leAt raw 9 1 ∨ leAt raw 12 4 ≠ 0) then some (.graph 0x0E)
  else if decide (x.part ≠ c.part)
      || !((List.range x.cols).all fun j => c.owns (.column (x.firstCol + j))) then some .notOwner
  else none

/-- The first refusal of a list of checks. -/
def firstReject : List (Option Reject) → Option Reject
  | [] => none
  | some r :: _ => some r
  | none :: t => firstReject t

/-- Check bindings in index order, each against those before it. -/
def checkBindings (c : VerifyCtx) (p : BankPart) : List Binding → List Binding → Option Reject
  | _, [] => none
  | seen, b :: bs => match checkBinding c p seen b with
    | some r => some r
    | none => checkBindings c p (b :: seen) bs

/-- Predecessors of entry `i` on other engines or on Meridian (R99). -/
def predecessors (es : List Entry) (i : Nat) : Nat :=
  match es[i]? with
  | none => 0
  | some e => ((es.filter fun x => x.target != e.target).map fun x => x.succ.count i).sum

/-- An input port of a processing or a sink node takes one edge, outside a RETIRING and ADDED pair (R93). -/
def portsOk (p : BankPart) : Bool :=
  allPairs (fun x y =>
    ((p.node? x.dstNode).any fun n => n.kind == 2) || x.dstNode != y.dstNode || x.dstPort != y.dstPort || !rangesMeet x.dstCh x.channels y.dstCh y.channels
      || (x.estate == 1 && y.estate == 2) || (x.estate == 2 && y.estate == 1)) p.edges

/-- The Meridian slices of a part in schedule order, with the retiring flag of their entries. -/
def BankPart.sliceRuns (p : BankPart) : List (Slice × Bool) :=
  p.entries.filterMap fun e => if e.target = 24 ∧ !e.dormant then (p.slices[e.start]?).map fun x => (x, e.retiring) else none

/-- A column's slices follow the pattern of R180. -/
def columnOk : List Slice → Bool → Bool
  | [], started => !started
  | x :: xs, started =>
    (x.accumulate == started) && (if x.final then xs.isEmpty else columnOk xs true)

/-- Every column that a slice names follows R180. -/
def columnsOk (p : BankPart) : Bool :=
  (List.range 512).all fun j =>
    let xs := (p.sliceRuns.map (·.1)).filter fun x => decide (x.firstCol ≤ j ∧ j < x.firstCol + x.cols)
    xs.isEmpty || columnOk xs false

/-- Some FINAL slice of a part that is not retiring writes column `j` (R181). -/
def finalColumn (p : BankPart) (j : Nat) : Bool :=
  p.sliceRuns.any fun x => !x.2 && x.1.final && decide (x.1.firstCol ≤ j ∧ j < x.1.firstCol + x.1.cols)

/-- Every source node bound to a Meridian output finds a FINAL slice, unless it retires (R181). -/
def sourcesFinal (p : BankPart) (parts : List BankPart) : Bool :=
  p.bindings.all fun b => b.kind != 7 || (match p.node? b.node with
      | none => true
      | some n => n.retiring) ||
    (List.range b.count).all fun j => parts.any fun q => finalColumn q (b.unit + j)

/-- Nodes of a part have distinct identities (R97). -/
def idsDistinct (p : BankPart) : Bool := allPairs (fun x y => x.id != y.id) p.nodes

/-- The conditions that concern the image as a whole, in row order (R103 step 5). -/
def checkWhole (c : VerifyCtx) (p : BankPart) (parts : List BankPart) : Option Reject :=
  if !(List.range p.entries.length).all (fun i => match p.entries[i]? with
      | none => true
      | some e => e.wait == predecessors p.entries i) then some (.graph 0x09)
  else if !idsDistinct p || !portsOk p then some (.graph 0x0F)
  else if !columnsOk p || !sourcesFinal p parts then some (.graph 0x0E)
  else if decide (1024 < ((parts.map fun q => q.slices.length).sum)) then some .noResource
  else if decide (c.part ≥ 4) then some .notOwner
  else none

/-- The parts of the combined bank: the other partitions' parts without their retiring entries, and this image's
(R103 step 4). -/
def combine (live : Option (List BankPart)) (part : Nat) (p : BankPart) : List BankPart :=
  (List.range 4).map fun q =>
    if q = part then p
    else match live with
      | none => BankPart.init
      | some ps =>
        let o := ps.getD q BankPart.init
        { o with
          entries := o.entries.map fun e => { e with dormant := e.dormant || e.retiring }
          bindings := o.bindings.filter fun b => (o.node? b.node).any fun n => !n.retiring
          nodes := o.nodes.filter fun n => !n.retiring
          edges := (o.edges.filter fun e => decide (e.estate ≠ 2)).map fun e => { e with estate := 0 } }

/-- Cut the initial values of a section to its nodes, in table order, keeping those of new nodes (log 28). -/
def cutInits (sizeOf : Node → Nat) (ofs : Node → Nat) (mem : Nat) (isNew : Node → Bool) : List Node → List Byte → List InitData
  | [], _ => []
  | n :: ns, bs =>
    let k := sizeOf n
    let rest := cutInits sizeOf ofs mem isNew ns (bs.drop k)
    if isNew n && decide (0 < k) then { mem := mem, place := n.place, offset := ofs n, bytes := bs.take k } :: rest
    else rest

/-- The initial values that step 6 of R103 writes, for new nodes only (R106). -/
def initsOf (c : VerifyCtx) (bs : List Byte) (ds : List Section) (p : BankPart) : List InitData :=
  let isNew (n : Node) : Bool := !persists c.live c.part n
  let states := (List.range 5).flatMap fun m =>
    match sectionBytes bs ds 7 (some m) with
    | none => []
    | some x => cutInits (·.stateSize) (·.stateOfs) m isNew (p.nodes.filter fun n => n.stateMem == m) x
  states ++ match sectionBytes bs ds 8 (some 2) with
    | none => []
    | some x => cutInits (·.paramSize) (·.paramOfs) 2 isNew p.nodes x

/-- The 64-bit words of a program section. -/
def wordsOf : List Byte → List Long
  | a :: b :: c :: d :: e :: f :: g :: h :: t =>
    BitVec.ofNat 64 (leNat [a, b, c, d, e, f, g, h]) :: wordsOf t
  | _ => []

/-- The programs of an image, by engine. -/
def programsOf (bs : List Byte) (ds : List Section) : List (Nat × List Long) :=
  (ds.filter fun d => d.type == 2).map fun d => (d.target, wordsOf ((bs.drop d.offset).take d.size))

/-- What a verified image comes to. -/
structure Verified where
  parts : List BankPart
  corner : Word
  total : Nat
  programs : List (Nat × List Long)
  inits : List InitData

/-- The per-entry checks of step 5 of R103, group by group. -/
def checkEntries (c : VerifyCtx) (bs : List Byte) (ds : List Section) (p : BankPart) (parts : List BankPart) : Option Reject :=
  let plen := programLen bs ds
  let others := (List.range 4).flatMap fun q =>
    if q = c.part then [] else ((parts.getD q BankPart.init).bindings.filter fun b => b.kind == 6)
  let slices := (sectionBytes bs ds 3 none).getD []
  firstReject [firstReject (p.nodes.map (checkNode c)), firstReject (p.edges.map (checkEdge c p)),
    firstReject (p.entries.mapIdx fun i e => checkEntry c p plen i e), checkBindings c p others p.bindings,
    firstReject (p.slices.mapIdx fun i x => checkSlice c ((slices.drop (16 * i)).take 16) x), checkWhole c p parts]

/-- Verify an image: the checks of R103 in order. `bs` is the image's bytes, `length` the length that the command names. -/
def verifyImage (c : VerifyCtx) (bs : List Byte) (length : Nat) : Except Reject Verified :=
  let ds := readDirectory bs
  if !headerOk bs length then .error (.graph 0x01)
  else if (ds.filter fun d => d.type == 2).any (fun d => !c.owns (.cluster (d.target / 4))) then .error .notOwner
  else if decide ((imageCrc bs).toNat ≠ leAt bs 0x3C 4) then .error (.graph 0x02)
  else if decide (leAt bs 0x0C 1 ≠ c.part) then .error .notOwner
  else if decide (leAt bs 0x0D 1 ≠ c.rate) then .error (.graph 0x03)
  else if decide (leAt bs 0x10 4 ≠ c.generation.toNat) then .error (.graph 0x05)
  else if decide (c.ceiling < leAt bs 0x14 4) then .error (.graph 0x04)
  else
    let p := readPart bs ds
    let parts := combine c.live c.part p
    let total := (parts.map fun q => (q.entries.filter fun e => !e.dormant).length).sum
    if decide (total ≠ leAt bs 0x18 2) then .error (.graph 0x0B)
    else if decide (4096 < total) then .error .noResource
    else if ds.any (fun d => d.type == 2 && decide (16384 < d.size)) then .error (.graph 0x0A)
    else match checkEntries c bs ds p parts with
      | some r => .error r
      | none => .ok { parts := parts, corner := BitVec.ofNat 32 (leAt bs 0x14 4), total := total
                      programs := programsOf bs ds, inits := initsOf c bs ds p }

/-- The status of a refusal (R119). -/
def Reject.status : Reject → Status
  | .graph _ => .graphReject
  | .notOwner => .notOwner
  | .noResource => .noResource

/-- The reason code of a refusal (R119). -/
def Reject.reason : Reject → Nat
  | .graph r => r
  | .notOwner => 0x10
  | .noResource => 0x11

end Sys2Proof.Machine
end

