-- ==== Sys2Proof/Machine/Ridge.lean ====
section
/-! DEFINITION. Ridge's banks, commits, halts and gain changes, and the graph commands (R100 to R122). A command's body
answers its reply; the checks that every command shares stand in `Machine/Falver.lean`. -/

namespace Sys2Proof.Machine

def State.engine (s : State) (e : Nat) : Engine := Store.look Engine.init s.crn.engines e

def State.setEngine (s : State) (e : Nat) (x : Engine) : State :=
  { s with crn := { s.crn with engines := Store.put Engine.init s.crn.engines e x } }

/-- Bank 0 is A, bank 1 is B. -/
def Rdg.bank (r : Rdg) (b : Nat) : Bank := if b = 0 then r.bankA else r.bankB

def Rdg.setBank (r : Rdg) (b : Nat) (x : Bank) : Rdg := if b = 0 then { r with bankA := x } else { r with bankB := x }

/-- The shadow bank (the text before R101). -/
def Rdg.shadow (r : Rdg) : Nat :=
  match r.live with
  | some b => 1 - b
  | none => match r.lastLive with
    | none => 0
    | some b => 1 - b

/-- The parts of the live bank. -/
def Rdg.liveParts (r : Rdg) : Option (List BankPart) := r.live.map fun b => (r.bank b).parts

/-- A bank is LIVE or PENDING (R29). -/
def Rdg.busyForRate (r : Rdg) : Bool := r.live.isSome || r.commit.isSome

/-- The signed distance of a wave from MCNT. -/
def ahead (s : State) (w : Word) : Int := serialDiff w s.mcnt

/-- Refuse a graph command with a status and a reason (R119). -/
def graphRefuse (part : Nat) (st : Status) (reason : Nat) (s : State) : State × Reply :=
  ({ s with rdg := { s.rdg with rejectCnt := s.rdg.rejectCnt + 1, lastReject := reason, lastRejectPart := part } },
    { status := st, payload := leBytes 2 reason })

/-- GRAPH_LOAD_CHUNK (R103, R122). -/
def graphLoadChunk (part : Nat) (c : GraphChunk) (s : State) : State × Reply :=
  let n := c.length.toNat
  if c.data.length ≠ n then (s, Reply.code .badLength)
  else if decide (n < 4 ∨ 4000 < n ∨ n % 4 ≠ 0) then (s, Reply.code .badParam)
  else match regionOf s .staging part with
    | none => graphRefuse part .noResource 0x11 s
    | some r =>
      if r.size < c.offset.toNat + n then graphRefuse part .noResource 0x11 s
      else ({ s with mem := s.mem.writeTarn (r.base + c.offset.toNat) c.data }, Reply.ok [])

/-- The Meridian inputs at a media rate (R175). -/
def meridianInputs (rate : Nat) : Nat := if rate ≤ 1 then 2048 else if rate ≤ 3 then 1024 else 512

/-- The entries of the shared-channel table at a media rate (R384). -/
def sharedLimit (rate : Nat) : Nat := if rate ≤ 1 then 512 else if rate ≤ 3 then 256 else 128

/-- What verification knows of the machine for a partition. -/
def verifyCtx (s : State) (part : Nat) : VerifyCtx :=
  { part := part, rate := s.pst.rate, ceiling := loadCeiling s.fs, generation := s.rdg.generation
    live := s.rdg.liveParts, owns := fun r => ownerOf s r == part
    ownsRegion := fun mem a n => if mem = 3 then inOwnRegion s part a n else inOwnRegion s part (dramBase + a) n
    tdmSlots := fun p => (s.port p).n, sharedLimit := sharedLimit s.pst.rate
    inputs := meridianInputs s.pst.rate }

/-- The build that a verified image, or a refusal, comes to. -/
def buildOf (part : Nat) (udp : Bool) (rate : Nat) (v : Except Reject Verified) : Build :=
  match v with
  | .error r =>
    { part := part, udp := udp, rate := rate, outcome := none, programs := [], inits := [], rejectNotOwner := r.status == .notOwner
      rejectNoRes := r.status == .noResource, reason := r.reason }
  | .ok x =>
    { part := part, udp := udp, rate := rate, outcome := some (x.parts, x.corner, x.total), programs := x.programs, inits := x.inits
      rejectNotOwner := false, rejectNoRes := false, reason := 0 }

/-- The conditions under which GRAPH_VERIFY returns BUSY (R101, R104, R111). -/
def verifyBusy (s : State) (part : Nat) : Bool :=
  let b := s.rdg.bank s.rdg.shadow
  decide (b.state = .pending ∨ b.state = .building) || s.rdg.xfade.isSome || s.rdg.halt.isSome
    || (decide (b.state = .ready) && s.rdg.resRunning && s.rdg.resPart != part)

/-- GRAPH_VERIFY (R101, R103, R104): the build runs until BANK_BUILD_COMPLETE. -/
def graphVerify (part : Nat) (udp : Bool) (length : Word) (s : State) : State × Reply :=
  if verifyBusy s part then graphRefuse part .busy 0x13 s
  else
    let r := (regionOf s .staging part).getD { base := 0, size := 0, owner := part, hostVisible := false, use := .staging }
    if decide (length.toNat ≤ 0x100000 ∧ r.size < length.toNat) then graphRefuse part .noResource 0x11 s
    else
      let n := min length.toNat 0x100000
      let v := verifyImage (verifyCtx s part) (s.mem.readTarn r.base n) length.toNat
      let sh := s.rdg.shadow
      let b := s.rdg.bank sh
      let lost := if b.state = .ready ∧ s.rdg.resPart ≠ part then setBit s.rdg.lost s.rdg.resPart true else s.rdg.lost
      ({ s with rdg := { s.rdg.setBank sh { b with state := .building } with
          build := some (buildOf part udp s.pst.rate v), resPart := part, resRunning := false
          lost := setBit lost part false } },
        { status := .pending, payload := [] })

/-- The named wave of a commit or halt, or MCNT + 8 with IMMEDIATE (R109). -/
def namedWave (s : State) (w : GraphWave) : Word := if w.flags.getLsbD 0 then s.mcnt + 8 else w.wave

/-- The range of a named wave, of N and of the flags (R109, R111, R122). -/
def waveOk (s : State) (w : GraphWave) : Bool :=
  (w.flags.getLsbD 0 || decide (8 ≤ ahead s w.wave)) && decide (w.n.toNat ≤ 4096 ∧ w.flags.toNat ≤ 1)

/-- A STEP realignment waits for its step edge (R47). -/
def stepWaiting (p : Pst) : Bool :=
  (match p.realign with
    | .step _ _ => true
    | _ => false) || p.waiting.any fun c => match c with
    | .realign (.step _ _) => true
    | _ => false

/-- GRAPH_COMMIT (R26, R47, R67, R101, R109, R119). -/
def graphCommit (part : Nat) (w : GraphWave) (s : State) : State × Reply :=
  let sh := s.rdg.shadow
  let b := s.rdg.bank sh
  if !waveOk s w then graphRefuse part .badParam 0x12 s
  else if s.rdg.commit.isSome || s.rdg.halt.isSome || stepWaiting s.pst then graphRefuse part .busy 0x13 s
  else if b.state = .ready ∧ s.rdg.resPart = part then
    if b.rate ≠ s.pst.rate then graphRefuse part .graphReject 0x03 s
    else if loadCeiling s.fs < b.corner.toNat then graphRefuse part .graphReject 0x04 s
    else
      let m := namedWave s w
      ({ s with rdg := { s.rdg.setBank sh { b with state := .pending } with
          commit := some { m := m, n := w.n.toNat, part := part }, commitM := m, resRunning := false } },
        Reply.ok (le32 m))
  else if s.rdg.lost.getLsbD part then graphRefuse part .graphReject 0x0C s
  else graphRefuse part .graphReject 0x0D s

/-- GRAPH_CANCEL (R101, R110, R111). -/
def graphCancel (part : Nat) (s : State) : State × Reply :=
  match s.rdg.commit, s.rdg.halt with
  | some c, _ =>
    if c.part ≠ part then graphRefuse part .graphReject 0x0D s
    else if ahead s c.m < 2 then graphRefuse part .busy 0x13 s
    else
      let sh := s.rdg.shadow
      ({ s with rdg := { s.rdg.setBank sh { s.rdg.bank sh with state := .ready } with
          commit := none, resRunning := true } }, Reply.ok [])
  | none, some h =>
    if part ≠ 0 then graphRefuse part .graphReject 0x0D s
    else if ahead s h.h < 2 ∨ h.began.isSome then graphRefuse part .busy 0x13 s
    else ({ s with rdg := { s.rdg with halt := none } }, Reply.ok [])
  | none, none => graphRefuse part .graphReject 0x0D s

/-- GRAPH_HALT (R111). -/
def graphHalt (part : Nat) (w : GraphWave) (s : State) : State × Reply :=
  if !waveOk s w then graphRefuse part .badParam 0x12 s
  else if s.rdg.commit.isSome || s.rdg.xfade.isSome || s.rdg.halt.isSome then graphRefuse part .busy 0x13 s
  else if s.rdg.live.isNone then graphRefuse part .graphReject 0x0D s
  else
    let h := namedWave s w
    ({ s with rdg := { s.rdg with halt := some { h := h, n := w.n.toNat, began := none } } }, Reply.ok (le32 h))

/-- GRAPH_SET_RESERVATION (R101, R122). -/
def graphSetReservation (ms : Half) (s : State) : State × Reply :=
  if decide (ms.toNat < 100 ∨ 10000 < ms.toNat) then (s, Reply.code .badParam)
  else ({ s with rdg := { s.rdg with resMs := ms.toNat } }, Reply.ok [])

def BankState.code : BankState → Nat
  | .empty => 0 | .building => 1 | .ready => 2 | .pending => 3 | .live => 4 | .idle => 5

/-- RDG_BANK_STAT (R120). -/
def Rdg.bankStat (r : Rdg) : Word :=
  fieldAt 0 (r.live.getD 0) ||| bitAt 1 r.live.isSome ||| fieldAt 2 r.bankA.state.code ||| fieldAt 5 r.bankB.state.code
    ||| bitAt 8 r.commit.isSome ||| bitAt 9 r.xfade.isSome ||| bitAt 10 r.commitLate ||| bitAt 11 r.halt.isSome
    ||| fieldAt 12 r.resPart ||| bitAt 14 r.resRunning

/-- GRAPH_STATUS (R122). -/
def graphStatus (s : State) : State × Reply :=
  let r := s.rdg
  (s, Reply.ok (le32 r.bankStat ++ le32 r.generation ++ le32 r.commitM ++ le32 r.applied ++ le32 r.xfadeEnd))

/-- The entries of a bank that count (R103, R121). -/
def Bank.used (b : Bank) : Nat := (b.parts.map fun q => (q.entries.filter fun e => !e.dormant).length).sum

/-- Offsets and sizes as a counted list of pairs (log 29). -/
def rangeBytes (rs : List (Nat × Nat)) : List Byte :=
  leBytes 2 rs.length ++ rs.flatMap fun r => leBytes 4 r.1 ++ leBytes 4 r.2

/-- GRAPH_GET_LAYOUT (R122; log 29). -/
def graphGetLayout (part : Nat) (s : State) : State × Reply :=
  let parts := (s.rdg.liveParts).getD []
  let live (n : Node) : Bool := !(n.retiring && s.rdg.xfade.isNone)
  let regions := parts.flatMap fun p => (p.nodes.filter live).flatMap Node.regions
  let mine := (((parts.getD part BankPart.init).nodes.filter live).flatMap Node.regions).filter fun r => r.1 == 3
  let engines := (List.range 24).flatMap fun e => (List.range 3).flatMap fun m =>
    rangeBytes ((regions.filter fun r => r.1 == m && r.2.1 == e).map (·.2.2))
  let columns := (List.range 512).filter fun j => parts.any fun p => p.sliceRuns.any fun x =>
    decide (x.1.firstCol ≤ j ∧ j < x.1.firstCol + x.1.cols)
  let used := match s.rdg.live with
    | none => 0
    | some b => (s.rdg.bank b).used
  (s, Reply.ok (le32 s.rdg.generation ++ engines ++ rangeBytes (mine.map (·.2.2)) ++ leBytes 2 used
    ++ leBytes 2 columns.length ++ columns.flatMap (leBytes 2)))

/-- The live bank's node of a partition, if it is not dormant (R112, R122). -/
def liveNode (s : State) (part id : Nat) : Option Node :=
  match s.rdg.liveParts with
  | none => none
  | some ps => match (ps.getD part BankPart.init).node? id with
    | none => none
    | some n => if n.retiring && s.rdg.xfade.isNone then none else some n

/-- The gain parameters of a node: one 16-byte cell for each channel of each (R154; log 30). -/
def Node.gainParams (n : Node) : Nat := if n.place < 24 then n.paramSize / (16 * n.channels) else 0

/-- The byte address in C memory of a gain cell (R154; log 30). -/
def Node.cellAddr (n : Node) (param ch : Nat) : Nat := n.paramOfs + 16 * (param * n.channels + ch)

/-- Word `i` of a gain cell. -/
def Engine.cellWord (e : Engine) (addr i : Nat) : Word := Store.look 0 e.c (addr / 4 + i)

/-- CTRL.PEND_VALID and CTRL.RAMPING of a gain cell (R154). -/
def Engine.pendValid (e : Engine) (addr : Nat) : Bool := (e.cellWord addr 3).getLsbD 0
def Engine.ramping (e : Engine) (addr : Nat) : Bool := (e.cellWord addr 3).getLsbD 1

/-- The zero-crossing timeout in effect for a node, ms (R116). -/
def timeoutOf (s : State) (part : Nat) (n : Node) : Nat :=
  match s.rdg.timeouts.find? fun x => x.1 == part && x.2.1 == n.id with
  | none => n.zcTimeout
  | some x => x.2.2

/-- The channels that NODE_SET_GAIN names. -/
def gainChannels (n : Node) (c : NodeSetGain) : List Nat :=
  if c.maskFlag.toNat = 0 then List.range n.channels else bitsOf c.mask

/-- A change waits already for the cell, in the cell or held by Ridge (R117, R154). -/
def cellReplaced (s : State) (engine addr : Nat) : Bool :=
  let e := s.engine engine
  (e.pendValid addr && !e.ramping addr) || s.rdg.cellWrites.any fun w => w.engine == engine && w.addr == addr

/-- NODE_SET_GAIN (R115 to R117, R122, R154). -/
def nodeSetGain (part : Nat) (c : NodeSetGain) (s : State) : State × Reply :=
  let a := if c.a = 0 then s.mcnt + 8 else c.a
  match liveNode s part c.node.toNat with
  | none => graphRefuse part .badParam 0x12 s
  | some n =>
    if decide (n.gainParams ≤ c.param.toNat ∨ 1 < c.maskFlag.toNat ∨ (c.a ≠ 0 ∧ ahead s c.a < 8))
        || (c.maskFlag.toNat == 1 && (bitsOf c.mask).any fun i => decide (n.channels ≤ i)) then
      graphRefuse part .badParam 0x12 s
    else
      let t := samplesOfMs s.fs (timeoutOf s part n)
      let chs := gainChannels n c
      let replaced := chs.foldl
        (fun (w : Long) ch => if cellReplaced s n.place (n.cellAddr c.param.toNat ch) then setBit w ch true else w) 0
      let new := chs.map fun ch =>
        { engine := n.place, addr := n.cellAddr c.param.toNat ch, part := part, node := n.id, gain := c.gain, a := a
          t := t, held := false : GainCell }
      let kept := s.rdg.cellWrites.filter fun w => !(new.any fun x => x.engine == w.engine && x.addr == w.addr)
      ({ s with rdg := { s.rdg with cellWrites := kept ++ new } }, Reply.ok (le32 a ++ le64 replaced))

/-- NODE_SET_TIMEOUT (R116, R122). -/
def nodeSetTimeout (part : Nat) (node ms : Half) (s : State) : State × Reply :=
  match liveNode s part node.toNat with
  | none => graphRefuse part .badParam 0x12 s
  | some n =>
    if n.gainParams = 0 ∨ 1000 < ms.toNat then graphRefuse part .badParam 0x12 s
    else
      let kept := s.rdg.timeouts.filter fun x => !(x.1 == part && x.2.1 == n.id)
      ({ s with rdg := { s.rdg with timeouts := (part, n.id, ms.toNat) :: kept } }, Reply.ok [])

/-- The reservation timer of a READY bank expires (R101). -/
def reservationExpiry (s : State) : State :=
  if s.rdg.resRunning then { s with rdg := { s.rdg with resRunning := false } } else s

/-- Mark the retiring entries of a part dormant (R112). -/
def BankPart.retire (p : BankPart) : BankPart :=
  { p with entries := p.entries.map fun e => { e with dormant := e.dormant || e.retiring } }

/-- The crossfade ends: retiring entries of the live bank become dormant (R112). -/
def endCrossfade (r : Rdg) : Rdg :=
  match r.live with
  | none => { r with xfade := none }
  | some b =>
    let x := r.bank b
    { r.setBank b { x with parts := x.parts.map BankPart.retire } with xfade := none }

/-- CROSSFADE_END at wave w + N (R112). -/
def crossfadeEnd (s : State) : State :=
  if s.rdg.xfade.isSome ∧ 0 ≤ serialDiff s.mcnt s.rdg.xfadeEnd then { s with rdg := endCrossfade s.rdg } else s

/-- The first wave that a halt keeps from launching has come (R111). -/
def haltOver (s : State) (k : Word) : Bool :=
  match s.rdg.halt with
  | none => false
  | some h =>
    (match h.began with
      | some w => decide (0 ≤ serialDiff k (w + BitVec.ofNat 32 h.n))
      | none => decide (h.n = 0) && decide (0 ≤ serialDiff k h.h))

/-- BANK_HALT_END at wave h + N: the live bank becomes IDLE (R101, R111). -/
def bankHaltEnd (s : State) : State :=
  if haltOver s s.mcnt then
    match s.rdg.live with
    | none => { s with rdg := { s.rdg with halt := none } }
    | some b =>
      { s with rdg := { s.rdg.setBank b { s.rdg.bank b with state := .idle } with
          live := none, lastLive := some b, halt := none } }
  else s

/-- The Q2.30 crossfade gain g(i) (R112). -/
def fadeGain (i n : Nat) : Nat := if n = 0 then 2 ^ 30 else i * 2 ^ 30 / n

/-- The factor that a fading halt gives to every output of wave k (R111). -/
def haltFactor (s : State) (k : Word) : Nat :=
  match s.rdg.halt with
  | none => 2 ^ 30
  | some h => match h.began with
    | none => 2 ^ 30
    | some w => 2 ^ 30 - fadeGain (min (k - w).toNat h.n) h.n

/-- A pending commit takes effect at wave w (R101, R110, R112, R118). -/
def applyCommit (w : Word) (s : State) : State :=
  match s.rdg.commit with
  | none => s
  | some c =>
    if serialDiff w c.m < 0 then s
    else
      let sh := s.rdg.shadow
      let b := s.rdg.bank sh
      let old := s.rdg.liveParts
      let stays (part node : Nat) : Bool := match (b.parts.getD part BankPart.init).node? node with
        | none => false
        | some n => persists old part n
      let gone := (s.rdg.cells ++ s.rdg.cellWrites).filter fun x => !stays x.part x.node
      let r1 := match s.rdg.live with
        | none => s.rdg
        | some o => s.rdg.setBank o { s.rdg.bank o with state := .idle }
      let r2 := { r1.setBank sh { b with state := .live } with
        live := some sh, lastLive := some sh, commit := none, applied := w, generation := s.rdg.generation + 1
        commitCnt := s.rdg.commitCnt + 1, xfadeEnd := w + BitVec.ofNat 32 c.n, xfadeN := c.n, xfade := some w
        commitLate := decide (w ≠ c.m)
        gainDropCnt := s.rdg.gainDropCnt + BitVec.ofNat 32 gone.length
        cells := s.rdg.cells.filter fun x => stays x.part x.node
        cellWrites := s.rdg.cellWrites.filter fun x => stays x.part x.node
        timeouts := s.rdg.timeouts.filter fun x => stays x.1 x.2.1 }
      { s with rdg := if c.n = 0 then endCrossfade r2 else r2 }

/-- A halt's fade begins at the first wave launched from h (R111). -/
def beginHalt (w : Word) (s : State) : State :=
  match s.rdg.halt with
  | none => s
  | some h =>
    if h.began.isNone ∧ 0 ≤ serialDiff w h.h ∧ h.n ≠ 0 then
      { s with rdg := { s.rdg with halt := some { h with began := some w } } }
    else s

/-- A read of the bank registers, 0x5500 to 0x553F (R120, R121). -/
def rdgRead (s : State) (a : Nat) : Word :=
  let r := s.rdg
  if a = 0x5500 then r.bankStat
  else if a = 0x5504 then r.commitM
  else if a = 0x5508 then r.applied
  else if a = 0x550C then r.xfadeEnd
  else if a = 0x5510 then r.generation
  else if a = 0x5514 then r.commitCnt
  else if a = 0x5518 then r.rejectCnt
  else if a = 0x551C then fieldAt 0 r.lastReject ||| fieldAt 16 r.lastRejectPart
  else if a = 0x5520 then BitVec.ofNat 32 (match r.live with
    | none => 0
    | some b => (r.bank b).used)
  else if a = 0x5524 then r.gainTimeoutCnt
  else if a = 0x5528 then r.gainDropCnt
  else 0

/-- A read of the fabric registers, 0x5400 to 0x54FF (R87, R88). RDG_DEADLINE shows D once sample edges run (log 31). -/
def fabRead (s : State) (sh : Shadow) (a : Nat) : Word :=
  let f := s.fab
  let fs := s.fs
  if a = 0x5400 then
    bitAt 0 f.auto ||| fieldAt 1 f.govState.code ||| bitAt 4 (f.atFloor fs) ||| bitAt 5 (f.atCeiling fs)
      ||| bitAt 6 f.busFault ||| bitAt 7 f.voutMismatch ||| bitAt 8 (f.missRecent s.time)
      ||| bitAt 9 (f.missBurst s.time) ||| bitAt 10 s.wave.running.isSome ||| bitAt 11 f.coreUv
  else if a = 0x5404 then f.slackLast
  else if a = 0x5408 then f.slackMin
  else if a = 0x540C then f.slackMean
  else if a = 0x5410 then (if s.pst.state = .acquire then 0 else BitVec.ofInt 32 (deadlineUnits fs))
  else if a = 0x5414 then (match s.rdg.live with
    | none => 0
    | some b => (s.rdg.bank b).corner)
  else if a = 0x5418 then f.missCnt
  else if a = 0x541C then f.skipCnt
  else if a = 0x5420 then f.lateCnt
  else if a = 0x5424 then f.missRun
  else if a = 0x5428 then f.lastMiss
  else if a = 0x542C then f.vcmd.setWidth 32
  else if a = 0x5430 then f.vread.setWidth 32
  else if a = 0x5434 then f.writes
  else if a = 0x5438 then f.emergCnt
  else if a = 0x5480 then Store.look 0 f.hist 0
  else if 0x5484 ≤ a ∧ a < 0x5500 then sh.hist.getD ((a - 0x5480) / 4) 0
  else 0

end Sys2Proof.Machine
end

