-- ==== Sys2Proof/Machine/Cairn.lean ====
section
/-! DEFINITION. What a Cairn instruction word does when its engine issues it (R123 to R174). Stalls and the pipeline are
timing and change no value; the loop cache is kept as state. Each meaning of a row is one call of `issue`. -/

namespace Sys2Proof.Machine

/-- A value for each of the four lanes. -/
abbrev Lanes := Nat → Word

/-- The lanes. -/
def lanes : List Nat := [0, 1, 2, 3]

def Engine.vreg (e : Engine) (r : Nat) : Lanes := fun j => Store.look 0 e.v (4 * r + j)
def Engine.accReg (e : Engine) (a j : Nat) : Int := (Store.look (0 : BitVec 80) e.acc (4 * a + j)).toInt
def Engine.sreg (e : Engine) (r : Nat) : Word := Store.look 0 e.s r
def Engine.preg (e : Engine) (r : Nat) : Nat := Store.look 0 e.p r

/-- Write one lane of a V register. -/
def Engine.setLane (e : Engine) (r j : Nat) (x : Word) : Engine := { e with v := Store.put 0 e.v (4 * r + j) x }

/-- Write all four lanes of a V register. -/
def Engine.setV (e : Engine) (r : Nat) (f : Lanes) : Engine := lanes.foldl (fun e j => e.setLane r j (f j)) e

/-- Write an S register; SZ and SN follow the value written (R166). -/
def Engine.setS (e : Engine) (r : Nat) (x : Word) : Engine :=
  { e with s := Store.put 0 e.s r x, flags := setBit (setBit e.flags 8 (x == 0)) 9 (x.getLsbD 31) }

/-- Set lane `j`'s sticky SAT flag (R141). -/
def Engine.markSat (e : Engine) (j : Nat) : Engine := { e with flags := setBit e.flags j true }

/-- Set lane `j`'s sticky ACC_OVF flag (R140). -/
def Engine.markOvf (e : Engine) (j : Nat) : Engine := { e with flags := setBit e.flags (4 + j) true }

/-- Write lane `j` of an accumulator, saturating at the 80-bit limits (R140). -/
def Engine.setAcc (e : Engine) (a j : Nat) (x : Int) : Engine :=
  let y := clampInt (-(2 ^ 79)) (2 ^ 79 - 1) x
  let e1 := { e with acc := Store.put (0 : BitVec 80) e.acc (4 * a + j) (BitVec.ofInt 80 y) }
  if y = x then e1 else e1.markOvf j

/-- Write lane `j` of a V register with sat32 of a number (R141, R169). -/
def Engine.setSat (e : Engine) (r j : Nat) (x : Int) : Engine :=
  let e1 := e.setLane r j (satS32 x)
  if clampS32 x = x then e1 else e1.markSat j

/-- The local memory of an address-generator field: 1 X, 2 Y, 3 C. -/
def Engine.mem (e : Engine) (m : Nat) : Store Word := if m = 1 then e.x else if m = 2 then e.y else e.c

def Engine.setMem (e : Engine) (m : Nat) (st : Store Word) : Engine :=
  if m = 1 then { e with x := st } else if m = 2 then { e with y := st } else { e with c := st }

/-- Write one word of a local memory; the word holds no error any more (R129). -/
def Engine.putMem (e : Engine) (m a : Nat) (x : Word) : Engine :=
  { e.setMem m (Store.put 0 (e.mem m) a x) with
    bad := if e.bad.isEmpty then [] else e.bad.filter fun b => !(b.1 == m && b.2 == a) }

/-- The words that an access reaches (R126). -/
def Engine.reach (e : Engine) (g : Ag) : List Nat :=
  let p := e.preg g.ptr.toNat
  if g.form then [p] else lanes.map fun j => p / 4 * 4 + j

/-- The value that an access reads (R126). -/
def Engine.readAg (e : Engine) (g : Ag) : Lanes := fun j =>
  let p := e.preg g.ptr.toNat
  Store.look 0 (e.mem g.mem.toNat) (if g.form then p else p / 4 * 4 + j)

/-- Write through an address-generator field: a line, or the named lane to one word (R126, R171). -/
def Engine.writeAg (e : Engine) (g : Ag) (lane : Nat) (f : Lanes) : Engine :=
  let p := e.preg g.ptr.toNat
  if g.form then e.putMem g.mem.toNat p (f lane)
  else lanes.foldl (fun e j => e.putMem g.mem.toNat (p / 4 * 4 + j) (f j)) e

/-- A pointer after modification by `m` (R137). -/
def nextPointer (p : Nat) (l b : Nat) (m : Int) : Nat :=
  if l = 0 then ((p + m).emod 16384).toNat else ((b + ((p : Int) - b + m).emod l).emod 16384).toNat

/-- Post-modify the pointer of a field (R137, R162); a field of zeros does nothing (R159). -/
def Engine.postMod (e : Engine) (g : Ag) : Engine :=
  if g = Ag.idle then e
  else
    let n := g.ptr.toNat
    let m : Int := match g.mod with
      | .imm v => v.toInt
      | .m => Store.look 0 e.m n
    { e with p := Store.put 0 e.p n (nextPointer (e.preg n) (Store.look 0 e.l n) (Store.look 0 e.b n) m) }

/-- The lane operand that a selector names (R163). -/
def Engine.operand (e : Engine) (r0 r1 r2 : Lanes) (x : BitVec 4) : Lanes :=
  match x.toNat with
  | 8 => r0
  | 9 => r1
  | 10 => r2
  | 11 => fun _ => e.xfIn
  | 12 => fun _ => e.xfOut
  | 13 => fun _ => 0
  | n => e.vreg n

/-- The residual in SA[30:0] (R167). -/
def residual (x : Word) : Int := (x.toNat % 2 ^ 31 : Nat)

/-- The aligned product of MPY and MAC, with its sign (R139, R167). -/
def product (ty : BitVec 3) (x y : Word) : Int :=
  let p : Int := match ty.toNat % 4 with
    | 0 => x.toInt * y.toInt
    | 1 => x.toInt * y.toInt * 2
    | 2 => x.toInt * y.toInt * 4
    | _ => (residual x * y.toInt).fdiv (2 ^ 30)
  if 4 ≤ ty.toNat then -p else p

/-- The aligned operand of LDA and ADDA, with its sign (R167). -/
def aligned (ty : BitVec 3) (x : Word) : Int :=
  let p : Int := match ty.toNat % 4 with
    | 0 => x.toInt * 2 ^ 31
    | 1 => x.toInt * 2 ^ 32
    | _ => residual x
  if 4 ≤ ty.toNat then -p else p

/-- EXPN (R170). -/
def expn (x : Word) : Nat :=
  (((List.range 31).map fun i => 30 - i).takeWhile fun i => x.getLsbD i == x.getLsbD 31).length

/-- SHV (R169). -/
def shiftVar (x y : Word) : Int :=
  let s := clampInt (-31) 31 y.toInt
  if 0 ≤ s then x.toInt * 2 ^ s.toNat else x.toInt.fdiv (2 ^ (-s).toNat)

/-- One step of the noise generator (R144). -/
def xorshift (s : Word) : Word :=
  let a := s ^^^ (s <<< 13)
  let b := a ^^^ (a >>> 17)
  b ^^^ (b <<< 5)

/-- A draw: the value n and the state after it (R144). -/
def drawNoise (s : Word) : Int × Word :=
  let u1 := xorshift s
  let u2 := xorshift u1
  ((u1 >>> 1).toInt - (u2 >>> 1).toInt, u2)

/-- The seed of lane `j` (R144). -/
def seedLane (seed wave : Word) (j : Nat) : Word :=
  let s := seed ^^^ (wave * 0x9E3779B9#32) ^^^ (BitVec.ofNat 32 (j + 1) * 0x85EBCA6B#32)
  if s = 0 then 0x6D2B79F5#32 else s

/-- The dither word length: a DWL outside 8 to 32 is taken as 24 (R166). -/
def Engine.ditherLength (e : Engine) : Nat :=
  let d := (e.flags >>> 24).toNat % 64
  if 8 ≤ d ∧ d ≤ 32 then d else 24

/-- A dithered narrowing of one lane (R144, R168). -/
def Engine.ditherLane (e : Engine) (a d sh j : Nat) : Engine :=
  let (n, st) := drawNoise (Store.look 0 e.nstate j)
  let e1 := e.setSat d j ((e.accReg a j * 2 ^ sh + n * 2 ^ (32 - e.ditherLength)).fdiv (2 ^ 31))
  { e1 with nstate := Store.put 0 e1.nstate j st }

/-- Write every lane of an accumulator. -/
def Engine.accLanes (e : Engine) (a : Nat) (f : Nat → Int) : Engine := lanes.foldl (fun e j => e.setAcc a j (f j)) e

/-- Write every lane of a V register with sat32 of a number. -/
def Engine.satLanes (e : Engine) (d : Nat) (f : Nat → Int) : Engine := lanes.foldl (fun e j => e.setSat d j (f j)) e

/-- The MAC-class slot (R167 to R170): values before the instruction are those of `e`. -/
def Engine.macSlot (e : Engine) (r0 r1 r2 : Lanes) (m : MacOp) : Engine :=
  let op (x : BitVec 4) : Lanes := e.operand r0 r1 r2 x
  let lane2 (d : BitVec 3) (x y : BitVec 4) (f : Word → Word → Int) : Engine :=
    e.satLanes d.toNat fun j => f (op x j) (op y j)
  let bits (d : BitVec 3) (x y : BitVec 4) (f : Word → Word → Word) : Engine :=
    e.setV d.toNat fun j => f (op x j) (op y j)
  match m with
  | .mnop => e
  | .mpy a t x y => e.accLanes a.toNat fun j => product t (op x j) (op y j)
  | .mac a t x y => e.accLanes a.toNat fun j => e.accReg a.toNat j + product t (op x j) (op y j)
  | .lda a t x => e.accLanes a.toNat fun j => aligned t (op x j)
  | .adda a t x => e.accLanes a.toNat fun j => e.accReg a.toNat j + aligned t (op x j)
  | .sha a n => e.accLanes a.toNat fun j =>
      if 0 ≤ n.toInt then e.accReg a.toNat j * 2 ^ n.toInt.toNat else (e.accReg a.toNat j).fdiv (2 ^ (-n.toInt).toNat)
  | .nrw a d n => e.satLanes d.toNat fun j => (e.accReg a.toNat j * 2 ^ n.toNat).fdiv (2 ^ 31)
  | .dnrw a d n => lanes.foldl (fun e j => e.ditherLane a.toNat d.toNat n.toNat j) e
  | .nrwc a d n => e.satLanes d.toNat fun j => (e.accReg a.toNat j * 2 ^ n.toNat).fdiv (2 ^ 32)
  | .nrwe a d => e.setV d.toNat fun j => BitVec.ofInt 32 ((e.accReg a.toNat j).fmod (2 ^ 31))
  | .add d x y => lane2 d x y fun a b => a.toInt + b.toInt
  | .sub d x y => lane2 d x y fun a b => a.toInt - b.toInt
  | .max d x y => bits d x y fun a b => if b.toInt ≤ a.toInt then a else b
  | .min d x y => bits d x y fun a b => if a.toInt ≤ b.toInt then a else b
  | .abs d x => e.satLanes d.toNat fun j => ((op x j).toInt.natAbs : Int)
  | .neg d x => e.satLanes d.toNat fun j => -(op x j).toInt
  | .and d x y => bits d x y fun a b => a &&& b
  | .or d x y => bits d x y fun a b => a ||| b
  | .xor d x y => bits d x y fun a b => a ^^^ b
  | .shl d x n => e.satLanes d.toNat fun j => (op x j).toInt * 2 ^ n.toNat
  | .shr d x n => e.satLanes d.toNat fun j => (op x j).toInt.fdiv (2 ^ n.toNat)
  | .shv d x y => lane2 d x y shiftVar
  | .norm d x => e.setV d.toNat fun j => op x j <<< expn (op x j)
  | .expn d x => e.setV d.toNat fun j => BitVec.ofNat 32 (expn (op x j))
  | .sel d x y => e.setV d.toNat fun j => if 0 ≤ (op x j).toInt then op y j else e.vreg d.toNat j

/-- The short move, its values taken from `pre`, the engine before the instruction (R164, R171). -/
def Engine.shortMove (e pre : Engine) (g0 g2 : Ag) (m : ShortMove) : Engine :=
  match m with
  | .snop | .waitf _ => e
  | .ldv d => e.setV d.toNat (pre.readAg g2)
  | .st v j => e.writeAg g2 j.toNat (pre.vreg v.toNat)
  | .cpy => e.writeAg g2 0 (pre.readAg g0)
  | .movv d v => e.setV d.toNat (pre.vreg v.toNat)
  | .movsv d v j => e.setS d.toNat (pre.vreg v.toNat j.toNat)
  | .bcst d x => e.setV d.toNat fun _ => pre.sreg x.toNat

/-- LCn: iterations still to start of a level, 0 for one that is not open (R172). -/
def Engine.lc (e : Engine) (n : Nat) : Nat := (e.loops[n]?.map LoopFrame.left).getD 0

/-- The source of MOVC (R172). -/
def Engine.context (e : Engine) (n : Nat) : Word :=
  match n with
  | 0 => e.wave
  | 1 => e.xfIn
  | 2 => e.xfOut
  | 3 => e.xfIdx
  | 4 => e.node
  | 5 => e.who
  | 6 => e.flags
  | n => BitVec.ofNat 32 (e.lc (n - 7))

/-- A condition of BR (R172). -/
def Engine.cond (e : Engine) (k : Nat) : Bool :=
  let sz := e.flags.getLsbD 8
  let sn := e.flags.getLsbD 9
  let any := decide (e.flags.toNat % 256 ≠ 0)
  match k with
  | 0 => true
  | 1 => sz
  | 2 => !sz
  | 3 => sn
  | 4 => !sn
  | 5 => sn || sz
  | 6 => !sn && !sz
  | 7 => any
  | _ => !any

/-- ALUS (R172). -/
def alus (op : Nat) (a b : Word) : Word :=
  match op with
  | 0 => a + b
  | 1 => a - b
  | 2 => a &&& b
  | 3 => a ||| b
  | 4 => a ^^^ b
  | 5 => a <<< (b.toNat % 32)
  | 6 => a.sshiftRight (b.toNat % 32)
  | _ => a * b

/-- The value of an address register, by class: 0 P, 1 M, 2 L, 3 B (R172). -/
def Engine.addrReg (e : Engine) (cls n : Nat) : Int :=
  match cls with
  | 0 => e.preg n
  | 1 => Store.look 0 e.m n
  | 2 => (Store.look 0 e.l n : Nat)
  | _ => (Store.look 0 e.b n : Nat)

/-- A value fits an address register of a class (R173). -/
def addrFits (cls : Nat) (x : Int) : Bool :=
  match cls with
  | 1 => decide (-16384 ≤ x ∧ x ≤ 16383)
  | 2 => decide (0 ≤ x ∧ x ≤ 16384)
  | _ => decide (0 ≤ x ∧ x ≤ 16383)

/-- Write an address register. -/
def Engine.setAddr (e : Engine) (cls n : Nat) (x : Int) : Engine :=
  match cls with
  | 0 => { e with p := Store.put 0 e.p n x.toNat }
  | 1 => { e with m := Store.put 0 e.m n x }
  | 2 => { e with l := Store.put 0 e.l n x.toNat }
  | _ => { e with b := Store.put 0 e.b n x.toNat }

/-- The register effect of a long move (R172), its values taken from `pre`: MOVVS discards what the MAC-class slot gave its
register (R164). -/
def Engine.longMove (e pre : Engine) (g1 : Ag) (m : LongMove) : Engine :=
  match m with
  | .lnop | .br _ _ | .ret _ => e
  | .call d _ => e.setS d.toNat (BitVec.ofNat 32 (pre.pc + 1))
  | .addsi d r i => e.setS d.toNat (pre.sreg r.toNat + i.signExtend 32)
  | .alus d r t o => e.setS d.toNat (alus o.toNat (pre.sreg r.toNat) (pre.sreg t.toNat))
  | .mova k n r w =>
    if w then e.setAddr k.toNat n.toNat (pre.sreg r.toNat).toInt
    else e.setS r.toNat (BitVec.ofInt 32 (pre.addrReg k.toNat n.toNat))
  | .movc d o => e.setS d.toNat (pre.context o.toNat)
  | .lds d => e.setS d.toNat (pre.readAg g1 0)
  | .sts r => e.writeAg g1 0 fun _ => pre.sreg r.toNat
  | .movvs d r j => e.setV d.toNat fun i => if i = j.toNat then pre.sreg r.toNat else pre.vreg d.toNat i
  | .setdw b => { e with flags := (e.flags &&& 0xC0FFFFFF#32) ||| ((b.setWidth 32) <<< 24) }

/-- Where a long move branches, if it does. -/
def Engine.branch (e : Engine) (m : LongMove) : Option Nat :=
  match m with
  | .br k t => if e.cond k.toNat then some t.toNat else none
  | .call _ t => some t.toNat
  | .ret r => some ((e.sreg r.toNat).toNat % 2048)
  | _ => none

/-- An index lies in a loop's body. -/
def LoopFrame.holds (f : LoopFrame) (i : Nat) : Bool := decide (f.first ≤ i ∧ i ≤ f.last)

/-- A taken branch: the loops that it leaves close, and leaving the held body invalidates the cache (R136). -/
def Engine.goTo (e : Engine) (t : Nat) : Engine :=
  { e with
    pc := t
    loops := e.loops.takeWhile fun f => f.holds t
    cache := match e.cache with
      | none => none
      | some (a, b) => if a ≤ t ∧ t ≤ b then some (a, b) else none }

/-- What follows the instruction at index `i`: the loop-back of the innermost loop that ends there, or the next
instruction (R135); loops innermost first. -/
def afterIndex (i : Nat) : List LoopFrame → Nat × List LoopFrame
  | [] => (i + 1, [])
  | f :: fs =>
    if f.last = i then
      if f.left = 0 then afterIndex i fs else (f.first, { f with left := f.left - 1 } :: fs)
    else (i + 1, f :: fs)

/-- Go on from index `i`. -/
def Engine.advanceFrom (e : Engine) (i : Nat) : Engine :=
  let r := afterIndex i e.loops.reverse
  { e with pc := r.1, loops := r.2.reverse }

/-- The loop cache holds the body of an open loop that encloses the new one (R136). -/
def Engine.heldOpen (e : Engine) : Bool :=
  match e.cache with
  | none => false
  | some (a, b) => e.loops.any fun f => f.first == a && f.last == b

/-- Open a loop over the `n` instructions after the present one (R135, R136). -/
def Engine.openLoop (e : Engine) (count n : Nat) : Engine :=
  if count = 0 then e.advanceFrom (e.pc + n)
  else
    { e with
      loops := e.loops ++ [{ first := e.pc + 1, last := e.pc + n, left := count - 1 }]
      cache := if n ≤ 64 ∧ !e.heldOpen then some (e.pc + 1, e.pc + n) else e.cache
      pc := e.pc + 1 }

/-- Trap causes (R151). -/
inductive Trap where
  | illegal
  | pcRange
  | loopOverflow
  | localEcc
  | farError
  | farRange
  deriving DecidableEq, Repr

def Trap.code : Trap → Nat
  | .illegal => 1
  | .pcRange => 2
  | .loopOverflow => 3
  | .localEcc => 4
  | .farError => 5
  | .farRange => 6

/-- The entries of the live bank that count, on a target: partition, index and entry. -/
def liveEntries (s : State) (target : Nat) : List (Nat × Nat × Entry) :=
  match s.rdg.liveParts with
  | none => []
  | some ps => (ps.mapIdx fun p part => part.entries.mapIdx fun i e => (p, i, e)).flatten.filter fun x =>
      x.2.2.target == target && !x.2.2.dormant

/-- An entry has completed in this wave. -/
def State.entryDone (s : State) (p i : Nat) : Bool := s.wave.completed.contains (p, i)

/-- Note entries as dispatched and completed. -/
def markDone (s : State) (xs : List (Nat × Nat)) : State :=
  { s with wave := { s.wave with
      dispatched := s.wave.dispatched ++ xs.filter fun x => !s.wave.dispatched.contains x
      completed := s.wave.completed ++ xs.filter fun x => !s.wave.completed.contains x } }

/-- At completion the engine counts a saturating entry once (R142). -/
def Engine.countSat (e : Engine) (now : Nat) : Engine :=
  if e.flags.toNat % 256 ≠ 0 then { e with satCnt := e.satCnt + 1, satAt := some now } else e

/-- Words of Tarn, as a far port reads them. -/
def readWords (m : Mem) (a n : Nat) : List Word := (List.range n).map fun i => m.tarnWord (a + 4 * i)

/-- An inbound transfer writes its lines (R145, R147). -/
def Engine.land (e : Engine) (m : Mem) (x : FarXfer) : Engine :=
  (readWords m x.tarn x.words).zipIdx.foldl (fun e wi => e.putMem (if x.toY then 2 else 1) (x.loc + wi.2) wi.1) e

/-- Finish every outstanding transfer, with no further trap (R151). -/
def Engine.landAll (e : Engine) (m : Mem) : Engine :=
  { (e.far.filter FarXfer.inbound).foldl (fun e x => e.land m x) e with far := [] }

/-- The engine traps (R151, R152): its entry and its remaining entries complete without running, and the window opens. -/
def trap (n : Nat) (c : Trap) (s : State) : State :=
  let e := s.engine n
  let e1 := (e.landAll s.mem).countSat s.time
  let s1 := s.setEngine n { e1 with entry := none, ended := true, trapped := true, window := true, trapCnt := e.trapCnt + 1 }
  let s2 := markDone s1 ((match e.entry with
    | none => []
    | some x => [x]) ++ (liveEntries s n).map fun x => (x.1, x.2.1))
  reportOwn (0x047 + n)
    { s2 with
      wave := { s2.wave with trapped := true }
      crn := { s2.crn with
        trapPend := setBit s2.crn.trapPend n true, lastEngine := n, lastCause := c.code, lastNode := e.node.toNat % 65536
        lastMcnt := e.wave } }

/-- Finish the transfer of a direction (R147): an uncorrectable error of Tarn traps (R146). -/
def finishFar (n : Nat) (inbound : Bool) (s : State) : State :=
  let e := s.engine n
  match e.far.find? fun x => x.inbound == inbound with
  | none => s
  | some x =>
    if x.inbound && s.mem.tarnBadIn x.tarn (4 * x.words) then
      trap n .farError (colError (n / 4) (targetOf s x.tarn) 5 false x.tarn
        (tarnDbe ((firstBadTarn s.mem x.tarn (4 * x.words)).getD 0) s))
    else
      let e1 := if x.inbound then e.land s.mem x else e
      s.setEngine n { e1 with far := e1.far.filter fun y => y.inbound != inbound }

/-- The partition that owns an engine's cluster. -/
def engineOwner (s : State) (n : Nat) : Nat := ownerOf s (.cluster (n / 4))

/-- The far-port checks of R145: length, alignment and span. -/
def farRangeOk (tarn loc words : Nat) : Bool := decide (tarn % 16 = 0 ∧ loc % 4 = 0 ∧ loc + words ≤ 16384)

/-- The regions that an engine reaches (R146). -/
def farRegionOk (s : State) (n tarn words : Nat) : Bool :=
  let p := engineOwner s n
  inOwnRegion s p tarn (4 * words) || inOwnImage s p tarn (4 * words) || inMeridianArea s tarn (4 * words)

/-- Col's answer to a far-port transfer: the kind of the error response, if it is one (R206, R207, R210). -/
def farDeny (s : State) (n tarn words : Nat) (write : Bool) : Option (Nat × Nat) :=
  match colDeny s (n / 4) tarn write with
  | some x => some x
  | none => colDeny s (n / 4) (tarn + 4 * words - 1) write

/-- Start a far-port transfer (R145): a transfer of the same direction in progress completes first. -/
def startFar (n : Nat) (out toY : Bool) (loc tarn words : Nat) (s : State) : State :=
  let s1 := finishFar n (!out) s
  let e := s1.engine n
  if e.trapped then s1
  else if !farRangeOk tarn loc words then trap n .farRange s1
  else match farDeny s1 n tarn words out with
    | some (t, k) => trap n .farError (colError (n / 4) t k out tarn s1)
    | none =>
      let m := if toY then 2 else 1
      if !farRegionOk s1 n tarn words then trap n .farError (colError (n / 4) 31 2 out tarn s1) else
      if out && e.bad.any (fun b => b.1 == m && decide (loc ≤ b.2 ∧ b.2 < loc + words)) then trap n .localEcc s1
      else
        let s2 := if out then
            { s1 with mem := s1.mem.writeTarn tarn ((Store.slice 0 (e.mem m) loc words).flatMap le32) }
          else s1
        s2.setEngine n
          { (e.advanceFrom e.pc) with far := e.far ++ [{ inbound := !out, toY := toY, tarn := tarn, loc := loc, words := words }] }

/-- Execution that has run past the last instruction of the half traps (R174). -/
def checkPc (n : Nat) (s : State) : State :=
  let e := s.engine n
  if !e.trapped && decide (2048 ≤ e.pc) then trap n .pcRange s else s

/-- The reads of a word by its address-generator fields, as memory and word. -/
def Engine.touched (e : Engine) (gs : List Ag) : List (Nat × Nat) :=
  gs.flatMap fun g => if g.reads then (e.reach g).map fun a => (g.mem.toNat, a) else []

/-- The fields of a word that read. -/
def readersOf : CWord → List Ag
  | .a _ x y z v => match v with
    | .st _ _ | .cpy => [x, y]
    | _ => [x, y, z]
  | .b _ x y v => match v with
    | .sts _ => [x]
    | _ => [x, y]
  | .c _ => []

/-- The program memory key of the present instruction. -/
def Engine.progKey (e : Engine) : Nat × Nat := (0, (if e.who.getLsbD 12 then 2048 else 0) + e.pc)

/-- MOVA that would load a value outside its register's range (R172, R173). -/
def Engine.movaBad (e : Engine) : CWord → Bool
  | .b _ _ _ (.mova k _ r true) => !addrFits k.toNat (e.sreg r.toNat).toInt
  | _ => false

/-- Format A on registers and memory (R160 to R171). -/
def Engine.runA (e : Engine) (m : MacOp) (g0 g1 g2 : Ag) (v : ShortMove) : Engine :=
  let e1 := (e.macSlot (e.readAg g0) (e.readAg g1) (e.readAg g2) m).shortMove e g0 g2 v
  (((e1.postMod g0).postMod g1).postMod g2).advanceFrom e.pc

/-- Format B on registers and memory (R160 to R172). -/
def Engine.runB (e : Engine) (m : MacOp) (g0 g1 : Ag) (v : LongMove) : Engine :=
  let e1 := (e.macSlot (e.readAg g0) (e.readAg g1) (fun _ => 0) m).longMove e g1 v
  let e2 := (e1.postMod g0).postMod g1
  match e.branch v with
  | some t => e2.goTo t
  | none => e2.advanceFrom e.pc

/-- LOOP and LOOPI (R135, R173, R174). -/
def runLoop (n count len : Nat) (s : State) : State :=
  let e := s.engine n
  if 2047 < e.pc + len then trap n .pcRange s
  else if count ≠ 0 ∧ 3 ≤ e.loops.length then trap n .loopOverflow s
  else s.setEngine n (e.openLoop count len)

/-- END (R150): outbound transfers are acknowledged and no further instruction issues. -/
def runStop (n : Nat) (s : State) : State :=
  let s1 := finishFar n true (finishFar n false s)
  let e := s1.engine n
  if e.trapped then s1 else s1.setEngine n { e with ended := true }

/-- Format C (R173). -/
def runC (n : Nat) (o : Control) (s : State) : State :=
  let e := s.engine n
  match o with
  | .loop r len => runLoop n ((e.sreg r.toNat).toNat % 65536) (len.toNat + 1) s
  | .loopi k len => runLoop n k.toNat (len.toNat + 1) s
  | .seta k i v => s.setEngine n ((e.setAddr k.toNat i.toNat (if k = 1 then v.toInt else v.toNat)).advanceFrom e.pc)
  | .movi d x => s.setEngine n ((e.setS d.toNat x).advanceFrom e.pc)
  | .far out y p r k => startFar n out y (e.preg p.toNat) (e.sreg r.toNat).toNat (4 * (k.toNat + 1)) s
  | .seed r => s.setEngine n
      (({ e with nstate := Store.putAll 0 e.nstate 0 (lanes.map (seedLane (e.sreg r.toNat) e.wave)) } : Engine).advanceFrom e.pc)
  | .stop => runStop n s

/-- The waits of WAITF (R147): the named directions complete. -/
def runWait (n : Nat) (v : ShortMove) (s : State) : State :=
  match v with
  | .waitf d =>
    let s1 := if d.getLsbD 0 then finishFar n true s else s
    if d.getLsbD 1 then finishFar n false s1 else s1
  | _ => s

/-- An engine issues a word (R159 to R174). An engine that has trapped or ended its entry issues nothing. -/
def issue (n : Nat) (w : CWord) (s : State) : State :=
  let e := s.engine n
  if e.trapped || e.ended then s
  else if e.bad.contains e.progKey then trap n .localEcc s
  else if !w.legal || e.movaBad w then trap n .illegal s
  else if (e.touched (readersOf w)).any fun k => e.bad.contains k then trap n .localEcc s
  else match w with
    | .a m g0 g1 g2 v => checkPc n (runWait n v (s.setEngine n (e.runA m g0 g1 g2 v)))
    | .b m g0 g1 v => checkPc n (s.setEngine n (e.runB m g0 g1 v))
    | .c o => checkPc n (runC n o s)

/-- An engine meets a raw word: one that defines no instruction traps (R161); any other issues. -/
def issueRaw (n : Nat) (w : Long) (s : State) : State :=
  let e := s.engine n
  match CWord.decode w with
  | some c => issue n c s
  | none => if e.trapped || e.ended then s else trap n .illegal s

/-- A far-port transfer completes (R147). -/
def farComplete (n : Nat) (inbound : Bool) (s : State) : State := finishFar n inbound s

/-- A domain in reset runs no engine (R513). -/
def issueRow (n : Fin 24) (w : CWord) (s : State) : State := whenUp s (issue n.val w s)

end Sys2Proof.Machine
end

