-- ==== Sys2Proof/Machine/Meridian.lean ====
section
/-! DEFINITION. Meridian (R175 to R198): slices, the gain step, changes, bulk updates and the matrix commands. -/

namespace Sys2Proof.Machine

/-- The greatest GAIN code (R177). -/
def maxGain : Nat := 0xFD_9539

/-- The signed effective gain of a word (R177). -/
def effGain (w : Word) : Int :=
  let g : Int := (w.toNat % 2 ^ 24 : Nat)
  if w.getLsbD 24 then -g else g

/-- GAIN and INV of a signed gain (R185). -/
def gainWord (s : Int) : Word := BitVec.ofNat 32 (s.natAbs + if s < 0 then 2 ^ 24 else 0)

/-- A change waits or runs on a crosspoint: CHG (R176). -/
def Mtx.chg (m : Mtx) (key : Nat) : Bool := m.changes.any fun c => c.key == key

/-- The crosspoint's word with CHG (R176). -/
def Mtx.word (m : Mtx) (key : Nat) : Word := Store.look 0 m.gains key ||| bitAt 25 (m.chg key)

/-- Write a crosspoint's GAIN and INV: a crosspoint held at 0 is rewritten (R195). -/
def Mtx.setGain (m : Mtx) (key : Nat) (w : Word) : Mtx :=
  { m with
    gains := Store.put 0 m.gains key (w &&& 0x01FF_FFFF#32)
    bad := m.bad.filter fun k => k != key
    held := m.held.filter fun k => k != key }

/-- Ramp slots held by a partition: one for each crosspoint on which it has a change that takes one (R187). -/
def Mtx.slotKeys (m : Mtx) (p : Nat) : List Nat :=
  ((m.changes.filter fun c => c.part == p && c.slot).map Change.key).eraseDups

def Mtx.slotsOf (m : Mtx) (p : Nat) : Nat := (m.slotKeys p).length

def Mtx.slotsUsed (m : Mtx) : Nat := ((List.range 4).map m.slotsOf).sum

/-- An entry's input, column and target word (R198). -/
def entryInput (e : Long) : Nat := e.toNat % 2 ^ 11
def entryCol (e : Long) : Nat := e.toNat / 2 ^ 16 % 2 ^ 9
def entryWord (e : Long) : Word := BitVec.ofNat 32 (e.toNat / 2 ^ 32 % 2 ^ 25)
def entryKey (e : Long) : Nat := 2048 * entryCol e + entryInput e

/-- An entry is in range and its reserved bits are zero (R175, R177, R198). -/
def entryOk (inputs : Nat) (e : Long) : Bool :=
  decide (entryInput e < inputs ∧ e.toNat / 2 ^ 11 % 2 ^ 5 = 0 ∧ e.toNat / 2 ^ 25 % 2 ^ 7 = 0 ∧ e.toNat / 2 ^ 57 = 0
    ∧ e.toNat / 2 ^ 32 % 2 ^ 24 ≤ maxGain)

/-- The mode of a code and n; none where they are out of range (R185, R198). -/
def mtxMode (mode n : Nat) : Option MtxMode :=
  match mode with
  | 0 => some .step
  | 1 => if 1 ≤ n ∧ n ≤ 4096 then some (.ramp n) else none
  | 2 => some .zc
  | _ => none

/-- An armed wave as R185 and R115 name it; none where it is out of range. -/
def armedWave (s : State) (a : Word) : Option Word :=
  if a = 0 then some (s.mcnt + 8) else if 8 ≤ ahead s a then some a else none

/-- ZC_TIMEOUT of a column in waves (R186). -/
def zcWaves (s : State) (col : Nat) : Nat := samplesOfMs s.fs (Store.look 10 s.mtx.zcTimeout col)

/-- Accept one change (R188): one not begun on the same crosspoint is discarded; a replacement is counted. -/
def Mtx.accept (m : Mtx) (c : Change) : Mtx :=
  { m with
    changes := (m.changes.filter fun o => !(o.key == c.key && o.phase == .ahead)) ++ [c]
    replaceCnt := if m.chg c.key then m.replaceCnt + 1 else m.replaceCnt }

/-- The change that an entry asks for. -/
def entryChange (s : State) (p : Nat) (bulk : Bool) (a : Word) (mode : MtxMode) (e : Long) : Change :=
  { key := entryKey e, target := entryWord e, a := a, mode := mode, timeout := zcWaves s (entryCol e), part := p
    bulk := bulk, slot := !(bulk && mode == .step), phase := .ahead }

/-- The slots that a partition would hold with further changes (R187). -/
def slotsAfter (m : Mtx) (p : Nat) (cs : List Change) : Nat :=
  (m.slotKeys p ++ (cs.filter Change.slot).map Change.key).eraseDups.length

def Mtx.quota (m : Mtx) (p : Nat) : Nat := m.quotas.getD p 0

/-- MTX_SET_GAINS (R185 to R188, R198). -/
def mtxSetGains (p : Nat) (c : MtxSetGains) (s : State) : State × Reply :=
  let inputs := meridianInputs s.pst.rate
  match mtxMode c.mode.toNat c.n.toNat, armedWave s c.a with
  | some mode, some a =>
    if decide (c.entries.length < 1 ∨ 480 < c.entries.length) || decide (c.reserved ≠ 0 ∨ c.reserved2 ≠ 0)
        || !c.entries.all (entryOk inputs) then
      (s, Reply.code .badParam)
    else
      let cs := c.entries.map (entryChange s p false a mode)
      if s.mtx.quota p < slotsAfter s.mtx p cs then (s, Reply.code .noResource)
      else
        let m := cs.foldl Mtx.accept s.mtx
        ({ s with mtx := m }, Reply.ok (le32 a ++ leBytes 2 (m.replaceCnt - s.mtx.replaceCnt).toNat))
  | _, _ => (s, Reply.code .badParam)

def Mtx.arm (m : Mtx) (p : Nat) : Option Arm := Store.look none m.arms p
def Mtx.setArm (m : Mtx) (p : Nat) (a : Option Arm) : Mtx := { m with arms := Store.put none m.arms p a }

/-- MTX_BULK_ARM: the check runs until BULK_ARM_CHECK_DONE (R190). -/
def mtxBulkArm (p : Nat) (udp : Bool) (c : MtxBulkArm) (s : State) : State × Reply :=
  match mtxMode c.mode.toNat c.n.toNat, armedWave s c.a with
  | some mode, some a =>
    if decide (c.count.toNat < 1 ∨ 4096 < c.count.toNat ∨ c.reserved ≠ 0) then (s, Reply.code .badParam)
    else if (s.mtx.arm p).isSome then (s, Reply.code .busy)
    else ({ s with mtx := s.mtx.setArm p (some { a := a, mode := mode, count := c.count.toNat, checking := true, udp := udp }) },
      { status := .pending, payload := [] })
  | _, _ => (s, Reply.code .badParam)

/-- Entry `i` of a partition's staging window (R189). -/
def stagedEntry (m : Mtx) (p i : Nat) : Long := BitVec.ofNat 64 (leNat (Store.slice 0 m.staging (0x8000 * p + 8 * i) 8))

/-- The first failing entry of an arm, with its status (R190). -/
def firstFailing (s : State) (p : Nat) (n : Nat) : Option (Nat × Status) :=
  (List.range n).findSome? fun i =>
    let e := stagedEntry s.mtx p i
    if !entryOk (meridianInputs s.pst.rate) e then some (i, .badParam)
    else if ownerOf s (.column (entryCol e)) ≠ p then some (i, .notOwner)
    else none

/-- The check of an arm ends (R190): what it answers, and over which slot. -/
def bulkCheck (p : Nat) (s : State) : State × Option (Bool × Reply) :=
  match s.mtx.arm p with
  | none => (s, none)
  | some x =>
    if !x.checking then (s, none)
    else
      let off := { s with mtx := s.mtx.setArm p none }
      match firstFailing s p x.count with
      | some (i, st) => (off, some (x.udp, { status := st, payload := leBytes 2 i }))
      | none =>
        let cs := (List.range x.count).map fun i => entryChange s p true x.a x.mode (stagedEntry s.mtx p i)
        if s.mtx.quota p < slotsAfter s.mtx p cs then (off, some (x.udp, Reply.code .noResource))
        else
          let m := cs.foldl Mtx.accept s.mtx
          ({ s with mtx := m.setArm p (some { x with checking := false }) }, some (x.udp, Reply.ok (le32 x.a)))

/-- MTX_BULK_CANCEL (R190). -/
def mtxBulkCancel (p : Nat) (s : State) : State × Reply :=
  match s.mtx.arm p with
  | none => (s, Reply.ok [])
  | some x =>
    if x.checking || decide (ahead s x.a < 2) then (s, Reply.code .busy)
    else
      let left := s.mtx.changes.filter fun (c : Change) => !(c.bulk && c.part == p && c.phase == .ahead)
      let m := { s.mtx with changes := left }
      ({ s with mtx := m.setArm p none }, Reply.ok [])

/-- MTX_SET_COLUMN (R186, R198). -/
def mtxSetColumn (col ms : Half) (s : State) : State × Reply :=
  if 512 ≤ col.toNat ∨ 1000 < ms.toNat then (s, Reply.code .badParam)
  else ({ s with mtx := { s.mtx with zcTimeout := Store.put 10 s.mtx.zcTimeout col.toNat ms.toNat } }, Reply.ok [])

/-- MTX_GET_GAINS (R198). -/
def mtxGetGains (col first count : Half) (s : State) : State × Reply :=
  if 512 ≤ col.toNat ∨ count.toNat < 1 ∨ 960 < count.toNat
      ∨ meridianInputs s.pst.rate < first.toNat + count.toNat then (s, Reply.code .badParam)
  else (s, Reply.ok ((List.range count.toNat).flatMap fun i =>
    le32 (s.mtx.word (2048 * col.toNat + first.toNat + i))))

/-- MRD_STAT (R196). -/
def mrdStat (s : State) : Word :=
  let m := s.mtx
  ((List.range 4).foldl (fun w p => w ||| bitAt p (match m.arm p with
    | some x => !x.checking
    | none => false)) 0)
    ||| bitAt 4 (match m.satAt with
      | some t => decide (s.time < t + 1000000)
      | none => false)
    ||| bitAt 5 (!m.held.isEmpty) ||| bitAt 6 (decide (8192 < m.slotsUsed + 256))

/-- MTX_GET_STATUS (R198). -/
def mtxGetStatus (p : Nat) (s : State) : State × Reply :=
  let m := s.mtx
  (s, Reply.ok (le32 (mrdStat s) ++ leBytes 4 m.activeXp ++ leBytes 4 m.activeBlocks ++ leBytes 4 (m.slotsOf p)
    ++ leBytes 4 (m.quota p) ++ le32 m.satCnt))

/-- MTX_SET_QUOTA (R187, R198). -/
def mtxSetQuota (qs : List Half) (s : State) : State × Reply :=
  let ns := qs.map BitVec.toNat
  if ns.length ≠ 4 ∨ 8192 < ns.sum then (s, Reply.code .badParam)
  else if (List.range 4).any fun p => decide (ns.getD p 0 < s.mtx.slotsOf p) then (s, Reply.code .busy)
  else ({ s with mtx := { s.mtx with quotas := ns } }, Reply.ok [])

/-- A crossing of input `i` at the last launched wave (R186). -/
def Mtx.crossing (m : Mtx) (i : Nat) : Bool :=
  match Store.look none m.cur i with
  | none => false
  | some x => x == 0 || match Store.look none m.prev i with
    | none => false
    | some y => x.getLsbD 31 != y.getLsbD 31

/-- The ramp value at wave `k` (R185). -/
def rampValue (old new : Int) (i n : Nat) : Int := old + ((new - old) * (i + 1)).fdiv n

/-- The effective gain in effect on a crosspoint: one held after a double-bit error counts as 0 (R177, R195). -/
def Mtx.inEffect (m : Mtx) (key : Nat) : Int := if m.held.contains key then 0 else effGain (Store.look 0 m.gains key)

/-- A change at the gain step of wave `k` once it has begun: what is written, what is left of it, and whether it timed
out (R185, R186). -/
def Change.run (c : Change) (m : Mtx) (k : Word) : Word × Option Change × Bool :=
  let new := effGain c.target
  let ramp (start : Word) (n : Nat) (old : Int) (late : Bool) : Word × Option Change × Bool :=
    let i := (k - start).toNat
    if n ≤ i + 1 then (c.target, none, late)
    else (gainWord (rampValue old new i n), some { c with phase := .ramping start n old }, late)
  let cur := Store.look 0 m.gains c.key
  match c.phase with
  | .ramping start n old => ramp start n old false
  | .watching =>
    if 0 ≤ serialDiff m.lastWave c.a ∧ m.crossing (c.key % 2048) then (c.target, none, false)
    else if 0 ≤ serialDiff k (c.a + BitVec.ofNat 32 c.timeout) then
      ramp (c.a + BitVec.ofNat 32 c.timeout) 32 (m.inEffect c.key) true
    else (cur, some c, false)
  | .ahead =>
    match c.mode with
    | .step => (c.target, none, false)
    | .ramp n => ramp c.a n (m.inEffect c.key) false
    | .zc =>
      if c.timeout = 0 then ramp c.a 32 (m.inEffect c.key) false
      else if 0 ≤ serialDiff k (c.a + BitVec.ofNat 32 c.timeout) then
        ramp (c.a + BitVec.ofNat 32 c.timeout) 32 (m.inEffect c.key) true
      else (cur, some { c with phase := .watching }, false)

/-- A change is due at wave `k`. -/
def Change.due (c : Change) (k : Word) : Bool := c.phase != .ahead || decide (0 ≤ serialDiff k c.a)

/-- The changes that are left at wave `k`: one that begins at `k` ends the one before it on its crosspoint, which has run
until the wave before (R188). -/
def Mtx.atWave (m : Mtx) (k : Word) : List Change :=
  m.changes.filter fun c =>
    c.phase == .ahead || !(m.changes.any fun o => o.key == c.key && o.phase == .ahead && o.due k)

/-- One change of the gain step (R183, R185, R186). -/
def stepChange (k : Word) (m : Mtx) (c : Change) : Mtx :=
  if !c.due k then { m with changes := m.changes ++ [c] }
  else
    let (w, rest, late) := c.run m k
    let m2 := if rest.map Change.phase = some .watching then m else m.setGain c.key w
    { m2 with changes := m2.changes ++ rest.toList, zcCnt := if late then m2.zcCnt + 1 else m2.zcCnt }

/-- Count the occupancy bitmap and its blocks (R193). -/
def Mtx.occupancy (m : Mtx) : Mtx :=
  let keys := ((m.gains.filter fun e => decide (e.2.toNat % 2 ^ 24 ≠ 0)).map Prod.fst ++ m.changes.map Change.key).eraseDups
  { m with
    activeXp := keys.length
    activeBlocks := (keys.map fun k => (k / 2048 / 16) * 128 + k % 2048 / 16).eraseDups.length }

/-- The gain step of wave `k` (R183, R191). -/
def gainStep (k : Word) (s : State) : State :=
  let m := s.mtx
  let fired := (List.range 4).filter fun p => match m.arm p with
    | some x => !x.checking && decide (0 ≤ serialDiff k x.a)
    | none => false
  let m1 := (m.atWave k).foldl (stepChange k) { m with changes := [] }
  let m2 := fired.foldl (fun m p => { (m.setArm p none) with lastBulk := k }) m1
  { s with mtx := { m2.occupancy with prev := m2.cur, cur := [], partials := [], lastWave := k } }

/-- Input `i` is written by a sink of the live bank (the text after R182). -/
def sinkWrites (s : State) (i : Nat) : Bool :=
  ((s.rdg.liveParts).getD []).any fun p => p.bindings.any fun b =>
    b.kind == 6 && decide (b.unit ≤ i ∧ i < b.unit + b.count) && match p.node? b.node with
      | none => false
      | some n => !(n.retiring && s.rdg.xfade.isNone)

/-- The 16-byte line of Meridian input `i` fails: an error response of Col (R207). -/
def inputFails (s : State) (i : Nat) : Bool :=
  let a := mtxInAddr s i / 16 * 16
  s.mem.tarnBadIn a 16 || (colDeny s 6 a false).isSome

/-- The sample of Meridian input `i`: a failed line counts as zero (R207). -/
def mtxInput (s : State) (i : Nat) : Word :=
  if sinkWrites s i && !inputFails s i then s.mem.tarnWord (mtxInAddr s i) else 0

/-- The first failing line of a slice's inputs is recorded and raises MRD_COL_ERR (R207). -/
def noteColErr (x : Slice) (s : State) : State :=
  match ((List.range x.ins).map (x.firstIn + ·)).find? fun i => sinkWrites s i && inputFails s i with
  | none => s
  | some i =>
    let a := mtxInAddr s i
    let d := (colDeny s 6 a false).getD (targetOf s a, 5)
    let s1 := if d.2 = 5 then tarnDbe ((firstBadTarn s.mem a 16).getD a) s else s
    reportOwn 0x06B (colError 6 d.1 d.2 false a s1)

/-- The sum of a rectangle's products in one column (R178): a crosspoint held at 0 contributes nothing (R195). -/
def columnSum (s : State) (x : Slice) (c : Nat) : Int :=
  ((s.mtx.gains.filter fun e => decide (2048 * c + x.firstIn ≤ e.1 ∧ e.1 < 2048 * c + x.firstIn + x.ins)
      && !s.mtx.held.contains e.1).map fun e => (mtxInput s (e.1 % 2048)).toInt * effGain e.2).sum

/-- A slice meets gain words with a double-bit error: they are held at 0 and counted (R195). It reads no gain for a
crosspoint that the occupancy bitmap leaves out (R193). -/
def holdBad (x : Slice) (s : State) : State :=
  let hit := s.mtx.bad.filter fun k =>
    ((Store.look 0 s.mtx.gains k).toNat % 2 ^ 24 != 0 || s.mtx.chg k) && decide (x.firstCol ≤ k / 2048 ∧ k / 2048 < x.firstCol + x.cols ∧ x.firstIn ≤ k % 2048
      ∧ k % 2048 < x.firstIn + x.ins)
  let m := s.mtx
  let s1 := { s with mtx := { m with
      bad := m.bad.filter fun k => !hit.contains k, held := m.held ++ hit
      eccDbe := m.eccDbe + BitVec.ofNat 32 hit.length } }
  if hit.isEmpty then s else reportOwn 0x06A s1

/-- One column of a slice (R178, R180). -/
def sliceColumn (x : Slice) (s : State) (c : Nat) : State :=
  let sum := columnSum s x c + if x.accumulate then Store.look 0 s.mtx.partials c else 0
  if x.final then
    let y := sum.fdiv (2 ^ 20)
    let m := { s.mtx with partials := Store.put 0 s.mtx.partials c 0 }
    let m1 := if clampS32 y = y then m
      else { m with satCnt := m.satCnt + 1, lastSat := c, satAt := some s.time }
    { s with mtx := m1, mem := s.mem.putWord (mtxOutAddr s c) (satS32 y) }
  else { s with mtx := { s.mtx with partials := Store.put 0 s.mtx.partials c sum } }

/-- Note the inputs that a slice reads (R186): those on which a zero-crossing change waits. -/
def noteInputs (x : Slice) (s : State) : State :=
  let is := ((s.mtx.changes.filter fun c => c.mode == .zc).map fun c => c.key % 2048).eraseDups.filter fun i =>
    decide (x.firstIn ≤ i ∧ i < x.firstIn + x.ins)
  { s with mtx := { s.mtx with cur := is.foldl (fun st i => Store.put none st i (some (mtxInput s i))) s.mtx.cur } }

/-- A slice runs (R178 to R180). -/
def runSlice (x : Slice) (s : State) : State :=
  ((List.range x.cols).map (x.firstCol + ·)).foldl (sliceColumn x) (noteInputs x (noteColErr x (holdBad x s)))

/-- A change of media rate (R192): every waiting change and armed update is discarded. -/
def mtxRateChange (s : State) : State := { s with mtx := { s.mtx with changes := [], arms := [] } }

/-- A ZC change's timeout has run out: waves a to a + T − 1 are over and showed no crossing (R186). -/
def Change.expired (c : Change) (m : Mtx) : Bool :=
  c.phase == .watching && decide (c.timeout ≠ 0 ∧ 0 ≤ serialDiff m.lastWave (c.a + BitVec.ofNat 32 c.timeout - 1))
    && !m.crossing (c.key % 2048)

/-- A ZC change's timeout expires (R186): it runs as a ramp from wave a + T. -/
def zcExpire (col input : Nat) (s : State) : State :=
  let key := 2048 * col + input
  let hit (c : Change) : Bool := c.key == key && s.wave.running.isNone && c.expired s.mtx
  if s.mtx.changes.any hit then
    let old := s.mtx.inEffect key
    { s with mtx := { s.mtx with
        zcCnt := s.mtx.zcCnt + 1
        changes := s.mtx.changes.map fun c =>
          if hit c then { c with phase := .ramping (c.a + BitVec.ofNat 32 c.timeout) 32 old } else c } }
  else s

/-- A write to partition `p`'s staging window (R189). -/
def stagingWrite (p offset : Nat) (bs : List Byte) (s : State) : State :=
  let armed := match s.mtx.arm p with
    | some x => !x.checking
    | none => false
  if armed then { s with mtx := { s.mtx with stageDrop := s.mtx.stageDrop + 1 } }
  else
    let kept := bs.take (0x8000 - min 0x8000 offset)
    { s with mtx := { s.mtx with staging := Store.putAll 0 s.mtx.staging (0x8000 * p + offset) kept } }

/-- A read of the Meridian Col target at an offset (R189). -/
def mtxColRead (m : Mtx) (offset n : Nat) : List Byte :=
  if offset < 0x40_0000 then
    ((List.range (n / 4)).flatMap fun i => le32 (m.word ((offset / 4 + i))))
  else Store.slice 0 m.staging (offset - 0x40_0000) n

/-- A read of the Meridian registers, 0x5700 to 0x57FF (R196, R197). -/
def mrdRead (s : State) (a : Nat) : Word :=
  let m := s.mtx
  if a = 0x5700 then mrdStat s
  else if a = 0x5704 then BitVec.ofNat 32 m.activeXp
  else if a = 0x5708 then BitVec.ofNat 32 m.activeBlocks
  else if a = 0x570C then BitVec.ofNat 32 m.slotsUsed
  else if 0x5710 ≤ a ∧ a < 0x5720 then BitVec.ofNat 32 (m.slotsOf ((a - 0x5710) / 4))
  else if 0x5720 ≤ a ∧ a < 0x5730 then BitVec.ofNat 32 (m.quota ((a - 0x5720) / 4))
  else if a = 0x5730 then m.satCnt
  else if a = 0x5734 then BitVec.ofNat 32 m.lastSat
  else if a = 0x5738 then m.zcCnt
  else if a = 0x573C then m.replaceCnt
  else if a = 0x5740 then m.stageDrop
  else if a = 0x5744 then m.eccCorr
  else if a = 0x5748 then m.eccDbe
  else if a = 0x574C then m.lastBulk
  else 0

end Sys2Proof.Machine
end

