-- ==== Sys2Proof/Machine/Col.lean ====
section
/-! DEFINITION. Accesses over Col (R199 to R211): targets, paths, fences, error responses and ECC. -/

namespace Sys2Proof.Machine

/-- Flash as its window shows it: an erased byte reads 0xFF (R199, log 16). -/
def flashRead (f : Flash) (o n : Nat) : List Byte := Store.slice 0xFF f.bytes o n

/-- A read over Col: the bytes, or an error response (R207). Register reads are the register window's. -/
def colRead (master a n : Nat) (s : State) : State × Option (List Byte) :=
  let s1 := wakePorts master (targetOf s a) s
  match colDeny s1 master a false with
  | some (t, k) => (colError master t k false a s1, none)
  | none =>
    let t := targetOf s1 a
    if t < 16 then
      match firstBadTarn s1.mem a n with
      | some b => (colError master t 5 false a (tarnDbe b s1), none)
      | none => (s1, some (s1.mem.readTarn a n))
    else if t = 16 then
      if s1.mem.dramBadIn (a - dramBase) n then (colError master t 5 false a (dramDbe a s1), none)
      else (s1, some (s1.mem.readDram (a - dramBase) n))
    else if t = 18 then (s1, some (flashRead s1.flash (a - 0x8000_0000) n))
    else if t = 19 then (s1, some (mtxColRead s1.mtx (a - 0x6000_0000) n))
    else (s1, some (List.replicate n 0))

/-- A write over Col; false for an error response (R201, R204, R207). -/
def colWrite (master a : Nat) (bs : List Byte) (s : State) : State × Bool :=
  let n := bs.length
  let s1 := wakePorts master (targetOf s a) s
  match colDeny s1 master a true with
  | some (t, k) => (colError master t k true a s1, false)
  | none =>
    let t := targetOf s1 a
    if t < 16 then
      match partialBad s1.mem a n with
      | some b => (colError master t 5 true a (tarnDbe b s1), false)
      | none => ({ s1 with mem := s1.mem.writeTarn a bs }, true)
    else if t = 16 then
      if partialBadDram s1.mem (a - dramBase) n then (colError master t 5 true a (dramDbe a s1), false)
      else ({ s1 with mem := s1.mem.writeDram (a - dramBase) bs }, true)
    else if t = 19 then
      let o := a - 0x6040_0000
      (stagingWrite (o / 0x8000) (o % 0x8000) bs s1, true)
    else (s1, true)

/-- TRN_STAT.DBE_HELD: the recorded word is not yet rewritten (R201, R229). -/
def dbeHeld (s : State) : Bool := s.col.dbeSeen && s.mem.tarnBad.contains (s.col.dbeAddr / 4)

/-- One word of the patrol scrub (R202): a double-bit error is recorded, a single-bit error corrected and counted. An error
that the scrubber meets stays in the word until it is written whole (R201). -/
def scrubWord (w : Nat) (e : WordErr) (s : State) : State :=
  match e with
  | .double => tarnDbe (4 * w) { s with mem := s.mem.markBad w }
  | .single =>
    if s.mem.tarnBad.contains w then tarnDbe (4 * w) s
    else reportOwn 0x060 { s with col := { s.col with corrCnt := s.col.corrCnt + 1 } }
  | .none => if s.mem.tarnBad.contains w then tarnDbe (4 * w) s else s

/-- A master or target port is gated after 1 µs without an access; a running wave holds its ports awake (R211). -/
def gatePort (target : Bool) (id : Nat) (s : State) : State :=
  let held := s.wave.running.isSome && (if target then decide (id < 16) else decide (id ≤ 6))
  if held then s
  else if target then { s with col := { s.col with gatedTargets := setBit s.col.gatedTargets id true } }
  else { s with col := { s.col with gatedMasters := setBit s.col.gatedMasters id true } }

/-- Ridge wakes the ports of the fabric at a launch (R211). -/
def wakeFabric (s : State) : State :=
  { s with col := { s.col with
      gatedMasters := s.col.gatedMasters &&& ~~~(0x7F#13), gatedTargets := s.col.gatedTargets &&& ~~~(0xFFFF#20) } }

/-- Engines of a cluster with a transfer that reaches a target (R207). -/
def enginesUsing (s : State) (cluster target : Nat) : List Nat :=
  ((List.range 4).map (4 * cluster + ·)).filter fun e => (s.engine e).far.any fun x =>
    (List.range (4 * x.words)).any fun j => (x.tarn + j) / 0x20_0000 == target

/-- A read of the memory and Col registers, 0x55A0 to 0x55DB (R229). -/
def colRegRead (s : State) (a : Nat) : Word :=
  let c := s.col
  if a = 0x55A0 then bitAt 0 (dbeHeld s)
  else if a = 0x55A4 then c.corrCnt
  else if a = 0x55A8 then c.dbeCnt
  else if a = 0x55AC then BitVec.ofNat 32 c.dbeAddr
  else if a = 0x55B0 then BitVec.ofNat 32 c.scrubPeriod
  else if a = 0x55B4 then c.ddrCorr
  else if a = 0x55B8 then c.ddrDbe
  else if a = 0x55BC then BitVec.ofNat 32 c.ddrAddr
  else if a = 0x55C0 then BitVec.ofNat 32 (c.ddrAddr / 2 ^ 32)
  else if a = 0x55C4 then
    fieldAt 0 c.errTarget ||| fieldAt 5 c.errMaster ||| fieldAt 9 c.errKind ||| bitAt 12 c.errWrite
  else if a = 0x55C8 then BitVec.ofNat 32 c.errAddr
  else if a = 0x55CC then BitVec.ofNat 32 (c.errAddr / 2 ^ 32)
  else if a = 0x55D0 then c.errCnt
  else if a = 0x55D4 then c.timeoutCnt
  else if a = 0x55D8 then c.fenced.setWidth 32
  else 0

end Sys2Proof.Machine
end

