-- ==== Sys2Proof/Machine/Frames.lean ====
section
/-! DEFINITION. Ethernet frames as byte lists without their FCS: fields, classes (R289), and the correction of a PTP
event message (R323). Header layouts are those of the standards that the spec names (log 35). -/

namespace Sys2Proof.Machine

/-- The number in `n` big-endian bytes at offset `o` of a frame. -/
def beAt (bs : List Byte) (o n : Nat) : Nat := beNat ((bs.drop o).take n)

/-- The `n` big-endian bytes of a number. -/
def beBytes (n x : Nat) : List Byte := (leBytes n x).reverse

def frameDst (bs : List Byte) : Nat := beAt bs 0 6
def frameSrc (bs : List Byte) : Nat := beAt bs 6 6

/-- A frame carries an 802.1Q tag. -/
def tagged (bs : List Byte) : Bool := beAt bs 12 2 == 0x8100

/-- The tag control information, 0 for an untagged frame. -/
def frameTci (bs : List Byte) : Nat := if tagged bs then beAt bs 14 2 else 0

/-- The VLAN ID of a tag; a priority tag has none. -/
def frameVid (bs : List Byte) : Nat := frameTci bs % 4096

/-- Offset of the EtherType. -/
def etOff (bs : List Byte) : Nat := if tagged bs then 16 else 12

def etherType (bs : List Byte) : Nat := beAt bs (etOff bs) 2

/-- Offset of the payload after the EtherType. -/
def l3Off (bs : List Byte) : Nat := etOff bs + 2

def isIpv4 (bs : List Byte) : Bool := etherType bs == 0x0800
def isIpv6 (bs : List Byte) : Bool := etherType bs == 0x86DD

/-- Offset of the transport header. -/
def l4Off (bs : List Byte) : Nat :=
  if isIpv4 bs then l3Off bs + 4 * (beAt bs (l3Off bs) 1 % 16) else l3Off bs + 40

/-- The IP protocol; 256 for a frame that is not IP. -/
def ipProto (bs : List Byte) : Nat :=
  if isIpv4 bs then beAt bs (l3Off bs + 9) 1 else if isIpv6 bs then beAt bs (l3Off bs + 6) 1 else 256

def ipSrc (bs : List Byte) : Nat := beAt bs (l3Off bs + 12) 4
def ipDst (bs : List Byte) : Nat := beAt bs (l3Off bs + 16) 4

/-- The UDP or TCP destination port; 65536 for a frame that has none. -/
def dstPort (bs : List Byte) : Nat :=
  if ipProto bs = 17 ∨ ipProto bs = 6 then beAt bs (l4Off bs + 2) 2 else 65536

def isUdp (bs : List Byte) : Bool := ipProto bs == 17

/-- Offset of the PTP header in a PTP frame (R289, R316). -/
def ptpOff (bs : List Byte) : Option Nat :=
  if etherType bs = 0x88F7 then some (l3Off bs)
  else if isUdp bs ∧ (dstPort bs = 319 ∨ dstPort bs = 320) then some (l4Off bs + 8)
  else none

/-- The PTP message type; the four lowest are the event messages (R323). -/
def ptpType (bs : List Byte) (o : Nat) : Nat := beAt bs o 1 % 16

def isPtpEvent (bs : List Byte) : Bool :=
  match ptpOff bs with
  | none => false
  | some o => decide (ptpType bs o < 4)

def isBroadcast (bs : List Byte) : Bool := frameDst bs == 0xFFFF_FFFF_FFFF
def isMulticast (bs : List Byte) : Bool := (beAt bs 0 1) % 2 == 1 && !isBroadcast bs

/-- A frame with a tag put in. -/
def putTag (bs : List Byte) (vid : Nat) : List Byte := bs.take 12 ++ [0x81, 0x00] ++ beBytes 2 vid ++ bs.drop 12

/-- A frame with its tag taken out. -/
def dropTag (bs : List Byte) : List Byte := bs.take 12 ++ bs.drop 16

/-- Replace bytes of a frame from an offset. -/
def setBytes (bs : List Byte) (o : Nat) (xs : List Byte) : List Byte := bs.take o ++ xs ++ bs.drop (o + xs.length)

/-- The ones' complement sum of two half words. -/
def onesAdd (a b : Nat) : Nat := (a + b) % 65536 + (a + b) / 65536

/-- An internet checksum updated for a change of half words (R323). -/
def updateChecksum (old : Nat) (was now : List Nat) : Nat :=
  let s0 := 65535 - old
  let s1 := was.foldl (fun a w => onesAdd a (65535 - w)) s0
  65535 - now.foldl onesAdd s1

/-- The half words of 8 bytes at an offset. -/
def halves (bs : List Byte) (o : Nat) : List Nat := (List.range 4).map fun i => beAt bs (o + 2 * i) 2

/-- A PTP event message with a residence time in quarter nanoseconds added to correctionField, which counts 2^-16 ns, and
with its UDP checksum put right (R321, R323). -/
def addResidence (bs : List Byte) (quarters : Int) : List Byte :=
  match ptpOff bs with
  | none => bs
  | some o =>
    let c := beAt bs (o + 8) 8
    let bs1 := setBytes bs (o + 8) (beBytes 8 (BitVec.ofInt 64 (c + quarters * 16384)).toNat)
    if isUdp bs then
      let u := l4Off bs + 6
      if isIpv4 bs then setBytes bs1 u [0, 0]
      else setBytes bs1 u (beBytes 2 (updateChecksum (beAt bs u 2) (halves bs (o + 8)) (halves bs1 (o + 8))))
    else bs1

/-- A PAUSE frame from a source address, padded to 64 bytes with its FCS (R287, R297; log 35). -/
def pauseFrame (src quanta : Nat) : List Byte :=
  beBytes 6 0x0180C2000001 ++ beBytes 6 src ++ [0x88#8, 0x08#8, 0#8, 1#8] ++ beBytes 2 quanta ++ List.replicate 42 0

/-- A timestamp as quarter nanoseconds. -/
def quartersOf (t : Stamp) : Int := t.sec.toNat * 4000000000 + t.quarters.toNat

/-- Quarter nanoseconds after a correction in ps, at the 0.25 ns resolution of R321. -/
def corrected (q ps : Int) : Int := q + rounded ps 250

/-- The internet checksum of an IPv4 header. -/
def ipChecksum (h : List Byte) : Nat :=
  65535 - ((List.range (h.length / 2)).foldl (fun a i => onesAdd a (beAt h (2 * i) 2)) 0)

/-- An IPv4 header of 20 bytes with DF set and an identification of 0 (R344). -/
def ipHeader (dscp ttl payload src dst : Nat) : List Byte :=
  let a := [0x45#8] ++ leBytes 1 (4 * dscp) ++ beBytes 2 (28 + payload) ++ [0, 0, 0x40, 0] ++ leBytes 1 ttl ++ [17#8]
  let z := beBytes 4 src ++ beBytes 4 dst
  a ++ beBytes 2 (ipChecksum (a ++ [0, 0] ++ z)) ++ z

/-- A UDP datagram over IPv4 as an Ethernet frame, its UDP checksum 0 (R344); `tci` is 0 for an untagged frame. -/
def udpFrame (dstMac srcMac tci dscp ttl src dst sport dport : Nat) (payload : List Byte) : List Byte :=
  beBytes 6 dstMac ++ beBytes 6 srcMac ++ (if tci = 0 then [] else [0x81, 0x00] ++ beBytes 2 tci) ++ [0x08#8, 0x00#8]
    ++ ipHeader dscp ttl payload.length src dst ++ beBytes 2 sport ++ beBytes 2 dport ++ beBytes 2 (8 + payload.length)
    ++ [0, 0] ++ payload

end Sys2Proof.Machine
end

