-- ==== Sys2Proof/Machine/Switch.lean ====
section
/-! DEFINITION. The switch and its external ports (R284 to R300, R309 to R314). -/

namespace Sys2Proof.Machine

def State.netPort (s : State) (n : Nat) : NetPort := s.net.ports.getD n (NetPort.init n)

def State.setNetPort (s : State) (n : Nat) (p : NetPort) : State :=
  { s with net := { s.net with ports := s.net.ports.set n p } }

/-- Bytes of a frame with its FCS. -/
def wireLen (bs : List Byte) : Nat := bs.length + 4

def queueBytes (q : List QFrame) : Nat := (q.map fun f => wireLen f.bytes).sum

/-- The ingress share in use by port `n`: its control and bulk frames in the external egress queues (R292; log 37). -/
def occupancy (s : State) (n : Nat) : Nat :=
  (s.net.ports.map fun p => queueBytes ((p.control ++ p.bulk).filter fun f => f.ingress == n)).sum

/-- The causes of the pause window that are present (R299): start-up, test, recovery. -/
def pauseCauses (s : State) : BitVec 3 :=
  (if s.boot.bootDone then 0 else 1) ||| (if s.net.ports.any fun p => p.test != 0 then 2 else 0)
    ||| (if s.lkt.coresRun then 0 else 4)

def pauseWindow (s : State) : Bool := pauseCauses s &&& s.net.causes != 0

/-- External port `n` sends a pause frame from its own address, ahead of every queue (R287, R300). -/
def sendPause (n quanta : Nat) (s : State) : State :=
  let p := s.netPort n
  let bs := pauseFrame ((s.own.station.toNat + 1 + n) % 2 ^ 48) quanta
  s.setNetPort n { p with
    pauseTxOn := quanta != 0, txPause := p.txPause + 1, sent := bs, txFrames := p.txFrames + 1
    txBytes := p.txBytes + BitVec.ofNat 64 (wireLen bs) }

/-- The pause frames that one port sends on its watermarks (R299, R300). -/
def pauseCheckPort (s : State) (n : Nat) : State :=
  let p := s.netPort n
  let occ := occupancy s n
  if !p.linkUp then s
  else if !pauseWindow s then
    if p.pauseTxOn then sendPause n 0 s else s
  else if !p.pauseTxOn && decide (s.net.share * s.net.high ≤ 100 * occ) then sendPause n 65535 s
  else if p.pauseTxOn && decide (100 * occ ≤ s.net.share * s.net.low) then sendPause n 0 s
  else s

def pauseCheck (s : State) : State := [0, 1, 2, 3].foldl pauseCheckPort s

/-- An express frame is dropped at an egress port (R292, R314). -/
def dropExpress (n : Nat) (s : State) : State :=
  let p := s.netPort n
  let recent := match p.expRaised with
    | none => false
    | some t => decide (s.time < t + 1000000)
  let s1 := s.setNetPort n { p with expDrop := p.expDrop + 1, expRaised := if recent then p.expRaised else some s.time }
  if recent then s1 else reportOwn (0x0C0 + n) s1

/-- A control or bulk frame is dropped at an egress port (R292). -/
def dropPre (n : Nat) (s : State) : State :=
  let p := s.netPort n
  s.setNetPort n { p with preDrop := p.preDrop + 1 }

def FrameClass.express : FrameClass → Bool
  | .ptp => true | .media => true | .heartbeat => true | .control => false | .bulk => false

/-- A frame of the class enters an egress queue of an external port, or is dropped; the flag says that it was dropped
(R292). -/
def enqueue (n : Nat) (f : QFrame) (s : State) : State × Bool :=
  let p := s.netPort n
  if f.cls.express then
    if s.net.expressLimit < queueBytes p.express + wireLen f.bytes then (dropExpress n s, true)
    else (s.setNetPort n { p with express := p.express ++ [f] }, false)
  else if s.net.share < occupancy s f.ingress + wireLen f.bytes then (dropPre n s, true)
  else if f.cls = .control then (s.setNetPort n { p with control := p.control ++ [f] }, false)
  else (s.setNetPort n { p with bulk := p.bulk ++ [f] }, false)

/-- A packet of a path block of a receive context (R350). -/
def pathMatches (q : RxPath) (bs : List Byte) : Bool :=
  isIpv4 bs && isUdp bs && frameVid bs == q.vlan.toNat && ipDst bs == q.dstIp.toNat && dstPort bs == q.dstPort.toNat
    && (q.srcFilter == 0 || ipSrc bs == q.srcFilter.toNat)

/-- The path block of a domain, where the context takes that path. -/
def rxPath (c : RxCfg) (domain : Nat) : Option RxPath :=
  if c.paths.getLsbD domain then some (if domain = 0 then c.a else c.b) else none

/-- A context takes a frame that arrives in a domain (R350). -/
def RxCtx.takes (x : RxCtx) (domain : Nat) (bs : List Byte) : Bool :=
  x.state != .stopped && match x.cfg with
    | none => false
    | some c => match rxPath c domain with
      | none => false
      | some q => pathMatches q bs

/-- A frame matches an enabled receive context (R289, R290). -/
def matchesContext (s : State) (domain : Nat) (bs : List Byte) : Bool := s.stm.rx.any fun e => e.2.takes domain bs

/-- The multicast address of an IPv4 group (log 35). -/
def groupMac (ip : Word) : Nat := 0x01005E000000 + ip.toNat % 0x800000

/-- An enabled receive context adds the media port to its group's entry (R290). -/
def contextGroup (s : State) (domain vid : Nat) (bs : List Byte) : Bool :=
  s.stm.rx.any fun e => e.2.state != .stopped && match e.2.cfg with
    | none => false
    | some c => match rxPath c domain with
      | none => false
      | some q => groupMac q.dstIp == frameDst bs && (q.vlan.toNat == vid || q.vlan.toNat == frameVid bs)

/-- The heartbeat destination address in force (R385). -/
def hbAddrOf (r : Red) : Nat := if r.hbAddr = 0 then 0x035048000000 + r.pairId.toNat else r.hbAddr.toNat

/-- A frame of the heartbeat class (R385). -/
def isHeartbeat (s : State) (bs : List Byte) : Bool :=
  s.red.pairId != 0 && frameDst bs == hbAddrOf s.red && etherType bs == s.red.etherType.toNat

/-- ICMP over IPv6, behind a hop-by-hop header for MLD (log 35). -/
def isIcmp6 (bs : List Byte) : Bool :=
  isIpv6 bs && (ipProto bs == 58 || (ipProto bs == 0 && beAt bs (l3Off bs + 40) 1 == 58))

/-- The frames that ring 0 takes, PTP apart (R301). -/
def isRing0 (s : State) (bs : List Byte) : Bool :=
  etherType bs == 0x0806 || (isIpv4 bs && (ipProto bs == 1 || ipProto bs == 2)) || isIcmp6 bs
    || (isUdp bs && dstPort bs == s.own.udpPort.toNat)

/-- The class of a frame (R289); `control` says that it comes from a transmit ring of class control. -/
def classOfFrame (s : State) (ingress domain : Nat) (control : Bool) (bs : List Byte) : FrameClass :=
  if (ptpOff bs).isSome then .ptp
  else if ingress = 5 ∨ (ingress < 4 ∧ matchesContext s domain bs) then .media
  else if isHeartbeat s bs then .heartbeat
  else if control || (isRing0 s bs && (ingress == 4 || frameDst bs == s.own.station.toNat)) then .control
  else .bulk

/-- The key of a forwarding table entry (R291). -/
def fdbKey (addr vlan domain : Nat) : Nat := addr + 2 ^ 48 * (vlan + 65536 * domain)

def fdbFind (s : State) (addr vlan domain : Nat) : Option FdbEntry := Store.look none s.net.fdb (fdbKey addr vlan domain)

/-- Learn a source address (R291). -/
def learn (n domain vid : Nat) (bs : List Byte) (s : State) : State :=
  let k := fdbKey (frameSrc bs) vid domain
  let e : FdbEntry := { mask := BitVec.ofNat 6 (2 ^ n), isStatic := false }
  match Store.look none s.net.fdb k with
  | some old => if old.isStatic then s else { s with net := { s.net with fdb := Store.put none s.net.fdb k (some e) } }
  | none =>
    if s.net.fdb.length < 4096 then { s with net := { s.net with fdb := Store.put none s.net.fdb k (some e) } }
    else { s with net := { s.net with learnDrop := s.net.learnDrop + 1 } }

def vlanOf (s : State) (vid : Nat) : Option VlanEntry := Store.look none s.net.vlans vid

/-- A port may carry a frame of a domain and a VLAN (R288, R291). -/
def mayCarry (s : State) (domain vid p : Nat) : Bool :=
  (decide (4 ≤ p) || (s.netPort p).domain == domain) && match vlanOf s vid with
    | none => true
    | some v => v.members.getLsbD p

/-- The ports that a frame goes to, by the rules of R290 that follow its VLAN check. -/
def forwardPorts (s : State) (ingress domain vid : Nat) (bs : List Byte) : List Nat :=
  let ext := [0, 1, 2, 3]
  let dst := frameDst bs
  let raw :=
    if dst = s.own.station.toNat then
      if (ptpOff bs).isSome then []
      else if decide (ingress < 4) && matchesContext s domain bs then [5] else [4]
    else if isBroadcast bs then ext ++ [4]
    else
      let found := (fdbFind s dst vid domain).map fun e => bitsOf e.mask
      if isMulticast bs then
        let media := if contextGroup s domain vid bs then [5] else []
        match found with
        | some ps => ps ++ media.filter fun p => !ps.contains p
        | none => if media.isEmpty then (if s.net.dropUnknown then [] else ext) else media
      else found.getD ext
  raw.filter fun p => p != ingress && mayCarry s domain vid p

/-- The frame as it leaves a port: the VLAN table's egress-tag mask puts in or takes out its tag (R291). -/
def egressBytes (s : State) (vid p : Nat) (bs : List Byte) : List Byte :=
  match vlanOf s vid with
  | none => bs
  | some v =>
    if v.tagged.getLsbD p then (if tagged bs then bs else putTag bs vid)
    else if tagged bs then dropTag bs else bs

/-- An instance takes a PTP message that reaches its port (R320, R324). -/
def instanceTakes (s : State) (n : Nat) (bs : List Byte) : Bool :=
  match ptpOff bs with
  | none => false
  | some o =>
    let i := if n = 0 then s.ptp.inst0 else s.ptp.inst1
    decide (n < 2) && i.enable && isIpv4 bs && beAt bs (o + 4) 1 == i.domain.toNat
      && ptpType bs o != 0xC && ptpType bs o != 0xD

/-- A filter matches a frame (R302); the codes for "any" are log 38's. -/
def filterHits (f : Filter) (station : Nat) (bs : List Byte) : Bool :=
  f.enable && (f.etherType == 0 || f.etherType.toNat == etherType bs) && (f.proto == 0 || f.proto.toNat == ipProto bs)
    && (f.dstPort == 0 || f.dstPort.toNat == dstPort bs) && (f.vlan == 0xFFFF || f.vlan.toNat == frameVid bs)
    && (f.kind == 0 || (f.kind == 1 && frameDst bs == station) || (f.kind == 2 && isBroadcast bs)
      || (f.kind == 3 && isMulticast bs))

/-- The ring and the matching filter of a frame for the host port (R301, R302). -/
def ringOf (s : State) (bs : List Byte) : Nat × Nat :=
  if isRing0 s bs || (ptpOff bs).isSome then (0, 255)
  else match (List.range 32).find? fun i => filterHits (Store.look Filter.init s.net.filters i) s.own.station.toNat bs with
    | some i => ((Store.look Filter.init s.net.filters i).ring, i)
    | none => (s.net.defaultRing, 255)

def State.rxRing (s : State) (r : Nat) : Ring := s.net.rx.getD r Ring.init
def State.txRing (s : State) (r : Nat) : Ring := s.net.tx.getD r Ring.init

def State.setRxRing (s : State) (r : Nat) (x : Ring) : State := { s with net := { s.net with rx := s.net.rx.set r x } }
def State.setTxRing (s : State) (r : Nat) (x : Ring) : State := { s with net := { s.net with tx := s.net.tx.set r x } }

/-- A frame enters the queue of its receive ring (R304, R306). -/
def toHost (bs : List Byte) (stamp : Option Int) (port : Nat) (s : State) : State :=
  let (r, filter) := ringOf s bs
  let x := s.rxRing r
  if !x.enable || x.regionStop then s
  else if x.queueKiB * 1024 < (x.queue.map fun f => wireLen f.bytes).sum + wireLen bs then
    s.setRxRing r { x with qdrop := x.qdrop + 1 }
  else s.setRxRing r { x with queue := x.queue ++ [{ bytes := bs, stamp := stamp, port := port, filter := filter }] }

/-- Send one copy of a frame to a port; the flag says that it was dropped. -/
def toPort (vid : Nat) (f : QFrame) (s : State) (p : Nat) : State × Bool :=
  if p < 4 then enqueue p { f with bytes := egressBytes s vid p f.bytes } s
  else if p = 4 then (toHost (egressBytes s vid 4 f.bytes) f.stamp f.ingress s, false)
  else (s, false)

/-- Send copies of a frame to ports; the flag says that one of them was dropped. -/
def toPorts (vid : Nat) (f : QFrame) (ps : List Nat) (s : State) : State × Bool :=
  ps.foldl (fun a p => let r := toPort vid f a.1 p; (r.1, a.2 || r.2)) (s, false)

/-- A MAC Control frame, counted as received, has its effect (R297, R298). -/
def obeyPause (n : Nat) (opcode quanta : Half) (s : State) : State :=
  let p := s.netPort n
  let q := { p with rxPause := p.rxPause + 1 }
  if opcode ≠ 1 ∨ p.pauseMode = 0 ∨ p.pauseBlocked then s.setNetPort n q
  else if quanta = 0 then s.setNetPort n { q with paused := false }
  else s.setNetPort n { q with paused := true, quanta := quanta }

/-- A good frame of `len` bytes is counted (R312). -/
def countRx (n len : Nat) (s : State) : State :=
  let p := s.netPort n
  s.setNetPort n { p with rxFrames := p.rxFrames + 1, rxBytes := p.rxBytes + BitVec.ofNat 64 len }

/-- PAUSE_RECEIVED (R297, R298): a MAC Control frame, which has 64 bytes (log 35). -/
def pauseReceived (n : Nat) (opcode quanta : Half) (s : State) : State :=
  if (s.netPort n).linkUp then obeyPause n opcode quanta (countRx n 64 s) else s

/-- Forward a good frame of an external port (R290). -/
def forwardFrame (n : Nat) (bs : List Byte) (stamp : Int) (s : State) : State :=
  let p := s.netPort n
  let vid := if frameVid bs = 0 then p.pvid else frameVid bs
  let foreign := frameVid bs != 0 && match vlanOf s (frameVid bs) with
    | none => true
    | some v => !v.members.getLsbD n
  let s0 := learn n p.domain vid bs s
  if foreign then
    let q := s0.netPort n
    s0.setNetPort n { q with errVlan := satInc q.errVlan }
  else
    let f : QFrame := { bytes := bs, ingress := n, cls := classOfFrame s0 n p.domain false bs, stamp := some stamp, tsDesc := none }
    let s1 := if (ptpOff bs).isSome && !instanceTakes s0 n bs then toHost bs (some stamp) n s0 else s0
    let ps := (forwardPorts s0 n p.domain vid bs).filter fun p => !(p == 4 && (f.cls == .heartbeat || f.cls == .ptp))
    (toPorts vid f ps s1).1

/-- FRAME_RECEIVED (R286, R290, R291, R300, R321): `bytes` is the frame without its FCS. -/
def frameReceived (n : Nat) (bs : List Byte) (fcsOk : Bool) (t : Stamp) (s : State) : State :=
  let p := s.netPort n
  if !p.linkUp then s
  else if !fcsOk then s.setNetPort n { p with errFcs := satInc p.errFcs }
  else if wireLen bs < 64 then s.setNetPort n { p with errRunt := satInc p.errRunt }
  else if p.maxFrame < wireLen bs then s.setNetPort n { p with errOver := satInc p.errOver }
  else
    let s1 := countRx n (wireLen bs) s
    if etherType bs = 0x8808 then
      obeyPause n (BitVec.ofNat 16 (beAt bs (l3Off bs) 2)) (BitVec.ofNat 16 (beAt bs (l3Off bs + 2) 2)) s1
    else pauseCheck (forwardFrame n bs (corrected (quartersOf t) p.tsIn) s1)

/-- The next frame of an egress port in strict priority, and the port without it (R292, R297). -/
def NetPort.next (p : NetPort) : Option (QFrame × NetPort) :=
  if p.paused && p.pauseMode != 2 then none
  else match p.express with
    | f :: fs => some (f, { p with express := fs })
    | [] =>
      if p.paused then none
      else match p.control with
        | f :: fs => some (f, { p with control := fs })
        | [] => match p.bulk with
          | f :: fs => some (f, { p with bulk := fs })
          | [] => none

/-- The seconds and whole nanoseconds of a time in quarter ns. -/
def timeBytes (q : Int) : List Byte :=
  leBytes 4 ((q.fmod 4000000000).toNat / 4) ++ leBytes 6 (BitVec.ofInt 48 (q.fdiv 4000000000)).toNat

/-- The egress timestamp of a host frame (R307, R322): into its last descriptor, with TS_VALID. -/
def stampDesc (a : Nat) (q : Int) (s : State) : State :=
  let (s1, ctrl) := colRead 12 a 4 s
  match ctrl with
  | none => s1
  | some c =>
    let (s2, ok) := colWrite 12 (a + 16) (timeBytes q) s1
    if ok then (colWrite 12 a (leBytes 4 (leNat c ||| 0x80)) s2).1 else s2

/-- FRAME_TRANSMIT (R292, R293, R296, R323, R324): `fcsBad` says that the FCS check of switch memory fails; `frags` is the
number of fragments in which a preemptable frame leaves. -/
def frameTransmit (n : Nat) (fcsBad : Bool) (t : Stamp) (frags : Nat) (s : State) : State :=
  let p := s.netPort n
  if !p.linkUp then s
  else match p.next with
    | none => s
    | some (f, q) =>
      let out := corrected (quartersOf t) p.tsOut
      let tc := f.cls == .ptp && decide (f.ingress < 4) && isPtpEvent f.bytes
      let res := out - f.stamp.getD out
      let ns : Word := nsCount res 4
      let bytes := if tc then addResidence f.bytes res else f.bytes
      let q1 := { q with
        sent := bytes, txFrames := q.txFrames + 1, txBytes := q.txBytes + BitVec.ofNat 64 (wireLen bytes)
        fragCnt := if !f.cls.express && q.preemptActive then q.fragCnt + BitVec.ofNat 32 frags else q.fragCnt
        tcCnt := if tc then q.tcCnt + 1 else q.tcCnt
        tcMax := if tc && decide (q.tcMax.toNat < ns.toNat) then ns else q.tcMax
        swCrc := if fcsBad then q.swCrc + 1 else q.swCrc }
      let s1 := s.setNetPort n q1
      let s2 := if fcsBad then reportOwn (0x0BC + n) s1 else s1
      pauseCheck (match f.tsDesc with
        | none => s2
        | some a => stampDesc a out s2)

/-- The egress queues of a port are flushed at a link loss (R285): express frames count as express drops. -/
def flushPort (n : Nat) (s : State) : State :=
  let p := s.netPort n
  let lost := p.control.length + p.bulk.length
  let s1 := s.setNetPort n { p with express := [], control := [], bulk := [], preDrop := p.preDrop + BitVec.ofNat 32 lost }
  p.express.foldl (fun t _ => dropExpress n t) s1

/-- The link goes down (R285, R296, R308). -/
def dropLink (n : Nat) (s : State) : State :=
  let s1 := flushPort n s
  let p := s1.netPort n
  reportOwn (0x0B0 + n) (s1.setNetPort n { p with
    linkUp := false, paused := false, pauseBlocked := false, preemptActive := false, pauseTxOn := false
    linkDownCnt := p.linkDownCnt + 1 })

/-- LINK_UP (R285, R308): the hold-down has passed; the watermark test resumes. -/
def linkUp (n : Nat) (remote : Bool) (s : State) : State :=
  let p := s.netPort n
  let q := { p with localFault := false, remoteFault := remote }
  pauseCheck (s.setNetPort n (if p.enabled then { q with linkUp := true } else q))

/-- LINK_LOSS (R285): loss of block lock, or a local fault. The flush may free the shares of other ports (R300). -/
def linkLoss (n : Nat) (fault : Bool) (s : State) : State :=
  let p := s.netPort n
  let s1 := s.setNetPort n { p with localFault := fault }
  if p.linkUp then pauseCheck (dropLink n s1) else s1

/-- FDB_AGE_OUT of a dynamic entry (R291). -/
def fdbAgeOut (addr : BitVec 48) (vlan : Half) (domain : Bool) (s : State) : State :=
  let k := fdbKey addr.toNat vlan.toNat (if domain then 1 else 0)
  match Store.look none s.net.fdb k with
  | some e => if e.isStatic then s else { s with net := { s.net with fdb := Store.put none s.net.fdb k none } }
  | none => s

/-- PREEMPT_VERIFY (R296). -/
def preemptVerify (n : Nat) (e : VerifyEnd) (s : State) : State :=
  let p := s.netPort n
  if !p.linkUp || !p.preempt then s
  else match e with
    | .passed => s.setNetPort n { p with preemptActive := true }
    | .failed => reportOwn (0x0B8 + n) (s.setNetPort n { p with preemptActive := false })

/-- PAUSE_EXPIRY (R297). -/
def pauseExpiry (n : Nat) (s : State) : State := s.setNetPort n { s.netPort n with paused := false }

/-- PAUSE_WATCHDOG (R298). -/
def pauseWatchdog (n : Nat) (s : State) : State :=
  let p := s.netPort n
  if !p.paused then s
  else reportOwn (0x0B4 + n) (s.setNetPort n { p with paused := false, pauseBlocked := true, wdogCnt := p.wdogCnt + 1 })

/-- PAUSE_RELEASE_END (R298). -/
def pauseReleaseEnd (n : Nat) (s : State) : State := s.setNetPort n { s.netPort n with pauseBlocked := false }

/-- PAUSE_TX_REPEAT (R300): 1 ms above the low watermark. -/
def pauseTxRepeat (n : Nat) (s : State) : State :=
  let s1 := pauseCheckPort s n
  let p := s1.netPort n
  if p.linkUp && p.pauseTxOn && (s.netPort n).pauseTxOn then sendPause n 65535 s1 else s1

/-- The parameter checks of NET_SET_PORT (R284 to R288, R296 to R298, R313). -/
def netPortOk (c : NetSetPort) : Bool :=
  decide (c.port.toNat ≤ 3 ∧ c.enable.toNat ≤ 1 ∧ c.speed.toNat ≤ 1 ∧ c.fec.toNat ≤ 1 + c.speed.toNat
    ∧ 1522 ≤ c.maxFrame.toNat ∧ c.maxFrame.toNat ≤ 9022 ∧ c.preempt.toNat ≤ 1 ∧ c.addFrag.toNat ≤ 3
    ∧ c.pauseMode.toNat ≤ 2 ∧ c.domain.toNat ≤ 1 ∧ c.pvid.toNat ≤ 4094 ∧ c.holdDown.toNat ≤ 10000
    ∧ 10 ≤ c.watchdog.toNat ∧ c.watchdog.toNat ≤ 1000 ∧ 1 ≤ c.release.toNat ∧ c.release.toNat ≤ 1000)

/-- NET_SET_PORT (R284, R308, R313). -/
def netSetPort (c : NetSetPort) (s : State) : State × Reply :=
  if !netPortOk c then (s, Reply.code .badParam)
  else
    let n := c.port.toNat
    let p := s.netPort n
    let on := c.enable.toNat == 1
    let relink := p.linkUp && (!on || decide (p.speed ≠ c.speed.toNat ∨ p.fec ≠ c.fec.toNat ∨ p.maxFrame ≠ c.maxFrame.toNat))
    let s1 := if relink then dropLink n s else s
    let q := s1.netPort n
    let pre := c.preempt.toNat == 1
    (pauseCheck (s1.setNetPort n { q with
      enabled := on, speed := c.speed.toNat, fec := c.fec.toNat, maxFrame := c.maxFrame.toNat, preempt := pre
      preemptActive := q.preemptActive && pre, addFrag := c.addFrag.toNat, pauseMode := c.pauseMode.toNat
      paused := q.paused && decide (c.pauseMode.toNat ≠ 0), domain := c.domain.toNat, pvid := c.pvid.toNat
      holdDown := c.holdDown.toNat, watchdog := c.watchdog.toNat, release := c.release.toNat }), Reply.ok [])

/-- The sum of R292 for an express limit, an ingress share and the receive rings' queues in KiB. -/
def memoryFits (express share : Nat) (queues : List Nat) : Bool :=
  decide (4 * express + 6 * share + 1024 * queues.sum ≤ 2097152)

/-- NET_SET_SWITCH (R291, R292, R299, R300, R313). -/
def netSetSwitch (c : NetSetSwitch) (s : State) : State × Reply :=
  let e := c.express.toNat
  let h := c.share.toNat
  if decide (16000 ≤ e ∧ e ≤ 512000 ∧ e % 1000 = 0 ∧ 16 * 1024 ≤ h ∧ h ≤ 1024 * 1024 ∧ h % 1024 = 0
      ∧ 25 ≤ c.high.toNat ∧ c.high.toNat ≤ 95 ∧ c.low.toNat + 10 ≤ c.high.toNat ∧ c.causes.toNat ≤ 7
      ∧ c.unknown.toNat ≤ 1 ∧ 10 ≤ c.ageing.toNat ∧ c.ageing.toNat ≤ 3600)
      && memoryFits e h (s.net.rx.map Ring.queueKiB) then
    (pauseCheck { s with net := { s.net with
      expressLimit := e, share := h, high := c.high.toNat, low := c.low.toNat, causes := c.causes.setWidth 3
      dropUnknown := c.unknown.toNat = 1, ageing := c.ageing.toNat } }, Reply.ok [])
  else (s, Reply.code .badParam)

/-- The keys of the dynamic entries of the forwarding table. -/
def dynamicKeys (s : State) : List Nat :=
  s.net.fdb.filterMap fun e => match e.2 with
    | some x => if x.isStatic then none else some e.1
    | none => none

/-- NET_FDB_WRITE (R291, R308, R313): a full table gives up a dynamic entry, which one is free (log 39). -/
def netFdbWrite (c : NetFdbWrite) (s : State) : State × Reply :=
  if 4094 < c.vlan.toNat ∨ 1 < c.domain.toNat ∨ 63 < c.mask.toNat ∨ 3 < c.flags.toNat then (s, Reply.code .badParam)
  else
    let k := fdbKey c.addr.toNat c.vlan.toNat c.domain.toNat
    let e : FdbEntry := { mask := c.mask.setWidth 6, isStatic := c.flags.getLsbD 0 }
    if c.flags.getLsbD 1 then ({ s with net := { s.net with fdb := Store.put none s.net.fdb k none } }, Reply.ok [])
    else if (Store.look none s.net.fdb k).isSome || decide (s.net.fdb.length < 4096) then
      ({ s with net := { s.net with fdb := Store.put none s.net.fdb k (some e) } }, Reply.ok [])
    else
      let ks := dynamicKeys s
      if ks.isEmpty then (s, Reply.code .noResource)
      else
        let (w, s1) := draw s
        let gone := ks.getD (w.toNat % ks.length) 0
        ({ s1 with net := { s1.net with fdb := Store.put none (Store.put none s1.net.fdb gone none) k (some e) } }, Reply.ok [])

/-- NET_VLAN_WRITE (R291, R313). -/
def netVlanWrite (vid : Half) (members taggedPorts : Byte) (s : State) : State × Reply :=
  if 4094 < vid.toNat ∨ 63 < members.toNat ∨ 63 < taggedPorts.toNat then (s, Reply.code .badParam)
  else if (vlanOf s vid.toNat).isNone && decide (64 ≤ s.net.vlans.length) then (s, Reply.code .noResource)
  else
    let e : VlanEntry := { members := members.setWidth 6, tagged := taggedPorts.setWidth 6 }
    ({ s with net := { s.net with vlans := Store.put none s.net.vlans vid.toNat (some e) } }, Reply.ok [])

/-- NET_SET_FILTER (R302, R313). -/
def netSetFilter (c : NetSetFilter) (s : State) : State × Reply :=
  if 31 < c.index.toNat ∨ 1 < c.enable.toNat ∨ 7 < c.ring.toNat ∨ 3 < c.kind.toNat ∨ (4094 < c.vlan.toNat ∧ c.vlan ≠ 0xFFFF) then
    (s, Reply.code .badParam)
  else
    let f : Filter := { enable := c.enable.toNat = 1, ring := c.ring.toNat, kind := c.kind.toNat, etherType := c.etherType
                        proto := c.proto, dstPort := c.dstPort, vlan := c.vlan }
    ({ s with net := { s.net with filters := Store.put Filter.init s.net.filters c.index.toNat f } }, Reply.ok [])

/-- NET_TEST (R299, R313): the error count of a PRBS31 mode that already runs is a free value. -/
def netTest (port mode : Byte) (s : State) : State × Reply :=
  if 3 < port.toNat ∨ 2 < mode.toNat then (s, Reply.code .badParam)
  else
    let p := s.netPort port.toNat
    let s1 := pauseCheck (s.setNetPort port.toNat { p with test := mode.toNat })
    if mode.toNat ≠ 2 then (s1, Reply.ok [])
    else if p.test = 2 then
      let (w, s2) := draw s1
      (s2, Reply.ok (le32 w))
    else (s1, Reply.ok (le32 0))

/-- NET_SW_STAT (R309). -/
def netSwStat (s : State) : Word :=
  (pauseCauses s).setWidth 32 ||| bitAt 3 (pauseWindow s) ||| bitAt 4 (decide (4096 ≤ s.net.fdb.length))
    ||| fieldAt 8 s.net.fdb.length

/-- NET_PSTAT (R311). -/
def netPstat (p : NetPort) : Word :=
  bitAt 0 p.linkUp ||| fieldAt 1 p.speed ||| fieldAt 2 p.fec ||| bitAt 4 p.localFault ||| bitAt 5 p.remoteFault
    ||| bitAt 6 p.preemptActive ||| bitAt 7 p.paused ||| bitAt 8 p.pauseBlocked ||| bitAt 9 p.pauseTxOn
    ||| fieldAt 10 p.domain ||| fieldAt 11 p.pauseMode ||| bitAt 13 p.enabled

/-- A word of a port's block, by offset (R311, R312); a _HI word as it stands now. -/
def netPortRead (p : NetPort) (o : Nat) : Word :=
  match o with
  | 0x00 => netPstat p
  | 0x04 => p.rxFrames
  | 0x08 => p.rxBytes.setWidth 32
  | 0x0C => (p.rxBytes >>> 32).setWidth 32
  | 0x10 => p.txFrames
  | 0x14 => p.txBytes.setWidth 32
  | 0x18 => (p.txBytes >>> 32).setWidth 32
  | 0x1C => fieldAt 0 p.errFcs.toNat ||| fieldAt 8 p.errRunt.toNat ||| fieldAt 16 p.errOver.toNat ||| fieldAt 24 p.errVlan.toNat
  | 0x20 => p.rxPause
  | 0x24 => p.txPause
  | 0x28 => p.wdogCnt
  | 0x2C => p.expDrop
  | 0x30 => p.preDrop
  | 0x34 => p.fragCnt
  | 0x38 => p.swCrc
  | 0x3C => p.linkDownCnt
  | _ => 0

/-- Switch memory in use, in whole KiB rounded up (R310; log 37). -/
def memUsedKiB (s : State) : Nat :=
  let q := (s.net.ports.map fun p => queueBytes (p.express ++ p.control ++ p.bulk)).sum
  let r := (s.net.rx.map fun x => (x.queue.map fun f => wireLen f.bytes).sum).sum
  (q + r + 1023) / 1024

/-- A ring's block, by offset (R310). -/
def ringRead (x : Ring) (owner : Nat) (o : Nat) : Word :=
  match o with
  | 0x00 => x.base.setWidth 32
  | 0x04 => (x.base >>> 32).setWidth 32
  | 0x08 => fieldAt 0 x.size ||| bitAt 4 x.enable ||| bitAt 5 x.irqEn ||| bitAt 6 x.bulk ||| fieldAt 8 owner ||| bitAt 10 x.regionStop
  | 0x10 => fieldAt 0 x.head
  | 0x14 => x.frames
  | 0x18 => x.discard
  | 0x1C => x.qdrop
  | _ => 0

/-- A read of the network registers, 0x5800 to 0x5DFF (R309 to R312). -/
def netRead (s : State) (a : Nat) : Word :=
  if a = 0x5800 then netSwStat s
  else if a = 0x5804 then s.net.learnDrop
  else if a = 0x5808 then BitVec.ofNat 32 (memUsedKiB s)
  else if 0x5900 ≤ a ∧ a < 0x5A00 then
    let r := (a - 0x5900) / 0x20
    ringRead (s.rxRing r) (ownerOf s (.rxRing r)) (a % 0x20)
  else if 0x5A00 ≤ a ∧ a < 0x5B00 then
    let r := (a - 0x5A00) / 0x20
    ringRead (s.txRing r) (ownerOf s (.txRing r)) (a % 0x20)
  else if 0x5C00 ≤ a ∧ a < 0x5E00 then netPortRead (s.netPort ((a - 0x5C00) / 0x80)) (a % 0x80)
  else 0

/-- NET_GET_STATUS (R313; log 29). -/
def netGetStatus (port : Byte) (s : State) : State × Reply :=
  if 3 < port.toNat then (s, Reply.code .badParam)
  else (s, Reply.ok (le32 (netSwStat s) ++ (List.range 16).flatMap fun i => le32 (netPortRead (s.netPort port.toNat) (4 * i))))

end Sys2Proof.Machine
end

