-- ==== Sys2Proof/Machine/Taps.lean ====
section
/-! DEFINITION. The audit taps (R363, R364, R367, R368). -/

namespace Sys2Proof.Machine

def State.tap (s : State) (t : Nat) : Tap := Store.look Tap.init s.stm.taps t

def State.setTap (s : State) (t : Nat) (x : Tap) : State :=
  { s with stm := { s.stm with taps := Store.put Tap.init s.stm.taps t x } }

/-- Store the result of a window that has ended, and say whether it is a mismatch (R364). The CRC of a window that missed a
sample is free (log 42). -/
def Tap.store (t : Tap) : Tap × Bool :=
  match t.ended with
  | none => (t, false)
  | some (start, crc, gap) =>
    let bad := !gap && match t.expected with
      | none => false
      | some e => e != crc
    ({ t with ended := none, done := true, incomplete := gap, result := if gap then Config.gapCrc start crc t.doneCnt else crc, startOf := start, doneCnt := t.doneCnt + 1
              mismatch := if gap then t.mismatch else bad }, bad)

/-- TAP_WINDOW_END (R364). -/
def tapWindowEnd (n : Nat) (s : State) : State :=
  let (t, bad) := (s.tap n).store
  let s1 := s.setTap n t
  if bad then reportFault 0x0D4 (BitVec.ofNat 16 n) s1 else s1

/-- The window ends, and a repeating tap begins the next one at once (R364). -/
def Tap.close (t : Tap) : Tap :=
  let u := { t with ended := some (t.m, t.crc ^^^ 0xFFFF_FFFF, t.gap), taken := 0, crc := 0xFFFF_FFFF, gap := false }
  if t.repeats then { u with m := t.m + BitVec.ofNat 32 t.n } else { u with armed := false }

/-- The window's next sample is `x`; the last one ends it. -/
def Tap.accept (t : Tap) (x : Option Word) : Tap :=
  let u := { t with
    taken := t.taken + 1, gap := t.gap || x.isNone
    crc := match x with
      | some w => crc32cMore t.crc (le32 w)
      | none => t.crc }
  if u.taken < u.n then u else u.close

/-- The sample with index `idx` passes the tap's point; none for a missing one. Indices that never pass are missing, and
one beyond the window ends it and falls into a later window of a repeating tap (R364). -/
def Tap.take (t : Tap) (idx : Word) (x : Option Word) : Tap :=
  let d := serialDiff idx (t.m + BitVec.ofNat 32 t.taken)
  if !t.armed || decide (d < 0) then t
  else if t.taken + d.toNat < t.n then
    ({ t with gap := t.gap || decide (0 < d), taken := t.taken + d.toNat } : Tap).accept x
  else
    let u := ({ t with gap := true } : Tap).close
    let e := (serialDiff idx u.m).toNat
    if !u.armed then u
    else ({ u with m := u.m + BitVec.ofNat 32 (u.n * (e / u.n)), taken := e % u.n, gap := decide (0 < e % u.n) } : Tap).accept x

/-- Show a sample to every tap on a point. -/
def tapFeed (kind unit ch : Nat) (idx : Word) (x : Option Word) (s : State) : State :=
  let hits := (s.stm.taps.filter fun e => e.2.armed && e.2.kind == kind && e.2.unit == unit && e.2.channel == ch).map Prod.fst
  hits.foldl (fun t n =>
    let t1 := if (t.tap n).ended.isSome && decide ((t.tap n).n ≤ (t.tap n).taken + 1) then tapWindowEnd n t else t
    t1.setTap n ((t1.tap n).take idx x)) s

/-- The unit that a tap's point belongs to (R363). -/
def tapRes (kind unit : Nat) : Res :=
  if kind ≤ 1 then .tdmGroup (unit / 8) else if kind = 2 then .rxCtx unit else .txCtx unit

/-- TAP_SET (R363, R364, R368). -/
def tapSet (c : TapSet) (s : State) : State × Reply :=
  let t := c.tap.toNat
  let k := c.kind.toNat
  let u := c.unit.toNat
  if 15 < t ∨ 7 < c.flags.toNat then (s, Reply.code .badParam)
  else if c.flags.getLsbD 2 then (s.setTap t { s.tap t with armed := false }, Reply.ok [])
  else if 3 < k ∨ (if k ≤ 1 then 63 else 255) < u then (s, Reply.code .badParam)
  else if ownerOf s (tapRes k u) ≠ ownerOf s (.tap t) then (s, Reply.code .notOwner)
  else if (if k ≤ 1 then 31 else 63) < c.channel.toNat ∨ c.n = 0 then (s, Reply.code .badParam)
  else
    let x := s.tap t
    (s.setTap t { Tap.init with
      armed := true, kind := k, unit := u, channel := c.channel.toNat, repeats := c.flags.getLsbD 0
      expected := if c.flags.getLsbD 1 then some c.crc else none, n := c.n.toNat, m := c.m
      result := x.result, startOf := x.startOf, doneCnt := x.doneCnt }, Reply.ok [])

/-- A word of a tap's block, by offset (R367). -/
def tapRead (s : State) (t o : Nat) : Word :=
  let x := s.tap t
  match o with
  | 0x0 => bitAt 0 x.armed ||| bitAt 1 x.done ||| bitAt 2 x.incomplete ||| bitAt 3 x.mismatch ||| fieldAt 4 (ownerOf s (.tap t))
  | 0x4 => x.result
  | 0x8 => x.startOf
  | 0xC => x.doneCnt
  | _ => 0

/-- TAP_GET (R368). -/
def tapGet (tap : Byte) (s : State) : State × Reply :=
  if 15 < tap.toNat then (s, Reply.code .badParam)
  else (s, Reply.ok ((List.range 4).flatMap fun j => le32 (tapRead s tap.toNat (4 * j))))

end Sys2Proof.Machine
end

