-- ==== Sys2Proof/Machine/Slots.lean ====
section
/-! DEFINITION. The command slots' pending results (R413, R417): work that ends later gives its command's reply. -/

namespace Sys2Proof.Machine

/-- Change one command slot of a partition: UDP or mailbox. -/
def onSlot (p : Nat) (udp : Bool) (f : CmdSlot → CmdSlot) (s : State) : State :=
  let c := s.part p
  s.setPart p (if udp then { c with udp := f c.udp } else { c with mbox := f c.mbox })

/-- A command slot of a partition. -/
def State.slot (s : State) (p : Nat) (udp : Bool) : CmdSlot := if udp then (s.part p).udp else (s.part p).mbox

/-- The work that a command waits for comes to its result: a slot's command, or the boot's (R413, R427). -/
def giveResult (p : Nat) (udp : Bool) (j : Job) (r : Reply) (s : State) : State :=
  let s1 := onSlot p udp (fun c => if c.state = .pending ∧ c.job = some j then { c with result := some r, job := none } else c) s
  if s.boot.job = some (p, j) then { s1 with boot := { s1.boot with result := some r } } else s1

end Sys2Proof.Machine
end

