-- ==== Sys2Proof/Machine/WaveOps.lean ====
section
/-! DEFINITION. The life of a wave inside the fabric (R62 to R74, R149 to R154): building a bank, dispatching and
completing schedule entries, parameter windows, launches and tokens. -/

namespace Sys2Proof.Machine

/-- Write initial values of a new node (R95, R103): 0 X, 1 Y, 2 C of its engine, 3 Tarn, 4 DRAM. -/
def writeInit (s : State) (d : InitData) : State :=
  if d.mem = 3 then { s with mem := s.mem.writeTarn d.offset d.bytes }
  else if d.mem = 4 then { s with mem := s.mem.writeDram d.offset d.bytes }
  else
    let words := (List.range (d.bytes.length / 4)).map fun i => BitVec.ofNat 32 (leAt d.bytes (4 * i) 4)
    s.setEngine d.place (words.zipIdx.foldl (fun e wi => e.putMem (d.mem + 1) (d.offset / 4 + wi.2) wi.1) (s.engine d.place))

/-- Load an engine's program into a bank half (R96, R125). -/
def loadProgram (bank : Nat) (s : State) (x : Nat × List Long) : State :=
  let e := s.engine x.1
  let half := Store.putAll 0 [] 0 x.2
  let kept := e.bad.filter fun b => !(b.1 == 0 && b.2 / 2048 == bank)
  s.setEngine x.1 (if bank = 0 then { e with progA := half, bad := kept } else { e with progB := half, bad := kept })

/-- An engine's program as the live bank has it, in the other half too. -/
def keepProgram (half : Nat) (s : State) (n : Nat) : State :=
  let e := s.engine n
  let kept := e.bad.filter fun b => !(b.1 == 0 && b.2 / 2048 == half)
  s.setEngine n (if half = 0 then { e with progA := e.progB, bad := kept } else { e with progB := e.progA, bad := kept })

/-- The other partitions' programs go into the half of the bank that is built, as their schedule entries do (R25, R103, R108;
log 17). -/
def keepPrograms (part half : Nat) (s : State) : State :=
  if s.rdg.live.isNone then s
  else ((List.range 24).filter fun n => ownerOf s (.cluster (n / 4)) != part).foldl (keepProgram half) s

/-- BANK_BUILD_COMPLETE (R101, R103): the verification's outcome, and its command's reply. -/
def buildComplete (s : State) : State :=
  match s.rdg.build with
  | none => s
  | some b =>
    let sh := s.rdg.shadow
    match b.outcome with
    | some (parts, corner, total) =>
      let s1 := b.inits.foldl writeInit (b.programs.foldl (loadProgram sh) (keepPrograms b.part sh s))
      let s2 := { s1 with rdg := { s1.rdg.setBank sh { state := .ready, parts := parts, corner := corner, rate := b.rate } with
        build := none, resPart := b.part, resRunning := true } }
      giveResult b.part b.udp .graphVerify (Reply.ok (leBytes 2 0 ++ [BitVec.ofNat 8 (0x41 + sh)] ++ leBytes 2 total)) s2
    | none =>
      let st : Status := if b.rejectNotOwner then .notOwner else if b.rejectNoRes then .noResource else .graphReject
      let s1 := { s with rdg := { s.rdg.setBank sh { s.rdg.bank sh with state := .idle } with build := none } }
      let (s2, r) := graphRefuse b.part st b.reason s1
      giveResult b.part b.udp .graphVerify r s2

/-- The bank half and index of the wave's bank: 0 A, 1 B. -/
def liveHalf (s : State) : Nat := s.rdg.live.getD 0

/-- The crossfade index i of wave `k`, none outside a crossfade (R112, R149). -/
def fadeIndex (s : State) (k : Word) : Option Nat :=
  match s.rdg.xfade with
  | none => none
  | some w => let i := (k - w).toNat
              if i < s.rdg.xfadeN then some i else none

/-- A schedule entry of the live bank. -/
def entryAt (s : State) (p i : Nat) : Option Entry :=
  match s.rdg.liveParts with
  | none => none
  | some ps => (ps.getD p BankPart.init).entries[i]?

/-- Predecessors of an entry on other targets that have completed; a dormant one counts as completed (R99, R112). -/
def doneBefore (s : State) (p i target : Nat) : Nat :=
  match s.rdg.liveParts with
  | none => 0
  | some ps =>
    (((ps.getD p BankPart.init).entries.mapIdx fun j (x : Entry) =>
      if x.target ≠ target ∧ (x.dormant ∨ s.entryDone p j) then x.succ.count i else 0)).sum

/-- Every earlier entry of the same target and part has completed (R61, R99). -/
def inOrder (s : State) (p i target : Nat) : Bool :=
  (liveEntries s target).all fun x => decide (x.1 ≠ p ∨ i ≤ x.2.1) || s.entryDone x.1 x.2.1

/-- The entry may be dispatched now (R99, R150). -/
def entryReady (s : State) (p i : Nat) (e : Entry) : Bool :=
  s.wave.running.isSome && !e.dormant && !s.wave.dispatched.contains (p, i) && inOrder s p i e.target
    && decide (e.wait ≤ doneBefore s p i e.target)

/-- The engine's registers and wave context at a dispatch (R131, R149, R150). -/
def Engine.dispatch (e : Engine) (n p i : Nat) (x : Entry) (k : Word) (half : Nat) (fade : Option Nat) (len : Nat) : Engine :=
  { e with
    v := [], acc := [], s := [], p := [], m := [], l := [], b := [], nstate := [], flags := 0, loops := [], cache := none
    wave := k
    xfIn := match fade with
      | none => 0x4000_0000#32
      | some j => BitVec.ofNat 32 (fadeGain j len)
    xfOut := match fade with
      | none => 0
      | some j => BitVec.ofNat 32 (2 ^ 30 - fadeGain j len)
    xfIdx := match fade with
      | none => 0xFFFF_FFFF#32
      | some j => BitVec.ofNat 32 j
    node := BitVec.ofNat 32 x.node
    who := fieldAt 0 n ||| fieldAt 8 p ||| fieldAt 12 half
    pc := x.start, entry := some (p, i), ended := false, window := false }

/-- Note an entry as dispatched. -/
def markDispatched (s : State) (p i : Nat) : State :=
  { s with wave := { s.wave with dispatched := s.wave.dispatched ++ [(p, i)] } }

/-- ENTRY_DISPATCH (R150, R178): a Meridian entry mixes its slice; an engine that has trapped completes the entry without
running it (R151). -/
def entryDispatch (p i : Nat) (s : State) : State :=
  match entryAt s p i with
  | none => s
  | some x =>
    if !entryReady s p i x then s
    else if x.target = 24 then
      match ((s.rdg.liveParts.getD []).getD p BankPart.init).slices[x.start]? with
      | none => markDispatched s p i
      | some sl => runSlice sl (markDispatched s p i)
    else
      let e := s.engine x.target
      if e.trapped then markDone s [(p, i)]
      else if e.entry.isSome then s
      else
        let k := s.wave.running.getD 0
        (markDispatched s p i).setEngine x.target
          (e.dispatch x.target p i x k (liveHalf s) (fadeIndex s k) s.rdg.xfadeN)

/-- The engine completes its entry (R142, R150, R153). -/
def Engine.complete (e : Engine) (now : Nat) (last : Bool) : Engine :=
  { e.countSat now with entry := none, ended := true, window := last || e.window }

/-- ENTRY_COMPLETION (R150): an entry completes after its END. -/
def entryCompletion (p i : Nat) (s : State) : State :=
  match entryAt s p i with
  | none => s
  | some x =>
    if !s.wave.dispatched.contains (p, i) || s.entryDone p i then s
    else if x.target = 24 then markDone s [(p, i)]
    else if !(s.engine x.target).ended then s
    else
      let s1 := finishFar x.target true (finishFar x.target false s)
      let e := s1.engine x.target
      if e.trapped then s1
      else markDone (s1.setEngine x.target (e.complete s.time x.last)) [(p, i)]

/-- Merge a change into a gain cell (R154). -/
def Engine.armCell (e : Engine) (w : GainCell) (a : Word) : Engine :=
  let ctrl := e.cellWord w.addr 3
  let t := min w.t 262143
  ((e.putMem 3 (w.addr / 4 + 1) w.gain).putMem 3 (w.addr / 4 + 2) a).putMem 3 (w.addr / 4 + 3)
    ((ctrl &&& 0xFC0000FE#32) ||| 1 ||| BitVec.ofNat 32 (t * 256))

/-- One waiting parameter line in its engine's window (R153, R154): held while the cell ramps. -/
def applyCell (s : State) (w : GainCell) : State :=
  let e := s.engine w.engine
  let drop := s.rdg.cellWrites.filter fun x => x != w
  if e.ramping w.addr then
    { s with rdg := { s.rdg with cellWrites := drop ++ [{ w with held := true }] } }
  else
    let a := if w.held ∧ serialDiff w.a (s.mcnt + 1) < 0 then s.mcnt + 1 else w.a
    let s1 := s.setEngine w.engine (e.armCell w a)
    let cells := s1.rdg.cells.filter fun x => !(x.engine == w.engine && x.addr == w.addr)
    { s1 with rdg := { s1.rdg with cellWrites := drop, cells := cells ++ [{ w with held := false, a := a }] } }

/-- Read one cell back (R154): a complete one leaves the list, and its timeout is counted once. -/
def readBack (s : State) (w : GainCell) : State :=
  let e := s.engine w.engine
  if e.pendValid w.addr then s
  else
    let cells := s.rdg.cells.filter fun x => x != w
    let ctrl := e.cellWord w.addr 3
    if ctrl.getLsbD 7 then
      let s1 := s.setEngine w.engine (e.putMem 3 (w.addr / 4 + 3) (setBit ctrl 7 false))
      { s1 with rdg := { s1.rdg with cells := cells, gainTimeoutCnt := s1.rdg.gainTimeoutCnt + 1 } }
    else { s with rdg := { s.rdg with cells := cells } }

/-- PARAM_WRITE_WINDOW of an engine (R153, R154): read-backs, then the waiting lines. -/
def paramWindow (n : Nat) (s : State) : State :=
  if !(s.engine n).window then s
  else
    let s1 := (s.rdg.cells.filter fun w => w.engine == n).foldl readBack s
    (s1.rdg.cellWrites.filter fun w => w.engine == n).foldl applyCell s1

/-- GAIN_ZC_TIMEOUT (R116, R154): the node's code begins the 32-sample ramp and sets TMO. -/
def gainTimeout (n addr : Nat) (s : State) : State :=
  let e := s.engine n
  if e.pendValid addr && !e.ramping addr then
    let ctrl := e.cellWord addr 3
    s.setEngine n (e.putMem 3 (addr / 4 + 3) ((ctrl &&& 0xFC000000#32) ||| 0x82))
  else s

/-- The bits of CRN_TRAP_PEND after a wave: the engines that trapped in it (R156). -/
def trapBits (s : State) : BitVec 24 :=
  (List.range 24).foldl (fun w n => setBit w n (s.engine n).trapped) 0

/-- Ridge launches wave `k` (R62, R110, R111, R183). -/
def launchWave (k : Word) (s : State) : State :=
  let s1 := gainStep k (beginHalt k (applyCommit k (wakeFabric s)))
  { s1 with
    crn := { s1.crn with engines := Store.mapAll Engine.init s1.crn.engines fun _ e => { e with trapped := false, ended := false } }
    wave := { s1.wave with running := some k, waiting := none, trapped := false, dispatched := [], completed := [] } }

/-- The words of the output image as Tarn holds them. -/
def outputSnapshot (s : State) : Store Word :=
  let b := baseOf s .outputImages
  (s.mem.tarn.filter fun c => decide (b ≤ c.1 ∧ c.1 < b + 4 * imageWords)).foldl
    (fun (st : Store Word) c =>
      let x : Word := (c.2.setWidth 32).shiftLeft (8 * ((c.1 - b) % 4))
      Store.upd (0 : Word) st ((c.1 - b) / 4) fun w => w ||| x) []

/-- The running wave is over: CRN_TRAP_PEND and the run of waves with a trap (R152, R156). -/
def endWave (s : State) : State :=
  { s with
    crn := { s.crn with trapPend := trapBits s, trapRun := if s.wave.trapped then s.crn.trapRun + 1 else 0 }
    wave := { s.wave with running := none } }

/-- The output image of a wave that met its deadline and in which no engine trapped goes to the guard (R62, R72, R152). -/
def keepImage (late : Bool) (s : State) : State :=
  { s with wave := { s.wave with
      tokenIn := !late
      fresh := if late || s.wave.trapped then none else some (outputSnapshot s) } }

/-- The slack monitor at a token (R68 to R70, R77). -/
def tokenSlack (slack : Word) (s : State) : State :=
  let f := s.fab.recordSlack s.time slack
  { s with fab := if belowPercent s.fs f.params.floor slack.toInt then f.emergency s.time else f }

/-- A wave that waits launches as the token returns, late (R73). -/
def launchWaiting (s : State) : State :=
  match s.wave.waiting with
  | none => s
  | some k => launchWave k { s with fab := { s.fab with lateCnt := s.fab.lateCnt + 1 } }

/-- COMPLETION_TOKEN (R62, R68, R73): `slack` is D − Tc in 2 ns units. -/
def completionToken (slack : Word) (s : State) : State :=
  match s.wave.running with
  | none => s
  | some _ => launchWaiting (endWave (keepImage (decide (slack.toInt < 0)) (tokenSlack slack s)))

/-- CRN_LAST_TRAP (R155). -/
def lastTrapWord (c : Crn) : Word := fieldAt 0 c.lastEngine ||| fieldAt 8 c.lastCause ||| fieldAt 16 c.lastNode

/-- CRN_SAT_SEEN (R156). -/
def satSeen (s : State) : Word :=
  (List.range 24).foldl (fun w n => w ||| bitAt n (match (s.engine n).satAt with
    | none => false
    | some t => decide (s.time < t + 1000000))) 0

/-- A read of the Cairn registers, 0x5600 to 0x56FF (R155, R156). -/
def crnRead (s : State) (a : Nat) : Word :=
  if a = 0x5600 then s.crn.trapPend.setWidth 32
  else if a = 0x5604 then satSeen s
  else if a = 0x5608 then lastTrapWord s.crn
  else if a = 0x560C then s.crn.lastMcnt
  else if a = 0x5610 then s.crn.trapRun
  else if a = 0x5614 then BitVec.ofNat 32 s.crn.trapStallTh
  else if 0x5640 ≤ a ∧ a < 0x56A0 then (s.engine ((a - 0x5640) / 4)).trapCnt
  else if 0x56A0 ≤ a ∧ a < 0x5700 then (s.engine ((a - 0x56A0) / 4)).satCnt
  else 0

/-- CRN_SET_TRAP_ESCALATION (R152, R157). -/
def crnSetTrapEscalation (th : Half) (s : State) : State × Reply :=
  if th.toNat < 2 ∨ 4800 < th.toNat then (s, Reply.code .badParam)
  else ({ s with crn := { s.crn with trapStallTh := th.toNat } }, Reply.ok [])

/-- CRN_GET_STATUS (R157). -/
def crnGetStatus (s : State) : State × Reply :=
  (s, Reply.ok ([0x5600, 0x5604, 0x5608, 0x560C, 0x5610].flatMap (fun a => le32 (crnRead s a))
    ++ (List.range 24).flatMap fun n => le32 (s.engine n).trapCnt ++ le32 (s.engine n).satCnt))

/-- The words of CRN_READ_MEM: program memory gives the low word of an instruction first (R157, R158; log 29). -/
def readLocal (e : Engine) (mem addr count : Nat) : List Word :=
  if mem < 3 then Store.slice 0 (e.mem (mem + 1)) addr count
  else (List.range count).map fun j =>
    let i := addr + j / 2
    let w := if i < 2048 then Store.look 0 e.progA i else Store.look 0 e.progB (i - 2048)
    if j % 2 = 0 then w.setWidth 32 else (w >>> 32).setWidth 32

/-- CRN_READ_MEM (R157, R158). -/
def crnReadMem (engine mem : Byte) (addr count : Half) (s : State) : State × Reply :=
  let lim := if mem.toNat = 3 then 2 * (4096 - addr.toNat) else 16384 - addr.toNat
  if 23 < engine.toNat ∨ 3 < mem.toNat ∨ count.toNat < 1 ∨ 1000 < count.toNat ∨ lim < count.toNat then
    (s, Reply.code .badParam)
  else (s, Reply.ok ((readLocal (s.engine engine.toNat) mem.toNat addr.toNat count.toNat).flatMap le32))

end Sys2Proof.Machine
end

