-- ==== Sys2Proof/Machine/Tdm.lean ====
section
/-! DEFINITION. The TDM ports (R231 to R259): commands, frames, rings, gates, mask changes and the converters. -/

namespace Sys2Proof.Machine

/-- Set bits of a mask. -/
def popcount {w : Nat} (x : BitVec w) : Nat := (bitsOf x).length

/-- The group of a port (R231). -/
def groupOfPort (n : Nat) : Nat := n / 8

/-- The ports of a group. -/
def portsOf (g : Nat) : List Nat := (List.range 8).map (8 * g + ·)

/-- Every port of a foreign group is a clock slave (R232). -/
def isSlave (s : State) (n : Nat) : Bool := (s.port n).slave || (s.group (groupOfPort n)).foreign

/-- The rate that limits a port: the media rate, or a foreign group's nominal rate (R236). -/
def portRate (s : State) (n : Nat) : Nat :=
  let g := s.group (groupOfPort n)
  if g.foreign then g.frate else s.pst.rate

/-- The largest L at a rate code (R236). -/
def maxL (rate : Nat) : Nat := if rate ≤ 1 then 1024 else if rate ≤ 3 then 512 else 256

/-- The enabled slots per direction at a rate code (R236). -/
def maxSlots (rate : Nat) : Nat := if rate ≤ 1 then 32 else if rate ≤ 3 then 16 else 8

/-- A foreign nominal rate lies from one quarter to four times the media rate (R251). -/
def foreignRateOk (frate rate : Nat) : Bool := decide (rateHz rate ≤ 4 * rateHz frate ∧ rateHz frate ≤ 4 * rateHz rate)

/-- Bits of a mask at slot n or above (R241). -/
def maskOver (m : Word) (n : Nat) : Bool := (bitsOf m).any fun j => decide (n ≤ j)

/-- Receive and transmit slots that the converter of a group carries, under given masks (R252). -/
def asrcCount (masks : Nat → Word × Word) (g : Nat) : Nat × Nat :=
  (((portsOf g).map fun n => popcount (masks n).1).sum, ((portsOf g).map fun n => popcount (masks n).2).sum)

/-- The converters' limits (R252), with a group taken as foreign or not. -/
def asrcFits (foreign : Nat → Bool) (masks : Nat → Word × Word) : Bool :=
  let cs := ((List.range 8).filter foreign).map (asrcCount masks)
  cs.all (fun c => decide (c.1 ≤ 64 ∧ c.2 ≤ 64)) && decide ((cs.map Prod.fst).sum ≤ 256 ∧ (cs.map Prod.snd).sum ≤ 256)

/-- The masks in effect. -/
def masksNow (s : State) (n : Nat) : Word × Word := ((s.port n).rxMask, (s.port n).txMask)

/-- The masks of the last commit that has been accepted: those in effect, or the ones that still wait (R247). -/
def Port.due (p : Port) : Word × Word := (p.commit.map fun c => (c.1, c.2.1)).getD (p.rxMask, p.txMask)

def masksDue (s : State) (n : Nat) : Word × Word := (s.port n).due

/-- TDM_SET_GROUP (R232, R251, R252, R258). -/
def tdmSetGroup (c : TdmSetGroup) (s : State) : State × Reply :=
  let g := c.group.toNat
  let foreign := c.foreign.toNat == 1
  if decide (7 < g ∨ 1 < c.foreign.toNat ∨ 4 < c.rate.toNat) || (foreign && !foreignRateOk c.rate.toNat s.pst.rate) then
    (s, Reply.code .badParam)
  else if (portsOf g).any fun n => (s.port n).state != .stopped then (s, Reply.code .busy)
  else if !asrcFits (fun h => if h = g then foreign else (s.group h).foreign) (masksDue s) then
    (s, Reply.code .noResource)
  else (s.setGroup g { s.group g with foreign := foreign, frate := c.rate.toNat, asrcLock := false, fadeLeft := 0 }, Reply.ok [])

/-- The frame parameters of TDM_SET_PORT, within R233 to R236. -/
def portParamsOk (s : State) (c : TdmSetPort) : Bool :=
  let n := c.port.toNat
  let l := c.l.toNat
  let w := c.w.toNat
  let rate := portRate s n
  decide (n < 64 ∧ c.role.toNat ≤ 1 ∧ c.mode.toNat ≤ 3 ∧ (w = 16 ∨ w = 24 ∨ w = 32) ∧ c.offset.toNat ≤ 31
    ∧ c.fsWidth.toNat ≤ 2 ∧ c.flags.toNat ≤ 7 ∧ c.timeout.toNat ≤ 1000 ∧ l ≤ maxL rate)
    && (if c.role.toNat = 0 then [32, 64, 128, 256, 512, 1024].contains l else decide (32 ≤ l ∧ l ≤ 1024 ∧ l % 2 = 0))
    && (if c.mode.toNat = 0 then decide (1 ≤ c.n.toNat ∧ c.n.toNat ≤ 32 ∧ c.n.toNat * w ≤ l)
        else decide (c.n.toNat = 2 ∧ w ≤ l / 2))

/-- No mask in effect or staged, or committed for a later frame, has a bit at slot n or above (R241). -/
def masksWithin (p : Port) (n : Nat) : Bool :=
  [p.rxMask, p.txMask, p.stageRx, p.stageTx, p.due.1, p.due.2].all fun m => !maskOver m n

/-- The port with the parameters of a TDM_SET_PORT. -/
def withParams (p : Port) (c : TdmSetPort) : Port :=
  { p with slave := c.role.toNat = 1, mode := c.mode.toNat, n := c.n.toNat, l := c.l.toNat, w := c.w.toNat
           offset := c.offset.toNat, fsWidth := c.fsWidth.toNat, bclkInv := c.flags.getLsbD 0, fsInv := c.flags.getLsbD 1
           tri := c.flags.getLsbD 2, gateMs := c.timeout.toNat }

/-- TDM_SET_PORT (R233 to R236, R241, R258): the timeout alone may change at any time. -/
def tdmSetPort (c : TdmSetPort) (s : State) : State × Reply :=
  let p := s.port c.port.toNat
  let q := withParams p c
  if !portParamsOk s c || !masksWithin p c.n.toNat then (s, Reply.code .badParam)
  else if p.state != .stopped && decide ({ q with gateMs := p.gateMs } ≠ p) then (s, Reply.code .busy)
  else (s.setPort c.port.toNat q, Reply.ok [])

/-- The size of a ring entry (R241). -/
def entrySize (ringSlots : Nat) : Nat := 16 + 16 * ((ringSlots + 3) / 4)

/-- TDM_SET_RING (R241, R244, R258). -/
def tdmSetRing (part : Nat) (c : TdmSetRing) (s : State) : State × Reply :=
  let p := s.port c.port.toNat
  let rs := c.ringSlots.toNat
  let d := c.depth.toNat
  if !decide (c.port.toNat < 64 ∧ 1 ≤ rs ∧ rs ≤ 32 ∧ c.base.toNat % 16 = 0 ∧ c.dmaReqEn.toNat ≤ 1
        ∧ (c.dmaReqEn = 0 ∨ (1 ≤ c.reqFrames.toNat ∧ c.reqFrames.toNat ≤ 256)) ∧ popcount p.rxMask ≤ rs
        ∧ popcount p.stageRx ≤ rs ∧ popcount p.due.1 ≤ rs)
      || !([2, 4, 8, 16, 32, 64, 128, 256].contains d) || decide (0x0200_0000 < c.base.toNat + d * entrySize rs)
      || !inOwnRegion s part c.base.toNat (d * entrySize rs) then (s, Reply.code .badParam)
  else if p.state != .stopped then (s, Reply.code .busy)
  else
    (s.setPort c.port.toNat
      { p with ringSet := true, ringBase := c.base.toNat, ringSlots := rs, depth := d, dmaReqEn := c.dmaReqEn.toNat = 1
               reqFrames := c.reqFrames.toNat, reqCount := 0 }, Reply.ok [])

/-- TDM_STAGE_MASK (R236, R241, R246, R258). -/
def tdmStageMask (c : TdmStageMask) (s : State) : State × Reply :=
  let p := s.port c.port.toNat
  let lim := maxSlots (portRate s c.port.toNat)
  if 63 < c.port.toNat ∨ maskOver c.rx p.n ∨ maskOver c.tx p.n ∨ lim < popcount c.rx ∨ lim < popcount c.tx
      ∨ (p.ringSet ∧ p.ringSlots < popcount c.rx) then (s, Reply.code .badParam)
  else (s.setPort c.port.toNat { p with stageRx := c.rx, stageTx := c.tx }, Reply.ok [])

/-- The silencing phase of a commit runs (R246). -/
def Port.silencing (p : Port) : Bool :=
  match p.commit with
  | some (_, _, .silencing) => true
  | _ => false

/-- A command on the port is refused with BUSY (R247). -/
def Port.busy (p : Port) : Bool := p.silencing || p.state == .starting || p.state == .stopping

/-- The port is a slave in SEARCH (R240). -/
def inSearch (s : State) (n : Nat) : Bool := isSlave s n && !(s.port n).locked && (s.port n).state != .stopped

/-- Commit one port's staged masks (R246, R247). -/
def commitPort (s : State) (n : Nat) : State :=
  let p := s.port n
  if p.stageRx = p.rxMask ∧ p.stageTx = p.txMask then
    s.setPort n { p with commit := none }
  else if p.state == .stopped then s.setPort n { p with commit := some (p.stageRx, p.stageTx, .atStart) }
  else if inSearch s n then s.setPort n { p with commit := some (p.stageRx, p.stageTx, .relock) }
  else
    s.setPort n { p with
      commit := some (p.stageRx, p.stageTx, .silencing)
      rx := gateSlots p.rx (p.rxMask &&& ~~~p.stageRx) (Gate.stop p.gateMs)
      tx := gateSlots p.tx (p.txMask &&& ~~~p.stageTx) (Gate.stop p.gateMs) }

/-- TDM_COMMIT (R246, R247, R252). -/
def tdmCommit (mask : Long) (s : State) : State × Reply :=
  let ns := bitsOf mask
  let masks (n : Nat) : Word × Word :=
    if ns.contains n then ((s.port n).stageRx, (s.port n).stageTx) else masksDue s n
  if ns.any fun n => (s.port n).busy then (s, Reply.code .busy)
  else if !asrcFits (fun g => (s.group g).foreign) masks then (s, Reply.code .noResource)
  else (ns.foldl commitPort s, Reply.ok [])

/-- Start the gates of every enabled slot (R248, R249). -/
def Port.openGates (p : Port) : Port :=
  { p with rx := gateSlots p.rx p.rxMask (Gate.start p.gateMs), tx := gateSlots p.tx p.txMask (Gate.start p.gateMs) }

/-- Close the gates of every enabled slot under the stop gate (R249). -/
def Port.closeGates (p : Port) : Port :=
  { p with rx := gateSlots p.rx p.rxMask (Gate.stop p.gateMs), tx := gateSlots p.tx p.txMask (Gate.stop p.gateMs) }

/-- The checks of a start (R249, R250). -/
def startOk (s : State) (n : Nat) : Bool :=
  let p := s.port n
  let g := s.group (groupOfPort n)
  let lim := maxSlots (portRate s n)
  p.ringSet && decide (p.l ≤ maxL (portRate s n))
    && ([p.rxMask, p.txMask, p.stageRx, p.stageTx, p.due.1, p.due.2].all fun m => decide (popcount m ≤ lim))
    && (!g.foreign || foreignRateOk g.frate s.pst.rate)

/-- Start one port (R247, R249): masks committed while it was STOPPED take effect; a master opens its gates, a slave enters
SEARCH. -/
def startPort (s : State) (n : Nat) : State :=
  let p := s.port n
  if p.state != .stopped then s
  else
    let q := { p with
      state := .starting, locked := false, goodRun := 0, errRun := 0, searchCount := 32, txHold := false
      rxMask := p.due.1, txMask := p.due.2, rx := [] }
    s.setPort n (if isSlave s n then q else q.openGates)

/-- TDM_START (R247, R249, R250). -/
def tdmStart (mask : Long) (s : State) : State × Reply :=
  let ns := bitsOf mask
  if ns.any fun n => !startOk s n then (s, Reply.code .badParam)
  else if ns.any fun n => (s.port n).busy then (s, Reply.code .busy)
  else (ns.foldl startPort s, Reply.ok [])

/-- Stop one port (R249). -/
def stopPort (s : State) (n : Nat) : State :=
  let p := s.port n
  if p.state == .stopped then s else s.setPort n ({ p with state := .stopping }.closeGates)

/-- TDM_STOP (R247, R249). -/
def tdmStop (mask : Long) (s : State) : State × Reply :=
  let ns := bitsOf mask
  if ns.any fun n => (s.port n).busy then (s, Reply.code .busy)
  else (ns.foldl stopPort s, Reply.ok [])

def PortState.code : PortState → Nat
  | .stopped => 0 | .starting => 1 | .running => 2 | .stopping => 3

/-- TDM_PSTAT.LOCKED (R256). -/
def portLocked (s : State) (n : Nat) : Bool :=
  let p := s.port n
  if isSlave s n then p.locked else p.state == .running || p.state == .starting || p.state == .stopping

/-- TDM_PSTAT (R256). -/
def tdmPstat (s : State) (n : Nat) : Word :=
  let p := s.port n
  fieldAt 0 p.state.code ||| bitAt 2 (isSlave s n) ||| bitAt 3 (portLocked s n) ||| bitAt 4 p.silencing
    ||| bitAt 5 (p.stageRx != p.rxMask || p.stageTx != p.txMask) ||| fieldAt 8 p.epoch.toNat
    ||| fieldAt 16 (popcount p.rxMask) ||| fieldAt 24 (popcount p.txMask)

/-- TDM_GSTAT (R257). -/
def tdmGstat (s : State) (g : Nat) : Word :=
  let x := s.group g
  let c := if x.foreign then asrcCount (masksNow s) g else (0, 0)
  bitAt 0 x.foreign ||| bitAt 1 x.asrcLock ||| fieldAt 2 x.frate ||| fieldAt 8 c.1 ||| fieldAt 16 c.2

/-- A read of the TDM registers, 0x7800 to 0x7C7F (R256, R257). -/
def tdmRead (s : State) (a : Nat) : Word :=
  if a < 0x7C00 then
    let n := (a - 0x7800) / 16
    let p := s.port n
    match a % 16 with
    | 0x0 => tdmPstat s n
    | 0x4 => p.rxMask
    | 0x8 => p.txMask
    | _ => fieldAt 0 p.frameErr.toNat ||| fieldAt 8 p.phaseErr.toNat ||| fieldAt 16 p.parErr.toNat
        ||| fieldAt 24 p.syncLost.toNat
  else
    let g := (a - 0x7C00) / 16
    let x := s.group g
    match a % 16 with
    | 0x0 => tdmGstat s g
    | 0x4 => x.ofs
    | 0x8 => x.unlockCnt
    | _ => x.zcCnt

/-- TDM_GET_STATUS (R258). -/
def tdmGetStatus (port : Byte) (s : State) : State × Reply :=
  let n := port.toNat
  if 63 < n then (s, Reply.code .badParam)
  else
    let g := groupOfPort n
    (s, Reply.ok (([0, 4, 8, 12].flatMap fun o => le32 (tdmRead s (0x7800 + 16 * n + o)))
      ++ [0, 4, 8, 12].flatMap fun o => le32 (tdmRead s (0x7C00 + 16 * g + o))))

/-- A crossing: the sample is zero, or differs in sign from the one before, if there is one (R115, R248). -/
def crosses (x : Word) (prev : Option Word) : Bool :=
  x == 0 || (prev.map fun y => x.getLsbD 31 != y.getLsbD 31).getD false

/-- The fade-in gain g[i] of R248. -/
def fadeInGain (i : Nat) : Nat := (i + 1) * 2 ^ 30 / 32

/-- floor(x · g / 2^30) (R113, R248). -/
def scale (x : Word) (g : Nat) : Word := BitVec.ofInt 32 ((x.toInt * g).fdiv (2 ^ 30))

/-- One sample through a gate: what the slot carries, and the gate after it (R248). -/
def Gate.pass (x : Word) (prev : Option Word) : Gate → Word × Gate
  | .closed => (0, .closed)
  | .opening => if crosses x prev then (x, .isOpen) else (0, .opening)
  | .fadeIn i => if i < 32 then (scale x (fadeInGain i), .fadeIn (i + 1)) else (x, .fadeIn i)
  | .isOpen => (x, .isOpen)
  | .closing => if crosses x prev then (0, .closed) else (x, .closing)
  | .fadeOut i => if i < 32 then (scale x (2 ^ 30 - fadeInGain i), .fadeOut (i + 1)) else (0, .fadeOut i)

/-- The gate holds the sample at zero or fades it (R242): not while a stop gate still waits. -/
def Gate.alters (x : Word) (prev : Option Word) : Gate → Bool
  | .closed => true
  | .opening => !crosses x prev
  | .fadeIn i => decide (i < 32)
  | .isOpen => false
  | .closing => crosses x prev
  | .fadeOut _ => true

/-- A sample passes a slot's gate. -/
def Slot.pass (t : Slot) (x : Word) : Slot :=
  let r := t.gate.pass x t.prev
  { gate := r.2, prev := some x, last := r.1 }

/-- The bits [31:32 − W] of a slot word (R237). -/
def slotBits (w : Nat) (x : Word) : Word := (x >>> (32 - w)) <<< (32 - w)

/-- A port's receive slot. -/
def Port.rxSlot (p : Port) (j : Nat) : Slot := Store.look Slot.init p.rx j
def Port.txSlot (p : Port) (j : Nat) : Slot := Store.look Slot.init p.tx j

/-- The bytes of a ring entry (R242). -/
def ringEntry (p : Port) (k : Word) (par repeats gated : Bool) (words : List Word) : List Byte :=
  le32 k ++ [p.epoch, BitVec.ofNat 8 (popcount p.rxMask)]
    ++ [BitVec.ofNat 8 ((if par then 1 else 0) + (if repeats then 2 else 0) + (if gated then 4 else 0)), 0]
    ++ le32 p.rxMask ++ leBytes 4 0 ++ words.flatMap le32

/-- Write an entry for frame k, and raise the DMA request after REQ_FRAMES entries (R241, R244). -/
def putEntry (n : Nat) (k : Word) (par repeats gated : Bool) (words : List Word) (s : State) : State :=
  let p := s.port n
  if !p.ringSet then s
  else
    let a := p.ringBase + (k.toNat % p.depth) * entrySize p.ringSlots
    let s1 := { s with mem := s.mem.writeTarn a (ringEntry p k par repeats gated words) }
    if !p.dmaReqEn then s1
    else if p.reqCount + 1 < p.reqFrames then s1.setPort n { p with reqCount := p.reqCount + 1 }
    else
      let s2 := s1.setPort n { p with reqCount := 0 }
      { s2 with dma := { s2.dma with lines := setBit s2.dma.lines n true } }

/-- Pass samples through the receive gates of the enabled slots. -/
def passRx (p : Port) (xs : List (Nat × Word)) : Port :=
  { p with rx := xs.foldl (fun st jx => Store.upd Slot.init st jx.1 fun t => t.pass jx.2) p.rx }

/-- The words that the enabled receive slots carry, in slot order. -/
def rxWords (p : Port) : List Word := (bitsOf p.rxMask).map fun j => (p.rxSlot j).last

/-- A slot of the port is gated or fading as samples pass (R242). -/
def anyGated (p : Port) (xs : List (Nat × Word)) : Bool :=
  xs.any fun e => (p.rxSlot e.1).gate.alters e.2 (p.rxSlot e.1).prev

/-- The words on the line of slots that a frame does not pass: the samples before the next (R248). -/
def Port.noteRx (p : Port) (f : TdmFrame) (js : List Nat) : Port :=
  { p with rx := js.foldl (fun st j =>
      Store.upd Slot.init st j fun t => { t with prev := some (slotBits p.w (f.words.getD j 0)) }) p.rx }

/-- Show the slot words of frame k to the taps on a port's receive side (R363). -/
def tapRx (n : Nat) (k : Word) (xs : List (Nat × Word)) (s : State) : State :=
  xs.foldl (fun t e => tapFeed 0 n e.1 k (some e.2) t) s

/-- A received frame that passes (R237, R242, R245). -/
def passFrame (n : Nat) (f : TdmFrame) (s : State) : State :=
  let p := s.port n
  let bad := bitsOf (f.parity &&& p.rxMask)
  let xs := (bitsOf p.rxMask).map fun j =>
    (j, if bad.contains j then (p.rxSlot j).prev.getD 0 else slotBits p.w (f.words.getD j 0))
  let others := (List.range p.n).filter fun j => !p.rxMask.getLsbD j
  let q := (passRx { p with errRun := 0, parErr := satAdd p.parErr bad.length } xs).noteRx f others
  let s1 := tapRx n f.k xs (putEntry n f.k (!bad.isEmpty) false (anyGated p xs) (rxWords q) (s.setPort n q))
  if bad.isEmpty then s1 else reportFault (0x098 + groupOfPort n) (BitVec.ofNat 16 n) s1

/-- Count a frame error by its kind (R240, R257). -/
def Port.countError (p : Port) (phase : Bool) : Port :=
  { p with
    goodRun := 0
    phaseErr := if phase then satInc p.phaseErr else p.phaseErr
    frameErr := if phase then p.frameErr else satInc p.frameErr }

/-- A frame error while LOCKED (R240): the entry and the transmit frame repeat the ones before, and no gate moves; the fourth
in a row awaits TDM_SYNC_LOST. -/
def frameError (n : Nat) (k : Word) (phase : Bool) (s : State) : State :=
  let p := s.port n
  let q := { p.countError phase with errRun := p.errRun + 1, txHold := true }
  let s1 := s.setPort n q
  if 4 ≤ q.errRun then s1
  else
    let xs := (bitsOf q.rxMask).map fun j => (j, (q.rxSlot j).prev.getD 0)
    let held := (bitsOf q.rxMask).any fun j => !((q.rxSlot j).gate == .isOpen || (q.rxSlot j).gate == .closing)
    let s2 := if (s.group (groupOfPort n)).foreign then s1 else tapRx n k xs (putEntry n k false true held (rxWords q) s1)
    reportFault (0x090 + groupOfPort n) (BitVec.ofNat 16 n) s2

/-- The frame is in phase (R239, R251): nanoseconds in a synchronous group, bit clocks in a foreign one. -/
def inPhase (s : State) (n : Nat) (phase : Word) : Bool :=
  if (s.group (groupOfPort n)).foreign then decide (phase.toInt.natAbs ≤ 2)
  else decide (-1000 ≤ phase.toInt ∧ phase.toInt * 4 * s.fs ≤ 1000000000)

/-- TDM_FRAME_RECEIVED (R240, R242, R245). -/
def tdmFrame (n : Nat) (f : TdmFrame) (s : State) : State :=
  let p := s.port n
  if p.state == .stopped then s
  else if !isSlave s n then passFrame n f s
  else
    let good := f.bitClocks.toNat == p.l && inPhase s n f.phase
    if !p.locked then
      s.setPort n (if good then { p with goodRun := p.goodRun + 1 }.noteRx f (List.range p.n)
        else p.countError (f.bitClocks.toNat == p.l))
    else if good then
      if (s.group (groupOfPort n)).foreign then s.setPort n { p with errRun := 0 } else passFrame n f s
    else frameError n f.k (f.bitClocks.toNat == p.l) s

/-- An FSYNC edge absent for 2 Ts is a frame error (R240). -/
def fsyncTimeout (n : Nat) (s : State) : State :=
  let p := s.port n
  if !isSlave s n || p.state == .stopped then s
  else if p.locked then frameError n (s.mcnt - 1) false s
  else s.setPort n (p.countError false)

/-- TDM_SLAVE_LOCK: four good frames in a row (R240). -/
def slaveLock (n : Nat) (s : State) : State :=
  let p := s.port n
  if inSearch s n && p.state != .stopping && decide (4 ≤ p.goodRun) then
    let q := { p with locked := true, errRun := 0, searchCount := 32, txHold := false }
    s.setPort n (if (s.group (groupOfPort n)).foreign && !(s.group (groupOfPort n)).asrcLock then q else q.openGates)
  else s

/-- The timing port of a group: its lowest-numbered running port (R251). -/
def timingPort (s : State) (g : Nat) : Option Nat :=
  (portsOf g).find? fun n => (s.port n).state == .running || (s.port n).state == .starting

/-- Close every gate of a port at once. -/
def Port.shutGates (p : Port) : Port :=
  { p with rx := gateSlots p.rx p.rxMask fun _ => .closed, tx := gateSlots p.tx p.txMask fun _ => .closed }

/-- The transmit slots fade from the words that they last carried (R254). -/
def Port.holdTx (p : Port) : Port :=
  { p with tx := Store.updAll Slot.init p.tx (bitsOf p.txMask) fun t => { t with prev := some t.last } }

/-- The ASRC of a group unlocks (R254). -/
def asrcUnlock (g : Nat) (s : State) : State :=
  let x := s.group g
  if !x.asrcLock then s
  else
    let s1 := s.setGroup g { x with asrcLock := false, unlockCnt := x.unlockCnt + 1, fadeLeft := 32 }
    let s2 := (portsOf g).foldl (fun t n => t.setPort n (t.port n).shutGates.holdTx) s1
    reportOwn (0x088 + g) s2

/-- TDM_SYNC_LOST: the fourth frame error in a row (R240, R247, R254). -/
def syncLost (n : Nat) (s : State) : State :=
  let p := s.port n
  let g := groupOfPort n
  if !(isSlave s n && p.locked && decide (4 ≤ p.errRun)) then s
  else
    let timing := timingPort s g == some n
    let commit := p.commit.map fun c => (c.1, c.2.1, MaskWhen.relock)
    let q := { p.shutGates with locked := false, goodRun := 0, searchCount := 0, txHold := false
                                syncLost := satInc p.syncLost, commit := commit }
    let s1 := reportFault (0x080 + g) (BitVec.ofNat 16 n) (s.setPort n q)
    if (s.group g).foreign && timing then asrcUnlock g s1 else s1

/-- TDM_GATE_TIMEOUT: no crossing within T samples (R248). -/
def gateTimeout (n : Nat) (dir : TdmDir) (j : Nat) (s : State) : State :=
  let p := s.port n
  let t := if dir = .rx then p.rxSlot j else p.txSlot j
  let g' : Option Gate := match t.gate with
    | .opening => some (.fadeIn 0)
    | .closing => some (.fadeOut 0)
    | _ => none
  match g' with
  | none => s
  | some g =>
    let t' := { t with gate := g }
    let q := if dir = .rx then { p with rx := Store.put Slot.init p.rx j t' }
      else { p with tx := Store.put Slot.init p.tx j t' }
    let x := s.group (groupOfPort n)
    (s.setPort n q).setGroup (groupOfPort n) { x with zcCnt := x.zcCnt + 1 }

/-- TDM_FADE_END: the 32 samples of a fade have gone (R248). -/
def fadeEnd (n : Nat) (dir : TdmDir) (j : Nat) (s : State) : State :=
  let p := s.port n
  let f (t : Slot) : Slot := match t.gate with
    | .fadeIn i => if 32 ≤ i then { t with gate := .isOpen } else t
    | .fadeOut i => if 32 ≤ i then { t with gate := .closed } else t
    | _ => t
  s.setPort n (if dir = .rx then { p with rx := Store.upd Slot.init p.rx j f }
    else { p with tx := Store.upd Slot.init p.tx j f })

/-- Every slot of a mask is silent. -/
def allClosed (st : Store Slot) (mask : Word) : Bool :=
  (bitsOf mask).all fun j => decide ((Store.look Slot.init st j).gate = .closed)

/-- Every slot of a mask is open. -/
def allOpen (st : Store Slot) (mask : Word) : Bool :=
  (bitsOf mask).all fun j => decide ((Store.look Slot.init st j).gate = .isOpen)

/-- Put committed masks into effect (R246): newly enabled slots start under the start gate. -/
def Port.takeMasks (p : Port) (rx tx : Word) : Port :=
  { p with
    rxMask := rx, txMask := tx, commit := none, epoch := p.epoch + 1
    rx := gateSlots (gateSlots p.rx (p.rxMask &&& ~~~rx) fun _ => .closed) (rx &&& ~~~p.rxMask) (Gate.start p.gateMs)
    tx := gateSlots (gateSlots p.tx (p.txMask &&& ~~~tx) fun _ => .closed) (tx &&& ~~~p.txMask) (Gate.start p.gateMs) }

/-- MASK_EPOCH_CHANGE: the frame at which committed masks take effect (R246, R247). -/
def maskChange (n : Nat) (s : State) : State :=
  let p := s.port n
  match p.commit with
  | some (rx, tx, .silencing) =>
    if allClosed p.rx (p.rxMask &&& ~~~rx) && allClosed p.tx (p.txMask &&& ~~~tx) then s.setPort n (p.takeMasks rx tx)
    else s
  | some (rx, tx, .atStart) => if p.state != .stopped then s.setPort n (p.takeMasks rx tx) else s
  | some (rx, tx, .relock) =>
    if p.state != .stopped && !inSearch s n then s.setPort n (p.takeMasks rx tx) else s
  | none => s

/-- TDM_PORT_RUNNING: every gate of a STARTING port has opened (R249). -/
def portRunning (n : Nat) (s : State) : State :=
  let p := s.port n
  if p.state == .starting && !inSearch s n && allOpen p.rx p.rxMask && (s.tdm.muted || allOpen p.tx p.txMask) then
    s.setPort n { p with state := .running }
  else s

/-- TDM_PORT_STOPPED: the frame boundary after the last gate has closed (R249). -/
def portStopped (n : Nat) (s : State) : State :=
  let p := s.port n
  if p.state == .stopping && allClosed p.rx p.rxMask && allClosed p.tx p.txMask then
    s.setPort n { p with
      state := .stopped, locked := false, goodRun := 0, errRun := 0, txHold := false
      commit := p.commit.map fun c => (c.1, c.2.1, MaskWhen.atStart) }
  else s

/-- ASRC_LOCK: the converter has locked to the timing port (R253). -/
def asrcLock (g : Nat) (s : State) : State :=
  let x := s.group g
  let ready := match timingPort s g with
    | none => false
    | some n => (s.port n).locked
  if x.foreign && !x.asrcLock && ready then
    let s1 := s.setGroup g { x with asrcLock := true, fadeLeft := 0 }
    (portsOf g).foldl (fun t n =>
      if (t.port n).locked then t.setPort n (t.port n).openGates else t) s1
  else s

/-- ASRC_RATE_MEASURE: one 10 ms measurement, signed ppb against nominal (R254). -/
def asrcMeasure (g : Nat) (ofs : Word) (s : State) : State :=
  let x := s.group g
  let bad := decide (100000 < (ofs.toInt - x.ofs.toInt).natAbs ∨ 1000000 < ofs.toInt.natAbs)
  let s1 := s.setGroup g { x with ofs := ofs }
  if x.foreign && bad then asrcUnlock g s1 else s1

/-- The words of a search entry: the fade of R240, then zeros. -/
def searchWords (p : Port) : List Word :=
  (bitsOf p.rxMask).map fun j =>
    if p.searchCount < 32 then scale (p.rxSlot j).last (2 ^ 30 - fadeInGain p.searchCount) else 0

/-- The entry that a slave in SEARCH writes for frame k (R240). -/
def searchEntry (k : Word) (s : State) (n : Nat) : State :=
  let p := s.port n
  let s1 := putEntry n k false true (decide (p.searchCount < 32 ∧ p.rxMask ≠ 0)) (searchWords p) s
  s1.setPort n { s1.port n with searchCount := min 32 (p.searchCount + 1) }

/-- The entry of a foreign port for the converter's output sample k (R242, R253, R254): locked, its words are free
(log 34). -/
def foreignEntry (k : Word) (s : State) (n : Nat) : State :=
  let p := s.port n
  let x := s.group (groupOfPort n)
  if x.asrcLock && p.locked then
    let js := bitsOf p.rxMask
    let (ws, s1) := drawN s js.length
    let q := passRx p (js.zip ws)
    tapRx n k (js.zip ws) (putEntry n k false false (anyGated p (js.zip ws)) (rxWords q) (s1.setPort n q))
  else
    let left := max x.fadeLeft (32 - p.searchCount)
    let ws := (bitsOf p.rxMask).map fun j =>
      if left = 0 then 0 else scale (p.rxSlot j).last (2 ^ 30 - fadeInGain (32 - left))
    let s1 := putEntry n k false false (decide (left ≠ 0 ∧ p.rxMask ≠ 0)) ws s
    s1.setPort n { s1.port n with searchCount := min 32 (p.searchCount + 1) }

/-- The entries that no frame brings: SEARCH ports, and foreign groups, at the edge that ends frame k (R240, R254). -/
def edgeEntries (k : Word) (s : State) : State :=
  let ns := (s.tdm.ports.map Prod.fst).filter fun n => (s.port n).state != .stopped
  let s1 := ns.foldl (fun t n =>
    if (t.group (groupOfPort n)).foreign then foreignEntry k t n
    else if inSearch t n then searchEntry k t n else t) s
  { s1 with tdm := { s1.tdm with
      groups := Store.mapAll Group.init s1.tdm.groups fun _ x => { x with fadeLeft := x.fadeLeft - 1 } } }

/-- The address and the mask of the entry of frame k of a port's ring; none where the entry is missing (R242, R243). -/
def ringEntryAt (s : State) (n : Nat) (k : Word) : Option (Nat × Word) :=
  let p := s.port n
  let a := p.ringBase + (k.toNat % p.depth) * entrySize p.ringSlots
  if p.ringSet && s.mem.tarnWord a == k then some (a, s.mem.tarnWord (a + 8)) else none

/-- The word of a slot in a ring entry; 0 for a slot that its mask leaves out (R242). -/
def ringWord (s : State) (a : Nat) (mask : Word) (j : Nat) : Word :=
  if mask.getLsbD j then s.mem.tarnWord (a + 16 + 4 * (bitsOf (mask &&& BitVec.ofNat 32 (2 ^ j - 1))).length) else 0

/-- Copy the entry of frame k of one port into the input image of wave w; a missing entry repeats (R11, R12, R243). -/
def ingressPort (w k : Word) (s : State) (n : Nat) : State :=
  let here := ringEntryAt s n k
  (List.range (s.port n).n).foldl (fun t j =>
    let x := match here with
      | none => getInput t (w - 1) (imgTdm n j)
      | some (a, mask) => ringWord t a mask j
    putInput t w (imgTdm n j) x) s

/-- The TDM part of the ingress stage for wave w (R11, R13). -/
def tdmIngress (w : Word) (s : State) : State :=
  ((s.tdm.ports.filter fun e => e.2.ringSet).map Prod.fst).foldl (ingressPort w (w - 2)) s

/-- A transmit slot is bound in the live bank (R237, R243). -/
def txBound (s : State) (n j : Nat) : Bool :=
  ((s.rdg.liveParts).getD []).any fun p => p.bindings.any fun b =>
    b.kind == 1 && b.unit == n && decide (b.first ≤ j ∧ j < b.first + b.count)

/-- A gate on a frame that repeats: a fade keeps its wave index (R247). -/
def Gate.skip : Gate → Gate
  | .fadeIn i => .fadeIn (min 32 (i + 1))
  | .fadeOut i => .fadeOut (min 32 (i + 1))
  | g => g

/-- One transmit slot at the output guard: `x` is the wave's sample, none where the outputs repeat (R72, R237, R245,
R247, R248, R457). -/
def guardSlot (muted par : Bool) (w : Nat) (x : Option Word) (t : Slot) : Slot :=
  match x with
  | none => { t with gate := t.gate.skip }
  | some v =>
    let waits := muted && match t.gate with
      | .fadeOut _ => false
      | _ => true
    if waits then { t with prev := some v, last := 0 }
    else
      let u := t.pass v
      { u with last := if par then t.last else slotBits w u.last }

/-- Show the words that a port sends in its next frame to the taps on its transmit side (R363). -/
def tapTx (n : Nat) (s : State) : State :=
  let p := s.port n
  if p.state == .stopped then s
  else (bitsOf p.txMask).foldl (fun t j => tapFeed 1 n j (s.mcnt + 1) (some (p.txSlot j).last) t) s

/-- One port at the output guard: `image` gives the samples, or none where the outputs repeat; `par` marks the slots whose
FIFO parity check fails. -/
def guardPort (image : Option (Nat → Word)) (par : Word) (s : State) (n : Nat) : State :=
  let p := s.port n
  let g := s.group (groupOfPort n)
  if p.state == .stopped then s
  else if s.lkt.failSilent then
    s.setPort n { p with tx := Store.updAll Slot.init p.tx (bitsOf p.txMask) fun t => { t with last := 0 } }
  else if p.txHold then
    s.setPort n { p with
      txHold := false
      tx := if image.isSome then p.tx else Store.updAll Slot.init p.tx (bitsOf p.txMask) fun t => { t with gate := t.gate.skip } }
  else if inSearch s n then
    s.setPort n { p with tx := Store.updAll Slot.init p.tx (bitsOf p.txMask) fun t => { t with last := 0 } }
  else if g.foreign && !g.asrcLock then
    s.setPort n { p with tx := Store.updAll Slot.init p.tx (bitsOf p.txMask) fun t =>
      { t with last := if g.fadeLeft = 0 then 0 else scale (t.prev.getD 0) (2 ^ 30 - fadeInGain (32 - g.fadeLeft)) } }
  else
    let js := bitsOf p.txMask
    let tx := js.foldl (fun st j => Store.upd Slot.init st j
      (guardSlot s.tdm.muted (par.getLsbD j) p.w
        (image.map fun f => if txBound s n j then f (imgTdm n j) else 0))) p.tx
    let bad := popcount (par &&& p.txMask)
    let s1 := s.setPort n { p with tx := tx, parErr := satAdd p.parErr bad }
    if bad = 0 then s1 else reportFault (0x098 + groupOfPort n) (BitVec.ofNat 16 n) s1

/-- The samples of the output image, which every transmit slot has, enabled or not (R248); the fade of an unlocked converter
keeps the words that it began from (R254). -/
def noteTx (image : Option (Nat → Word)) (n : Nat) (s : State) : State :=
  match image with
  | none => s
  | some f =>
    let p := s.port n
    let g := s.group (groupOfPort n)
    if g.foreign && !g.asrcLock && g.fadeLeft != 0 then s
    else s.setPort n { p with tx := (List.range p.n).foldl (fun st j => Store.upd Slot.init st j fun t =>
      { t with prev := some (if txBound s n j then f (imgTdm n j) else 0) }) p.tx }

/-- The TDM part of the output guard (R62, R237). -/
def tdmGuard (image : Option (Nat → Word)) (parity : List (Nat × Word)) (s : State) : State :=
  (s.tdm.ports.map Prod.fst).foldl
    (fun t n => tapTx n (noteTx image n (guardPort image (((parity.find? fun x => x.1 == n).map Prod.snd).getD 0) t n))) s

/-- A change of media rate stops every port at once (R250). -/
def tdmRateChange (s : State) : State :=
  { s with tdm := { s.tdm with
      ports := Store.mapAll Port.init s.tdm.ports fun _ p =>
        { p.shutGates with state := .stopped, locked := false, goodRun := 0, errRun := 0, txHold := false
                           commit := p.commit.map fun c => (c.1, c.2.1, MaskWhen.atStart) }
      groups := Store.mapAll Group.init s.tdm.groups fun _ x => { x with asrcLock := false, fadeLeft := 0 } } }

end Sys2Proof.Machine
end

