-- ==== Sys2Proof/Machine/Pair.lean ====
section
/-! DEFINITION. The node pair and the Noril link (R375 to R403): states, epochs, heartbeats, WAVE frames, shared channels
and mirror-class frames. -/

namespace Sys2Proof.Machine

def NodeSt.code : NodeSt → Nat
  | .unpaired => 0 | .claiming => 1 | .observer => 2 | .standby => 3 | .active => 4 | .failSilent => 5

/-- This node wins a tie (R378): PREFERRED, else the lower station address. A peer whose address has not been heard
leaves the tie open (log 44). -/
def winsTie (s : State) : Bool × State :=
  let r := s.red
  if r.preferred then (true, s)
  else if r.peerPreferred then (false, s)
  else match r.peerStation with
    | some a => (decide (s.own.station.toNat < a.toNat), s)
    | none =>
      let (w, s1) := draw s
      (w.getLsbD 0, s1)

/-- Become ACTIVE with an epoch (R378, R379, R390). -/
def toActive (epoch : Word) (s : State) : State :=
  { s with red := { s.red with
      state := .active, epoch := epoch, epochCurrent := true, lostTie := false, noTakeover := false, twoActive := false
      join := .idle, peerJoined := false, adoption := none, recorded := [], handover := none
      nrl := { s.red.nrl with snapshot := false } } }

/-- Claim ACTIVE with an epoch (R378): mirror boundaries are counted from here (R390). -/
def claim (epoch : Word) (s : State) : State :=
  toActive epoch { s with red := { s.red with mirrorNo := 0, mirrorFrom := s.mcnt } }

/-- Begin a join, or begin it again (R391). -/
def startJoin (s : State) : State :=
  let r := s.red
  let again := match r.join with
    | .asked => true
    | .adopting _ _ => true
    | _ => false
  { s with red := { r with
      join := .asked, nrl := { r.nrl with snapshot := true, joinRestart := if again then r.nrl.joinRestart + 1 else r.nrl.joinRestart } } }

/-- Become OBSERVER and request a join (R378, R391). -/
def toObserver (s : State) : State := startJoin { s with red := { s.red with state := .observer, lostTie := false } }

/-- A heartbeat destination address must be multicast; all zero stands for the default (R385, R402). -/
def hbAddrOk (a : BitVec 48) : Bool := a == 0 || a.getLsbD 40

/-- The parameter checks of RED_SET_PAIR (R375, R378, R385, R402). -/
def redPairOk (s : State) (c : RedSetPair) : Bool :=
  decide (c.node.toNat ≤ 1 ∧ c.preferred.toNat ≤ 1 ∧ c.ports.toNat ≤ 15 ∧ 100 ≤ c.claim.toNat ∧ c.claim.toNat ≤ 10000)
    && hbAddrOk c.addr && !c.vlan.getLsbD 12 && (s.netPort (c.ports.toNat % 4)).domain == 0
    && (s.netPort (c.ports.toNat / 4)).domain == 1

/-- RED_SET_PAIR (R375, R378, R402). -/
def redSetPair (c : RedSetPair) (s : State) : State × Reply :=
  if !redPairOk s c then (s, Reply.code .badParam)
  else if s.rdg.busyForRate then (s, Reply.code .busy)
  else
    let r := s.red
    let st : NodeSt := if r.state = .failSilent then .failSilent else if c.pair = 0 then .unpaired else .claiming
    ({ s with red := { r with
        pairId := c.pair, nodeId := c.node.toNat, preferred := c.preferred.toNat = 1, hbA := c.ports.toNat % 4
        hbB := c.ports.toNat / 4, etherType := if c.etherType = 0 then 0x88B5 else c.etherType, claimMs := c.claim.toNat
        hbAddr := c.addr, hbVlan := c.vlan, state := st, epochCurrent := false, lostTie := false, heardEpoch := 0
        heard := false, lastHseq := none, nrlOk := false, netOk := false, twoActive := false, noTakeover := false
        handover := none, join := .idle, peerJoined := false, adoption := none, recorded := [], missing := none } }, Reply.ok [])

/-- The entries of RED_SET_SHARED. -/
def sharedOk (e : SharedEntry) : Bool := decide (e.node.toNat ≤ 1 ∧ e.port.toNat ≤ 63 ∧ e.slot.toNat ≤ 31)

/-- RED_SET_SHARED (R384, R402). -/
def redSetShared (first : Half) (es : List SharedEntry) (s : State) : State × Reply :=
  if es.length < 1 ∨ 480 < es.length ∨ !(es.all sharedOk) then (s, Reply.code .badParam)
  else if sharedLimit s.pst.rate < first.toNat + es.length then (s, Reply.code .noResource)
  else ({ s with red := { s.red with shared := Store.putAll none s.red.shared first.toNat (es.map some) } }, Reply.ok [])

/-- A commit, a bulk arm or a snapshot is pending (R399). -/
def handoverBusy (s : State) : Bool := s.rdg.commit.isSome || !s.mtx.arms.isEmpty || s.red.nrl.snapshot

/-- RED_HANDOVER (R378, R399, R402). -/
def redHandover (h : Word) (s : State) : State × Reply :=
  let w := if h = 0 then s.mcnt + 8 else h
  if ahead s w < 8 ∨ s.red.state ≠ .active ∨ s.red.peerState ≠ 3 then (s, Reply.code .badParam)
  else if handoverBusy s then (s, Reply.code .busy)
  else ({ s with red := { s.red with handover := some w } }, Reply.ok (le32 w))

/-- RED_FORCE_ACTIVE (R378, R399, R402). -/
def redForceActive (confirm : Word) (s : State) : State × Reply :=
  if confirm ≠ s.red.epoch ∨ !(s.red.state == .observer || s.red.state == .claiming) then (s, Reply.code .badParam)
  else if s.red.nrlOk || s.red.netOk then (s, Reply.code .busy)
  else
    let e : Word := BitVec.ofNat 32 (1 + max s.red.epoch.toNat s.red.heardEpoch.toNat)
    (claim e s, Reply.ok (le32 e))

/-- RED_RESYNC (R391, R396, R402). -/
def redResync (s : State) : State × Reply :=
  match s.red.state with
  | .standby => (startJoin (leaveStep 7 s), Reply.ok [])
  | .observer => (startJoin s, Reply.ok [])
  | _ => (s, Reply.ok [])

/-- CLAIM_WINDOW_EXPIRY (R378). -/
def claimExpiry (s : State) : State :=
  if s.red.state ≠ .claiming then s
  else if !s.red.heard then claim 1 s
  else
    let (win, s1) := winsTie s
    if win then claim 1 s1 else { s1 with red := { s1.red with lostTie := true } }

/-- Bytes 0x00 to 0x1F of a heartbeat (R385). -/
def hbBytes (h : Heartbeat) : List Byte :=
  [h.version, h.node] ++ beBytes 2 h.pair.toNat ++ [h.state, h.hflags, 0, 0] ++ beBytes 4 h.epoch.toNat ++ beBytes 4 h.hseq.toNat
    ++ beBytes 4 h.mcnt.toNat ++ beBytes 4 h.generation.toNat ++ beBytes 4 h.matchRun.toNat ++ [0, 0, 0, 0]

/-- This node's heartbeat (R385). -/
def ownHeartbeat (s : State) : Heartbeat :=
  let r := s.red
  { version := 1, node := BitVec.ofNat 8 (r.nodeId + 2 * r.preferred.toNat), pair := r.pairId
    state := BitVec.ofNat 8 r.state.code, hflags := BitVec.ofNat 8 (r.epochCurrent.toNat + 2 * r.nrlOk.toNat + 4 * r.heard.toNat)
    epoch := r.epoch, hseq := r.hseq, mcnt := s.mcnt, generation := s.rdg.generation, matchRun := r.matchRun, tag := 0
    source := s.own.station }

/-- The Ethernet frame of a heartbeat (R385). -/
def hbFrame (s : State) (h : Heartbeat) : List Byte :=
  let r := s.red
  let body := hbBytes h
  beBytes 6 (hbAddrOf r) ++ beBytes 6 s.own.station.toNat
    ++ (if r.hbVlan.toNat % 4096 = 0 then [] else [0x81, 0x00] ++ beBytes 2 r.hbVlan.toNat)
    ++ beBytes 2 r.etherType.toNat ++ body ++ beBytes 16 (pairTag s body).toNat

/-- HEARTBEAT_SEND (R385). -/
def heartbeatSend (s : State) : State :=
  if !paired s then s
  else
    let bytes := hbFrame s (ownHeartbeat s)
    let f : QFrame := { bytes := bytes, ingress := 6, cls := .heartbeat, stamp := none, tsDesc := none }
    let s1 := { s with red := { s.red with hseq := s.red.hseq + 1 } }
    (enqueue s.red.hbB f (enqueue s.red.hbA f s1).1).1

/-- A heartbeat is valid (R386). -/
def hbValid (s : State) (path : HbPath) (h : Heartbeat) : Bool :=
  h.pair == s.red.pairId && h.node.getLsbD 0 != (s.red.nodeId == 1)
    && (path == .noril || h.tag == pairTag s (hbBytes h))
    && (h.epoch == 0 || match s.red.lastHseq with
      | none => true
      | some l => decide (0 < serialDiff h.hseq l))

/-- Take a valid heartbeat's news of the peer (R386, R387, R395). -/
def hearPeer (path : HbPath) (h : Heartbeat) (s : State) : State :=
  let r := s.red
  let net := path == .network
  { s with red := { r with
      nrlOk := r.nrlOk || !net, netOk := r.netOk || net, heard := true, noTakeover := false
      peerState := h.state.toNat % 8, peerEpoch := h.epoch, peerPreferred := h.node.getLsbD 1, peerGeneration := h.generation
      peerStation := if net then some h.source else r.peerStation, lastHseq := some h.hseq
      heardEpoch := if r.heardEpoch.toNat < h.epoch.toNat then h.epoch else r.heardEpoch
      missing := if net then r.missing.map fun _ => true else r.missing
      twoActive := r.state == .active && h.state.toNat == 4 } }

/-- An ACTIVE node that hears a stronger ACTIVE peer gives way (R378, R379). -/
def demote (s : State) : State :=
  let s1 := { s with red := { s.red with epochCurrent := false, twoActive := false, leaveCause := 5, handover := none } }
  reportOwn 0x0E3 (toObserver s1)

/-- HEARTBEAT_RECEIVED (R378, R386). -/
def heartbeatReceived (path : HbPath) (h : Heartbeat) (s : State) : State :=
  if !paired s then s
  else if !hbValid s path h then { s with red := { s.red with nrl := { s.red.nrl with hbBad := s.red.nrl.hbBad + 1 } } }
  else
    let s1 := hearPeer path h s
    match s1.red.state with
    | .claiming => if h.epoch = 0 then s1 else toObserver s1
    | .active =>
      if h.state.toNat ≠ 4 then s1
      else if s1.red.epoch.toNat < h.epoch.toNat then demote s1
      else if h.epoch = s1.red.epoch then
        let (win, s2) := winsTie s1
        if win then s2 else demote s2
      else s1
    | _ => s1

/-- The peer has failed (R378, R387, R399). -/
def peerFailed (s : State) : State :=
  let r := s.red
  let promote := reportOwn 0x0E0 (toActive (r.epoch + 1) { s with red := { r with failover := r.failover + 1, lastFailover := s.mcnt } })
  let stuck := reportOwn 0x0E2 { s with red := { r with noTakeover := true } }
  match r.state with
  | .standby => promote
  | .observer => if r.epochCurrent then promote else stuck
  | .claiming => if r.lostTie then stuck else s
  | .active => reportOwn 0x0E0 { s with red := { r with twoActive := false, handover := none, peerJoined := false } }
  | _ => s

/-- SILENCE_TIMEOUT of one path (R387, R396). -/
def silenceTimeout (path : HbPath) (s : State) : State :=
  let r := s.red
  if !paired s || !(if path = .noril then r.nrlOk else r.netOk) then s
  else
    let s1 := { s with red := { r with nrlOk := r.nrlOk && path != .noril, netOk := r.netOk && path != .network } }
    if !(s1.red.nrlOk || s1.red.netOk) then peerFailed s1
    else if path = .noril then leaveStep 2 (reportOwn 0x0E1 s1)
    else reportOwn 0x0E7 s1

/-- NORIL_LINK_UP (R380, R391). -/
def norilUp (s : State) : State :=
  let s1 := { s with red := { s.red with nrl := { s.red.nrl with up := true } } }
  match s1.red.state with
  | .standby => startJoin (leaveStep 3 s1)
  | .observer => startJoin s1
  | _ => s1

/-- NORIL_LINK_DOWN (R380). -/
def norilDown (s : State) : State := { s with red := { s.red with nrl := { s.red.nrl with up := false } } }

/-- The shared channels in ascending index. -/
def sharedList (s : State) : List (Nat × SharedEntry) := s.red.shared.filterMap fun e => e.2.map fun x => (e.1, x)

/-- A shared channel is wired to this node (R384); a lone node carries all of its own identity. -/
def isOwnShared (s : State) (e : SharedEntry) : Bool := e.node.toNat == s.red.nodeId

/-- The word of a shared channel of this node in TDM frame `k`, or of a foreign group in converter output `k` (R383, R384);
`x` where the frame is missing. -/
def sharedWord (s : State) (k : Word) (x : Word) (e : SharedEntry) : Word :=
  let j := e.slot.toNat
  match ringEntryAt s e.port.toNat k with
  | none => x
  | some (a, mask) => ringWord s a mask j

/-- NORIL_WAVE_SEND (R383): only an ACTIVE node fills in the packets closed by the wave before. -/
def waveSend (s : State) : State :=
  if !paired s || !s.red.nrl.up then s
  else
    let p := s.mcnt
    let own := (sharedList s).filter fun e => isOwnShared s e.2
    let crcs := if s.red.state = .active then ((s.red.ownCrcs.find? fun e => e.1 == p - 1).map Prod.snd).getD [] else []
    let f : WaveFrame := { p := p, state := BitVec.ofNat 8 s.red.state.code, shared := own.map fun e => sharedWord s (p - 1) (getInput s (p + 1) (imgShared e.1)) e.2
                           closing := crcs.map fun x => (BitVec.ofNat 8 x.1, x.2), latency := 0 }
    { s with red := { s.red with nrl := { s.red.nrl with sentWave := some f } } }

/-- Compare this node's CRCs with the active's for one closing wave (R393). -/
def compareCrcs (c : Word) (peer : List (Nat × Word)) (r : Red) : Red :=
  peer.foldl (fun q x => match crcOf q.ownCrcs c x.1 with
    | some (some y) => if y = x.2 then { q with matchRun := q.matchRun + 1 } else { q with matchRun := 0, mismatch := q.mismatch + 1 }
    | _ => q) r

/-- The early contexts of this node that closed at a wave. -/
def earlyClosed (s : State) (c : Word) : List (Nat × Word) :=
  (((s.red.ownCrcs.find? fun e => e.1 == c).map Prod.snd).getD []).filter fun x =>
    ((Store.look TxCtx.init s.stm.tx x.1).cfg.map fun k => k.launch.toNat == 1) == some true

/-- What an early packet already sent brings about when its CRC is unequal or does not come (R395). -/
def judgeEarly (c : Word) (s : State) : State :=
  if s.red.state ≠ .standby then s
  else (earlyClosed s c).foldl (fun t x =>
    let count (u : State) : State := { u with red := { u.red with unverified := u.red.unverified + 1 } }
    match crcOf t.red.peerCrcs c x.1 with
    | some (some y) => if y = x.2 then t else leaveStep 1 (count t)
    | some none => leaveStep 1 (count t)
    | none => if t.red.missing = some true then leaveStep 2 (count t) else count t) s

/-- NORIL_WAVE_RECEIVED (R383, R393, R396). -/
def waveReceived (f : WaveFrame) (s : State) : State :=
  if !paired s || !s.red.nrl.up then s
  else
    let r := s.red
    let skew := f.p != s.mcnt
    let c := f.p - 1
    let crcs := f.closing.map fun x => (x.1.toNat, x.2)
    let r1 := { r with
      nrl := { r.nrl with waveLat := f.latency }, waveSeen := some f.p, missing := none
      sharedIn := ((f.p, f.shared) :: r.sharedIn).take 4, skewFree := if skew then 0 else r.skewFree + 1
      peerCrcs := if f.state.toNat = 4 then ((c, crcs) :: r.peerCrcs).take 8 else r.peerCrcs }
    let judged := f.state.toNat = 4 ∧ (r.state = .observer ∨ r.state = .standby)
    let s1 := { s with red := if judged then compareCrcs c crcs r1 else r1 }
    let s2 := if judged then judgeEarly c s1 else s1
    if skew then leaveStep 4 (reportOwn 0x0E4 s2) else s2

/-- NORIL_WAVE_MISSING (R383, R395): the frame of the present period. -/
def waveMissing (s : State) : State :=
  if !paired s then s
  else
    let r := s.red
    judgeEarly (s.mcnt - 1) { s with red := { r with
      missing := some (r.missing.getD false), nrl := { r.nrl with waveMiss := r.nrl.waveMiss + 1 } } }

/-- Missing periods before a shared channel fades (R384). -/
def holdLimit (rate : Nat) : Nat := if rate ≤ 1 then 12 else if rate ≤ 3 then 24 else 48

def State.sharedCh (s : State) (i : Nat) : SharedCh := Store.look SharedCh.init s.red.sharedCh i

def State.setSharedCh (s : State) (i : Nat) (x : SharedCh) : State :=
  { s with red := { s.red with sharedCh := Store.put SharedCh.init s.red.sharedCh i x } }

/-- SHARED_CHANNEL_FADE (R384): the hold limit has been reached. -/
def sharedFade (i : Nat) (s : State) : State :=
  let x := s.sharedCh i
  if x.gate = .isOpen ∧ holdLimit s.pst.rate ≤ x.missing then s.setSharedCh i { x with gate := .fadeOut 0 } else s

/-- One period of a shared channel of the peer (R384): its sample, or none where the frame is missing. -/
def SharedCh.next (x : SharedCh) (sample : Option Word) : SharedCh × Word :=
  match sample with
  | some v =>
    let g : Gate := match x.gate with
      | .fadeOut i => .fadeIn (31 - min i 31)
      | .closed => .fadeIn 0
      | g => g
    let r := g.pass v x.last
    let g2 : Gate := match r.2 with
      | .fadeIn 32 => .isOpen
      | g => g
    ({ last := v, missing := 0, gate := g2 }, r.1)
  | none =>
    let r := x.gate.pass x.last x.last
    let g2 : Gate := match r.2 with
      | .fadeOut 32 => .closed
      | .fadeIn i => .fadeOut (31 - min i 31)
      | g => g
    ({ x with missing := x.missing + 1, gate := g2 }, r.1)

/-- Put one shared channel into the input image of wave `w` (R383, R384). -/
def putShared (w : Word) (peer : Option (List Word)) (s : State) (e : Nat × SharedEntry) : State :=
  if isOwnShared s e.2 then putInput s w (imgShared e.1) (sharedWord s (w - 3) (getInput s (w - 1) (imgShared e.1)) e.2)
  else
    let k := (((sharedList s).filter fun x => !isOwnShared s x.2).map Prod.fst).idxOf e.1
    let (x, v) := (s.sharedCh e.1).next (peer.bind fun ws => ws[k]?)
    putInput (s.setSharedCh e.1 x) w (imgShared e.1) v

/-- The shared channels at sample edge q, which fills wave q + 1: WAVE frame q − 1 of the peer, and this node's own TDM frame
q − 2, which WAVE frame q − 1 carried (R19, R383, R384). -/
def sharedEdge (q : Word) (s : State) : State :=
  let peer := (s.red.sharedIn.find? fun e => e.1 == q - 1).map Prod.snd
  (sharedList s).foldl (putShared (q + 1) peer) s

/-- The handover wave (R378). -/
def handoverEdge (s : State) : State :=
  match s.red.handover with
  | some h =>
    if serialDiff s.mcnt h < 0 then s
    else match s.red.state with
      | .standby => toActive (s.red.epoch + 1) s
      | .active => { s with red := { s.red with
          state := .standby, epoch := s.red.epoch + 1, handover := none, join := .complete, peerJoined := false } }
      | _ => { s with red := { s.red with handover := none } }
  | none => s

/-- An OBSERVER that meets R394 becomes STANDBY with the active's epoch. -/
def inStepEdge (s : State) : State :=
  let r := s.red
  if r.state = .observer ∧ 4096 ≤ r.matchRun.toNat ∧ r.join = .complete ∧ s.rdg.generation = r.peerGeneration ∧ r.nrlOk
      ∧ 4096 ≤ r.skewFree then
    { s with red := { r with state := .standby, epoch := r.peerEpoch, epochCurrent := true } }
  else s

/-- Move waiting mirror-class frames into the window of 1024 unacknowledged ones (R382). -/
def Nrl.pump (n : Nrl) : Nrl :=
  let k := 1024 - n.unacked.length
  if n.up then { n with unacked := n.unacked ++ n.waiting.take k, waiting := n.waiting.drop k } else n

/-- The segments of an item: at most 256 bytes each (R382). -/
def segments : Nat → List Byte → List (List Byte)
  | 0, _ => []
  | fuel + 1, bs => if bs.length ≤ 256 then [bs] else bs.take 256 :: segments fuel (bs.drop 256)

/-- Give an item to the mirror class as segments (R381, R382). -/
def sendMirror (kind : Byte) (bs : List Byte) (s : State) : State :=
  let segs := segments (bs.length / 256 + 1) bs
  let n := s.red.nrl
  let fs := (segs.zip (List.range segs.length)).map fun e =>
    ({ kind := kind, flags := BitVec.ofNat 8 ((if e.2 = 0 then 1 else 0) + (if e.2 + 1 = segs.length then 2 else 0))
       seq := n.txSeq + BitVec.ofNat 32 e.2, payload := e.1 } : NrlFrame)
  { s with red := { s.red with nrl := { n with waiting := n.waiting ++ fs, txSeq := n.txSeq + BitVec.ofNat 32 segs.length }.pump } }

/-- The mirror period in waves (R390). -/
def mirrorPeriod (rate : Nat) : Nat := if rate ≤ 1 then 48 else if rate ≤ 3 then 96 else 192

/-- The active's peer takes mirror traffic (R388). -/
def peerFollows (s : State) : Bool :=
  s.red.state == .active && (s.red.peerState == 3 || (s.red.peerState == 2 && s.red.peerJoined)) && (s.red.nrlOk || s.red.netOk)

/-- Write the mirror period number into an outbox's header (R390; its place in the header is log 45's). -/
def headBox (n : Word) (s : State) (r : Region) : State := { s with mem := s.mem.writeTarn r.base (le32 n ++ List.replicate 12 0) }

/-- The half of a box that the parity of a number selects (R390). -/
def boxHalf (r : Region) (odd : Bool) : Nat × Nat := (r.base + (if odd then r.size / 2 else 0), r.size / 2)

/-- MIRROR_PERIOD_BOUNDARY (R390): periods are numbered from the wave that boundaries are counted from (log 45). -/
def mirrorBoundary (s : State) : State :=
  let d := serialDiff s.mcnt s.red.mirrorFrom
  let pm := mirrorPeriod s.pst.rate
  if d < 0 ∨ d.toNat % pm ≠ 0 then s
  else
    let n : Word := BitVec.ofNat 32 (d.toNat / pm)
    let boxes := s.own.regions.filter fun r => r.use == .mirrorOutbox
    let s1 := boxes.foldl (headBox n) { s with red := { s.red with mirrorNo := n } }
    if !peerFollows s1 then s1
    else
      let halves := boxes.map fun r => boxHalf r (!n.getLsbD 0)
      let total := (halves.map Prod.snd).sum
      let s2 := halves.foldl (fun (a : State × Nat) h =>
        let len := min h.2 (262144 - a.2)
        (sendMirror 4 (a.1.mem.readTarn h.1 len) a.1, a.2 + len)) (s1, 0) |>.1
      if 262144 < total then reportOwn 0x0E9 s2 else s2

/-- A mirror-class frame has arrived (R382). -/
def tookFrame (s : State) : State :=
  { s with red := { s.red with nrl := { s.red.nrl with rxSeq := s.red.nrl.rxSeq + 1, sinceAck := s.red.nrl.sinceAck + 1 } } }

/-- MIRROR_REC_RECEIVED (R390): the record lands in the inbox and is compared with this node's outbox. -/
def mirrorRec (m : MirrorRec) (s : State) : State :=
  if !paired s || !s.red.nrl.up then s
  else
    let s1 := tookFrame s
    match regionOf s1 .mirrorInbox m.part.val, regionOf s1 .mirrorOutbox m.part.val with
    | some i, some o =>
      if i.size < m.offset.toNat + m.bytes.length then s1
      else
        let own := s1.mem.readTarn (o.base + m.offset.toNat) m.bytes.length
        let s2 := { s1 with mem := s1.mem.writeTarn (i.base + m.offset.toNat) m.bytes }
        if own = m.bytes then s2 else { s2 with red := { s2.red with stateDiff := s2.red.stateDiff + 1 } }
    | _, _ => s1

/-- NORIL_ACK_SEND (R382). -/
def ackSend (s : State) : State := { s with red := { s.red with nrl := { s.red.nrl with sinceAck := 0 } } }

/-- NORIL_ACK_RECEIVED (R382): every frame up to the acknowledged one is released. -/
def ackReceived (seq : Word) (s : State) : State :=
  let n := s.red.nrl
  { s with red := { s.red with nrl := { n with unacked := n.unacked.filter fun f => decide (0 < serialDiff f.seq seq) }.pump } }

/-- NORIL_RETRANSMIT (R382). -/
def norilRetransmit (s : State) : State :=
  let n := s.red.nrl
  { s with red := { s.red with nrl := { n with retx := n.retx + BitVec.ofNat 32 n.unacked.length } } }

/-- A frame whose CRC fails (R381). -/
def norilCrcBad (s : State) : State :=
  { s with red := { s.red with nrl := { s.red.nrl with crcErr := s.red.nrl.crcErr + 1 } } }

/-- JOIN_RECEIVED (R391): the active starts a snapshot, or starts it again. -/
def joinReceived (s : State) : State :=
  if s.red.state ≠ .active ∨ !paired s then s
  else
    let n := s.red.nrl
    { s with red := { s.red with
        peerJoined := false, recorded := [], adoption := none
        nrl := { n with snapshot := true, joinRestart := if n.snapshot then n.joinRestart + 1 else n.joinRestart } } }

/-- The bytes of a forwarded command as a mirror item (R388; log 45). -/
def mirrorBytes (m : MirrorCmd) : List Byte := [BitVec.ofNat 8 m.part.val] ++ le16 m.opcode ++ m.payload

/-- Send a command to the peer, behind the data that it takes from memory (R388). -/
def sendCommand (m : MirrorCmd) (s : State) : State :=
  sendMirror 3 (mirrorBytes m) (if m.data.isEmpty then s else sendMirror 3 m.data s)

/-- Forward an accepted command to the peer (R388), or record it during a snapshot (R391). -/
def forward (m : MirrorCmd) (s : State) : State :=
  if s.red.nrl.snapshot && s.red.state == .active then
    let kept : List MirrorCmd := s.red.recorded ++ [m]
    let size : Nat := (kept.map fun x => x.payload.length + x.data.length).sum
    if 4194304 < size then
      { s with red := { s.red with recorded := [], nrl := { s.red.nrl with joinRestart := s.red.nrl.joinRestart + 1 } } }
    else { s with red := { s.red with recorded := kept } }
  else if peerFollows s then sendCommand m s
  else s

/-- SNAPSHOT_COMPLETE (R391): the active names the adoption wave and sends the recorded commands; the observer takes the
snapshot for that wave. -/
def snapshotComplete (wave : Word) (snap : Snapshot) (s : State) : State :=
  let w := if ahead s wave < 8 then s.mcnt + 8 else wave
  match s.red.state, s.red.join with
  | .active, _ =>
    if !s.red.nrl.snapshot then s
    else
      let rs := s.red.recorded
      let s1 := { s with red := { s.red with
        nrl := { s.red.nrl with snapshot := false }, peerJoined := true, adoption := some w, recorded := [], mirrorFrom := w } }
      rs.foldl (fun t m => sendCommand m t) s1
  | .observer, .asked =>
    { s with red := { s.red with
        join := .adopting w snap, nrl := { s.red.nrl with snapshot := false }, recorded := [], mirrorFrom := w } }
  | _, _ => s

/-- SAD_NODE_STAT (R400). -/
def sadNodeStat (s : State) : Word :=
  let r := s.red
  fieldAt 0 r.state.code ||| fieldAt 3 r.nodeId ||| bitAt 4 r.preferred ||| bitAt 5 r.epochCurrent ||| bitAt 6 (r.nrlOk || r.netOk)
    ||| bitAt 7 r.nrlOk ||| bitAt 8 r.netOk ||| bitAt 9 (r.join == .complete) ||| bitAt 10 r.twoActive ||| fieldAt 12 r.leaveCause
    ||| fieldAt 16 r.peerState

/-- NRL_STAT (R401). -/
def nrlStat (s : State) : Word := bitAt 0 s.red.nrl.up ||| bitAt 1 s.red.nrl.snapshot

/-- Mirror-class bytes waiting to be sent (R401). -/
def nrlBacklog (s : State) : Nat := (s.red.nrl.waiting.map fun f => f.payload.length).sum

/-- A read of the pair registers, 0x6800 to 0x68FF, the SAD_CTX_ words apart (R400, R401). -/
def redRead (s : State) (a : Nat) : Word :=
  let r := s.red
  match a with
  | 0x6800 => sadNodeStat s
  | 0x6804 => r.epoch
  | 0x6808 => r.peerEpoch
  | 0x680C => r.matchRun
  | 0x6810 => r.mismatch
  | 0x6814 => r.withheld
  | 0x6818 => r.unverified
  | 0x681C => r.failover
  | 0x6820 => r.lastFailover
  | 0x6824 => r.stateDiff
  | 0x6880 => nrlStat s
  | 0x6884 => r.nrl.crcErr
  | 0x6888 => r.nrl.waveMiss
  | 0x688C => r.nrl.retx
  | 0x6890 => r.nrl.hbBad
  | 0x6894 => BitVec.ofNat 32 (nrlBacklog s)
  | 0x6898 => r.nrl.waveLat
  | 0x689C => r.nrl.joinRestart
  | _ => 0

/-- RED_GET_STATUS (R402; log 29). -/
def redGetStatus (s : State) : State × Reply :=
  (s, Reply.ok ([0x6800, 0x6804, 0x6808, 0x680C, 0x6810, 0x6814, 0x6818, 0x681C, 0x6820, 0x6824, 0x6880].flatMap fun a => le32 (redRead s a)))

/-- A rate change that the pair carries out (R399). -/
def redRateChange (s : State) : State := leaveStep 3 { s with red := { s.red with matchRun := 0 } }

end Sys2Proof.Machine
end

