-- ==== Sys2Proof/Machine/Polestar.lean ====
section
/-! DEFINITION. Polestar's own operations (R27 to R59), as functions of its state: selection, slewing, holdover, and what
a sample edge does to it. A pair's second part lists the fault sources to report (R59). -/

namespace Sys2Proof.Machine

/-- Phase units in a nanosecond: the unit is 1/28,224,000 ns, in which one Ts and one edge's slew are whole at every
media rate. -/
def slewUnit : Nat := 28224000

/-- One Ts in phase units. -/
def tsUnits (fs : Nat) : Nat := 1000000000 * (slewUnit / fs)

/-- Reference `i` of Polestar. -/
def Pst.ref (p : Pst) (i : Nat) : RefSt := p.refs.getD i (RefSt.init 0)

def Pst.setRef (p : Pst) (i : Nat) (r : RefSt) : Pst := { p with refs := p.refs.set i r }

/-- SLEWING: the residual being slewed is not zero (R44, R53). -/
def Pst.slewing (p : Pst) : Bool := decide (p.resid ≠ 0)

/-- A reference that may be selected: enabled and qualified (R36, R39). -/
def RefSt.usable (r : RefSt) : Bool := r.cfg.enable && r.qualified

/-- The rank in force: the manual reference ranks ahead of every other (R39). -/
def Pst.rankOf (p : Pst) (i : Nat) : Nat :=
  if p.mode = .manual ∧ p.manref = i then 0 else (p.ref i).cfg.rank

/-- The usable references, in index order. -/
def Pst.usable (p : Pst) : List Nat := (List.range 6).filter fun i => (p.ref i).usable

/-- The key of a pair of references. -/
def pairKey (i j : Nat) : Nat := 6 * min i j + max i j

/-- The pair disagrees (R43). -/
def Pst.pairDisagrees (p : Pst) (i j : Nat) : Bool := (Store.look none p.pairs (pairKey i j)).isSome

/-- The pairs of references, lower index first. -/
def refPairs : List (Nat × Nat) :=
  (List.range 6).flatMap fun i => ((List.range 6).filter fun j => i < j).map fun j => (i, j)

/-- A pair is measured while both references are usable and share a configured rank (R43). -/
def Pst.pairMeasured (p : Pst) (i j : Nat) : Bool :=
  (p.ref i).usable && (p.ref j).usable && (p.ref i).cfg.rank == (p.ref j).cfg.rank

/-- A pair that is no longer measured stops disagreeing at once (R43). -/
def Pst.prunePairs (p : Pst) : Pst :=
  let kept := refPairs.foldl
    (fun st ij => if p.pairMeasured ij.1 ij.2 then st else Store.put none st (pairKey ij.1 ij.2) none) p.pairs
  { p with pairs := kept }

/-- DISAGREE of a reference (R43, R54). -/
def Pst.disagree (p : Pst) (i : Nat) : Bool := (List.range 6).any fun j => i ≠ j && p.pairDisagrees i j

/-- RANK_DISAGREE (R43, R53). -/
def Pst.rankDisagree (p : Pst) : Bool := !p.pairs.isEmpty

/-- Of the references of a list, the one that comes first under a measure. -/
def leastBy (f : Nat → Nat) : List Nat → Option Nat
  | [] => none
  | i :: is => match leastBy f is with
    | none => some i
    | some j => if f i ≤ f j then some i else some j

/-- The choice among usable references of the best rank (R39, R43). -/
def Pst.choose (p : Pst) (among : List Nat) : Option Nat :=
  match leastBy p.rankOf among with
  | none => none
  | some b =>
    let set := among.filter fun i => p.rankOf i = p.rankOf b
    if set.contains p.selref then some p.selref
    else if set.all fun i => set.all fun j => i = j || !p.pairDisagrees i j then leastBy id set
    else match p.hoEstimate with
      | none => leastBy id set
      | some h => leastBy (fun i => ((p.ref i).fofs.toInt - h).natAbs) set

/-- A reference strictly better than the selected one (R41). -/
def Pst.better (p : Pst) (i : Nat) : Bool :=
  (p.ref i).usable && decide (p.selref < 6) && decide (p.rankOf i < p.rankOf p.selref)

/-- Start the wait-to-restore of a better reference that has none, and end that of one no longer better (R41). -/
def Pst.updateWtr (p : Pst) (now : Nat) : Pst :=
  { p with refs := p.refs.mapIdx fun i r =>
      if p.state = .locked ∧ p.revertive ∧ p.better i then
        if r.wtrRun ∨ r.wtrDone then r else { r with wtrRun := true, wtrSince := now }
      else { r with wtrRun := false, wtrDone := false } }

/-- The mean of recorded words, its rounding free (R50, R51; log 21). -/
def meanOf (xs : List Int) : Int := rounded xs.sum xs.length

/-- The native estimate: the mean of the last W entries, or of those that exist (R50, R51). -/
def Pst.nativeEstimate (p : Pst) : Option Int :=
  let xs := (p.hist.take p.hoW.toNat).map (·.2)
  if xs.isEmpty then none else some (meanOf xs)

/-- The holdover frequency at entry (R51). -/
def Pst.holdoverFreq (p : Pst) (now : Nat) : Int :=
  let native := p.nativeEstimate.getD p.fofs
  if p.hoMethod then
    let g := p.hoG.toNat * 1000000
    let wc := p.hoWc.toNat * 1000000
    let old := p.hist.filter fun e => g ≤ now - e.1
    let xs := old.filter fun e => now - e.1 ≤ g + wc
    if old.isEmpty then native else if xs.isEmpty then native else meanOf (xs.map (·.2))
  else native

/-- The frequency the loop, the trim or the holdover asks for, before any slew (R33, R40, R49, R51). -/
def Pst.baseFreq (p : Pst) : Int :=
  match p.state with
  | .locked => p.loopWord
  | .holdover => p.hoFreq
  | _ => p.trim

/-- The rate of the slew in progress, ppt: the slew limit, or the rate of a SLEW realignment (R44, R46). -/
def Pst.slewRate (p : Pst) : Int :=
  match p.realign with
  | .slew r => r * 10000
  | _ => p.slewLimit.toNat * 10000

/-- The limit of the output frequency offset, ppt (R33). -/
def pullLimitPpt : Int := 200000000

/-- What the loop, the slew and the trim ask for together (R33, R44): whether a slew runs above or below is free (log 23). -/
def Pst.asked (p : Pst) : Int :=
  if p.resid = 0 then p.baseFreq
  else if Config.slewRaises p.resid p.stepLeft then p.baseFreq + p.slewRate
  else p.baseFreq - p.slewRate

/-- The output frequency offset in effect (R33). -/
def Pst.output (p : Pst) : Int := clampInt (-pullLimitPpt) pullLimitPpt p.asked

/-- Set FOFS and PULL_LIMIT from what is asked (R33); the fault is reported as the flag is set (R59). -/
def Pst.refreshFreq (p : Pst) : Pst × List Nat :=
  let clamped := decide (p.output ≠ p.asked)
  ({ p with fofs := p.output, pullLimit := clamped }, if clamped && !p.pullLimit then [0x02B] else [])

/-- The time by which the edge positions of reference `i` repeat, in units (R38): the shorter of Ts and the period of a word
clock or DARS; Ts / 5 in five-frame formats of VREF; Ts for another VREF format and for PPS. -/
def phasePeriod (rate i : Nat) (c : RefCfg) : Nat :=
  let ts := tsUnits (rateHz rate)
  if i = 2 ∨ i = 3 then min ts (tsUnits (rateHz c.nominal.toNat))
  else if i = 4 ∧ (c.form = 1 ∨ c.form = 3 ∨ c.form = 8 ∨ c.form = 11 ∨ c.form = 14) then ts / 5
  else ts

/-- A phase in units, taken modulo the period of the edge positions for a reference other than PTP (R38). -/
def reducePhase (rate i : Nat) (c : RefCfg) (u : Int) : Int :=
  if i < 2 then u
  else
    let m : Int := (phasePeriod rate i c : Nat)
    let r := u.fmod m
    if 2 * r > m then r - m else r

/-- The residual that reference `i` would give if selected (R38, R44). -/
def Pst.refPhase (p : Pst) (i : Nat) : Int := reducePhase p.rate i (p.ref i).cfg (p.ref i).phase

/-- Move the output phase by `d` units: every reference's position comes nearer by as much. -/
def Pst.movePhase (p : Pst) (d : Int) : Pst :=
  { p with refs := p.refs.map fun r => { r with phase := r.phase - d } }

/-- Polestar leaves its reference: PHASE_HELD and a realignment end (R45). -/
def Pst.leaveRef (p : Pst) : Pst :=
  { p with held := 0, phaseHeld := false
           realign := .idle }

/-- HOLDOVER ends (R52). -/
def Pst.endHoldover (p : Pst) (now : Nat) : Pst :=
  if p.state = .holdover then { p with outOfSpec := false, hoElapsedBase := (now - p.hoSince) / 1000000 } else p

/-- Switch onto reference `i`: measure the residual and slew it, or hold it above the slew window (R44, R45). -/
def Pst.switchTo (p : Pst) (now : Nat) (i : Nat) (count : Bool) : Pst × List Nat :=
  let p1 := (p.endHoldover now).leaveRef
  let r := p1.refPhase i
  let far := decide ((p1.slewWindow.toNat * slewUnit : Nat) < r.natAbs)
  let p2 := { p1 with
    state := .locked, selref := i, secDirty := true, loopWord := (p1.ref i).fofs.toInt
    resid := if far then 0 else r, stepLeft := 0, held := if far then r else 0, phaseHeld := far
    switchCnt := if count then p1.switchCnt + 1 else p1.switchCnt }
  (p2.updateWtr now, (if count then [0x026] else []) ++ (if far then [0x02A] else []))

/-- Enter FREERUN (R40): from LOCKED or HOLDOVER the trim takes the present output offset. -/
def Pst.toFreerun (p : Pst) (now : Nat) : Pst :=
  let p1 := (p.endHoldover now).leaveRef
  let p2 := if p.state = .acquire then { p1 with mcnt := 0, firstEdge := true } else { p1 with trim := p.fofs }
  { p2 with state := .freerun, selref := 7 }.updateWtr now

/-- Enter HOLDOVER (R40, R51). -/
def Pst.toHoldover (p : Pst) (now : Nat) : Pst × List Nat :=
  let f := p.holdoverFreq now
  let p1 := p.leaveRef
  ({ p1 with state := .holdover, selref := 7, hoRef := p.selref, hoFreq := f, hoSince := now, hoNative := !p.hoMethod
             holdoverCnt := p.holdoverCnt + 1 }.updateWtr now, [0x027])

/-- MCNT at the next sample edge under a PTP reference: the least n with Φ + n / Fs at or after the PTP time (R28). -/
def Pst.ptpIndex (p : Pst) : Word :=
  let t : Int := (p.ptpSec.toNat * 1000000000 * slewUnit + p.ptpFrac : Nat)
  let x := t - p.phaseOfs * slewUnit
  BitVec.ofInt 32 (-((-x).fdiv (tsUnits (rateHz p.rate))))

/-- Lock in ACQUIRE: phase and frequency set directly, MCNT under R29, sample edges begin (R40). -/
def Pst.acquireLock (p : Pst) (now i : Nat) : Pst :=
  { p.movePhase (p.refPhase i) with
    state := .locked, selref := i, resid := 0, stepLeft := 0, held := 0, phaseHeld := false, secDirty := false
    loopWord := (p.ref i).fofs.toInt, mcnt := if i < 2 then p.ptpIndex else 0, firstEdge := true }.updateWtr now

/-- Judge the state table of R40 once. -/
def Pst.evaluate (p : Pst) (now : Nat) : Pst × List Nat :=
  match p.state with
  | .acquire =>
    if p.mode = .none then (p.toFreerun now, [])
    else match p.choose p.usable with
      | some i => (p.acquireLock now i, [])
      | none => (p, [])
  | .freerun | .holdover =>
    if p.mode = .none then (if p.state = .holdover then p.toFreerun now else p, [])
    else match p.choose p.usable with
      | some i => p.switchTo now i false
      | none => (p, [])
  | .locked =>
    if p.mode = .none then (p.toFreerun now, [])
    else if (p.ref p.selref).usable then
      let p1 := p.updateWtr now
      if p1.revertive && !p1.slewing then
        match p1.choose (p1.usable.filter fun i => (p1.ref i).wtrDone && p1.better i) with
        | some i => p1.switchTo now i true
        | none => (p1, [])
      else (p1, [])
    else match p.choose p.usable with
      | some i => p.switchTo now i true
      | none => p.toHoldover now

/-- Judge R40 and bring FOFS and PULL_LIMIT up to date. -/
def Pst.settle (p : Pst) (now : Nat) : Pst × List Nat :=
  let (p1, f1) := p.prunePairs.evaluate now
  let (p2, f2) := p1.refreshFreq
  (p2, f1 ++ f2)

/-- Store a measurement of reference `i` (R32, R38). -/
def Pst.measure (p : Pst) (i : Nat) (m : RefMeas) : Pst :=
  let r := p.ref i
  p.setRef i { r with fofs := m.fofs, phase := m.phase.toInt * (slewUnit / 4 : Nat) }

/-- The frequency lies in the capture range (R36). -/
def Pst.inCapture (p : Pst) (m : RefMeas) : Bool := decide (m.fofs.toInt.natAbs ≤ p.capture.toNat)

/-- A reference starts to meet its validity conditions (R36, R37). -/
def Pst.refValid (p : Pst) (now i : Nat) (m : RefMeas) : Pst :=
  let r := p.ref i
  if !r.cfg.enable || r.valid then p
  else if p.inCapture m then
    (p.setRef i { r with present := true, valid := true, validSince := now }).measure i m
  else (p.setRef i { r with present := true }).measure i m

/-- A reference's qualification time expires (R37, R40). -/
def Pst.refQualified (p : Pst) (now i : Nat) (m : RefMeas) (sec : BitVec 48) (ns : Word) : Pst × List Nat :=
  let r := p.ref i
  if !r.cfg.enable || !r.valid || r.qualified then (p, [])
  else
    let p1 := (p.setRef i { r with qualified := true, qualSince := now }).measure i m
    let p2 := if p1.state = .acquire ∧ i < 2 ∧ p1.mode ≠ .none then
        { p1 with ptpSec := sec, ptpFrac := ns.toNat * slewUnit } else p1
    p2.settle now

/-- A reference is lost (R36, R59). -/
def Pst.refLost (p : Pst) (now i : Nat) (present : Bool) : Pst × List Nat :=
  let r := p.ref i
  if !r.valid then (p.setRef i { r with present := present }, [])
  else
    let p1 := p.setRef i { r with present := present, valid := false, qualified := false, wtrRun := false, wtrDone := false }
    let p2 := if p.selref = i then { p1 with secDirty := true } else p1
    let (p3, f) := p2.settle now
    (p3, (0x020 + i) :: f)

/-- A better reference's wait-to-restore expires (R41, R42). -/
def Pst.wtrExpiry (p : Pst) (now i : Nat) : Pst × List Nat :=
  let r := p.ref i
  if !r.wtrRun then (p, [])
  else (p.setRef i { r with wtrRun := false, wtrDone := true }).settle now

/-- A slew or a realignment's slew is complete (R44, R45, R47). -/
def Pst.slewDone (p : Pst) : Pst :=
  match p.realign with
  | .slew _ => { p with resid := 0, stepLeft := 0, realign := .idle, phaseHeld := false }
  | .sub => { p with resid := 0, stepLeft := 0, realign := .idle, phaseHeld := false }
  | _ => { p with resid := 0, stepLeft := 0 }

/-- The residual reaches zero (R42, R44). -/
def Pst.slewComplete (p : Pst) (now : Nat) : Pst × List Nat :=
  if p.state = .acquire then (p, []) else ((p.movePhase p.resid).slewDone).settle now

/-- The units by which one Ts of the present slew moves the output phase (R33, R44). -/
def Pst.slewStep (p : Pst) : Int :=
  let rate := (p.output - p.baseFreq).natAbs
  let u := rate * (slewUnit / rateHz p.rate) / 1000
  p.resid.sign * min u p.resid.natAbs

/-- The part of a phase movement `d` that belongs to phase steps, which move the edges and not the counter (R325). -/
def Pst.stepShare (p : Pst) (d : Int) : Int :=
  if 0 < d * p.stepLeft then d.sign * min d.natAbs p.stepLeft.natAbs else 0

/-- Advance the slew by one Ts (R44). -/
def Pst.slewEdge (p : Pst) : Pst :=
  if p.resid = 0 then p
  else
    let d := p.slewStep
    let p1 : Pst := { (p.movePhase d) with resid := p.resid - d, stepLeft := p.stepLeft - p.stepShare d, secDirty := true }
    if p1.resid = 0 then p1.slewDone else p1

/-- The MCNT of the next sample edge, and a STEP's effect at its step edge (R27, R29, R46). -/
def Pst.nextMcnt (p : Pst) : Pst :=
  if p.firstEdge then { p with firstEdge := false }
  else match p.realign with
    | .step m d =>
      if p.mcnt + 1 = m then
        { p.movePhase (d * tsUnits (rateHz p.rate)) with
                 mcnt := m + BitVec.ofInt 32 d, realign := .sub, held := 0
                 resid := p.resid + p.held - d * tsUnits (rateHz p.rate) }
      else { p with mcnt := p.mcnt + 1 }
    | _ => { p with mcnt := p.mcnt + 1 }

/-- The edge is the step edge of a STEP realignment (R46). -/
def Pst.isStepEdge (p : Pst) : Bool :=
  match p.realign with
  | .step m _ => !p.firstEdge && decide (p.mcnt + 1 = m)
  | _ => false

/-- Move the PTP time counter by signed phase units (R27, R325). -/
def Pst.addPtp (p : Pst) (d : Int) : Pst :=
  let secU : Int := (1000000000 * slewUnit : Nat)
  let t : Int := p.ptpSec.toNat * secU + p.ptpFrac + d
  { p with ptpSec := BitVec.ofInt 48 (t.fdiv secU), ptpFrac := (t.fmod secU).toNat }

/-- The whole nanoseconds of the PTP time counter. -/
def Pst.ptpNs (p : Pst) : Word := BitVec.ofNat 32 (p.ptpFrac / slewUnit)

/-- The elapsed seconds of the present or last holdover (R52, R55). -/
def Pst.hoElapsed (p : Pst) (now : Nat) : Nat :=
  if p.state = .holdover then (now - p.hoSince) / 1000000 else p.hoElapsedBase

/-- Native holdover reaches its specification window (R52). -/
def Pst.specExpiry (p : Pst) : Pst × List Nat :=
  if p.state = .holdover ∧ p.hoNative ∧ !p.outOfSpec then ({ p with outOfSpec := true }, [0x028]) else (p, [])

/-- Record one second's mean control word (R50). -/
def Pst.historySecond (p : Pst) (now : Nat) (w : Int) : Pst :=
  if p.state ≠ .locked then p
  else
    let bad := p.secDirty || p.slewing || !(p.ref p.selref).valid
    let p1 := { p with loopWord := w, secDirty := false
                       hist := if bad then p.hist else ((now, w) :: p.hist).take 256 }
    { p1 with hoEstimate := p1.nativeEstimate }

/-- One pair at the end of a 1 s window (R43). -/
def Pst.judgePair (p : Pst) (i j : Nat) : Option Nat :=
  if !p.pairMeasured i j then none
  else if ((p.ref i).fofs.toInt - (p.ref j).fofs.toInt).natAbs > p.disagreeTh.toNat then some 0
  else match Store.look none p.pairs (pairKey i j) with
    | none => none
    | some n => if n + 1 < 10 then some (n + 1) else none

/-- A 1 s window ends: measurements of the six references, and the pairs judged (R43). -/
def Pst.disagreeWindow (p : Pst) (ms : List RefMeas) : Pst × List Nat :=
  let p1 := (List.range 6).foldl (fun q i => match ms[i]? with
    | some m => q.measure i m
    | none => q) p
  let judged := refPairs.foldl
    (fun st ij => Store.put none st (pairKey ij.1 ij.2) (p1.judgePair ij.1 ij.2)) p1.pairs
  let p2 := { p1 with pairs := judged }
  (p2, if p2.rankDisagree && !p.rankDisagree then [0x029] else [])

/-- A media rate belongs to the 44.1 kHz family (R35). -/
def family441 (code : Nat) : Bool := code == 0 || code == 2

/-- A reference's form and frequency suit a media rate (R35). -/
def refSuits (i nominal rate : Nat) : Bool :=
  if i = 2 ∨ i = 3 then family441 nominal == family441 rate
  else if i = 4 then !family441 rate
  else true

/-- The form and nominal codes that R57 gives for an index. -/
def refCodesOk (i form nominal : Nat) : Bool :=
  if i = 2 ∨ i = 3 then decide (form ≤ 1 ∧ nominal ≤ 4)
  else if i = 4 then decide (form ≤ 15 ∧ nominal = 0)
  else decide (form = 0 ∧ nominal = 0)

/-- The bandwidth range of an index, mHz (R32). -/
def bandwidthOk (i bw : Nat) : Bool :=
  if i < 2 then decide (10 ≤ bw ∧ bw ≤ 1000)
  else if i = 5 then decide (1 ≤ bw ∧ bw ≤ 100)
  else decide (100 ≤ bw ∧ bw ≤ 100000)

/-- The parameter checks of CLK_REF_CONFIG (R32, R35, R36, R37, R57). -/
def refConfigOk (c : ClkRefConfig) (rate : Nat) : Bool :=
  let i := c.index.toNat
  decide (i ≤ 5 ∧ c.enable.toNat ≤ 1 ∧ 1 ≤ c.rank.toNat ∧ c.rank.toNat ≤ 6)
    && refCodesOk i c.form.toNat c.nominal.toNat && bandwidthOk i c.bandwidth.toNat
    && decide (c.qualTime.toNat ≤ 6000 ∧ c.startQual.toNat ≤ 10000)
    && (decide (2 ≤ i) || decide (6 ≤ c.maxClass.toNat ∧ 100 ≤ c.offsetLimit.toNat ∧ c.offsetLimit.toNat ≤ 100000))
    && refSuits i c.nominal.toNat rate

/-- The stored form of a CLK_REF_CONFIG payload. -/
def clkCfgOf (c : ClkRefConfig) : RefCfg :=
  { enable := c.enable.toNat = 1, rank := c.rank.toNat, form := c.form, nominal := c.nominal, qualTime := c.qualTime
    startQual := c.startQual, bandwidth := c.bandwidth, maxClass := c.maxClass, offsetLimit := c.offsetLimit }

/-- Apply a reference configuration when it takes effect (R58). -/
def Pst.applyRefConfig (p : Pst) (now i : Nat) (c : RefCfg) : Pst × List Nat :=
  let r := p.ref i
  let changed := decide (r.cfg.form ≠ c.form ∨ r.cfg.nominal ≠ c.nominal)
  if changed || !c.enable then
    let p1 := p.setRef i { r with cfg := c, valid := false, qualified := false, wtrRun := false, wtrDone := false }
    let (p2, f) := p1.settle now
    (p2, (if r.valid then [0x020 + i] else []) ++ f)
  else (p.setRef i { r with cfg := c }).settle now

/-- A new rank takes effect when the command is processed (R58). -/
def Pst.applyRank (p : Pst) (now i rank : Nat) : Pst × List Nat :=
  let r := p.ref i
  (p.setRef i { r with cfg := { r.cfg with rank := rank } }).settle now

/-- Apply a selection (R39 to R41). -/
def Pst.applySelect (p : Pst) (now : Nat) (mode : SelMode) (man : Nat) (rev : Bool) : Pst × List Nat :=
  let p1 := { p with mode := mode, manref := man, revertive := rev }
  if p1.state = .locked ∧ mode = .manual ∧ man ≠ p1.selref ∧ (p1.ref man).usable then
    let (p2, f) := p1.switchTo now man true
    let (p3, g) := p2.refreshFreq
    (p3, f ++ g)
  else (p1.updateWtr now).settle now

/-- A timer that has already run past a new setting expires at once (R41). -/
def Pst.expireWtr (p : Pst) (now : Nat) : Pst :=
  { p with refs := p.refs.map fun r =>
      if r.wtrRun ∧ r.wtrSince + p.wtr.toNat * 1000000 ≤ now then { r with wtrRun := false, wtrDone := true } else r }

/-- Apply CLK_SET_TIMERS (R41, R58): a reference outside a new capture range becomes invalid (R36). -/
def Pst.applyTimers (p : Pst) (now : Nat) (t : ClkSetTimers) : Pst × List Nat :=
  let p1 := { p with wtr := t.wtr, slewLimit := t.slewLimit, slewWindow := t.slewWindow, disagreeTh := t.disagree
                     capture := t.capture, acquireWin := t.acquire }
  let out := (List.range 6).filter fun i =>
    (p1.ref i).valid && decide (t.capture.toNat < (p1.ref i).fofs.toInt.natAbs)
  let p2 := out.foldl (fun q i =>
    let r := q.ref i
    q.setRef i { r with valid := false, qualified := false, wtrRun := false, wtrDone := false }) p1
  let (p3, f) := (p2.expireWtr now).settle now
  (p3, out.map (0x020 + ·) ++ f)

/-- Apply CLK_SET_HOLDOVER (R51, R52). -/
def Pst.applyHoldover (p : Pst) (now : Nat) (h : ClkSetHoldover) : Pst × List Nat :=
  let p1 := { p with hoMethod := h.method.toNat = 1, oscClass := h.oscClass.toNat, specWindow := h.specWindow
                     hoW := h.w, hoWc := h.wc, hoG := h.g }
  if p1.state = .holdover ∧ p1.hoNative ∧ h.specWindow.toNat ≤ p1.hoElapsed now then p1.specExpiry else (p1, [])

/-- Apply a phase step (R48). -/
def Pst.applyPhaseStep (p : Pst) (ns : Int) : Pst × List Nat :=
  let u := ns * slewUnit
  let moved := p.refs.map fun r => { r with phase := r.phase + u }
  { p with phaseOfs := p.phaseOfs + ns, resid := p.resid + u, stepLeft := p.stepLeft + u, refs := moved }.refreshFreq

/-- Begin an accepted realignment (R46). -/
def Pst.applyRealign (p : Pst) (r : Realign) : Pst × List Nat :=
  match r with
  | .slew rate =>
    if p.phaseHeld then ({ p with realign := .slew rate, resid := p.resid + p.held, held := 0 }).refreshFreq
    else ({ p with realign := .idle }, [])
  | other => ({ p with realign := other }, [])

/-- The whole-sample part D of the residual (R46). -/
def Pst.wholeSamples (p : Pst) : Int := (p.held + p.resid).fdiv (tsUnits (rateHz p.rate))

/-- The residual as PST_RESID shows it, in ns (R55). -/
def Pst.residNs (p : Pst) : Word := nsWord (p.held + p.resid) slewUnit

/-- The seconds left on the wait-to-restore of the best waiting reference (R55). -/
def Pst.wtrRemain (p : Pst) (now : Nat) : Nat :=
  match leastBy (fun i => p.rankOf i) ((List.range 6).filter fun i => (p.ref i).wtrRun) with
  | none => 0
  | some i => (((p.ref i).wtrSince + p.wtr.toNat * 1000000 - now) + 999999) / 1000000

/-- A flag for each reference, as a field at bit `n`. -/
def Pst.refBits (p : Pst) (n : Nat) (f : Nat → RefSt → Bool) : Word :=
  (List.range 6).foldl (fun w i => w ||| bitAt (n + i) (f i (p.ref i))) 0

def PstState.code : PstState → Nat
  | .acquire => 0 | .freerun => 1 | .locked => 2 | .holdover => 3

def SelMode.code : SelMode → Nat
  | .auto => 0 | .manual => 1 | .none => 2

/-- PST_STATE (R53). -/
def Pst.stateWord (p : Pst) : Word :=
  fieldAt 0 p.state.code ||| fieldAt 4 p.selref ||| fieldAt 8 p.mode.code ||| fieldAt 10 p.manref
    ||| bitAt 16 p.slewing ||| bitAt 17 p.phaseHeld ||| bitAt 18 p.outOfSpec ||| bitAt 19 p.rankDisagree
    ||| bitAt 20 p.pullLimit ||| bitAt 21 p.revertive ||| bitAt 22 p.hoMethod ||| fieldAt 24 p.rate
    ||| fieldAt 28 p.oscClass

/-- PST_REF_STAT (R54). -/
def Pst.refStat (p : Pst) : Word :=
  p.refBits 0 (fun _ r => r.present) ||| p.refBits 8 (fun _ r => r.qualified) ||| p.refBits 16 (fun _ r => r.wtrRun)
    ||| p.refBits 24 fun i _ => p.disagree i

/-- The low and high words of a signed 40-bit value (R55). -/
def lo40 (x : Int) : Word := BitVec.ofInt 32 x
def hi40 (x : Int) : Word := BitVec.ofInt 32 (x.fdiv (2 ^ 32))

/-- A read of the PST block, 0x5000 to 0x5073 (R53 to R55), from a requester's view. -/
def pstRead (s : State) (sh : Shadow) (a : Nat) : Word :=
  let p := s.pst
  if a = 0x5000 then p.stateWord
  else if a = 0x5004 then p.refStat
  else if a = 0x5008 then p.mcnt
  else if a = 0x500C then p.ptpNs
  else if a = 0x5010 then sh.ptpSec.setWidth 32
  else if a = 0x5014 then (sh.ptpSec >>> 32).setWidth 32
  else if a = 0x5018 then sh.mcntLatch
  else if a = 0x501C then lo40 p.fofs
  else if a = 0x5020 then hi40 p.fofs
  else if a = 0x5024 then lo40 (p.hoEstimate.getD 0)
  else if a = 0x5028 then (match p.hoEstimate with
    | none => 0x8000_0000#32
    | some h => hi40 h)
  else if a = 0x502C then p.residNs
  else if a = 0x5030 then BitVec.ofInt 32 p.phaseOfs
  else if a = 0x5034 then BitVec.ofNat 32 (p.hoElapsed s.time)
  else if a = 0x5038 then BitVec.ofNat 32 (p.wtrRemain s.time)
  else if a = 0x503C then p.switchCnt
  else if a = 0x5040 then p.holdoverCnt
  else if 0x5044 ≤ a ∧ a < 0x505C then (p.ref ((a - 0x5044) / 4)).fofs
  else if 0x505C ≤ a ∧ a < 0x5074 then nsWord (p.refPhase ((a - 0x505C) / 4)) slewUnit
  else 0

end Sys2Proof.Machine
end

