-- ==== Sys2Proof/Machine/Ptp.lean ====
section
/-! DEFINITION. The PTP instances, the alarms and the PPS capture (R315 to R336). Times are in quarter nanoseconds. The
message layouts and the best-master comparison are those of IEEE 1588-2019, which the spec names (log 35). -/

namespace Sys2Proof.Machine

def State.inst (s : State) (i : Nat) : PtpInst := if i = 0 then s.ptp.inst0 else s.ptp.inst1

def State.setInst (s : State) (i : Nat) (x : PtpInst) : State :=
  if i = 0 then { s with ptp := { s.ptp with inst0 := x } } else { s with ptp := { s.ptp with inst1 := x } }

/-- The clockIdentity of an instance: the EUI-64 of its port's station address (R287, R315). -/
def clockId (s : State) (i : Nat) : Nat :=
  let a := (s.own.station.toNat + 1 + i) % 2 ^ 48
  (a / 2 ^ 24) * 2 ^ 40 + 0xFFFE * 2 ^ 24 + a % 2 ^ 24

/-- A PTP reference is selected (R320, R326). -/
def ptpSelected (s : State) : Bool := s.pst.state == .locked && decide (s.pst.selref < 2)

/-- The instance may be MASTER (R320). -/
def mayMaster (s : State) (i : Nat) : Bool := (s.inst i).capable && !ptpSelected s && s.pst.state != .acquire

/-- The clockClass that a master advertises (R320): for a holdover after PTP the rule gives none (log 75). -/
def masterClass (s : State) (x : PtpInst) : Byte :=
  let k : Nat := match s.pst.state with
    | .locked => if s.pst.selref = 5 then 0 else 1
    | .holdover =>
      let out := s.pst.outOfSpec || (!s.pst.hoNative && decide (30 ≤ s.pst.hoElapsed s.time))
      if out then (if s.pst.hoRef = 5 then 4 else 6) else if s.pst.hoRef = 5 then 2 else 3
    | _ => 5
  if s.pst.state == .holdover && decide (s.pst.hoRef < 2) then Config.ptpHoldoverClass (s.pst.hoElapsed s.time)
  else x.classes.getD k 248

/-- The instance's own data set as an Announce carries it (R320). -/
def ownAnnounce (s : State) (i : Nat) : Announce :=
  let x := s.inst i
  let id := clockId s i
  { mac := s.own.station, ip := s.own.hostIp, domain := x.domain, source := BitVec.ofNat 80 (id * 65536 + 1), gmId := BitVec.ofNat 64 id, priority1 := x.priority1
    priority2 := x.priority2, clockClass := masterClass s x, accuracy := x.accuracy, variance := x.variance, steps := 0
    utcOfs := x.utcOfs, utcValid := x.utcFlag, leap61 := false, leap59 := false }

/-- The rank of a data set in the best-master comparison, least best. -/
def announceRank (a : Announce) : Nat :=
  [(a.priority1.toNat, 8), (a.clockClass.toNat, 8), (a.accuracy.toNat, 8), (a.variance.toNat, 16), (a.priority2.toNat, 8)
    , (a.gmId.toNat, 64), (a.steps.toNat, 16), (a.source.toNat, 80)].foldl (fun (acc : Nat) (e : Nat × Nat) => acc * 2 ^ e.2 + e.1) 0

/-- The best of the foreign masters heard (R318). -/
def bestMaster : List Announce → Option Announce
  | [] => none
  | a :: as => match bestMaster as with
    | none => some a
    | some b => if announceRank a ≤ announceRank b then some a else some b

/-- Report sources of Polestar after a change of its state. -/
def withPst (f : Pst → Pst × List Nat) (s : State) : State :=
  let (p, srcs) := f s.pst
  reportAll srcs { s with pst := p }

/-- The conditions of R36 for a PTP reference. -/
def ptpRefOk (s : State) (i : Nat) : Bool :=
  let x := s.inst i
  let c := (s.pst.ref i).cfg
  x.state == .slave && !x.jumpRefused && (match x.chosen with
    | none => false
    | some a => decide (a.clockClass.toNat ≤ c.maxClass.toNat))
    && (!(s.pst.state == .locked && s.pst.selref == i) || s.pst.slewing || s.pst.phaseHeld
      || decide (x.ofs.natAbs ≤ 4 * c.offsetLimit.toNat))

/-- A PTP reference that no longer meets R36 is lost. -/
def judgePtp (i : Nat) (s : State) : State :=
  if (s.pst.ref i).valid && !ptpRefOk s i then withPst (fun p => p.refLost s.time i true) s else s

/-- The instance follows a master: one that it did not follow before starts its measurements afresh (R318). -/
def PtpInst.follow (x : PtpInst) (a : Announce) : PtpInst :=
  let same := match x.chosen with
    | none => false
    | some b => b.source == a.source && b.gmId == a.gmId
  if same && (x.state == .slave || x.state == .uncalibrated) then { x with chosen := some a }
  else { x with chosen := some a, state := .uncalibrated, sync := none, request := none, rawOffsets := [], rawDelays := []
                measured := 0, granted := x.logDelay }

/-- The state decision (R318, R320). -/
def decidePtp (s : State) (i : Nat) : PtpInst :=
  let x := s.inst i
  let own := ownAnnounce s i
  if !x.enable then { x with state := .disabled, chosen := none }
  else match bestMaster x.foreign with
    | none =>
      if mayMaster s i then { x with state := .master, chosen := none } else { x with state := .listening, chosen := none }
    | some a =>
      if mayMaster s i && decide (announceRank own < announceRank a) then { x with state := .master, chosen := none }
      else if mayMaster s i && decide (own.clockClass.toNat < 128) then { x with state := .passive, chosen := some a }
      else x.follow a

/-- Take the state decision, and count a change of the selected grandmaster (R318). -/
def settlePtp (i : Nat) (s : State) : State :=
  let x := decidePtp s i
  let now := x.chosen.map Announce.gmId
  let changed := x.lastGm.isSome && now.isSome && x.lastGm != now
  let y := { x with lastGm := if now.isSome then now else x.lastGm, gmCnt := if changed then x.gmCnt + 1 else x.gmCnt }
  let s1 := s.setInst i y
  judgePtp i (if changed then reportOwn (0x0C6 + i) s1 else s1)

/-- ANNOUNCE_RECEIVED (R318). -/
def announceReceived (i : Nat) (a : Announce) (s : State) : State :=
  let x := s.inst i
  if !x.enable || a.domain != x.domain then s
  else settlePtp i (s.setInst i { x with foreign := (x.foreign.filter fun b => b.source != a.source) ++ [a] })

/-- ANNOUNCE_TIMEOUT (R36, R318): the chosen master falls silent. -/
def announceTimeout (i : Nat) (s : State) : State :=
  let x := s.inst i
  if !x.enable then s
  else
    let left := match x.chosen with
      | none => x.foreign
      | some a => x.foreign.filter fun b => b.source != a.source
    let s1 := settlePtp i (s.setInst i { x with foreign := left })
    withPst (fun p => p.refLost s.time i false) s1

/-- SYNC_TIMEOUT (R36). -/
def syncTimeout (i : Nat) (s : State) : State := withPst (fun p => p.refLost s.time i false) s

/-- The instance listens to a message of its master. -/
def fromMaster (x : PtpInst) (domain : Byte) (source : BitVec 80) : Bool :=
  x.enable && domain == x.domain && (x.state == .slave || x.state == .uncalibrated) && match x.chosen with
    | none => false
    | some a => a.source == source

/-- SYNC_RECEIVED (R317, R319, R321): times of this port carry its corrections. -/
def syncReceived (i : Nat) (m : SyncMsg) (s : State) : State :=
  let x := s.inst i
  if !fromMaster x m.domain m.source then s
  else
    let p := s.netPort i
    let t2 := corrected (quartersOf m.ingress) p.tsIn - rounded p.asym 250
    let t1 := quartersOf m.origin + m.correction.toInt
    let lost := match x.sync with
      | some w => w.t1.isNone
      | none => false
    s.setInst i { x with
      twoStepGm := m.twoStep, sync := some { seq := m.seq, t1 := if m.twoStep then none else some t1, t2 := t2 - (if m.twoStep then m.correction.toInt else 0) }
      syncCnt := if m.twoStep then x.syncCnt else x.syncCnt + 1
      syncLostCnt := if lost then x.syncLostCnt + 1 else x.syncLostCnt }

/-- FOLLOW_UP_RECEIVED (R317): paired with its Sync by sequenceId. -/
def followUp (i : Nat) (m : SyncMsg) (s : State) : State :=
  let x := s.inst i
  match x.sync with
  | some w =>
    if fromMaster x m.domain m.source && w.t1.isNone && w.seq == m.seq then
      s.setInst i { x with sync := some { w with t1 := some (quartersOf m.origin + m.correction.toInt) }, syncCnt := x.syncCnt + 1 }
    else s
  | none => s

/-- FOLLOW_UP_TIMEOUT (R317). -/
def followUpTimeout (i : Nat) (s : State) : State :=
  let x := s.inst i
  match x.sync with
  | some w => if w.t1.isNone then s.setInst i { x with sync := none, syncLostCnt := x.syncLostCnt + 1 } else s
  | none => s

/-- A PTP message: header and body (IEEE 1588-2019). -/
def ptpMessage (s : State) (i type flags seq control : Nat) (interval : Byte) (correction : Nat) (body : List Byte) : List Byte :=
  leBytes 1 type ++ [0x12#8] ++ beBytes 2 (34 + body.length) ++ [(s.inst i).domain, 0x00] ++ beBytes 2 flags ++ beBytes 8 correction
    ++ List.replicate 4 0 ++ beBytes 8 (clockId s i) ++ beBytes 2 1 ++ beBytes 2 seq ++ leBytes 1 control ++ [interval] ++ body

/-- A time as the 10 bytes of a PTP timestamp. -/
def ptpTime (q : Int) : List Byte :=
  beBytes 6 (BitVec.ofInt 48 (q.fdiv 4000000000)).toNat ++ beBytes 4 ((q.fmod 4000000000).toNat / 4)

/-- The multicast addresses of PTP over IPv4 (R316; log 35). -/
def ptpGroup : Nat × Nat := (0x01005E000181, 0xE0000181)

/-- The addresses of a Delay_Req (R316): its master's where the instance is set to unicast, else the multicast ones. -/
def delayReqTo (x : PtpInst) : Nat × Nat :=
  match x.unicast, x.chosen with
  | true, some a => (a.mac.toNat, a.ip.toNat)
  | _, _ => ptpGroup

/-- Send a message of an instance to a station and an IP address: it leaves its port as an express frame (R289, R316). -/
def sendPtp (i dport : Nat) (dst : Nat × Nat) (msg : List Byte) (s : State) : State :=
  let bytes := udpFrame dst.1 s.own.station.toNat 0 0 1 s.own.hostIp.toNat dst.2 dport dport msg
  let p := s.netPort i
  let s1 := s.setNetPort i { p with sent := bytes, txFrames := p.txFrames + 1, txBytes := p.txBytes + BitVec.ofNat 64 (wireLen bytes) }
  s1.setInst i { s1.inst i with sent := msg }

/-- DELAY_REQ_SEND (R317): `t` is the egress timestamp. -/
def delayReqSend (i : Nat) (t : Stamp) (s : State) : State :=
  let x := s.inst i
  if !x.enable || !(x.state == .slave || x.state == .uncalibrated) then s
  else
    let t3 := corrected (quartersOf t) (s.netPort i).tsOut
    sendPtp i 319 (delayReqTo x) (ptpMessage s i 1 0 x.nextSeq.toNat 1 0x7F 0 (List.replicate 10 0))
      (s.setInst i { x with request := some (x.nextSeq, t3), nextSeq := x.nextSeq + 1 })

/-- DELAY_RESP_TIMEOUT (R317). -/
def delayRespTimeout (i : Nat) (s : State) : State :=
  let x := s.inst i
  if x.request.isSome then s.setInst i { x with request := none, drespCnt := x.drespCnt + 1 } else s

/-- The offset that the step test predicts (R331): the last accepted one, this node's own movements since, and the drift
over the accepted offsets. -/
def predicted (x : PtpInst) (now : Nat) (moved : Int) : Option Int :=
  match x.accepted.head?, x.accepted.getLast? with
  | some a, some b =>
    let drift : Int := if b.time < a.time then
        rounded (((a.offset - a.moved) - (b.offset - b.moved)) * (now - a.time : Int)) (a.time - b.time) else 0
    some (a.offset + (moved - a.moved) + drift)
  | _, _ => none

/-- The node's own counter movements in quarter ns. -/
def movedQuarters (s : State) : Int := rounded (4 * s.ptp.moved) slewUnit

/-- The step test (R331): whether the filtered offset passes. -/
def stepOk (s : State) (x : PtpInst) : Bool :=
  match predicted x s.time (movedQuarters s) with
  | none => true
  | some p => decide ((x.ofs - p).natAbs ≤ 4 * x.jump)

/-- Pass a raw offset to Polestar as one phase sample (R319): a master that is ahead asks for a move forward, as the
example of R332 has it (log 41). -/
def phaseSample (i : Nat) (offset : Int) (s : State) : State :=
  let r := s.pst.ref i
  { s with pst := s.pst.setRef i { r with phase := -offset * (slewUnit / 4 : Nat) } }

/-- Accept the filtered offset (R331). -/
def acceptOffset (s : State) (x : PtpInst) : PtpInst :=
  { x with
    accepted := ({ time := s.time, offset := x.ofs, moved := movedQuarters s } :: x.accepted).take 8
    acceptedGm := x.chosen.map Announce.gmId, jumpRefused := false
    state := if 8 ≤ x.measured then .slave else x.state }

/-- The step test and what follows from it (R331, R332). -/
def judgeOffset (i : Nat) (raw : Int) (x : PtpInst) (s : State) : State :=
  let other := x.acceptedGm != x.chosen.map Announce.gmId
  if other && decide (x.measured < 8) then
    if x.jumpRefused then s.setInst i x else phaseSample i raw (s.setInst i x)
  else if stepOk s x then judgePtp i (phaseSample i raw (s.setInst i (acceptOffset s x)))
  else if x.jumpRefused then judgePtp i (s.setInst i { x with state := .uncalibrated })
  else
    let y := { x with jumpRefused := true, state := .uncalibrated, jumpCnt := x.jumpCnt + 1 }
    judgePtp i (reportOwn (0x0C4 + i) (s.setInst i y))

/-- DELAY_RESP_RECEIVED (R317, R319): the exchange completes. -/
def delayResp (i : Nat) (m : DelayResp) (s : State) : State :=
  let x := s.inst i
  match x.request, x.sync with
  | some (seq, t3), some w =>
    match w.t1 with
    | none => s
    | some t1 =>
      if !(fromMaster x m.domain m.source && seq == m.seq) then s
      else
        let t4 := quartersOf m.receive - m.correction.toInt
        let a := rounded (s.netPort i).asym 250
        let ms := w.t2 - t1
        let sm := t4 - t3 + a
        let raw := rounded (ms + sm) 2
        let granted := if m.logInterval.toInt < x.logDelay.toInt then x.logDelay else m.logInterval
        let y := { x with request := none, granted := granted }
        let out := !x.rawDelays.isEmpty && decide (4 * (x.outlier : Int) < raw - meanOf x.rawDelays)
        if out then s.setInst i { y with outlierCnt := y.outlierCnt + 1 }
        else
          let delays := (raw :: x.rawDelays).take 16
          let mpd := meanOf delays
          let offset := ms - mpd
          let offsets := (offset :: x.rawOffsets).take 8
          judgeOffset i offset { y with rawDelays := delays, mpd := mpd, rawOffsets := offsets, ofs := meanOf offsets
                                        measured := min 8 (y.measured + 1) } s
  | _, _ => s

/-- An instance that is MASTER and may be (R320). -/
def isMaster (s : State) (i : Nat) : Bool := (s.inst i).enable && (s.inst i).state == .master && mayMaster s i

/-- MASTER_SYNC_SEND (R320): one-step, its originTimestamp written as the frame leaves. -/
def masterSync (i : Nat) (t : Stamp) (s : State) : State :=
  let x := s.inst i
  if !isMaster s i then s
  else
    let q := corrected (quartersOf t) (s.netPort i).tsOut
    sendPtp i 319 ptpGroup (ptpMessage s i 0 0 x.masterSeq.toNat 0 x.logSync ((q.fmod 4).toNat * 16384) (ptpTime q))
      (s.setInst i { x with masterSeq := x.masterSeq + 1 })

/-- MASTER_ANNOUNCE_SEND (R320); an instance that may be master and hears no better one is MASTER from here. -/
def masterAnnounce (i : Nat) (s : State) : State :=
  let s0 := settlePtp i s
  let x := s0.inst i
  if !isMaster s0 i then s0
  else
    let a := ownAnnounce s0 i
    let flags := (if x.utcFlag then 4 else 0) + 8
    let body := List.replicate 10 0 ++ beBytes 2 x.utcOfs.toNat ++ [0x00, a.priority1, a.clockClass, a.accuracy]
      ++ beBytes 2 a.variance.toNat ++ [a.priority2] ++ beBytes 8 a.gmId.toNat ++ [0, 0] ++ [x.timeSource]
    sendPtp i 320 ptpGroup (ptpMessage s0 i 0xB flags x.masterSeq.toNat 5 x.logAnnounce 0 body)
      (s0.setInst i { x with masterSeq := x.masterSeq + 1 })

/-- MASTER_DELAY_REQ_RECEIVED (R320). -/
def masterDelayReq (i : Nat) (domain : Byte) (source : BitVec 80) (seq : Half) (correction : Long) (t : Stamp) (s : State) : State :=
  let x := s.inst i
  if !isMaster s i || domain != x.domain then s
  else
    let q := corrected (quartersOf t) (s.netPort i).tsIn
    let c : BitVec 64 := BitVec.ofInt 64 (correction.toInt * 16384 - q.fmod 4 * 16384)
    sendPtp i 320 ptpGroup (ptpMessage s i 9 0 seq.toNat 3 x.logDelay c.toNat (ptpTime q ++ beBytes 10 source.toNat)) s

/-- The parameter checks of PTP_SET_INSTANCE (R316, R319, R331, R335). -/
def ptpInstanceOk (c : PtpSetInstance) : Bool :=
  let within (b : Byte) (lo hi : Int) : Bool := decide (lo ≤ b.toInt ∧ b.toInt ≤ hi)
  decide (c.inst.toNat ≤ 1 ∧ c.enable.toNat ≤ 1 ∧ c.profile.toNat ≤ 1 ∧ c.domain.toNat ≤ 127 ∧ 2 ≤ c.timeout.toNat
    ∧ c.timeout.toNat ≤ 10 ∧ c.unicast.toNat ≤ 1 ∧ c.master.toNat ≤ 1 ∧ 100 ≤ c.jump.toNat ∧ c.jump.toNat ≤ 1000000000
    ∧ 100 ≤ c.outlier.toNat ∧ c.outlier.toNat ≤ 100000)
    && within c.logSync (-7) 1 && within c.logAnnounce (-3) 3 && within c.logDelay (-7) 5

/-- PTP_SET_INSTANCE (R316, R332, R335): the port goes to INITIALIZING, and its reference is lost. -/
def ptpSetInstance (c : PtpSetInstance) (s : State) : State × Reply :=
  if !ptpInstanceOk c then (s, Reply.code .badParam)
  else
    let i := c.inst.toNat
    let x := s.inst i
    let y := { x with
      enable := c.enable.toNat = 1, profile := c.profile.toNat, domain := c.domain, logSync := c.logSync
      logAnnounce := c.logAnnounce, logDelay := c.logDelay, timeout := c.timeout, unicast := c.unicast.toNat = 1
      capable := c.master.toNat = 1, jump := c.jump.toNat, outlier := c.outlier.toNat
      state := if c.enable.toNat = 1 then .initializing else .disabled, jumpRefused := false, foreign := [], chosen := none
      sync := none, request := none, rawOffsets := [], rawDelays := [], measured := 0, accepted := [], acceptedGm := none
      granted := c.logDelay }
    (withPst (fun p => p.refLost s.time i false) (s.setInst i y), Reply.ok [])

/-- A correction lies in the range of R321. -/
def psOk (w : Word) : Bool := decide (w.toInt.natAbs ≤ 100000)

/-- PTP_SET_PORT_TS (R321, R335). -/
def ptpSetPortTs (c : PtpSetPortTs) (s : State) : State × Reply :=
  if c.port.toNat ≤ 3 ∧ psOk c.ingress ∧ psOk c.egress ∧ psOk c.asym then
    let p := s.netPort c.port.toNat
    (s.setNetPort c.port.toNat { p with tsIn := c.ingress.toInt, tsOut := c.egress.toInt, asym := c.asym.toInt }, Reply.ok [])
  else (s, Reply.code .badParam)

/-- PTP_SET_MASTER (R320, R335): the fifth class stands for both of its row's cases (log 36). -/
def ptpSetMaster (c : PtpSetMaster) (s : State) : State × Reply :=
  if 1 < c.inst.toNat ∨ 1 < c.flags.toNat then (s, Reply.code .badParam)
  else
    let i := c.inst.toNat
    let x := s.inst i
    let y := { x with
      priority1 := c.priority1, priority2 := c.priority2, accuracy := c.accuracy, timeSource := c.timeSource
      variance := c.variance, classes := [c.class1, c.class2, c.class3, c.class4, c.class5, c.class6, c.class5]
      utcOfs := c.utcOfs, utcFlag := c.flags.getLsbD 0, state := if x.enable then .initializing else .disabled
      jumpRefused := false, foreign := [], chosen := none, sync := none, request := none, rawOffsets := [], rawDelays := []
      measured := 0, accepted := [], acceptedGm := none }
    (withPst (fun p => p.refLost s.time i false) (s.setInst i y), Reply.ok [])

/-- PTP_ACCEPT_JUMP (R332, R335). -/
def ptpAcceptJump (inst : Byte) (gm : Long) (s : State) : State × Reply :=
  let i := inst.toNat
  let x := s.inst i
  if 1 < i ∨ x.chosen.map Announce.gmId ≠ some gm then (s, Reply.code .badParam)
  else
    let y := { acceptOffset s { x with accepted := [] } with state := .slave, measured := 8 }
    let s1 := phaseSample i (x.rawOffsets.headD x.ofs) (s.setInst i y)
    let r := s1.pst.ref i
    let s2 := if r.cfg.enable && ptpRefOk s1 i then
        { s1 with pst := s1.pst.setRef i { r with present := true, valid := true, validSince := s.time } } else s1
    (s2, Reply.ok (le32 (nsWord x.ofs 4)))

/-- PTP_NOW32 (R328). -/
def now32 (s : State) : Word :=
  BitVec.ofNat 32 ((s.pst.ptpSec.toNat * 1000000000 + s.pst.ptpFrac / slewUnit) % 2 ^ 32)

/-- A bank is LIVE or PENDING (R29, R326). -/
def bankBusy (s : State) : Bool := s.rdg.busyForRate

/-- MCNT for a PTP seconds value (R326). -/
def mcntAt (s : State) (sec : BitVec 48) : Word := BitVec.ofNat 32 (sec.toNat * s.fs)

/-- PTP_SET_TIME (R326, R335). -/
def ptpSetTime (sec : Long) (s : State) : State × Reply :=
  if 2 ^ 48 ≤ sec.toNat then (s, Reply.code .badParam)
  else if ptpSelected s || bankBusy s then (s, Reply.code .busy)
  else ({ s with ptp := { s.ptp with setTime := some (sec.setWidth 48) } }, Reply.ok (le32 (mcntAt s (sec.setWidth 48))))

def State.alarm (s : State) (a : Nat) : Alarm := Store.look Alarm.init s.ptp.alarms a

def State.setAlarm (s : State) (a : Nat) (x : Alarm) : State :=
  { s with ptp := { s.ptp with alarms := Store.put Alarm.init s.ptp.alarms a x } }

/-- The clock of an alarm (R328). -/
def alarmNow (s : State) (ptp : Bool) : Word := if ptp then now32 s else s.mcnt

/-- PTP_SET_ALARM (R329, R330, R335). -/
def ptpSetAlarm (c : PtpSetAlarm) (s : State) : State × Reply :=
  let a := c.alarm.toNat
  let ptp := c.unit.toNat == 1
  let d := serialDiff c.target (alarmNow s ptp)
  if 7 < a ∨ 1 < c.unit.toNat ∨ d < 1 ∨ 2 ^ 31 ≤ c.period.toNat then (s, Reply.code .badParam)
  else (s.setAlarm a { s.alarm a with armed := true, ptp := ptp, target := c.target, period := c.period }, Reply.ok [])

/-- PTP_CANCEL_ALARM (R335). -/
def ptpCancelAlarm (alarm : Byte) (s : State) : State × Reply :=
  if 7 < alarm.toNat then (s, Reply.code .badParam)
  else (s.setAlarm alarm.toNat { s.alarm alarm.toNat with armed := false }, Reply.ok [])

/-- ALARM_FIRE (R328, R329). -/
def alarmFire (a : Nat) (s : State) : State :=
  let x := s.alarm a
  let d := serialDiff (alarmNow s x.ptp) x.target
  if !x.armed || decide (d < 0) then s
  else
    let owner := ownerOf s (.alarm a)
    let s1 := s.setPart owner { s.part owner with alarmEvent := true }
    if x.period = 0 then s1.setAlarm a { x with armed := false, fireMcnt := s.mcnt }
    else
      let k := d.toNat / x.period.toNat
      let s2 := s1.setAlarm a { x with target := x.target + BitVec.ofNat 32 ((k + 1) * x.period.toNat), fireMcnt := s.mcnt
                                       missed := x.missed + BitVec.ofNat 32 k }
      Nat.repeat (reportFault 0x0C8 (BitVec.ofNat 16 a)) k s2

/-- A rate change disarms every MCNT alarm (R330). -/
def disarmMcnt (s : State) : State :=
  { s with ptp := { s.ptp with
      alarms := Store.mapAll Alarm.init s.ptp.alarms fun _ x => if x.ptp then x else { x with armed := false } } }

/-- PPS_EDGE (R327): `after` is the time since the PTP counter last advanced in the model, ns. -/
def ppsEdge (after : Word) (s : State) : State :=
  let p := s.pst.addPtp (after.toNat * slewUnit : Nat)
  { s with ptp := { s.ptp with ppsNs := p.ptpNs, ppsSec := p.ptpSec } }

def PtpPort.code : PtpPort → Nat
  | .initializing => 1 | .faulty => 2 | .disabled => 3 | .listening => 4 | .preMaster => 5 | .master => 6 | .passive => 7
  | .uncalibrated => 8 | .slave => 9

/-- An instance as it shows itself: slave-only as soon as it may not be MASTER (R320). -/
def instShown (s : State) (i : Nat) : PtpInst :=
  let x := s.inst i
  if x.state == .master && !mayMaster s i then { x with state := .listening } else x

/-- PTP_ISTAT (R333). -/
def ptpIstat (x : PtpInst) : Word :=
  let a := x.chosen
  fieldAt 0 x.state.code ||| fieldAt 4 x.profile ||| bitAt 6 x.jumpRefused ||| bitAt 7 x.twoStepGm ||| bitAt 8 x.capable
    ||| bitAt 9 ((a.map Announce.utcValid).getD false) ||| bitAt 10 ((a.map Announce.leap61).getD false)
    ||| bitAt 11 ((a.map Announce.leap59).getD false) ||| fieldAt 16 x.domain.toNat
    ||| fieldAt 24 ((a.map fun b => b.clockClass.toNat).getD 255)

/-- The grandmasterIdentity shown. -/
def PtpInst.gmShown (x : PtpInst) : Long := (x.chosen.map Announce.gmId).getD 0

/-- A word of an instance's block, by offset (R333, R334). -/
def ptpInstRead (x : PtpInst) (o : Nat) : Word :=
  match o with
  | 0x00 => ptpIstat x
  | 0x04 => nsWord x.ofs 4
  | 0x08 => nsCount x.mpd 4
  | 0x0C => x.gmShown.setWidth 32
  | 0x10 => (x.gmShown >>> 32).setWidth 32
  | 0x14 => ((x.chosen.map Announce.utcOfs).getD 0).setWidth 32
  | 0x18 => x.syncCnt
  | 0x1C => x.syncLostCnt
  | 0x20 => x.drespCnt
  | 0x24 => x.outlierCnt
  | 0x28 => x.gmCnt
  | 0x2C => x.jumpCnt
  | _ => 0

/-- A word of an alarm's block, by offset (R334). -/
def alarmRead (x : Alarm) (owner : Nat) (o : Nat) : Word :=
  match o with
  | 0x0 => bitAt 0 x.armed ||| bitAt 1 x.ptp ||| fieldAt 2 owner ||| bitAt 4 (x.period != 0)
  | 0x4 => x.target
  | 0x8 => x.fireMcnt
  | 0xC => x.missed
  | _ => 0

/-- A read of the PTP registers, 0x5E00 to 0x5FFF (R333, R334). -/
def ptpRead (s : State) (sh : Shadow) (a : Nat) : Word :=
  if 0x5E00 ≤ a ∧ a < 0x5F00 then ptpInstRead (instShown s ((a - 0x5E00) / 0x80)) (a % 0x80)
  else if 0x5F00 ≤ a ∧ a < 0x5F40 then
    let p := s.netPort ((a - 0x5F00) / 0x10)
    if a % 16 = 0 then p.tcCnt else if a % 16 = 4 then p.tcMax else 0
  else if 0x5F40 ≤ a ∧ a < 0x5FC0 then
    let n := (a - 0x5F40) / 0x10
    alarmRead (s.alarm n) (ownerOf s (.alarm n)) (a % 0x10)
  else if a = 0x5FC0 then s.ptp.ppsNs
  else if a = 0x5FC4 then sh.ppsSec.setWidth 32
  else if a = 0x5FC8 then (sh.ppsSec >>> 32).setWidth 32
  else if a = 0x5FCC then now32 s
  else 0

/-- PTP_GET_STATUS (R335; log 29). -/
def ptpGetStatus (inst : Byte) (s : State) : State × Reply :=
  if 1 < inst.toNat then (s, Reply.code .badParam)
  else (s, Reply.ok ((List.range 12).flatMap (fun j => le32 (ptpInstRead (instShown s inst.toNat) (4 * j))) ++ le32 (now32 s)
    ++ le32 s.ptp.ppsNs ++ le32 (s.ptp.ppsSec.setWidth 32) ++ le32 ((s.ptp.ppsSec >>> 32).setWidth 32)))

end Sys2Proof.Machine
end

