-- ==== Sys2Proof/Machine/StreamTx.lean ====
section
/-! DEFINITION. Transmit contexts (R337 to R348): gathering the samples of each wave, closing and launching packets. -/

namespace Sys2Proof.Machine

def State.txCtx (s : State) (c : Nat) : TxCtx := Store.look TxCtx.init s.stm.tx c

def State.setTxCtx (s : State) (c : Nat) (x : TxCtx) : State :=
  { s with stm := { s.stm with tx := Store.put TxCtx.init s.stm.tx c x } }

/-- S, the samples per packet of a packet-time class at a media rate code (R339). -/
def packetSamples (ptime rate : Nat) : Nat :=
  let s48 := if ptime = 0 then 6 else if ptime = 1 then 12 else if ptime = 2 then 16 else 48
  s48 * (if rate ≤ 1 then 1 else if rate ≤ 3 then 2 else 4)

/-- Bytes of a wire word (R340). -/
def wireBytes (format : Nat) : Nat := if format = 0 then 2 else if format = 1 then 3 else 4

/-- The even parity bit P over bits [31:8] and [3:1] (R342). -/
def parityBit (w : Word) : Word := if (popcountW (w &&& 0xFFFFFF0E)) % 2 = 1 then 1 else 0
where
  /-- Ones of a word. -/
  popcountW (x : Word) : Nat := (bitsOf x).length

/-- The AES3 word of GENERATE for a wave (R342). -/
def generated (x : TxCtx) (wave : Word) (w : Word) : Word :=
  let i := (wave - x.start).toNat % 192
  let c := (x.cs.getD (i / 8) 0).getLsbD (i % 8)
  let base := (w &&& 0xFFFFFF00) ||| bitAt 5 (decide (i = 0)) ||| bitAt 1 c
  base ||| parityBit base

/-- The word that is packetised, in the place of a received one (R340, R342, R363). -/
def wireWord (x : TxCtx) (cfg : TxCfg) (wave w : Word) : Word :=
  if cfg.format.toNat = 0 then w &&& 0xFFFF0000
  else if cfg.format.toNat = 1 then w &&& 0xFFFFFF00
  else if cfg.label.toNat = 1 then generated x wave w else w

/-- The big-endian payload of a packet (R340). -/
def payloadOf (format : Nat) (waves : List (List Word)) : List Byte :=
  waves.flatMap fun ws => ws.flatMap fun w => (beBytes 4 w.toNat).take (wireBytes format)

/-- A transmit channel is bound in the live bank (R361). -/
def txCtxBound (s : State) (c ch : Nat) : Bool :=
  (s.rdg.liveParts.getD []).any fun p => p.bindings.any fun b =>
    b.kind == 3 && b.unit == c && decide (b.first ≤ ch ∧ ch < b.first + b.count)

/-- The context has come to its stop wave: no packet begins at or after it (R348). -/
def TxCtx.ended (x : TxCtx) : Bool :=
  match x.stop with
  | some e => x.gathered.isEmpty && decide (0 ≤ serialDiff x.first e)
  | none => false

/-- A context at its stop wave is STOPPED once its last packet has launched (R348). -/
def TxCtx.atStop (x : TxCtx) : TxCtx :=
  if x.ended ∧ x.closed.isEmpty then { x with state := .stopped, stop := none } else x

/-- Close the packet in progress at wave `w` (R345 to R347). -/
def closePacket (c : Nat) (cfg : TxCfg) (w : Word) (s : State) : State :=
  let x := s.txCtx c
  let payload := payloadOf cfg.format.toNat x.gathered
  let k : TxPacket := { closing := w, seq := x.seq, ts := x.first, payload := payload, allLive := x.live }
  let y : TxCtx := { x with closed := x.closed ++ [k], first := w + 1, seq := x.seq + 1, gathered := [], live := true }
  noteCrc w c (crc32c payload) (s.setTxCtx c y)

/-- One context takes the sample of wave `w` (R345 to R347, R361). -/
def gatherCtx (w : Word) (image : Nat → Word) (s : State) (c : Nat) : State :=
  let x := s.txCtx c
  match x.cfg with
  | none => s
  | some cfg =>
    if x.state != .running || decide (serialDiff w x.first < 0) then s
    else
      if x.ended then s.setTxCtx c x.atStop
      else
        let words := (List.range cfg.channels.toNat).map fun ch =>
          wireWord x cfg w (if txCtxBound s c ch then image (imgStream c ch) else 0)
        let y := { x with gathered := x.gathered ++ [words], live := x.live && s.rdg.live.isSome }
        let s1 := (List.range cfg.channels.toNat).foldl (fun t ch => tapFeed 3 c ch w (some (words.getD ch 0)) t) (s.setTxCtx c y)
        if y.gathered.length < packetSamples cfg.ptime.toNat s.pst.rate then s1 else closePacket c cfg w s1

/-- The contexts that are listed. -/
def txContexts (s : State) : List Nat := s.stm.tx.map Prod.fst

/-- The output guard of wave `w`: every running transmit context takes its sample (R346). -/
def txGuard (w : Word) (image : Nat → Word) (s : State) : State := (txContexts s).foldl (gatherCtx w image) s

/-- The context launches early and wave `w` would close its packet (R346). -/
def closesEarly (s : State) (w : Word) (c : Nat) : Bool :=
  let x := s.txCtx c
  match x.cfg with
  | none => false
  | some cfg => x.state == .running && cfg.launch.toNat == 1 && 0 ≤ serialDiff w x.first
      && x.gathered.length + 1 == packetSamples cfg.ptime.toNat s.pst.rate

/-- The closing wave's token has returned in time: early contexts complete their packets (R346). -/
def txToken (w : Word) (image : Nat → Word) (s : State) : State :=
  ((txContexts s).filter (closesEarly s w)).foldl (gatherCtx w image) s

/-- The wave at whose edge a context starts: ARMED contexts become RUNNING (R337). A start wave that a STEP passed over
leaves the first packet to begin with this wave (R347). -/
def txEdge (w : Word) (s : State) : State :=
  { s with stm := { s.stm with
      tx := Store.mapAll TxCtx.init s.stm.tx fun _ x =>
        if x.state = .armed ∧ 0 ≤ serialDiff w x.start then { x with state := .running, first := w } else x } }

/-- The RTP packet of a closed packet (R344, R345). -/
def rtpPacket (cfg : TxCfg) (k : TxPacket) : List Byte :=
  [0x80, cfg.pt] ++ beBytes 2 k.seq.toNat ++ beBytes 4 k.ts.toNat ++ beBytes 4 cfg.ssrc.toNat ++ k.payload

/-- Hand one path's copy to the switch in the path's domain (R288, R344). -/
def sendCopy (cfg : TxCfg) (k : TxPacket) (domain : Nat) (s : State) : State :=
  if !cfg.paths.getLsbD domain then s
  else
    let p := if domain = 0 then cfg.a else cfg.b
    let bytes := udpFrame p.dstMac.toNat s.own.station.toNat (if cfg.vlan.toNat % 4096 = 0 then 0 else cfg.vlan.toNat) cfg.dscp.toNat cfg.ttl.toNat cfg.srcIp.toNat
      p.dstIp.toNat p.srcPort.toNat p.dstPort.toNat (rtpPacket cfg k)
    let f : QFrame := { bytes := bytes, ingress := 5, cls := classOfFrame s 5 domain false bytes, stamp := none, tsDesc := none }
    (toPorts (frameVid bytes) f (forwardPorts s 5 domain (frameVid bytes) bytes) s).1

/-- The packet leaves on both paths and is counted (R346, R366). -/
def sendPacket (c : Nat) (cfg : TxCfg) (k : TxPacket) (s : State) : State :=
  let x := s.txCtx c
  let s1 := s.setTxCtx c { x with pkts := satInc x.pkts, lastSeq := k.seq, lastTs := k.ts }
  sendCopy cfg k 1 (sendCopy cfg k 0 s1)

/-- A packet may launch now: a staged one at edge c + 2, an early one at once (R346). -/
def launchDue (s : State) (cfg : TxCfg) (k : TxPacket) : Bool :=
  cfg.launch.toNat == 1 || decide (0 ≤ serialDiff s.mcnt (k.closing + 2))

/-- PACKET_LAUNCH of a context's oldest closed packet (R346, R347, R377, R395). -/
def packetLaunch (c : Nat) (s : State) : State :=
  let x := s.txCtx c
  match x.cfg, x.closed with
  | some cfg, k :: rest =>
    if !launchDue s cfg k then s
    else
      let s1 := s.setTxCtx c ({ x with closed := rest } : TxCtx).atStop
      if s.lkt.failSilent || !k.allLive then s1
      else match launchOf s k.closing c (cfg.launch.toNat == 1) (crc32c k.payload) with
        | .send => sendPacket c cfg k s1
        | .unverified => sendPacket c cfg k { s1 with red := { s1.red with unverified := s1.red.unverified + 1 } }
        | .mismatch => leaveStep 1 { s1 with red := { s1.red with withheld := s1.red.withheld + 1 } }
        | .link => leaveStep 2 { s1 with red := { s1.red with withheld := s1.red.withheld + 1 } }
        | .discard => s1
  | _, _ => s

/-- A STEP of MCNT by `d`: the packet in progress is not sent, and the next one begins with wave `w` (R347). -/
def txStep (w : Word) (d : Int) (s : State) : State :=
  { s with stm := { s.stm with
      tx := Store.mapAll TxCtx.init s.stm.tx fun _ x =>
        let moved := x.closed.map fun k => { k with closing := k.closing + BitVec.ofInt 32 d }
        if x.state = .running then
          { x with closed := moved, first := w, gathered := [], live := true
                   stepDrop := if x.gathered.isEmpty then x.stepDrop else satInc x.stepDrop }
        else x } }

end Sys2Proof.Machine
end

