-- ==== Sys2Proof/Machine/StreamRx.lean ====
section
/-! DEFINITION. Receive contexts and Saddle (R349 to R360, R370 to R373): jitter buffers, presentation, concealment. -/

namespace Sys2Proof.Machine

def State.rxCtx (s : State) (c : Nat) : RxCtx := Store.look RxCtx.init s.stm.rx c

def State.setRxCtx (s : State) (c : Nat) (x : RxCtx) : State :=
  { s with stm := { s.stm with rx := Store.put RxCtx.init s.stm.rx c x } }

/-- Samples per packet of a receive context. -/
def rxSamples (s : State) (c : RxCfg) : Nat := packetSamples c.ptime.toNat s.pst.rate

/-- The presentation delay P (R351, R357). -/
def rxDelay (s : State) (c : RxCfg) : Nat :=
  if c.group = 0xFF then rxSamples s c + c.senderG.toNat + c.l.toNat
  else (Store.look none s.stm.groups c.group.toNat).getD 0

/-- Bytes of a slot of the jitter buffer (R352). -/
def slotSize (c : RxCfg) : Nat := 4 * c.channels.toNat + 4

/-- The address of the slot of sample `x`. -/
def slotAddr (c : RxCfg) (x : Word) : Nat := c.base.toNat + (x.toNat % c.depth.toNat) * slotSize c

/-- The tag of the slot of sample `x`. -/
def slotTag (s : State) (c : RxCfg) (x : Word) : Word := s.mem.tarnWord (slotAddr c x + 4 * c.channels.toNat)

def setTag (c : RxCfg) (x tag : Word) (s : State) : State :=
  { s with mem := s.mem.putWord (slotAddr c x + 4 * c.channels.toNat) tag }

/-- The words of the slot of sample `x`. -/
def slotWords (s : State) (c : RxCfg) (x : Word) : List Word :=
  (List.range c.channels.toNat).map fun i => s.mem.tarnWord (slotAddr c x + 4 * i)

/-- Mark every slot empty for a context that starts at wave `w` (R352). -/
def markEmpty (c : RxCfg) (p : Nat) (w : Word) (s : State) : State :=
  let x0 := w - BitVec.ofNat 32 p
  (List.range c.depth.toNat).foldl (fun t i => setTag c (BitVec.ofNat 32 i) (x0 + 0x8000_0000) t) s

/-- One 1/32 of unity (R359). -/
def fadeStep : Nat := 2 ^ 25

/-- floor(x · g / 2^30) (R359). -/
def faded (g : Nat) (xs : List Word) : List Word := xs.map fun x => BitVec.ofInt 32 ((x.toInt * (g : Int)).fdiv (2 ^ 30))

/-- What one presentation gives: the context, its words, and whether it entered HOLD or MUTED. -/
structure Present where
  ctx : RxCtx
  words : List Word
  held : Bool
  muted : Bool
  deriving DecidableEq, Repr

/-- The gain steps down; at 0 the context is MUTED (R359). -/
def stepDown (x : RxCtx) (g : Nat) : Present :=
  let g' := g - fadeStep
  { ctx := { x with conceal := if g' = 0 then .muted else .fadeOut, gain := g' }, words := faded g' x.held, held := false, muted := g' = 0 }

/-- The gain steps up; at unity the context is PLAYING (R359). -/
def stepUp (x : RxCtx) (ws : List Word) : Present :=
  let g' := min (2 ^ 30) (x.gain + fadeStep)
  { ctx := { x with conceal := if g' = 2 ^ 30 then .playing else .fadeIn, gain := g', held := ws }
    words := faded g' ws, held := false, muted := false }

/-- One step of the concealment table of R359 for a present or a missing sample; `n` is 2 · S. -/
def concealStep (n : Nat) (x : RxCtx) (sample : Option (List Word)) : Present :=
  match x.conceal, sample with
  | .playing, some ws => { ctx := { x with held := ws }, words := ws, held := false, muted := false }
  | .playing, none => { ctx := { x with conceal := .hold, missing := 1 }, words := x.held, held := true, muted := false }
  | .hold, some ws => { ctx := { x with conceal := .playing, held := ws }, words := ws, held := false, muted := false }
  | .hold, none =>
    if x.missing < n then { ctx := { x with missing := x.missing + 1 }, words := x.held, held := false, muted := false }
    else stepDown x (2 ^ 30)
  | .fadeOut, some ws => stepUp x ws
  | .fadeOut, none => stepDown x x.gain
  | .muted, some ws => stepUp x ws
  | .muted, none => { ctx := x, words := x.held.map fun _ => 0, held := false, muted := false }
  | .fadeIn, some ws => stepUp x ws
  | .fadeIn, none => stepDown x x.gain

/-- One step of a stop fade (R360): nothing is counted, and at 0 the context is STOPPED. -/
def stopStep (x : RxCtx) : RxCtx × List Word :=
  let g := match x.conceal with
    | .playing => 2 ^ 30
    | .hold => 2 ^ 30
    | .muted => 0
    | _ => x.gain
  let g' := g - fadeStep
  let y := { x with conceal := .fadeOut, gain := g', stopping := true }
  (if g' = 0 then { y with state := .stopped, stopping := false, stop := none } else y, faded g' x.held)

/-- A once-a-second notice of a context (R369, R372): whether it is due. -/
def noticeDue (s : State) (last : Option Nat) : Bool :=
  match last with
  | none => true
  | some t => decide (t + 1000000 ≤ s.time)

/-- Put the words of a context into the input image of wave `w`; channels beyond them read 0 (R361). -/
def putStream (w : Word) (c : Nat) (ws : List Word) (s : State) : State :=
  (List.range 64).foldl (fun t i => putInput t w (imgStream c i) (ws.getD i 0)) s

/-- Count what a presentation did (R359, R369). -/
def countConceal (c : Nat) (missing : Bool) (p : Present) (s : State) : State :=
  let x := p.ctx
  let due := p.held && noticeDue s x.concealAt
  let y := { x with
    concealSmp := if missing then satInc x.concealSmp else x.concealSmp
    concealCnt := if p.held then satInc x.concealCnt else x.concealCnt
    concealAt := if due then some s.time else x.concealAt
    muteCnt := if p.muted then satInc x.muteCnt else x.muteCnt }
  let s1 := s.setRxCtx c y
  let s2 := if due then reportFault 0x0D0 (BitVec.ofNat 16 c) s1 else s1
  if p.muted then reportFault 0x0D1 (BitVec.ofNat 16 c) s2 else s2

/-- Read the slot of sample `x` for its presentation, and mark it (R352). -/
def takeSlot (cfg : RxCfg) (x : Word) (s : State) : State × Option (List Word) :=
  let here := slotTag s cfg x == x
  let ws := slotWords s cfg x
  (setTag cfg x (x + 0x8000_0000) s, if here then some ws else none)

/-- Present wave `w` of one receive context (R352, R359 to R361); a stop fade takes every sample as missing. -/
def presentCtx (w : Word) (s : State) (c : Nat) : State :=
  let x := s.rxCtx c
  match x.cfg with
  | none => s
  | some cfg =>
    let x1 := if x.state = .armed ∧ 0 ≤ serialDiff w x.start then { x with state := .running } else x
    if x1.state != .running then putStream w c [] (s.setRxCtx c x1)
    else
      let idx := w - BitVec.ofNat 32 (rxDelay s cfg)
      let stopNow := x1.stopping || match x1.stop with
        | none => false
        | some e => decide (0 ≤ serialDiff w e)
      let s0 := s.setRxCtx c x1
      let (s1, sample) := if stopNow then (s0, none) else takeSlot cfg idx s0
      let s2 := (List.range cfg.channels.toNat).foldl
        (fun t i => tapFeed 2 c i idx (sample.map fun ws => ws.getD i 0) t) s1
      if stopNow then
        let (y, ws) := stopStep x1
        putStream w c ws (s2.setRxCtx c y)
      else
        let p := concealStep (2 * rxSamples s cfg) x1 sample
        putStream w c p.words (countConceal c sample.isNone p s2)

/-- The stream part of the ingress stage that fills wave `w` (R353, R359). -/
def rxIngress (w : Word) (s : State) : State := (s.stm.rx.map Prod.fst).foldl (presentCtx w) s

/-- STREAM_RX_STOPPED (R360): the stop fade has reached 0. -/
def rxStopped (c : Nat) (s : State) : State :=
  let x := s.rxCtx c
  if x.state = .running ∧ x.stopping ∧ x.gain = 0 then
    s.setRxCtx c { x with state := .stopped, stopping := false, stop := none } else s

/-- The s32 words of a payload, sample by sample (R340). -/
def samplesOf (format channels : Nat) (payload : List Byte) : List (List Word) :=
  let b := wireBytes format
  (List.range (payload.length / (b * channels))).map fun i =>
    (List.range channels).map fun c =>
      BitVec.ofNat 32 (beAt payload ((i * channels + c) * b) b * 256 ^ (4 - b))

/-- The payload of an RTP packet, once its CSRC list, header extension and padding are gone (R350, RFC 3550). -/
def rtpPayload (r : List Byte) : Option (List Byte) :=
  let b0 := beAt r 0 1
  let csrc := 12 + 4 * (b0 % 16)
  let body := if b0.testBit 4 then csrc + 4 + 4 * beAt r (csrc + 2) 2 else csrc
  let pad := if b0.testBit 5 then (r.getLast?.map BitVec.toNat).getD 0 else 0
  if r.length < body + pad then none else some ((r.drop body).take (r.length - body - pad))

/-- A UDP checksum of a frame that is not 0 is correct (R350). -/
def udpSumOk (bs : List Byte) : Bool :=
  let o := l4Off bs
  let len := beAt bs (o + 4) 2
  let seg := (bs.drop o).take len
  let seg2 := if len % 2 = 1 then seg ++ [0] else seg
  let words (l : List Byte) : List Nat := (List.range (l.length / 2)).map fun i => beAt l (2 * i) 2
  let pseudo := words ((bs.drop (l3Off bs + 12)).take 8) ++ [17, len]
  beAt bs (o + 6) 2 == 0 || (pseudo ++ words seg2).foldl onesAdd 0 == 65535

/-- The RTP packet of a frame. -/
def rtpOf (bs : List Byte) : List Byte := (bs.drop (l4Off bs + 8)).take (beAt bs (l4Off bs + 4) 2 - 8)

/-- The checks of R350, and the samples of a packet that passes. -/
def checkPacket (s : State) (c : RxCfg) (bs : List Byte) : Option (List (List Word)) :=
  let r := rtpOf bs
  match rtpPayload r with
  | none => none
  | some p =>
    if decide (beAt r 0 1 / 64 = 2) && beAt r 1 1 % 128 == c.pt.toNat && (c.ssrcEn == 0 || beAt r 8 4 == c.ssrc.toNat)
        && p.length == rxSamples s c * c.channels.toNat * wireBytes c.format.toNat && udpSumOk bs then
      some (samplesOf c.format.toNat c.channels.toNat p)
    else none

/-- One sample of a packet (R353, R355, R372): the state, and whether it was late, written, or differed from its slot. -/
def placeSample (c : RxCfg) (p : Nat) (q x : Word) (ws : List Word) (s : State) : State × Bool × Bool × Bool :=
  if serialDiff (x + BitVec.ofNat 32 p - 1) q < 1 then (s, true, false, false)
  else if slotTag s c x == x then (s, false, false, slotWords s c x != ws)
  else
    let m := s.mem.writeTarn (slotAddr c x) (ws.flatMap le32 ++ le32 x)
    ({ s with mem := m }, false, true, false)

/-- Place the samples of a packet in order: the state, and how many were late, written and different. -/
def placeAll (c : RxCfg) (p : Nat) (q t : Word) (samples : List (List Word)) (s : State) : State × Nat × Nat × Nat :=
  (samples.zip (List.range samples.length)).foldl (fun a e =>
    let (s1, late, wrote, diff) := placeSample c p q (t + BitVec.ofNat 32 e.2) e.1 a.1
    (s1, a.2.1 + late.toNat, a.2.2.1 + wrote.toNat, a.2.2.2 + diff.toNat)) (s, 0, 0, 0)

/-- The sequence number of an accepted packet (R350). -/
def RxCtx.sequence (x : RxCtx) (seq : Half) : RxCtx :=
  match x.seq with
  | none => { x with seq := some seq }
  | some h =>
    let d := (seq - h).toInt
    if 0 < d then { x with seq := some seq, seqGap := if 2 ≤ d then satInc x.seqGap else x.seqGap } else x

/-- The skew of a timestamp that has arrived on both paths (R373); `ns` is the reception instant. -/
def RxCtx.noteSkew (x : RxCtx) (pathB : Bool) (ts : Word) (ns : Nat) : RxCtx :=
  match x.arrivals.find? fun e => e.1 == ts with
  | none => { x with arrivals := ((ts, pathB, ns) :: x.arrivals).take 64 }
  | some e =>
    if e.2.1 == pathB then x
    else
      let d : Int := if pathB then (ns : Int) - e.2.2 else (e.2.2 : Int) - ns
      let m := nsCount d.natAbs 1
      { x with arrivals := x.arrivals.filter fun y => y.1 != ts
               skew := nsWord d 1, skewMax := if x.skewMax.toNat < m.toNat then m else x.skewMax }

/-- A valid packet counts on its path and brings it up (R373, R401). -/
def RxCtx.onPath (x : RxCtx) (pathB : Bool) (firsts : Nat) : RxCtx :=
  let f (p : PathStat) : PathStat := { up := true, pkts := satInc p.pkts, firsts := satAdd p.firsts firsts }
  if pathB then { x with b := f x.b } else { x with a := f x.a }

/-- Raise the once-a-second notices of a context after a packet (R369, R372). -/
def packetNotices (c : Nat) (late early diff : Bool) (s : State) : State :=
  let raise (src : Nat) (on : Bool) (last : RxCtx → Option Nat) (mark : RxCtx → RxCtx) (t : State) : State :=
    if on && noticeDue t (last (t.rxCtx c)) then reportFault src (BitVec.ofNat 16 c) (t.setRxCtx c (mark (t.rxCtx c))) else t
  let s1 := raise 0x0D2 late RxCtx.lateAt (fun x => { x with lateAt := some s.time }) s
  let s2 := raise 0x0D3 early RxCtx.earlyAt (fun x => { x with earlyAt := some s.time }) s1
  raise 0x0E6 diff RxCtx.diffAt (fun x => { x with diffAt := some s.time }) s2

/-- Saddle takes a packet that matches a context (R350 to R355, R370 to R373). -/
def saddle (pathB : Bool) (bs : List Byte) (ns : Nat) (s : State) (c : Nat) : State :=
  let x := s.rxCtx c
  match x.cfg with
  | none => s
  | some cfg =>
    match checkPacket s cfg bs with
    | none => s.setRxCtx c { x with fmtErr := satInc x.fmtErr }
    | some samples =>
      let r := rtpOf bs
      let ts : Word := BitVec.ofNat 32 (beAt r 4 4)
      let t := ts - cfg.rtpOfs
      let p := rxDelay s cfg
      let q := s.mcnt
      let x1 := (x.onPath pathB 0).noteSkew pathB ts ns
      if serialDiff (t + BitVec.ofNat 32 (rxSamples s cfg) - 1) q > (cfg.depth.toNat : Int) - p then
        packetNotices c false true false (s.setRxCtx c { x1 with early := satInc x1.early })
      else
        let (s1, late, wrote, diff) := placeAll cfg p q t samples s
        let x2 := x1.sequence (BitVec.ofNat 16 (beAt r 2 2))
        let path (y : PathStat) : PathStat := { y with firsts := satAdd y.firsts wrote }
        let x3 := { x2 with
          a := if pathB then x2.a else path x2.a, b := if pathB then path x2.b else x2.b, lastTs := ts
          pkts := if 0 < wrote then satInc x2.pkts else x2.pkts
          late := if 0 < late then satInc x2.late else x2.late, lateSmp := satAdd x2.lateSmp late
          dup := if wrote = 0 ∧ late = 0 then satInc x2.dup else x2.dup, diff := satAdd x2.diff diff }
        packetNotices c (decide (0 < late)) false (decide (0 < diff)) (s1.setRxCtx c x3)

/-- MEDIA_PACKET_RECEIVED (R350, R370, R371): a frame on external port `n` goes to each context that it matches. -/
def mediaPacket (n : Nat) (bs : List Byte) (t : Stamp) (s : State) : State :=
  let p := s.netPort n
  let ns := (corrected (quartersOf t) p.tsIn).toNat / 4
  let hits := (s.stm.rx.filter fun e => e.2.takes p.domain bs).map Prod.fst
  if p.linkUp then hits.foldl (saddle (p.domain == 1) bs ns) s else s

/-- SAD_PATH_DOWN (R373). -/
def pathDown (c : Nat) (pathB : Bool) (s : State) : State :=
  let x := s.rxCtx c
  let up := if pathB then x.b.up else x.a.up
  if x.state != .running || !up then s
  else
    let y := if pathB then { x with b := { x.b with up := false } } else { x with a := { x.a with up := false } }
    reportFault 0x0E5 (BitVec.ofNat 16 c) (s.setRxCtx c y)

end Sys2Proof.Machine
end

