-- ==== Sys2Proof/Machine/Streams.lean ====
section
/-! DEFINITION. The stream commands and registers (R337 to R343, R345, R348, R349, R357, R361, R362, R365 to R369, R401). -/

namespace Sys2Proof.Machine

/-- The most channels of ARMED and RUNNING contexts of one direction (R338). -/
def channelBudget (rate : Nat) : Nat := if rate ≤ 1 then 2048 else if rate ≤ 3 then 1024 else 512

def TxCtx.channels (x : TxCtx) : Nat := (x.cfg.map fun c => c.channels.toNat).getD 0
def RxCtx.channels (x : RxCtx) : Nat := (x.cfg.map fun c => c.channels.toNat).getD 0

/-- Channels of ARMED and RUNNING transmit contexts (R338, R365). -/
def txLoad (s : State) : Nat := (s.stm.tx.map fun e => if e.2.state = .stopped then 0 else e.2.channels).sum

/-- Channels of ARMED and RUNNING receive contexts (R338, R365). -/
def rxLoad (s : State) : Nat := (s.stm.rx.map fun e => if e.2.state = .stopped then 0 else e.2.channels).sum

/-- The payload of a transmit context keeps R341 at a rate. -/
def payloadOk (s : State) (c : TxCfg) : Bool :=
  let size := packetSamples c.ptime.toNat s.pst.rate * c.channels.toNat * wireBytes c.format.toNat
  let ports := (s.net.ports.filter fun p => c.paths.getLsbD p.domain)
  decide (size ≤ c.plimit.toNat) && (decide (c.plimit.toNat ≤ 1460) || ports.all fun p => decide (size + 62 ≤ p.maxFrame))

/-- The ports of an enabled path block. -/
def txPathOk (on : Bool) (p : TxPath) : Bool := !on || (p.srcPort != 0 && p.dstPort != 0)

/-- The parameter checks of STREAM_SET_TX (R339 to R343). -/
def txCfgOk (s : State) (c : TxCfg) : Bool :=
  decide (1 ≤ c.channels.toNat ∧ c.channels.toNat ≤ 64 ∧ c.format.toNat ≤ 2 ∧ (c.format.toNat = 2 → c.channels.toNat % 2 = 0)
    ∧ c.ptime.toNat ≤ 3 ∧ c.launch.toNat ≤ 1 ∧ 1 ≤ c.paths.toNat ∧ c.paths.toNat ≤ 3 ∧ c.label.toNat ≤ 1
    ∧ (c.format.toNat ≠ 2 → c.label = 0) ∧ 96 ≤ c.pt.toNat ∧ c.pt.toNat ≤ 127 ∧ c.dscp.toNat ≤ 63 ∧ c.ttl ≠ 0
    ∧ 192 ≤ c.plimit.toNat ∧ c.plimit.toNat ≤ 8960)
    && !c.vlan.getLsbD 12 && txPathOk (c.paths.getLsbD 0) c.a && txPathOk (c.paths.getLsbD 1) c.b && payloadOk s c

/-- STREAM_SET_TX (R343, R362, R368). -/
def streamSetTx (ctx : Byte) (c : TxCfg) (s : State) : State × Reply :=
  let n := ctx.toNat
  if !txCfgOk s c then (s, Reply.code .badParam)
  else if (s.txCtx n).state ≠ .stopped then (s, Reply.code .busy)
  else (s.setTxCtx n { s.txCtx n with cfg := some c }, Reply.ok [])

/-- A destination of a receive context: a multicast group, or the host port's address (R349). -/
def rxPathOk (s : State) (on : Bool) (p : RxPath) : Bool :=
  !on || ((decide (224 ≤ p.dstIp.toNat / 2 ^ 24 ∧ p.dstIp.toNat / 2 ^ 24 ≤ 239) || p.dstIp == s.own.hostIp)
    && p.dstPort != 0 && decide (p.vlan.toNat ≤ 4094))

/-- The parameter checks of STREAM_SET_RX (R349, R352). -/
def rxCfgOk (s : State) (c : RxCfg) : Bool :=
  decide (1 ≤ c.channels.toNat ∧ c.channels.toNat ≤ 64 ∧ c.format.toNat ≤ 2 ∧ (c.format.toNat = 2 → c.channels.toNat % 2 = 0)
    ∧ c.ptime.toNat ≤ 3 ∧ c.senderG.toNat ≤ 1 ∧ c.paths.toNat ≤ 3 ∧ (c.group.toNat ≤ 31 ∨ c.group = 0xFF)
    ∧ (c.group = 0xFF → 2 ≤ c.l.toNat ∧ c.l.toNat ≤ 4000) ∧ c.base.toNat % 16 = 0 ∧ c.base.toNat < 0x0200_0000
    ∧ 96 ≤ c.pt.toNat ∧ c.pt.toNat ≤ 127 ∧ c.ssrcEn.toNat ≤ 1)
    && [16, 32, 64, 128, 256, 512, 1024, 2048, 4096].contains c.depth.toNat
    && rxPathOk s (c.paths.getLsbD 0) c.a && rxPathOk s (c.paths.getLsbD 1) c.b

/-- STREAM_SET_RX (R349, R362, R368). -/
def streamSetRx (ctx : Byte) (c : RxCfg) (s : State) : State × Reply :=
  let n := ctx.toNat
  if !rxCfgOk s c then (s, Reply.code .badParam)
  else if (s.rxCtx n).state ≠ .stopped then (s, Reply.code .busy)
  else (s.setRxCtx n { s.rxCtx n with cfg := some c }, Reply.ok [])

/-- STREAM_SET_CS (R342, R362, R368). -/
def streamSetCs (ctx : Byte) (block : List Byte) (s : State) : State × Reply :=
  let n := ctx.toNat
  if block.length ≠ 24 then (s, Reply.code .badLength)
  else if (s.txCtx n).state ≠ .stopped then (s, Reply.code .busy)
  else (s.setTxCtx n { s.txCtx n with cs := block }, Reply.ok [])

/-- The start wave that a STREAM_START names (R362): 0 stands for MCNT + 8. -/
def startWave (s : State) (w : Word) : Word := if w = 0 then s.mcnt + 8 else w

/-- A start wave in range (R362). -/
def startWaveOk (s : State) (w : Word) : Bool := decide (8 ≤ ahead s (startWave s w))

/-- Start a transmit context (R338, R345, R362). -/
def startTx (n : Nat) (q0 : Half) (w : Word) (s : State) : State × Reply :=
  let x := s.txCtx n
  match x.cfg with
  | none => (s, Reply.code .badParam)
  | some c =>
    if !payloadOk s c || !startWaveOk s w then (s, Reply.code .badParam)
    else if x.state ≠ .stopped then (s, Reply.code .busy)
    else if channelBudget s.pst.rate < txLoad s + c.channels.toNat then (s, Reply.code .noResource)
    else
      let a := startWave s w
      (s.setTxCtx n { x with state := .armed, start := a, first := a, seq := q0, stop := none, gathered := [], live := true },
        Reply.ok (le32 a))

/-- A receive context's buffer and delay keep R352 and R357. -/
def rxStartOk (s : State) (n : Nat) (c : RxCfg) : Bool :=
  let p := rxDelay s c
  let sz := rxSamples s c
  decide (p + sz ≤ c.depth.toNat) && inOwnRegion s (ownerOf s (.rxCtx n)) c.base.toNat (c.depth.toNat * slotSize c)
    && (c.group == 0xFF || decide (sz + c.senderG.toNat + 2 ≤ p))

/-- Start a receive context (R338, R352, R357, R360, R362). -/
def startRx (n : Nat) (w : Word) (s : State) : State × Reply :=
  let x := s.rxCtx n
  match x.cfg with
  | none => (s, Reply.code .badParam)
  | some c =>
    if !rxStartOk s n c || !startWaveOk s w then (s, Reply.code .badParam)
    else if x.state ≠ .stopped then (s, Reply.code .busy)
    else if channelBudget s.pst.rate < rxLoad s + c.channels.toNat then (s, Reply.code .noResource)
    else
      let a := startWave s w
      let s1 := markEmpty c (rxDelay s c) a s
      (s1.setRxCtx n { x with
        state := .armed, start := a, stop := none, stopping := false, conceal := .muted, gain := 0, missing := 0
        held := List.replicate c.channels.toNat 0, seq := none, arrivals := []
        a := { x.a with up := false }, b := { x.b with up := false } }, Reply.ok (le32 a))

/-- STREAM_START (R345, R362, R368). -/
def streamStart (dir ctx : Byte) (q0 : Half) (w : Word) (s : State) : State × Reply :=
  if 1 < dir.toNat then (s, Reply.code .badParam)
  else if dir.toNat = 0 then startTx ctx.toNat q0 w s else startRx ctx.toNat w s

/-- The stop wave in force after a STREAM_STOP (R362): the earlier of the two, and one whose wave has come stays. -/
def stopWave (s : State) (old : Option Word) (e : Word) : Word :=
  let e1 := if e = 0 ∨ ahead s e ≤ 0 then s.mcnt + 1 else e
  match old with
  | none => e1
  | some o => if ahead s o ≤ 0 ∨ ahead s o ≤ ahead s e1 then o else e1

/-- STREAM_STOP (R348, R360, R362, R368). -/
def streamStop (dir ctx : Byte) (e : Word) (s : State) : State × Reply :=
  let n := ctx.toNat
  if 1 < dir.toNat then (s, Reply.code .badParam)
  else if dir.toNat = 0 then
    let x := s.txCtx n
    let w := stopWave s x.stop e
    if x.state = .stopped then (s, Reply.ok [])
    else if x.state = .armed ∧ serialDiff w x.start ≤ 0 then (s.setTxCtx n { x with state := .stopped, stop := none }, Reply.ok [])
    else (s.setTxCtx n { x with stop := some w }, Reply.ok [])
  else
    let x := s.rxCtx n
    let w := stopWave s x.stop e
    if x.state = .stopped then (s, Reply.ok [])
    else if x.state = .armed ∧ serialDiff w x.start ≤ 0 then (s.setRxCtx n { x with state := .stopped, stop := none }, Reply.ok [])
    else (s.setRxCtx n { x with stop := some w }, Reply.ok [])

/-- A member of an alignment group is ARMED or RUNNING (R357). -/
def groupBusy (s : State) (g : Nat) : Bool :=
  s.stm.rx.any fun e => e.2.state != .stopped && ((e.2.cfg.map fun c => c.group.toNat).getD 0xFF == g)

/-- STREAM_SET_GROUP (R357, R368). -/
def streamSetGroup (group : Byte) (p : Half) (s : State) : State × Reply :=
  if 31 < group.toNat ∨ p.toNat < 4 ∨ 4096 < p.toNat then (s, Reply.code .badParam)
  else if groupBusy s group.toNat then (s, Reply.code .busy)
  else ({ s with stm := { s.stm with groups := Store.put none s.stm.groups group.toNat (some p.toNat) } }, Reply.ok [])

def CtxState.code : CtxState → Nat
  | .stopped => 0 | .armed => 1 | .running => 2

def Conceal.code : Conceal → Nat
  | .playing => 0 | .hold => 1 | .fadeOut => 2 | .muted => 3 | .fadeIn => 4

/-- The window of a transmit context (R366). -/
def txWindow (x : TxCtx) : List Word :=
  [fieldAt 0 x.state.code ||| fieldAt 11 x.channels, x.pkts, x.lastSeq.setWidth 32, x.lastTs, x.stepDrop]
    ++ List.replicate 8 0

/-- The window of a receive context (R366). -/
def rxWindow (x : RxCtx) : List Word :=
  let g := (x.cfg.map fun c => c.group.toNat).getD 0xFF
  let grouped := decide (g ≤ 31)
  let stat := fieldAt 0 x.state.code ||| fieldAt 2 x.conceal.code ||| bitAt 5 grouped ||| fieldAt 6 (if grouped then g else 0)
    ||| fieldAt 11 x.channels
  [stat, x.pkts, (x.seq.getD 0).setWidth 32, x.lastTs, x.late, x.lateSmp, x.early, x.dup, x.fmtErr, x.seqGap, x.concealCnt
    , x.concealSmp, x.muteCnt]

/-- The SAD_CTX_ words of a receive context (R401); a path is up in a RUNNING context only (R373). -/
def sadWindow (x : RxCtx) : List Word :=
  let on := x.state == .running
  [bitAt 0 (on && x.a.up) ||| bitAt 1 (on && x.b.up), x.a.pkts, x.b.pkts, x.a.firsts, x.b.firsts, x.diff, x.skew, x.skewMax]

/-- STREAM_GET_CONTEXT (R366, R368). -/
def streamGetContext (dir ctx : Byte) (s : State) : State × Reply :=
  if 1 < dir.toNat then (s, Reply.code .badParam)
  else if dir.toNat = 0 then (s, Reply.ok ((txWindow (s.txCtx ctx.toNat)).flatMap le32))
  else (s, Reply.ok ((rxWindow (s.rxCtx ctx.toNat)).flatMap le32))

/-- Clear a path's counters. -/
def PathStat.clear (p : PathStat) : PathStat := { p with pkts := 0, firsts := 0 }

/-- STREAM_CLEAR (R366, R368, R401). -/
def streamClear (dir ctx : Byte) (s : State) : State × Reply :=
  let n := ctx.toNat
  if 1 < dir.toNat then (s, Reply.code .badParam)
  else if dir.toNat = 0 then (s.setTxCtx n { s.txCtx n with pkts := 0, stepDrop := 0 }, Reply.ok [])
  else
    let x := s.rxCtx n
    (s.setRxCtx n { x with
      pkts := 0, late := 0, lateSmp := 0, early := 0, dup := 0, fmtErr := 0, seqGap := 0, concealCnt := 0, concealSmp := 0
      muteCnt := 0, a := x.a.clear, b := x.b.clear, diff := 0, skew := 0, skewMax := 0 }, Reply.ok [])

/-- SAD_SET_PATHDOWN (R373, R402). -/
def sadSetPathdown (n : Half) (s : State) : State × Reply :=
  if n.toNat < 2 ∨ 1000 < n.toNat then (s, Reply.code .badParam)
  else ({ s with stm := { s.stm with pathDown := n.toNat } }, Reply.ok [])

/-- The latched words of the selected context: 13 of R366 and 8 of R401. -/
def selectedWindow (s : State) : List Word :=
  let n := s.stm.selCtx.toNat
  if s.stm.selRx then rxWindow (s.rxCtx n) ++ sadWindow (s.rxCtx n) else txWindow (s.txCtx n) ++ List.replicate 8 0

/-- 32 flags of a range of numbered contexts as a word. -/
def flagWord (v : Nat) (f : Nat → Bool) : Word := (List.range 32).foldl (fun w b => w ||| bitAt b (f (32 * v + b))) 0

/-- A receive context is RUNNING and not PLAYING (R366, R422). -/
def degraded (x : RxCtx) : Bool := x.state == .running && x.conceal != .playing

/-- A read of the stream registers, 0x6600 to 0x67FF, and of the SAD_CTX_ words; window words come from the requester's
latch (R365 to R367, R401). -/
def stmRead (s : State) (sh : Shadow) (a : Nat) : Word :=
  if a = 0x6600 then fieldAt 0 (txLoad s) ||| fieldAt 16 (rxLoad s)
  else if a = 0x6604 then s.stm.selCtx.setWidth 32 ||| bitAt 8 s.stm.selRx
  else if 0x6608 ≤ a ∧ a ≤ 0x6638 then sh.ctx.getD ((a - 0x6608) / 4) 0
  else if 0x6640 ≤ a ∧ a < 0x6660 then flagWord ((a - 0x6640) / 4) fun c => (s.txCtx c).state == .running
  else if 0x6660 ≤ a ∧ a < 0x6680 then flagWord ((a - 0x6660) / 4) fun c => (s.rxCtx c).state == .running
  else if 0x6680 ≤ a ∧ a < 0x66A0 then flagWord ((a - 0x6680) / 4) fun c => degraded (s.rxCtx c)
  else if a = 0x66A0 then flagWord 0 fun g => s.stm.rx.any fun e => degraded e.2 && (e.2.cfg.map fun c => c.group.toNat) == some g
  else if 0x6700 ≤ a ∧ a < 0x6800 then tapRead s ((a - 0x6700) / 16) (a % 16)
  else if 0x6840 ≤ a ∧ a < 0x6860 then sh.ctx.getD (13 + (a - 0x6840) / 4) 0
  else 0

/-- A write to STM_SEL (R366). -/
def stmSelWrite (w : Word) (s : State) : State :=
  { s with stm := { s.stm with selCtx := w.setWidth 8, selRx := w.getLsbD 8 } }

/-- A rate change stops every context of both directions and keeps their configuration (R29, R347). -/
def streamsRateChange (s : State) : State :=
  { s with stm := { s.stm with
      tx := Store.mapAll TxCtx.init s.stm.tx fun _ x =>
        { x with state := .stopped, stop := none, gathered := [], live := true, closed := [] }
      rx := Store.mapAll RxCtx.init s.stm.rx fun _ x => { x with state := .stopped, stop := none, stopping := false } } }

end Sys2Proof.Machine
end

