-- ==== Sys2Proof/Machine/Clock.lean ====
section
/-! DEFINITION. The clock commands (R29, R39 to R58), the fabric commands (R76 to R90), and what a sample edge does to
Polestar and to the PTP time counter (R27 to R49, R325, R326). -/

namespace Sys2Proof.Machine

/-- Two partitions' bulk checks that run as a rate change is accepted end with BUSY (R190). -/
def busyArms (s : State) : State :=
  (List.range 4).foldl (fun t p => match s.mtx.arm p with
    | none => t
    | some x => if x.checking then giveResult p x.udp .bulkArm (Reply.code .busy) t else t) s

/-- What an accepted rate change stops at once outside Polestar (R192, R250, R330, R347, R399). -/
def rateAccepted (s : State) : State :=
  mtxRateChange (redRateChange (disarmMcnt (tdmRateChange (streamsRateChange (busyArms s)))))

/-- Polestar under a new rate: back to ACQUIRE (R29, R40). -/
def applyRate (code : Nat) (s : State) : State :=
  withPst (fun p =>
    let q := { (p.endHoldover s.time) with
      rate := code, state := .acquire, selref := 7, resid := 0, stepLeft := 0, held := 0, phaseHeld := false
      realign := .idle, firstEdge := false }
    (q.updateWtr s.time).settle s.time) s

/-- A reference is disabled: PTP_JUMP_REFUSED of its instance clears (R332). -/
def clearJump (i : Nat) (enable : Bool) (s : State) : State :=
  if i < 2 ∧ !enable then s.setInst i { s.inst i with jumpRefused := false } else s

/-- One accepted clock command takes effect (R56, R58). -/
def applyClk (s : State) (c : ClkApply) : State :=
  match c with
  | .rate code => applyRate code s
  | .refConfig i cfg =>
    let s1 := clearJump i cfg.enable (withPst (fun p => p.applyRefConfig s.time i cfg) s)
    if i < 2 then judgePtp i s1 else s1
  | .select m man rev => withPst (fun p => p.applySelect s.time m man rev) s
  | .timers t => withPst (fun p => p.applyTimers s.time t) s
  | .holdover h => withPst (fun p => p.applyHoldover s.time h) s
  | .trim ppt => withPst (fun p => { p with trim := ppt }.refreshFreq) s
  | .phaseStep ns => withPst (fun p => p.applyPhaseStep ns) s
  | .realign r => withPst (fun p => p.applyRealign r) s

/-- An accepted effect waits for the next sample edge, or applies at once in ACQUIRE (R56). -/
def later (c : ClkApply) (s : State) : State :=
  if s.pst.state = .acquire then applyClk s c
  else { s with pst := { s.pst with waiting := s.pst.waiting ++ [c] } }

/-- The waiting effects take place at a sample edge, in the order of acceptance (R56). -/
def applyWaiting (s : State) : State :=
  s.pst.waiting.foldl applyClk { s with pst := { s.pst with waiting := [] } }

/-- An s64 field. -/
def le64s (x : Int) : List Byte := le64 (BitVec.ofInt 64 x)

/-- CLK_GET_STATUS (R56). -/
def clkGetStatus (s : State) : State × Reply :=
  let p := s.pst
  let ho := match p.hoEstimate with
    | none => le32 0 ++ le32 0x8000_0000#32
    | some h => le64s h
  (s, Reply.ok (le32 p.stateWord ++ le32 p.refStat ++ le32 p.mcnt ++ le64s p.fofs ++ ho ++ le32 p.residNs
    ++ le32 (BitVec.ofInt 32 p.phaseOfs) ++ le32 (BitVec.ofNat 32 (p.hoElapsed s.time))))

/-- An enabled word clock, DARS or VREF reference would break R35 at the new rate. -/
def rateBreaksRef (p : Pst) (code : Nat) : Bool :=
  [2, 3, 4].any fun i => (p.ref i).cfg.enable && !refSuits i (p.ref i).cfg.nominal.toNat code

/-- CLK_SET_RATE, its checks in the order of R29. -/
def clkSetRate (code : Byte) (s : State) : State × Reply :=
  let n := code.toNat
  if 4 < n then (s, Reply.code .badParam)
  else if n = s.pst.rate then (s, Reply.ok [])
  else if s.rdg.busyForRate then (s, Reply.code .busy)
  else if rateBreaksRef s.pst n then (s, Reply.code .badParam)
  else (later (.rate n) (rateAccepted s), Reply.ok [])

/-- CLK_REF_CONFIG (R35, R57, R58): the rank at once, every other field at the next sample edge. -/
def clkRefConfig (c : ClkRefConfig) (s : State) : State × Reply :=
  if !refConfigOk c s.pst.rate then (s, Reply.code .badParam)
  else
    let i := c.index.toNat
    (later (.refConfig i (clkCfgOf c)) (withPst (fun p => p.applyRank s.time i c.rank.toNat) s), Reply.ok [])

/-- CLK_SELECT (R39). -/
def clkSelect (c : ClkSelect) (s : State) : State × Reply :=
  let m := c.manual.toNat
  let rev := decide (c.revertive.toNat = 1)
  if 1 < c.revertive.toNat then (s, Reply.code .badParam)
  else match c.mode.toNat with
    | 0 => (later (.select .auto 7 rev) s, Reply.ok [])
    | 1 => if 5 < m then (s, Reply.code .badParam) else (later (.select .manual m rev) s, Reply.ok [])
    | 2 => (later (.select .none 7 rev) s, Reply.ok [])
    | _ => (s, Reply.code .badParam)

/-- The ranges of CLK_SET_TIMERS (R36, R40, R41, R43 to R45). -/
def clkTimersOk (t : ClkSetTimers) : Bool :=
  decide (t.wtr.toNat ≤ 3600 ∧ 1 ≤ t.slewLimit.toNat ∧ t.slewLimit.toNat ≤ 10000 ∧ t.slewWindow.toNat ≤ 10000000
    ∧ 10000 ≤ t.disagree.toNat ∧ t.disagree.toNat ≤ 100000000 ∧ 1000000 ≤ t.capture.toNat
    ∧ t.capture.toNat ≤ 200000000 ∧ 100 ≤ t.acquire.toNat ∧ t.acquire.toNat ≤ 60000)

/-- CLK_SET_TIMERS (R58). -/
def clkSetTimers (t : ClkSetTimers) (s : State) : State × Reply :=
  if clkTimersOk t then (later (.timers t) s, Reply.ok []) else (s, Reply.code .badParam)

/-- The ranges of CLK_SET_HOLDOVER (R51, R52). -/
def clkHoldoverOk (h : ClkSetHoldover) : Bool :=
  decide (h.method.toNat ≤ 1 ∧ h.oscClass.toNat ≤ 2 ∧ 1 ≤ h.specWindow.toNat ∧ h.specWindow.toNat ≤ 86400
    ∧ 1 ≤ h.w.toNat ∧ h.w.toNat ≤ 240 ∧ 1 ≤ h.wc.toNat ∧ h.wc.toNat ≤ 240 ∧ h.g.toNat ≤ 210
    ∧ h.wc.toNat + h.g.toNat ≤ 240)

/-- CLK_SET_HOLDOVER (R51, R52). -/
def clkSetHoldover (h : ClkSetHoldover) (s : State) : State × Reply :=
  if clkHoldoverOk h then (later (.holdover h) s, Reply.ok []) else (s, Reply.code .badParam)

/-- CLK_SET_TRIM (R49). -/
def clkSetTrim (ppt : Long) (s : State) : State × Reply :=
  if 100000000 < ppt.toInt.natAbs ∨ s.pst.state ≠ .freerun then (s, Reply.code .badParam)
  else (later (.trim ppt.toInt) s, Reply.ok (le64 ppt))

/-- Φ once every accepted phase step has been applied (R48). -/
def phaseAhead (p : Pst) : Int :=
  p.phaseOfs + (p.waiting.map fun c => match c with
    | .phaseStep ns => ns
    | _ => 0).sum

/-- CLK_PHASE_STEP (R48). -/
def clkPhaseStep (ns : Word) (s : State) : State × Reply :=
  let phi := phaseAhead s.pst + ns.toInt
  if s.pst.state = .acquire ∨ 10000000 < phi.natAbs then (s, Reply.code .badParam)
  else (later (.phaseStep ns.toInt) s, Reply.ok (le32 (BitVec.ofInt 32 phi)))

/-- A realignment is in progress from its acceptance until it completes (R47). -/
def realigning (p : Pst) : Bool :=
  decide (p.realign ≠ .idle) || p.waiting.any fun c => match c with
    | .realign _ => true
    | _ => false

/-- D and the sub-sample residual in ns (R46). -/
def realignReply (p : Pst) : Reply :=
  let d := p.wholeSamples
  let sub := p.held + p.resid - d * tsUnits (rateHz p.rate)
  Reply.ok (le32 (BitVec.ofInt 32 d) ++ le32 (nsWord sub slewUnit))

/-- CLK_REALIGN (R46, R47). -/
def clkRealign (c : ClkRealign) (s : State) : State × Reply :=
  let rate := c.arg.toNat
  match c.method.toNat with
  | 0 =>
    if rate < 1 ∨ 10000 < rate ∨ !s.pst.phaseHeld then (s, Reply.code .badParam)
    else if realigning s.pst then (s, Reply.code .busy)
    else (later (.realign (.slew rate)) s, realignReply s.pst)
  | 1 =>
    if ahead s c.arg < 2 ∨ !s.pst.phaseHeld then (s, Reply.code .badParam)
    else if realigning s.pst ∨ s.rdg.commit.isSome then (s, Reply.code .busy)
    else (later (.realign (.step c.arg s.pst.wholeSamples)) s, realignReply s.pst)
  | _ => (s, Reply.code .badParam)

/-- CLK_GET_REF (R56; log 29). -/
def clkGetRef (index : Byte) (s : State) : State × Reply :=
  let i := index.toNat
  if 5 < i then (s, Reply.code .badParam)
  else
    let r := s.pst.ref i
    let flags := (if r.present then 1 else 0) + (if r.valid then 2 else 0) + (if r.qualified then 4 else 0)
    let secs := if r.qualified then (s.time - r.qualSince) / 1000000 else 0
    let gm := if i < 2 then le64 (s.inst i).gmShown ++ [((s.inst i).chosen.map Announce.clockClass).getD 0] else []
    (s, Reply.ok ([BitVec.ofNat 8 flags] ++ le32 (BitVec.ofNat 32 secs) ++ le32 r.fofs
      ++ le32 (nsWord (s.pst.refPhase i) slewUnit) ++ gm))

/-- FAB_SET_GOVERNOR (R80, R90). -/
def fabSetGovernor (c : FabSetGovernor) (s : State) : State × Reply :=
  if !fabGovernorOk c then (s, Reply.code .badParam)
  else ({ s with fab := s.fab.setGovernor (c.mode.toNat = 1) (govParamsOf c) }, Reply.ok [])

/-- FAB_SET_ESCALATION (R76, R89). -/
def fabSetEscalation (burst stall : Half) (s : State) : State × Reply :=
  if burst.toNat < 1 ∨ 1000 < burst.toNat ∨ stall.toNat < 2 ∨ 4800 < stall.toNat then (s, Reply.code .badParam)
  else ({ s with fab := { s.fab with burstTh := burst.toNat, stallTh := stall.toNat } }, Reply.ok [])

/-- FAB_SET_TELEMETRY (R69, R70, R89): a change of W or N clears the histogram. -/
def fabSetTelemetry (n : Byte) (w : Half) (s : State) : State × Reply :=
  if n.toNat < 8 ∨ 16 < n.toNat ∨ w.toNat < 2 ∨ 4096 < w.toNat ∨ w.toNat % 2 = 1 then (s, Reply.code .badParam)
  else if n.toNat = s.fab.n ∧ w.toNat = s.fab.w then (s, Reply.ok [])
  else ({ s with fab := { s.fab.clearWindow with n := n.toNat, w := w.toNat } }, Reply.ok [])

/-- FAB_CLEAR_TELEMETRY (R89). -/
def fabClearTelemetry (s : State) : State × Reply :=
  ({ s with fab := { s.fab.clearWindow with slackMin := 0x7FFF_FFFF } }, Reply.ok [])

/-- The PTP time counter in phase units. -/
def Pst.ptpUnits (p : Pst) : Int := (p.ptpSec.toNat * 1000000000 * slewUnit + p.ptpFrac : Nat)

/-- Move the counter and tell the instances of the movement (R325, R331). -/
def moveCounter (d : Int) (s : State) : State :=
  { s with pst := s.pst.addPtp d, ptp := { s.ptp with moved := s.ptp.moved + d } }

/-- The slew's advance over one Ts (R44, R325): the share of phase steps moves the edges alone. -/
def slewAtEdge (s : State) : State :=
  let d := if s.pst.resid = 0 then 0 else s.pst.slewStep
  let share := s.pst.stepShare d
  let s1 := withPst (fun p => p.slewEdge.refreshFreq) s
  { s1 with pst := s1.pst.addPtp share, ptp := { s1.ptp with moved := s1.ptp.moved + (d - share) } }

/-- The counter at an edge (R27, R28): one Ts on, or at the first edge under a PTP reference the time of that edge. -/
def counterAtEdge (s : State) : State :=
  let ts : Int := tsUnits s.fs
  if s.pst.firstEdge then
    if ptpSelected s then
      let phi := s.pst.phaseOfs * slewUnit
      let n := -((phi - s.pst.ptpUnits).fdiv ts)
      { s with pst := s.pst.addPtp (n * ts + phi - s.pst.ptpUnits) }
    else s
  else { s with pst := s.pst.addPtp ts }

/-- MCNT at an edge (R27): one more, or at the step edge of a STEP m + D, where the counter moves by D · Ts and the
transmit packets in progress go (R46, R325, R347). -/
def mcntAtEdge (s : State) : State :=
  match s.pst.realign with
  | .step _ d =>
    let s1 := { s with pst := s.pst.nextMcnt }
    if s.pst.isStepEdge then txStep s1.pst.mcnt d (moveCounter (d * tsUnits s.fs) s1) else s1
  | _ => { s with pst := s.pst.nextMcnt }

/-- Polestar at a sample edge: the slew, the counter and MCNT. -/
def polestarEdge (s : State) : State :=
  let s1 := mcntAtEdge (counterAtEdge (slewAtEdge s))
  withPst (fun p => p.refreshFreq) s1

/-- SLEW_COMPLETE (R42, R44): what is left of the residual is gone. -/
def slewComplete (s : State) : State :=
  if s.pst.state = .acquire then s
  else
    let d := s.pst.resid
    let share := s.pst.stepShare d
    let s1 := withPst (fun p => p.slewComplete s.time) s
    { s1 with pst := s1.pst.addPtp share, ptp := { s1.ptp with moved := s1.ptp.moved + (d - share) } }

/-- PTP_SET_TIME_APPLY (R326): at the rollover of the nanoseconds the seconds and MCNT take their new values. -/
def ptpSetTimeApply (s : State) : State :=
  match s.ptp.setTime with
  | none => s
  | some sec =>
    let new : Int := (sec.toNat * 1000000000 * slewUnit : Nat)
    let m := mcntAt s sec
    let d := serialDiff m s.pst.mcnt
    let s1 := moveCounter (new - s.pst.ptpUnits) { s with pst := { s.pst with mcnt := m } }
    txStep m d { s1 with ptp := { s1.ptp with setTime := none } }

end Sys2Proof.Machine
end

