-- ==== Sys2Proof/Machine/Dma.lean ====
section
/-! DEFINITION. The DMA engine (R212 to R229): starting and stopping a channel, descriptors, bursts, pacing, completion
and errors, and the channel registers. -/

namespace Sys2Proof.Machine

def State.dmaCh (s : State) (n : Nat) : DmaCh := Store.look DmaCh.init s.dma.ch n

def State.setDmaCh (s : State) (n : Nat) (c : DmaCh) : State :=
  { s with dma := { s.dma with ch := Store.put DmaCh.init s.dma.ch n c } }

/-- DMA_CTRL fields (R227). -/
def DmaCh.isLinked (c : DmaCh) : Bool := c.ctrl.getLsbD 2
def DmaCh.paceCode (c : DmaCh) : Nat := c.ctrl.toNat / 32 % 4
def DmaCh.irqEn (c : DmaCh) : Bool := c.ctrl.getLsbD 7
def DmaCh.burstCode (c : DmaCh) : Nat := c.ctrl.toNat / 256 % 8
def DmaCh.cont (c : DmaCh) : Bool := c.ctrl.getLsbD 11
def DmaCh.burstBytes (c : DmaCh) : Nat := 16 * 2 ^ c.burstCode

/-- DMA_PACE fields as latched at the start (R226). -/
def DmaCh.reqLine (c : DmaCh) : Nat := c.lPace.toNat % 256
def DmaCh.evtKind (c : DmaCh) : Nat := c.lPace.toNat / 256 % 4
def DmaCh.evtChan (c : DmaCh) : Nat := c.lPace.toNat / 1024 % 32
def DmaCh.period (c : DmaCh) : Nat := c.lPace.toNat / 65536

/-- IRQ_PEND (R228). -/
def DmaCh.irqPend (c : DmaCh) : Bool := c.irqEn && c.doneCnt != c.doneAck

/-- A channel stops with a reason (R228). -/
def DmaCh.halt (c : DmaCh) (reason : Nat) : DmaCh :=
  { c with running := false, phase := .idle, stopReason := reason, resume := none }

/-- The reason that a reserved PACE or BURST code gives: a BURST code by the form of the channel (R222, R227; log 18). -/
def DmaCh.badCode (c : DmaCh) : Option Nat :=
  if c.paceCode = 3 then some 6 else if 5 ≤ c.burstCode then some (if c.linked then 8 else 6) else none

/-- The configuration that R219, R222 and R227 refuse at a start, by its stop reason. -/
def DmaCh.badConfig (c : DmaCh) (n : Nat) : Option Nat :=
  if c.paceCode = 2 ∧ (c.evtKind = 3 ∨ (c.evtKind = 2 ∧ c.evtChan = n)) then some 6 else c.badCode

/-- What follows once a transfer or descriptor is known: it waits for an event, moves, or is complete. -/
def DmaCh.begin (c : DmaCh) (wait : Bool) : DmaCh :=
  let go : DmaCh := { c with phase := if c.remain = 0 then .complete else .move }
  if wait then
    if c.evtPend = 0 then { c with phase := .waitEvt } else { go with evtPend := c.evtPend - 1 }
  else go

/-- A start (R213, R214, R216, R219): the registers are latched. -/
def DmaCh.start (c : DmaCh) (n : Nat) : DmaCh :=
  let c1 := { c with lPace := c.pace, t := c.evtMcnt, tArmed := true, linked := c.isLinked, evtPend := 0, hops := 0
                     resume := none }
  match c1.badConfig n with
  | some r => c1.halt r
  | none =>
    if c1.linked then
      let a := if c.cont then c.cur else c.desc
      if a.toNat % 32 ≠ 0 then c1.halt 8 else { c1 with running := true, phase := .fetch, cur := a }
    else if c.src.toNat % 4 ≠ 0 ∨ c.dst.toNat % 4 ≠ 0 ∨ c.count.toNat % 4 ≠ 0 then c1.halt 6
    else
      DmaCh.begin { c1 with running := true, mSrc := c.src.toNat, mDst := c.dst.toNat, mCount := c.count.toNat
                            remain := c.count, dctrl := 2 }
        (c.paceCode == 2 && c.count != 0)

/-- A write of 1 to RUN (R213, R225): no effect while the channel runs. -/
def dmaRun (n : Nat) (s : State) : State :=
  if (s.dmaCh n).running then s else s.setDmaCh n ((s.dmaCh n).start n)

/-- Both ends of the range are on a path, and in Tarn and DRAM it lies in the owner's regions; the gain store and flash have
no regions (R206, R208, R222). -/
def dmaRangeOk (s : State) (n a len : Nat) (write : Bool) : Bool :=
  let z := a + len - 1
  pathOk 7 (targetOf s a) a write && pathOk 7 (targetOf s z) z write
    && (decide (16 < targetOf s a) || inOwnRegion s (ownerOf s (.dmaCh n)) a len)

/-- A channel that runs stops with BUS_ERR, where it stood (R223). -/
def DmaCh.busStop (c : DmaCh) : DmaCh := { c.halt 7 with resume := some (c.resume.getD c.phase) }

/-- An error response stops every channel that runs (R223). -/
def dmaError (a : Nat) (write : Bool) (s : State) : State :=
  reportOwn 0x068 { s with dma := { s.dma with
    stopped := true, errAddr := a, errWrite := write, busErrCnt := s.dma.busErrCnt + 1
    ch := Store.mapAll DmaCh.init s.dma.ch fun _ c => if c.running then c.busStop else c } }

/-- The descriptor's reserved bits and alignments (R214, R215, R222). -/
def descOk (dctrl count : Nat) (src dst next : Nat) : Bool :=
  decide (dctrl / 16 % 2 ^ 20 = 0 ∧ count % 4 = 0 ∧ count ≤ 0x00FF_FFFC ∧ src % 4 = 0 ∧ dst % 4 = 0 ∧ src < 2 ^ 40
    ∧ dst < 2 ^ 40 ∧ next / 2 % 16 = 0 ∧ next < 2 ^ 40)

/-- The channel stood within its descriptor when the engine stopped (R223). -/
def DmaCh.partWay (c : DmaCh) : Bool := c.resume == some .move || c.resume == some .complete

/-- A fetched descriptor (R214 to R216, R222, R224); after DMA_RESUME one that had begun goes on from its recorded position
(R223). -/
def takeDesc (n : Nat) (bs : List Byte) (s : State) : State :=
  let c := s.dmaCh n
  let dctrl := leAt bs 0 4
  let count := leAt bs 4 4
  let src := leAt bs 8 8
  let dst := leAt bs 16 8
  let next := leAt bs 24 8
  if dctrl % 2 = 0 then s.setDmaCh n (c.halt 3)
  else if !descOk dctrl count src dst next then s.setDmaCh n (c.halt 8)
  else
    let wait := natBit dctrl 2 && c.paceCode == 2
    let hops := if c.partWay then c.hops else if count = 0 ∧ !natBit dctrl 2 then c.hops + 1 else 0
    if hops = 64 then reportFault 0x069 (BitVec.ofNat 16 n) (s.setDmaCh n ({ c with hops := hops }.halt 4))
    else
      let c1 := { c with dctrl := BitVec.ofNat 32 dctrl, mCount := count, mSrc := src, mDst := dst
                         next := BitVec.ofNat 64 next, hops := hops, resume := none
                         remain := if c.partWay then c.remain else BitVec.ofNat 32 count }
      s.setDmaCh n (c1.begin (wait && !c.partWay))

/-- The engine fetches the descriptor at DMA_CUR (R216). -/
def dmaFetch (n : Nat) (s : State) : State :=
  let c := s.dmaCh n
  if s.dma.stopped || c.phase != .fetch then s
  else
    let a := c.cur.toNat
    if !dmaRangeOk s n a 32 false || decide (16 < targetOf s a) then
      reportFault 0x067 (BitVec.ofNat 16 n) (s.setDmaCh n (c.halt 5))
    else match colRead 7 a 32 s with
      | (s1, some bs) => takeDesc n bs s1
      | (s1, none) => dmaError a false s1

/-- Bytes to the next 4 KiB boundary. -/
def toPage (a : Nat) : Nat := 4096 - a % 4096

/-- Move bytes, piece by piece at 4 KiB boundaries (R217); none for an error response, with its address. -/
def movePieces : Nat → Nat → Nat → Nat → State → State × Option (Nat × Bool)
  | 0, _, _, _, s => (s, none)
  | fuel + 1, src, dst, len, s =>
    if len = 0 then (s, none)
    else
      let k := min len (min (toPage src) (toPage dst))
      match colRead 7 src k s with
      | (s1, none) => (s1, some (src, false))
      | (s1, some bs) => match colWrite 7 dst bs s1 with
        | (s2, false) => (s2, some (dst, true))
        | (s2, true) => movePieces fuel (src + k) (dst + k) (len - k) s2

/-- The engine takes a request as the burst is granted (R218). -/
def takeRequest (c : DmaCh) (s : State) : State :=
  if c.paceCode = 1 then { s with dma := { s.dma with lines := setBit s.dma.lines c.reqLine false } } else s

/-- A burst is ready: the engine runs and a request-paced channel's line is high (R218). -/
def burstReady (s : State) (n : Nat) : Bool :=
  let c := s.dmaCh n
  !s.dma.stopped && c.phase == .move && (c.paceCode != 1 || s.dma.lines.getLsbD c.reqLine)

/-- One burst of a channel (R217, R218, R222, R223). -/
def dmaBurst (n : Nat) (s : State) : State :=
  let c := s.dmaCh n
  if !burstReady s n then s
  else if c.badCode.isSome then s.setDmaCh n (c.halt (c.badCode.getD 6))
  else
    let done := c.mCount - c.remain.toNat
    let len := min c.burstBytes c.remain.toNat
    let src := c.mSrc + done
    let dst := c.mDst + done
    if !dmaRangeOk s n src len false || !dmaRangeOk s n dst len true then
      reportFault 0x067 (BitVec.ofNat 16 n) (s.setDmaCh n (c.halt 5))
    else match movePieces 4 src dst len (takeRequest c s) with
      | (s1, some (a, w)) => dmaError a w s1
      | (s1, none) =>
        let left := c.remain - BitVec.ofNat 32 len
        s1.setDmaCh n { c with remain := left, phase := if left = 0 then .complete else .move }

/-- Write a descriptor's DCTRL back with a DSTATUS; OWN cleared or kept (R216, R225). -/
def writeBack (c : DmaCh) (status : Nat) (keepOwn : Bool) (s : State) : State × Bool :=
  let low := c.dctrl.toNat % 2 ^ 24
  let own := if keepOwn || natBit low 3 then low else low / 2 * 2
  colWrite 7 c.cur.toNat (leBytes 4 (own + status * 2 ^ 24)) s

/-- A write of 1 to STOP (R225). -/
def dmaStop (n : Nat) (s : State) : State :=
  let c := s.dmaCh n
  if !c.running then s
  else if c.linked && c.phase != .fetch then
    match writeBack c 2 true (s.setDmaCh n (c.halt 2)) with
    | (s1, true) => s1
    | (s1, false) => dmaError c.cur.toNat true s1
  else s.setDmaCh n (c.halt 2)

/-- An event reaches a channel: it releases what waits, or is held, or is lost (R219). -/
def DmaCh.event (c : DmaCh) : DmaCh :=
  if !c.running || c.paceCode != 2 then c
  else if c.phase == .waitEvt then { c with phase := if c.remain = 0 then .complete else .move }
  else if c.evtPend < 15 then { c with evtPend := c.evtPend + 1 }
  else { c with evtOvr := satInc c.evtOvr }

/-- A timer event (R219). -/
def dmaTimer (n : Nat) (s : State) : State :=
  let c := s.dmaCh n
  if c.evtKind = 0 then s.setDmaCh n c.event else s

/-- An MCNT match (R219). -/
def dmaMatch (n : Nat) (s : State) : State :=
  let c := s.dmaCh n
  if c.running && c.evtKind == 1 && c.tArmed && decide (0 ≤ serialDiff s.mcnt c.t) then
    s.setDmaCh n { c.event with t := c.t + BitVec.ofNat 32 c.period, tArmed := decide (c.period ≠ 0) }
  else s

/-- A signalled completion (R219, R221): the count, and an event to each channel chained to it. -/
def signalDone (n : Nat) (s : State) : State :=
  let c := s.dmaCh n
  let s1 := s.setDmaCh n { c with doneCnt := c.doneCnt + 1 }
  { s1 with dma := { s1.dma with
      ch := Store.mapAll DmaCh.init s1.dma.ch fun _ x =>
        if x.running && x.evtKind == 2 && x.evtChan == n then x.event else x } }

/-- A channel goes on after a descriptor (R214, R216, R224). -/
def DmaCh.follow (c : DmaCh) : DmaCh :=
  if natBit c.next.toNat 0 then c.halt 1
  else { c with phase := .fetch, cur := BitVec.ofNat 40 (c.next.toNat / 32 * 32) }

/-- A transfer or descriptor completes: read-back, write-back, then the signal (R213, R221, R223). -/
def dmaComplete (n : Nat) (s : State) : State :=
  let c := s.dmaCh n
  if s.dma.stopped || c.phase != .complete then s
  else
    let last := (c.mDst + c.mCount - 4) / 16 * 16
    let back := if c.mCount = 0 then (s, some []) else colRead 7 last 16 s
    match back with
    | (s1, none) => dmaError last false s1
    | (s1, some _) =>
      if c.linked then
        match writeBack c 1 false s1 with
        | (s2, false) => dmaError c.cur.toNat true s2
        | (s2, true) =>
          let s3 := s2.setDmaCh n c.follow
          if natBit c.dctrl.toNat 1 then signalDone n s3 else s3
      else signalDone n (s1.setDmaCh n (c.halt 1))

/-- A request line rises (R218). -/
def dmaRequest (line : Nat) (s : State) : State :=
  { s with dma := { s.dma with lines := setBit s.dma.lines line true } }

/-- A request line drops before its burst is granted (R218). -/
def dmaWithdraw (line : Nat) (s : State) : State :=
  if !s.dma.lines.getLsbD line then s
  else
    { s with dma := { s.dma with
        lines := setBit s.dma.lines line false
        ch := Store.mapAll DmaCh.init s.dma.ch fun _ c =>
          if c.running && c.paceCode == 1 && c.reqLine == line && c.phase == .move then { c with reqDrop := satInc c.reqDrop }
          else c } }

/-- DMA_RESUME (R223, R230). -/
def dmaResume (s : State) : State × Reply :=
  if !s.dma.stopped then (s, Reply.code .busy)
  else
    let hit := s.dma.ch.filter fun e => e.2.stopReason == 7 && !e.2.running
    ({ s with dma := { s.dma with
        stopped := false
        ch := Store.mapAll DmaCh.init s.dma.ch fun _ c =>
          if c.stopReason == 7 && !c.running then
            { c with running := true, phase := if c.linked then .fetch else c.resume.getD .move
                     resume := if c.linked then c.resume else none }
          else c } },
      Reply.ok (leBytes 4 hit.length))

/-- MEM_SET_SCRUB (R202, R210, R230). -/
def memSetScrub (period timeout : Half) (s : State) : State × Reply :=
  if period.toNat < 1 ∨ 600 < period.toNat ∨ timeout.toNat < 2 ∨ 1000 < timeout.toNat then (s, Reply.code .badParam)
  else ({ s with col := { s.col with scrubPeriod := period.toNat, pathTimeout := timeout.toNat } }, Reply.ok [])

/-- DMA_RUNNING (R229). -/
def dmaRunning (s : State) : Word := (List.range 32).foldl (fun w n => w ||| bitAt n (s.dmaCh n).running) 0

/-- MEM_GET_STATUS (R230). -/
def memGetStatus (p : Nat) (s : State) : State × Reply :=
  let c := s.col
  let mine := (List.range 32).filter fun n => ownerOf s (.dmaCh n) == p
  (s, Reply.ok (le32 (bitAt 0 s.dma.stopped) ++ le32 (dmaRunning s) ++ le32 (bitAt 0 (dbeHeld s)) ++ le32 c.corrCnt
    ++ le32 c.dbeCnt ++ le32 c.ddrCorr ++ le32 c.ddrDbe ++ le32 c.errCnt ++ le32 c.timeoutCnt
    ++ le32 (c.fenced.setWidth 32) ++ mine.map fun n => BitVec.ofNat 8 (s.dmaCh n).stopReason))

/-- DMA_STAT (R228). -/
def dmaStat (s : State) (n : Nat) : Word :=
  let c := s.dmaCh n
  bitAt 0 c.running ||| bitAt 1 (c.phase == .move && c.paceCode == 1 && !s.dma.lines.getLsbD c.reqLine)
    ||| bitAt 2 (c.phase == .waitEvt) ||| bitAt 3 c.irqPend ||| fieldAt 4 c.evtPend ||| fieldAt 8 c.stopReason
    ||| fieldAt 16 c.reqDrop.toNat ||| fieldAt 24 c.evtOvr.toNat

/-- The low and high words of an address register. -/
def loWord (x : BitVec 40) : Word := x.setWidth 32
def hiWord (x : BitVec 40) : Word := (x >>> 32).setWidth 32
def withLo (x : BitVec 40) (w : Word) : BitVec 40 := (x >>> 32 <<< 32) ||| w.setWidth 40
def withHi (x : BitVec 40) (w : Word) : BitVec 40 := (loWord x).setWidth 40 ||| (w.setWidth 40 <<< 32)

/-- A read of a channel's register block, 0x0800 to 0x0FFF (R226 to R228). -/
def dmaChRead (s : State) (a : Nat) : Word :=
  let n := (a - 0x0800) / 0x40
  let c := s.dmaCh n
  match (a - 0x0800) % 0x40 with
  | 0x00 => c.ctrl ||| bitAt 0 c.running
  | 0x04 => dmaStat s n
  | 0x08 => loWord c.src
  | 0x0C => hiWord c.src
  | 0x10 => loWord c.dst
  | 0x14 => hiWord c.dst
  | 0x18 => c.count
  | 0x1C => loWord c.desc
  | 0x20 => hiWord c.desc
  | 0x24 => loWord c.cur
  | 0x28 => hiWord c.cur
  | 0x2C => c.remain
  | 0x30 => c.pace
  | 0x34 => c.evtMcnt
  | 0x38 => c.doneCnt
  | 0x3C => c.doneAck
  | _ => 0

/-- A write of DMA_CTRL (R225, R227). -/
def dmaCtrlWrite (n : Nat) (w : Word) (s : State) : State :=
  let s1 := s.setDmaCh n { s.dmaCh n with ctrl := w &&& 0x0FFC#32 }
  if w.getLsbD 1 then dmaStop n s1 else if w.getLsbD 0 then dmaRun n s1 else s1

/-- A write to a channel's register block from its owner (R212, R226, R227). -/
def dmaChWrite (a : Nat) (w : Word) (s : State) : State :=
  let n := (a - 0x0800) / 0x40
  let c := s.dmaCh n
  match (a - 0x0800) % 0x40 with
  | 0x00 => dmaCtrlWrite n w s
  | 0x08 => s.setDmaCh n { c with src := withLo c.src w }
  | 0x0C => s.setDmaCh n { c with src := withHi c.src (w &&& 0xFF#32) }
  | 0x10 => s.setDmaCh n { c with dst := withLo c.dst w }
  | 0x14 => s.setDmaCh n { c with dst := withHi c.dst (w &&& 0xFF#32) }
  | 0x18 => s.setDmaCh n { c with count := w }
  | 0x1C => s.setDmaCh n { c with desc := withLo c.desc w }
  | 0x20 => s.setDmaCh n { c with desc := withHi c.desc (w &&& 0xFF#32) }
  | 0x30 => s.setDmaCh n { c with pace := w &&& 0xFFFF7FFF#32 }
  | 0x34 => s.setDmaCh n { c with evtMcnt := w }
  | 0x3C => s.setDmaCh n { c with doneAck := w }
  | _ => s

/-- A read of the engine's registers, 0x5580 to 0x5593 (R229). -/
def dmaRegRead (s : State) (a : Nat) : Word :=
  if a = 0x5580 then bitAt 0 s.dma.stopped
  else if a = 0x5584 then BitVec.ofNat 32 s.dma.errAddr
  else if a = 0x5588 then BitVec.ofNat 32 (s.dma.errAddr / 2 ^ 32) ||| bitAt 8 s.dma.errWrite
  else if a = 0x558C then s.dma.busErrCnt
  else if a = 0x5590 then dmaRunning s
  else 0

/-- A master meets the error response of a path timeout (R207, R210). -/
def masterError (master target a : Nat) (write : Bool) (s : State) : State :=
  if master < 6 then (enginesUsing s master target).foldl (fun t e => trap e .farError t) s
  else if master = 6 then reportOwn 0x06B s
  else if master = 7 then dmaError a write s
  else s

/-- A Col path timeout (R210): the access fails and the target is fenced. -/
def colTimeout (master target a : Nat) (write : Bool) (s : State) : State :=
  let s1 := colError master target 3 write a s
  let s2 := { s1 with col := { s1.col with
    timeoutCnt := s1.col.timeoutCnt + 1, fenced := setBit s1.col.fenced target true } }
  let src := if target < 16 ∨ target = 19 then 0x064 else 0x065
  masterError master target a write (reportFault src (BitVec.ofNat 16 target) s2)

end Sys2Proof.Machine
end

