-- ==== Sys2Proof/Machine/Power.lean ====
section
/-! DEFINITION. The power stage (R260 to R283): mutes, the start and stop sequences, protection, and the commands. -/

namespace Sys2Proof.Machine

/-- Forced mute (R270). -/
def fsMute (s : State) : Bool := s.lkt.failSilent || s.rdg.live.isNone || s.pst.state == .acquire

/-- A mute of any kind holds channel `c` (R270, R457). -/
def muteHeldOn (s : State) (c : Nat) : Bool := (s.pwsCh c).hostMute || fsMute s || lookoutMute s || chMuted s c

/-- The bus is out of range (R278). -/
def busBad (s : State) : Bool := s.pws.busUv || s.pws.busOv

/-- A channel enters the start sequence (R272): with the bus out of range it waits for it (R271). -/
def beginStart (s : State) (c : Nat) : State :=
  let x := s.pwsCh c
  s.setPwsCh c
    { x with state := if busBad s then .busWait else .starting, stage := .check, wasStopping := false, released := false
             gain := 0, retryDue := false, startFailed := false, dcOver := 0, halfOff := false, limiting := false
             staggerLock := false }

/-- Both gates low at once; the channel is in a state. -/
def PwsCh.gatesLow (x : PwsCh) (st : PwsState) : PwsCh :=
  { x with state := st, released := false, gain := 0, halfOff := false, limiting := false, staggerLock := false }

/-- A channel goes to LATCHED with a cause: 1 current, 2 DC (R271, R275, R277); PWS_LATCHED is raised (R276). -/
def latch (c cause : Nat) (s : State) : State :=
  reportFault 0x0A1 (BitVec.ofNat 16 c) (s.setPwsCh c { (s.pwsCh c).gatesLow .latched with latchCause := cause })

/-- The host's PWS_STOP leads the channel to OFF, a bus condition in between notwithstanding (R271). -/
def PwsCh.goesOff (x : PwsCh) : Bool :=
  x.state == .stopping && (x.stopTo == .off || (x.stopTo == .busWait && x.wasStopping))

/-- The stop sequence begins (R273): before release the channel is where it leads at once. -/
def beginStop (aim : StopTo) (s : State) (c : Nat) : State :=
  let x := s.pwsCh c
  if x.released then s.setPwsCh c { x with state := .stopping, stopTo := aim, wasStopping := x.goesOff }
  else match aim with
    | .off => s.setPwsCh c (x.gatesLow .off)
    | .busWait => s.setPwsCh c { x.gatesLow .busWait with wasStopping := x.goesOff }
    | .latchedDc => latch c 2 s

/-- The channels of a mask. -/
def channelsOf (m : Half) : List Nat := bitsOf m

/-- PWS_SET_STAGE (R262, R267, R278, R283). -/
def pwsSetStage (c : PwsSetStage) (s : State) : State × Reply :=
  if c.f0.toNat < 350 ∨ 600 < c.f0.toNat ∨ c.uv.toNat < 100 ∨ 1400 < c.uv.toNat ∨ c.ov.toNat < 200 ∨ 1600 < c.ov.toNat
      ∨ c.ov.toNat < c.uv.toNat + 100 then (s, Reply.code .badParam)
  else if (List.range 16).any fun n => !((s.pwsCh n).state == .off || (s.pwsCh n).state == .latched) then
    (s, Reply.code .busy)
  else ({ s with pws := { s.pws with idleKhz := c.f0.toNat, divider := c.divider.toNat, uv := c.uv.toNat, ov := c.ov.toNat } },
    Reply.ok [])

/-- PWS_SET_CHANNEL (R262, R274, R275, R277, R279, R283). -/
def pwsSetChannel (c : PwsSetChannel) (s : State) : State × Reply :=
  let n := c.channel.toNat
  let x := s.pwsCh n
  if 15 < n ∨ 15 < c.retries.toNat ∨ c.d.toNat < 1000 ∨ 17000 < c.d.toNat ∨ c.limit.toNat < 50 ∨ 780 < c.limit.toNat
      ∨ c.dcTh.toNat < 50 ∨ 2000 < c.dcTh.toNat ∨ c.dcTime.toNat < 50 ∨ 2000 < c.dcTime.toNat
      ∨ c.dcTime.toNat % 10 ≠ 0 ∨ c.retryDelay.toNat < 100 ∨ 10000 < c.retryDelay.toNat then (s, Reply.code .badParam)
  else if !(x.state == .off || x.state == .latched) then (s, Reply.code .busy)
  else
    (s.setPwsCh n
      { x with maxRetries := c.retries.toNat, d := c.d.toNat, limit := c.limit.toNat, dcTh := c.dcTh.toNat
               dcTime := c.dcTime.toNat, retryDelay := c.retryDelay.toNat }, Reply.ok [])

/-- PWS_START: the reply is PENDING until every named channel has come to an end of its start (R272, R279, R283). -/
def pwsStart (mask : Half) (s : State) : State × Reply :=
  if (channelsOf mask).any fun n => (s.pwsCh n).state != .off then (s, Reply.code .busy)
  else ((channelsOf mask).foldl beginStart s, { status := .pending, payload := [] })

/-- One channel of PWS_STOP (R271, R273, R279). -/
def stopChannel (s : State) (c : Nat) : State :=
  let x := s.pwsCh c
  match x.state with
  | .starting | .playing => beginStop .off s c
  | .retryWait => s.setPwsCh c (x.gatesLow .off)
  | _ => s

/-- PWS_STOP (R273, R283). -/
def pwsStop (mask : Half) (s : State) : State × Reply := ((channelsOf mask).foldl stopChannel s, Reply.ok [])

/-- PWS_MUTE (R269, R270, R283). -/
def pwsMute (mask : Half) (mute : Byte) (s : State) : State × Reply :=
  if 1 < mute.toNat then (s, Reply.code .badParam)
  else ((channelsOf mask).foldl (fun t c => t.setPwsCh c { t.pwsCh c with hostMute := mute.toNat = 1 }) s, Reply.ok [])

/-- PWS_CLEAR (R271, R283). -/
def pwsClear (mask : Half) (s : State) : State × Reply :=
  if (channelsOf mask).any fun n => (s.pwsCh n).state != .latched then (s, Reply.code .badParam)
  else ((channelsOf mask).foldl
    (fun t c => t.setPwsCh c { (t.pwsCh c).gatesLow .off with retries := 0, latchCause := 0 }) s, Reply.ok [])

def PwsState.code : PwsState → Nat
  | .off => 0 | .starting => 1 | .playing => 2 | .stopping => 3 | .retryWait => 4 | .busWait => 5 | .latched => 6

/-- CLIP_RECENT (R281). -/
def PwsCh.clipRecent (x : PwsCh) (now : Nat) : Bool :=
  match x.clipAt with
  | none => false
  | some t => decide (now < t + 1000000)

/-- PWS_CSTAT (R281). -/
def pwsCstat (s : State) (c : Nat) : Word :=
  let x := s.pwsCh c
  fieldAt 0 x.state.code ||| bitAt 3 (x.gain != 32) ||| bitAt 4 x.staggerLock ||| bitAt 5 x.limiting
    ||| bitAt 6 (x.clipRecent s.time) ||| bitAt 7 (fsMute s) ||| fieldAt 8 x.latchCause ||| fieldAt 10 x.retries
    ||| bitAt 14 x.hostMute

/-- PWS_GSTAT (R280). -/
def pwsGstat (s : State) : Word :=
  bitAt 0 s.pws.busUv ||| bitAt 1 s.pws.busOv ||| bitAt 2 (s.pws.staggerRef && !s.lkt.xoLoss)
    ||| (List.range 16).foldl (fun w n => w ||| bitAt (16 + n) ((s.pwsCh n).state == .playing)) 0

/-- A read of the power-stage registers, 0x6400 to 0x65FF (R280 to R282). -/
def pwsRead (s : State) (a : Nat) : Word :=
  if a = 0x6400 then pwsGstat s
  else if a = 0x6404 then s.pws.vbus.setWidth 32
  else if a = 0x6408 then BitVec.ofNat 32 s.pws.idleKhz
  else if 0x6500 ≤ a ∧ a < 0x6600 then
    let n := (a - 0x6500) / 16
    match a % 16 with
    | 0x0 => pwsCstat s n
    | 0x4 => (s.pwsCh n).dc
    | 0x8 => (s.pwsCh n).limitShutCnt
    | _ => (s.pwsCh n).clipCnt
  else 0

/-- PWS_GET_STATUS (R283). -/
def pwsGetStatus (c : Byte) (s : State) : State × Reply :=
  if 15 < c.toNat then (s, Reply.code .badParam)
  else (s, Reply.ok (le32 (pwsRead s 0x6400) ++ le32 (pwsRead s 0x6404)
    ++ [0, 4, 8, 12].flatMap fun o => le32 (pwsRead s (0x6500 + 16 * c.toNat + o))))

/-- A started channel holds zero under a mute (R272, R283). -/
def holdsZero (s : State) (c : Nat) : Bool :=
  let x := s.pwsCh c
  x.state == .starting && x.stage == .unmute && x.gain == 0 && muteHeldOn s c

/-- What a PWS_START answers, once every named channel has come to an end of its start (R271, R283). -/
def pwsStartEnd (mask : Half) (s : State) : Option Reply :=
  if (channelsOf mask).any fun c =>
      let st := (s.pwsCh c).state
      (st == .starting && !holdsZero s c) || st == .busWait || st == .retryWait then none
  else if (channelsOf mask).any fun c => (s.pwsCh c).startFailed then some (Reply.code .timeout)
  else some (Reply.ok [])

/-- PWS_PRE_RELEASE_CHECK, 1 ms into a start: the FB difference and ISENSE in mV (R272). -/
def preRelease (c : Nat) (fb isense : Int) (s : State) : State :=
  let x := s.pwsCh c
  if x.state == .starting && x.stage == .check then
    if fb.natAbs ≤ 50 ∧ (isense - 900).natAbs ≤ 50 then
      let s1 := s.setPwsCh c { x with stage := .hold, released := true, dcOver := 0 }
      { s1 with pws := { s1.pws with staggerRef := true } }
    else s.setPwsCh c { x.gatesLow .off with startFailed := true }
  else s

/-- PWS_UNMUTE_START, 3 ms into a start (R272). -/
def unmuteStart (c : Nat) (s : State) : State :=
  let x := s.pwsCh c
  if x.state == .starting && x.stage == .hold then s.setPwsCh c { x with stage := .unmute } else s

/-- The mute gain's target, in steps (R269, R272, R273). -/
def gainTarget (s : State) (c : Nat) : Nat :=
  let x := s.pwsCh c
  let up := x.state == .playing || (x.state == .starting && x.stage == .unmute)
  if up && !muteHeldOn s c then 32 else 0

/-- MUTE_STEP: one 20 µs step of a channel's mute gain (R269, R272). -/
def muteStep (c : Nat) (s : State) : State :=
  let x := s.pwsCh c
  if !x.released then s
  else
    let t := gainTarget s c
    let g := if x.gain < t then x.gain + 1 else if t < x.gain then x.gain - 1 else x.gain
    s.setPwsCh c { x with gain := g, state := if x.state == .starting && g == 32 then .playing else x.state }

/-- PWS_GATES_OFF: the end of a stop (R271, R273, R277, R278). -/
def gatesOff (c : Nat) (s : State) : State :=
  let x := s.pwsCh c
  if x.state == .stopping && x.gain == 0 then
    match x.stopTo with
    | .off => s.setPwsCh c (x.gatesLow .off)
    | .busWait => s.setPwsCh c (x.gatesLow .busWait)
    | .latchedDc => latch c 2 s
  else s

/-- CURRENT_LIMIT: ISENSE crosses the limit in a half-cycle (R274). -/
def currentLimit (c : Nat) (s : State) : State :=
  let x := s.pwsCh c
  if x.released then s.setPwsCh c { x with halfOff := true, limiting := true } else s

/-- LIMIT_SHUTDOWN: 64 consecutive limited cycles (R275, R276, R279). -/
def limitShutdown (c : Nat) (s : State) : State :=
  let x := s.pwsCh c
  if !x.released then s
  else
    let s1 := reportFault 0x0A0 (BitVec.ofNat 16 c) (s.setPwsCh c { x with limitShutCnt := x.limitShutCnt + 1 })
    if x.state == .stopping && x.stopTo == .latchedDc then latch c 2 s1
    else if x.maxRetries ≤ x.retries then latch c 1 s1
    else s1.setPwsCh c ((s1.pwsCh c).gatesLow .retryWait)

/-- A retry starts (R271, R275). -/
def retryStart (s : State) (c : Nat) : State :=
  let s1 := beginStart s c
  let x := s1.pwsCh c
  s1.setPwsCh c { x with retries := x.retries + 1 }

/-- RETRY_DELAY_EXPIRY (R271, R275, R278): no retry starts until the bus is in range. -/
def retryExpiry (c : Nat) (s : State) : State :=
  let x := s.pwsCh c
  if x.state != .retryWait then s
  else if busBad s then s.setPwsCh c { x with retryDue := true }
  else retryStart s c

/-- RETRIES_RESET: 60 s of PLAYING without a shutdown (R275). -/
def retriesReset (c : Nat) (s : State) : State :=
  let x := s.pwsCh c
  if x.state == .playing then s.setPwsCh c { x with retries := 0 } else s

/-- DC_WINDOW: one 10 ms window's mean output in mV, and whether a cycle in it was limited (R274, R277). -/
def dcWindow (c : Nat) (mv : Word) (limited : Bool) (s : State) : State :=
  let x := s.pwsCh c
  if !x.released then s
  else
    let isOver := decide (10 * x.dcTh < mv.toInt.natAbs)
    let run := if isOver then x.dcOver + 1 else 0
    let s1 := s.setPwsCh c { x with dc := mv, dcOver := run, limiting := limited, halfOff := false }
    if x.dcTime ≤ 10 * run ∧ ¬(x.state == .stopping ∧ x.stopTo == .latchedDc) then
      beginStop .latchedDc (reportFault 0x0A2 (BitVec.ofNat 16 c) s1) c
    else s1

/-- A channel on which a bus condition acts (R278). -/
def busActs (x : PwsCh) : Bool := x.state == .starting || x.state == .playing || x.state == .stopping

/-- The channels on which a bus condition acts. -/
def busChannels (s : State) : List Nat := (List.range 16).filter fun c => busActs (s.pwsCh c)

/-- One channel at an undervoltage: a stop on the way to LATCHED goes on (R277, R278). -/
def uvChannel (s : State) (c : Nat) : State :=
  let x := s.pwsCh c
  if x.state == .stopping && x.stopTo == .latchedDc then s else beginStop .busWait s c

/-- One channel at an overvoltage (R278, R279). -/
def ovChannel (s : State) (c : Nat) : State :=
  let x := s.pwsCh c
  if x.state == .stopping && x.stopTo == .latchedDc then latch c 2 s
  else s.setPwsCh c { x.gatesLow .busWait with wasStopping := x.goesOff }

/-- BUS_UNDERVOLTAGE: VBUS in 10 mV units (R276, R278). -/
def busUnder (vbus : Half) (s : State) : State :=
  let s1 := { s with pws := { s.pws with vbus := vbus, busUv := true, busOv := false } }
  reportOwn 0x0A3 ((busChannels s1).foldl uvChannel s1)

/-- BUS_OVERVOLTAGE (R276, R278). -/
def busOver (vbus : Half) (s : State) : State :=
  let s1 := { s with pws := { s.pws with vbus := vbus, busUv := false, busOv := true } }
  reportOwn 0x0A4 ((busChannels s1).foldl ovChannel s1)

/-- One channel as the bus returns (R271, R278). -/
def recoverChannel (s : State) (c : Nat) : State :=
  let x := s.pwsCh c
  if x.state == .busWait then
    if x.wasStopping then s.setPwsCh c (x.gatesLow .off) else beginStart s c
  else if x.state == .retryWait && x.retryDue then retryStart s c
  else s

/-- BUS_RECOVERY: VBUS has stayed in range for 100 ms (R278). -/
def busRecovery (vbus : Half) (s : State) : State :=
  (List.range 16).foldl recoverChannel { s with pws := { s.pws with vbus := vbus, busUv := false, busOv := false } }

/-- STAGGER_LOCK: the channel locks to its stagger phase, or runs free (R268). -/
def staggerLock (c : Nat) (lock : Bool) (s : State) : State :=
  let x := s.pwsCh c
  if x.released then s.setPwsCh c { x with staggerLock := lock } else s

/-- The clamp of R265 acts on a sample: M exceeds 0.90. -/
def clips (s : State) (x : PwsCh) (v : Word) : Bool :=
  decide (9 * 2 ^ 31 * s.pws.vbus.toNat < v.toInt.natAbs * x.d * 10)

/-- One channel takes its sample at the output guard (R263, R265). -/
def guardPws (s : State) (c : Nat) (v : Word) : State :=
  let x := s.pwsCh c
  if x.released && clips s x v then
    s.setPwsCh c { x with sample := v, clipCnt := x.clipCnt + 1, clipAt := some s.time }
  else s.setPwsCh c { x with sample := v }

/-- Every channel that plays or starts runs its stop sequence (R428). -/
def pwsStopAll (s : State) : State := (List.range 16).foldl stopChannel s

/-- Every channel is OFF or LATCHED. -/
def pwsAllOff (s : State) : Bool :=
  (List.range 16).all fun c => (s.pwsCh c).state == .off || (s.pwsCh c).state == .latched

end Sys2Proof.Machine
end

