-- ==== Sys2Proof/Machine/Bundles.lean ====
section
/-! DEFINITION. Flash, and the signed bundles in it: firmware copies and profiles, their headers and their verification
(R425, R426, R475 to R477). -/

namespace Sys2Proof.Machine

/-- Bytes of a firmware copy and of a profile slot (R425, R477). -/
def slotBytes : Nat := 0x80_0000

/-- The flash offset of a firmware copy (R477). -/
def copyBase (c : Nat) : Nat := c * slotBytes

/-- The flash offset of a profile slot (R425). -/
def slotBase (n : Nat) : Nat := 0x100_0000 + n * slotBytes

/-- Erase a range: it reads as erased flash again. -/
def flashErase (base len : Nat) (s : State) : State :=
  { s with flash := { s.flash with bytes := s.flash.bytes.filter fun c => !decide (base ≤ c.1 ∧ c.1 < base + len) } }

/-- Write bytes into flash. -/
def flashWrite (a : Nat) (bs : List Byte) (s : State) : State :=
  { s with flash := { s.flash with bytes := Store.putAll 0xFF s.flash.bytes a bs } }

/-- A range of flash is erased. -/
def flashBlank (s : State) (a n : Nat) : Bool := (flashRead s.flash a n).all fun b => b == 0xFF

/-- The anti-rollback counter (R480). -/
def arbCounter (s : State) : Nat := max s.ka.arbCount.toNat s.sec.otp.floor

/-- An image key slot that may authenticate: programmed and not revoked (R476). -/
def imgSlotUsable (o : Otp) (k : Nat) : Bool := o.imgProg.getLsbD k && !o.imgRevoked.getLsbD k

/-- The signature block's fixed fields and its zeros (R475). -/
def sigBlockFormed (b : List Byte) : Bool :=
  leAt b 0 4 == 0x5347_4942 && leAt b 4 1 == 1 && decide (leAt b 5 1 ≤ 3) && leAt b 6 2 == 0
    && b.length == 256 && (b.drop 0xC8).all fun x => x == 0

/-- The key of a signature block is the one that its slot's hash names (R476). -/
def sigKeyHeld (o : Otp) (b : List Byte) : Bool :=
  let k := leAt b 5 1
  imgSlotUsable o k && Config.sha384 ((b.drop 8).take 96) == Store.look 0 o.imgHashes k

/-- The signature over a message and the first 8 bytes of the block (R475, R476). -/
def sigVerifies (msg b : List Byte) : Bool :=
  Config.ecdsaVerify ((b.drop 8).take 96) (msg ++ b.take 8) ((b.drop 0x68).take 96)

/-- Verify a bundle of `len` bytes with its signature block (R476): none, or the reason of the refusal. While no image
key slot is programmed the second condition is waived. -/
def bundleFault (s : State) (base len rollback : Nat) : Option Nat :=
  let b := flashRead s.flash (base + len) 256
  if !sigBlockFormed b then some 0x20
  else if s.sec.otp.imgProg ≠ 0 && !sigKeyHeld s.sec.otp b then some 0x21
  else if !sigVerifies (flashRead s.flash base len) b then some 0x21
  else if rollback < arbCounter s then some 0x22
  else none

/-- A firmware image's header (R477). -/
structure FwHead where
  evaluated : Bool
  len : Nat
  version : Word
  rollback : Word
  deriving DecidableEq, Repr

/-- Read a firmware copy's header; none where MAGIC, FORMAT or LENGTH is not as R477 gives. -/
def fwHead (s : State) (c : Nat) : Option FwHead :=
  let h := flashRead s.flash (copyBase c) 20
  let len := leAt h 8 4
  if leAt h 0 4 == 0x5746_5948 && leAt h 4 2 == 1 && decide (20 ≤ len) && decide (len + 256 ≤ slotBytes) then
    some { evaluated := (leAt h 6 2).testBit 0, len := len, version := BitVec.ofNat 32 (leAt h 12 4)
           rollback := BitVec.ofNat 32 (leAt h 16 4) }
  else none

/-- Verify a firmware copy: its header, or the reason of the refusal (R476, R477). -/
def fwCheck (s : State) (c : Nat) : Except Nat FwHead :=
  match fwHead s c with
  | none => .error 0x20
  | some h => match bundleFault s (copyBase c) h.len h.rollback.toNat with
    | some r => .error r
    | none => .ok h

/-- A profile's header (R426). -/
structure ProfHead where
  len : Nat
  id : Word
  rollback : Word
  rate : Nat
  parts : Byte
  name : List Byte
  deriving DecidableEq, Repr

/-- The directory of a profile: sections 0x0001 to 0x0004 each exactly once, each within the profile (R426). -/
def profDirOk (bs : List Byte) (n len : Nat) : Bool :=
  let ts := (List.range n).map fun i => (leAt bs (16 * i) 2, leAt bs (16 * i + 4) 4, leAt bs (16 * i + 8) 4)
  (ts.all fun t => decide (t.2.1 + t.2.2 ≤ len)) && [1, 2, 3, 4].all fun k => (ts.filter fun t => t.1 == k).length == 1

/-- Read a profile slot's header; none where it is not as R426 gives. -/
def profHead (s : State) (n : Nat) : Option ProfHead :=
  let h := flashRead s.flash (slotBase n) 128
  let len := leAt h 8 4
  let ns := leAt h 0x16 2
  if leAt h 0 4 == 0x4650_5948 && leAt h 4 2 == 2 && leAt h 6 2 == 128 && decide (128 ≤ len ∧ len ≤ 8257536)
      && decide (leAt h 0x14 1 ≤ 4) && (leAt h 0x15 1).testBit 0 && decide (1 ≤ ns ∧ ns ≤ 64)
      && ((h.drop 0x38).all fun x => x == 0)
      && profDirOk (flashRead s.flash (slotBase n + 128) (16 * ns)) ns len then
    some { len := len, id := BitVec.ofNat 32 (leAt h 12 4), rollback := BitVec.ofNat 32 (leAt h 16 4)
           rate := leAt h 0x14 1, parts := BitVec.ofNat 8 (leAt h 0x15 1), name := (h.drop 0x18).take 32 }
  else none

/-- Verify a profile slot's bundle, sealed or not: its header, or the reason of the refusal (R424, R476). -/
def profCheck (s : State) (n : Nat) : Except Nat ProfHead :=
  match profHead s n with
  | none => .error 0x20
  | some h => match bundleFault s (slotBase n) h.len h.rollback.toNat with
    | some r => .error r
    | none => .ok h

/-- A profile slot is valid once it has been sealed (R425). -/
def isSealed (s : State) (n : Nat) : Bool := s.flash.sealed.getLsbD n

/-- A reply that refuses a bundle with its reason (R424; log 29). -/
def bundleRefused (r : Nat) : Reply := { status := .graphReject, payload := leBytes 2 r }

end Sys2Proof.Machine
end

