-- ==== Sys2Proof/Machine/Security.lean ====
section
/-! DEFINITION. Security (R471 to R492): the evaluated configuration, keys, the anti-rollback counter, firmware, debug,
the security registers and the security commands. -/

namespace Sys2Proof.Machine

/-- All four partitions are keyed (R486). -/
def partsKeyed (s : State) : Bool := (List.range 4).all fun p => (partKey s p).isSome

/-- BOOT_AUTH (R476, R486). -/
def bootAuth (s : State) : Bool := s.sec.fwAuth && s.sec.profileAuth && s.sec.otp.imgProg != 0

/-- PAIR_KEYED (R486). -/
def pairKeyed (s : State) : Bool := (pairKey? s).isSome || s.red.state == .unpaired

/-- The conditions of R486, bits 1 to 5 of SEC_EVAL_STATE in order. -/
def evalConditions (s : State) : List Bool :=
  [s.sec.otp.dbgDisable, partsKeyed s, bootAuth s, s.sec.fwEvaluated, pairKeyed s]

/-- IN_EVAL (R486). -/
def inEval (s : State) : Bool := (evalConditions s).all id

/-- EVAL_EXPECT (R487). -/
def evalExpect (s : State) : Bool := s.sec.lock.getLsbD 3

/-- The cause of SEC_EVAL_STATE is present (R487). -/
def evalCause (s : State) : Bool := evalExpect s && !inEval s

/-- Raise SEC_EVAL_STATE as its cause appears (R487, R492). -/
def noteEval (before after : State) : State :=
  if evalCause after && !evalCause before then reportOwn 0x0F8 after else after

/-- SEC_STAT.DEBUG (R483, R490). -/
def debugCode (s : State) : Nat := if s.sec.otp.dbgDisable then 0 else if s.sec.debugOpen then 2 else 1

/-- SEC_STAT (R490). -/
def secStat (s : State) : Word :=
  fieldAt 0 s.sec.bootCopy ||| bitAt 2 s.sec.fwFallback ||| bitAt 3 (bootAuth s) ||| fieldAt 4 (debugCode s)
    ||| fieldAt 8 s.sec.otp.imgProg.toNat ||| fieldAt 12 s.sec.otp.imgRevoked.toNat

/-- SEC_EVAL_STATE (R490). -/
def secEval (s : State) : Word :=
  (List.range 5).foldl (fun w i => w ||| bitAt (i + 1) ((evalConditions s).getD i false)) (bitAt 0 (inEval s))
    ||| bitAt 6 (evalExpect s)

/-- SEC_KEY_STAT (R490). -/
def secKeyStat (s : State) : Word :=
  fieldAt 0 s.sec.otp.partProg.toNat ||| fieldAt 8 s.sec.otp.partRevoked.toNat
    ||| fieldAt 16 s.sec.otp.pairProg.toNat ||| fieldAt 18 s.sec.otp.pairRevoked.toNat

/-- A read of the security block, 0x7000 to 0x703F (R490). -/
def secRead (s : State) (a : Nat) : Word :=
  if a = 0x7000 then secStat s
  else if a = 0x7004 then secEval s
  else if a = 0x7008 then secKeyStat s
  else if a = 0x700C then BitVec.ofNat 32 (arbCounter s)
  else if a = 0x7010 then BitVec.ofNat 32 s.sec.otp.floor
  else if a = 0x7014 then s.sec.lock.setWidth 32
  else if a = 0x7018 then s.sec.fwRollback
  else if 0x7020 ≤ a ∧ a < 0x7030 then Store.look 0 s.sec.authFail ((a - 0x7020) / 4)
  else if a = 0x7030 then s.sec.debugAttempts
  else if a = 0x7034 then s.sec.otp.deviceId.setWidth 32
  else if a = 0x7038 then (s.sec.otp.deviceId >>> 32).setWidth 32
  else 0

/-- Set lock bits of SEC_LOCK (R490). -/
def secSetBits (w : Word) (s : State) : State := { s with sec := { s.sec with lock := s.sec.lock ||| w.setWidth 4 } }

/-- SEC_GET_STATUS (R491). -/
def secGetStatus (s : State) : State × Reply :=
  (s, Reply.ok ([0x7000, 0x7004, 0x7008, 0x700C, 0x7010].flatMap fun a => le32 (secRead s a)))

/-- The kind, index and slot of a key command are in range (R491). -/
def keySlotOk (kind index slot : Nat) : Bool :=
  match kind with
  | 0 => decide (index ≤ 3 ∧ slot ≤ 1)
  | 1 => decide (slot ≤ 1)
  | 2 => decide (index ≤ 3 ∧ slot ≤ 1)
  | _ => false

/-- The slot is programmed or revoked. -/
def keySlotUsed (o : Otp) (kind index slot : Nat) : Bool :=
  match kind with
  | 0 => o.partProg.getLsbD (2 * index + slot) || o.partRevoked.getLsbD (2 * index + slot)
  | 1 => o.pairProg.getLsbD slot || o.pairRevoked.getLsbD slot
  | _ => o.imgProg.getLsbD index || o.imgRevoked.getLsbD index

/-- The OTP store once a key slot has been written (R471). -/
def Otp.program (o : Otp) (c : SecKeyProgram) : Otp :=
  let key : BitVec 256 := c.value.setWidth 256
  match c.kind.toNat with
  | 0 => let i := 2 * c.index.toNat + c.slot.toNat
         { o with partKeys := Store.put 0 o.partKeys i key, partProg := setBit o.partProg i true }
  | 1 => let i := c.slot.toNat
         { o with pairKeys := Store.put 0 o.pairKeys i key, pairProg := setBit o.pairProg i true }
  | _ => let i := c.index.toNat
         { o with imgHashes := Store.put 0 o.imgHashes i c.value, imgProg := setBit o.imgProg i true }

/-- SEC_KEY_PROGRAM (R473, R489). -/
def secKeyProgram (udp : Bool) (c : SecKeyProgram) (s : State) : State × Reply :=
  if udp ∨ s.sec.lock.getLsbD 1 then (s, Reply.code .locked)
  else if !keySlotOk c.kind.toNat c.index.toNat c.slot.toNat ∨ (c.kind.toNat < 2 ∧ c.value >>> 256 ≠ 0)
      ∨ keySlotUsed s.sec.otp c.kind.toNat c.index.toNat c.slot.toNat then (s, Reply.code .badParam)
  else ({ s with sec := { s.sec with otp := s.sec.otp.program c } }, Reply.ok [])

/-- The revocation fuses once one is blown (R474). -/
def Otp.revoke (o : Otp) (kind index slot : Nat) : Otp :=
  match kind with
  | 0 => { o with partRevoked := setBit o.partRevoked (2 * index + slot) true }
  | 1 => { o with pairRevoked := setBit o.pairRevoked slot true }
  | _ => { o with imgRevoked := setBit o.imgRevoked index true }

/-- The revocation would leave no usable image key hash, or names the key of the running firmware (R474). -/
def revokeRefused (s : State) (c : SecKeyRevoke) : Bool :=
  c.kind.toNat == 2 && (s.sec.fwSlot == some c.index.toNat
    || !(List.range 4).any fun k => imgSlotUsable (s.sec.otp.revoke 2 c.index.toNat 0) k)

/-- SEC_KEY_REVOKE (R474, R489). -/
def secKeyRevoke (c : SecKeyRevoke) (s : State) : State × Reply :=
  if s.sec.lock.getLsbD 1 then (s, Reply.code .locked)
  else if !keySlotOk c.kind.toNat c.index.toNat c.slot.toNat ∨ revokeRefused s c then (s, Reply.code .badParam)
  else ({ s with sec := { s.sec with otp := s.sec.otp.revoke c.kind.toNat c.index.toNat c.slot.toNat } }, Reply.ok [])

/-- The jobs that run in the command slots. -/
def runningJobs (s : State) : List Job :=
  s.cmds.flatMap fun p => [p.mbox, p.udp].filterMap fun c => if c.state = .pending then c.job else none

/-- A profile load, or a firmware write or verify, is pending (R489). -/
def arbBusy (s : State) : Bool :=
  s.boot.teardown.isSome || (runningJobs s).any fun j => match j with
    | .profileLoad _ _ => true
    | .fwVerify _ => true
    | _ => false

/-- SEC_ARB_ADVANCE (R481, R489). -/
def secArbAdvance (c : SecArbAdvance) (s : State) : State × Reply :=
  let v := c.value.toNat
  if s.sec.lock.getLsbD 2 then (s, Reply.code .locked)
  else if 1 < c.flags.toNat ∨ v < arbCounter s ∨ min s.sec.fwRollback.toNat s.boot.profileRollback.toNat < v then (s, Reply.code .badParam)
  else if arbBusy s then (s, Reply.code .busy)
  else
    let floor := if c.flags.getLsbD 0 then max s.sec.otp.floor (min v 128) else s.sec.otp.floor
    let s1 := { s with ka := { s.ka with arbCount := c.value }, sec := { s.sec with otp := { s.sec.otp with floor := floor } } }
    (s1, Reply.ok (le32 (BitVec.ofNat 32 (arbCounter s1)) ++ le32 (BitVec.ofNat 32 floor)))

/-- The copy runs (R479). -/
def copyRuns (s : State) (c : Nat) : Bool := s.sec.bootCopy == c

/-- A verify of the copy is pending (R489). -/
def fwVerifying (s : State) (c : Nat) : Bool := (runningJobs s).contains (.fwVerify c)

/-- SEC_FW_ERASE (R479, R489): the erase ends with the command. -/
def secFwErase (copy : Byte) (s : State) : State × Reply :=
  let c := copy.toNat
  if s.sec.lock.getLsbD 0 then (s, Reply.code .locked)
  else if 1 < c ∨ copyRuns s c then (s, Reply.code .badParam)
  else if fwVerifying s c then (s, Reply.code .busy)
  else (s, Reply.code .pending)

/-- The fields of a flash write are in range and its target is erased (R424, R491). -/
def flashWriteOk (s : State) (base : Nat) (w : FlashWrite) : Bool :=
  let n := w.length.toNat
  let o := w.offset.toNat
  o % 4 == 0 && n % 4 == 0 && decide (4 ≤ n ∧ n ≤ 4000 ∧ o + n ≤ slotBytes) && flashBlank s (base + o) n

/-- SEC_FW_WRITE (R479, R489). -/
def secFwWrite (w : FlashWrite) (s : State) : State × Reply :=
  let c := w.unit.toNat
  if w.data.length ≠ w.length.toNat then (s, Reply.code .badLength)
  else if s.sec.lock.getLsbD 0 then (s, Reply.code .locked)
  else if 1 < c ∨ copyRuns s c ∨ !flashWriteOk s (copyBase c) w then (s, Reply.code .badParam)
  else if fwVerifying s c then (s, Reply.code .busy)
  else (flashWrite (copyBase c + w.offset.toNat) w.data s, Reply.ok [])

/-- SEC_FW_VERIFY (R476, R491): the outcome comes with the command's end. -/
def secFwVerify (copy : Byte) (s : State) : State × Reply :=
  if 1 < copy.toNat then (s, Reply.code .badParam) else (s, Reply.code .pending)

/-- SEC_FW_VERIFY's outcome (R476, R491). -/
def fwVerifyReply (s : State) (c : Nat) : Reply :=
  match fwCheck s c with
  | .error r => bundleRefused r
  | .ok h => Reply.ok (le32 h.version ++ le32 h.rollback)

/-- Words put together, the first lowest. -/
def joinWords (ws : List Word) : BitVec 256 := ws.foldr (fun w x => x.shiftLeft 32 ||| w.setWidth 256) 0

/-- SEC_DEBUG_CHALLENGE (R482, R484). -/
def secDebugChallenge (s : State) : State × Reply :=
  if s.sec.drbgStopped then (s, Reply.code .internal)
  else
    let (ws, s1) := drawN s 8
    ({ s1 with sec := { s1.sec with nonce := some (joinWords ws), nonceAt := s.time } },
      Reply.ok (leBytes 32 (joinWords ws).toNat ++ le64 s.sec.otp.deviceId))

/-- An unlock verifies: an image key's signature over the nonce and the identity (R484). -/
def unlockOk (s : State) (b : List Byte) : Bool :=
  match s.sec.nonce with
  | none => false
  | some n => !s.sec.otp.dbgDisable && sigBlockFormed b && sigKeyHeld s.sec.otp b
      && sigVerifies (leBytes 32 n.toNat ++ le64 s.sec.otp.deviceId) b

/-- SEC_DEBUG_UNLOCK (R484, R489). -/
def secDebugUnlock (block : List Byte) (s : State) : State × Reply :=
  if block.length ≠ 256 then (s, Reply.code .badLength)
  else if !unlockOk s block then (s, Reply.code .badParam)
  else
    let s1 := { s with sec := { s.sec with nonce := none, debugOpen := true } }
    (if evalExpect s then reportOwn 0x0F8 s1 else s1, Reply.ok [])

/-- SEC_SET_LOCK (R491). -/
def secSetLock (bits : Word) (s : State) : State × Reply :=
  let s1 := secSetBits bits s
  (s1, Reply.ok (le32 (s1.sec.lock.setWidth 32)))

/-- DEBUG_NONCE_EXPIRY (R484). -/
def nonceExpiry (s : State) : State := { s with sec := { s.sec with nonce := none } }

/-- DRBG_HEALTH_FAIL (R482, R492). -/
def drbgFail (s : State) : State := reportOwn 0x0FB { s with sec := { s.sec with drbgStopped := true } }

/-- A private JTAG instruction while debug is not OPEN acts as BYPASS (R483). -/
def privateJtag (s : State) : State :=
  reportOwn 0x0FA { s with sec := { s.sec with debugAttempts := s.sec.debugAttempts + 1 } }

/-- BOUNDARY_TEST_SELECT (R485): fail-silent first, then the boundary cells take the pins. -/
def boundarySelect (s : State) : State :=
  let s1 := goFailSilent s
  { s1 with pins := { s1.pins with boundary := true } }

/-- One AUTH_FAIL refusal of a partition (R490, R492). -/
def authFailed (p : Nat) (s : State) : State :=
  let c := s.part p
  let fresh := c.authCount == 0 || decide (c.authWindow + 1000000 ≤ s.time)
  let n := if fresh then 1 else c.authCount + 1
  let raised := !fresh && c.authRaised
  let c1 := { c with authWindow := if fresh then s.time else c.authWindow, authCount := n
                     authRaised := raised || decide (16 ≤ n) }
  let s1 := { (s.setPart p c1) with
    sec := { s.sec with authFail := Store.upd 0 s.sec.authFail p (· + 1) } }
  if 16 ≤ n ∧ !raised then reportFault 0x0F9 (BitVec.ofNat 16 p) s1 else s1

end Sys2Proof.Machine
end

