-- ==== Sys2Proof/Machine/TwoWire.lean ====
section
/-! DEFINITION. The two-wire controllers and the target port (R493 to R508). -/

namespace Sys2Proof.Machine

def State.twc (s : State) (n : Nat) : TwCtl := s.tw.ctl.getD n TwCtl.init

def State.setTwc (s : State) (n : Nat) (c : TwCtl) : State := { s with tw := { s.tw with ctl := s.tw.ctl.set n c } }

def State.setTwt (s : State) (t : Twt) : State := { s with tw := { s.tw with twt := t } }

/-- Fields of TW_CFG and TW_XFER (R507). -/
def TwCtl.addrRetry (c : TwCtl) : Nat := (c.cfgInUse.toNat / 2 ^ 8) % 16
def TwCtl.arbRetry (c : TwCtl) : Nat := (c.cfgInUse.toNat / 2 ^ 12) % 16
def TwCtl.araEn (c : TwCtl) : Bool := c.cfg.getLsbD 24
def TwCtl.wcount (c : TwCtl) : Nat := (c.xfer.toNat / 2 ^ 8) % 64
def TwCtl.rcount (c : TwCtl) : Nat := (c.xfer.toNat / 2 ^ 16) % 64
def TwCtl.block (c : TwCtl) : Bool := c.xfer.getLsbD 22
/-- The stretch timeout in ms; 0 disables it on TW1 to TW3 and is 25 on TW0 (R498). -/
def TwCtl.stretchMs (c : TwCtl) (n : Nat) : Nat :=
  let t := (c.cfgInUse.toNat / 4) % 64
  if n = 0 ∧ t = 0 then 25 else t

/-- A host transaction ends with a result (R495, R507). -/
def TwCtl.finish (c : TwCtl) (result : Nat) : TwCtl :=
  { c with state := .idle, result := result, aborting := false, addrTries := 0, arbTries := 0, xferCnt := c.xferCnt + 1 }

/-- The bus is stuck: a host transaction that waits or runs ends at once (R499). -/
def TwCtl.stick (c : TwCtl) : TwCtl :=
  let d := { c with busStuck := true, bus := .free }
  if c.state = .idle then d else d.finish 10

/-- BUS_STUCK is set, and TW_BUS_FAULT is raised (R499). -/
def twStuck (n : Nat) (s : State) : State :=
  let c := s.twc n
  let s1 := s.setTwc n c.stick
  if c.busStuck then s1 else reportOwn (0x0F0 + n) s1

/-- A bus recovery (R499): counted; `freed` says whether SDA came high. -/
def twRecover (n : Nat) (freed : Bool) (s : State) : State :=
  let c := s.twc n
  let s1 := s.setTwc n { c with recoverCnt := c.recoverCnt + 1 }
  if freed then s1 else twStuck n s1

/-- A governor transaction fails (R83, R503). -/
def govFailed (s : State) : State :=
  let (f, srcs) := s.fab.xferFailed
  reportAll srcs { s with fab := f }

/-- An alert-response read is wanted: the pin is asserted, ARA_EN is set, and the episode goes on (R500, R501). -/
def TwCtl.wantsAlert (c : TwCtl) : Bool := c.alert && c.araEn && !c.alertStuck && decide (c.reads < 8)

/-- A ninth read would be needed: ALERT_STUCK (R501). -/
def TwCtl.ninth (c : TwCtl) : TwCtl := if c.alert && c.araEn && decide (8 ≤ c.reads) then { c with alertStuck := true } else c

/-- Between transactions the controller serves the waiting work of highest priority (R496, R499, R503). -/
def twServe (n : Nat) (s : State) : State :=
  let c := (s.twc n).ninth
  if c.bus ≠ .free then s.setTwc n c
  else if n = 0 ∧ s.fab.xfer.isSome then
    if c.busStuck then govFailed (s.setTwc n c) else s.setTwc n { c with bus := .governor }
  else if c.wantsAlert ∧ !c.busStuck then s.setTwc n { c with bus := .alert }
  else if c.state = .queued then
    if c.busStuck then s.setTwc n (c.finish 10) else s.setTwc n { c with bus := .host, state := .active, cfgInUse := c.cfg }
  else s.setTwc n c

/-- GO (R496, R507): dropped unless the controller is IDLE; a count above 32 ends with BAD_COUNT. -/
def twGo (n : Nat) (s : State) : State :=
  let c := s.twc n
  if c.state ≠ .idle then { s with sys := { s.sys with scDrop := s.sys.scDrop + 1 } }
  else
    let d := { c with doneBytes := 0, addrTries := 0, arbTries := 0, aborting := false }
    if 32 < c.wcount ∨ 32 < c.rcount then s.setTwc n (d.finish 9)
    else if c.busStuck then s.setTwc n (d.finish 10)
    else s.setTwc n { d with state := .queued, result := 0 }

/-- ABORT (R502): the transaction that runs ends after the current byte; one that waits to be retried ends now. -/
def twAbort (n : Nat) (s : State) : State :=
  let c := s.twc n
  match c.state with
  | .active => s.setTwc n { c with aborting := true }
  | .retryWait => s.setTwc n (c.finish 8)
  | _ => s

/-- Bytes read into TW_RXBUF. -/
def TwCtl.take (c : TwCtl) (bs : List Byte) : TwCtl := { c with rx := (bs ++ c.rx.drop bs.length).take 32 }

/-- A lost or broken transaction starts again after a STOP, or ends (R502). -/
def TwCtl.lost (c : TwCtl) (place : BitVec 6) (result : Nat) : TwCtl :=
  let d := { c with arbCnt := c.arbCnt + 1, lostAt := place }
  if c.aborting then d.finish 8
  else if c.arbTries < c.arbRetry then { d with state := .queued, arbTries := c.arbTries + 1 }
  else d.finish result

/-- A block read's count byte is no count (R495). -/
def TwCtl.badCount (c : TwCtl) (bs : List Byte) : Bool :=
  c.block && decide (c.rcount ≠ 0) && match bs with
    | [] => false
    | b :: _ => decide (b.toNat = 0 ∨ 31 < b.toNat)

/-- The host transaction's attempt ends (R495, R497, R502). -/
def TwCtl.ended (c : TwCtl) (e : TwEnd) : TwCtl :=
  let d := { c with bus := .free, doneBytes := e.doneBytes }
  match e.outcome with
  | .done =>
    let f := d.take e.read
    f.finish (if c.aborting then 8 else if c.badCount e.read then 9 else 1)
  | .addrNack =>
    if c.aborting then d.finish 8
    else if c.addrTries < c.addrRetry then { d with state := .retryWait, addrTries := c.addrTries + 1 }
    else d.finish 2
  | .dataNack => (d.take e.read).finish (if c.aborting then 8 else 3)
  | .pecErr =>
    let f := { (d.take e.read) with pecCnt := d.pecCnt + 1 }
    f.finish (if c.aborting then 8 else 6)
  | .arbLost p => d.lost p 4
  | .busErr p => d.lost p 7

/-- TW_TRANSACTION_END (R495, R499). -/
def twEnd (n : Nat) (e : TwEnd) (s : State) : State :=
  let c := s.twc n
  if c.bus ≠ .host then s
  else
    let s1 := s.setTwc n (c.ended e)
    match e.recovery with
    | none => s1
    | some freed => twRecover n freed s1

/-- TW_RETRY_DELAY (R497): a further attempt starts. -/
def twRetry (n : Nat) (s : State) : State :=
  let c := s.twc n
  if c.state ≠ .retryWait then s
  else twServe n (s.setTwc n { c with state := .queued, retryCnt := c.retryCnt + 1 })

/-- TW_STRETCH_TIMEOUT (R498, R499). -/
def twStretch (n : Nat) (done : BitVec 6) (freed : Bool) (s : State) : State :=
  let c := s.twc n
  if c.stretchMs n = 0 then s
  else match c.bus with
    | .free => s
    | .host => twRecover n freed (s.setTwc n ({ c with bus := .free, doneBytes := done, stretchCnt := c.stretchCnt + 1 }.finish 5))
    | .alert => twRecover n freed (s.setTwc n { c with bus := .free, stretchCnt := c.stretchCnt + 1, alertStuck := true })
    | .governor => twRecover n freed (govFailed (s.setTwc n { c with bus := .free }))

/-- TW_SCL_STUCK_TIMEOUT (R499). -/
def twSclStuck (n : Nat) (s : State) : State :=
  let s1 := twStuck n s
  if (s.twc n).bus = .governor then govFailed s1 else s1

/-- TW_STUCK_RECOVERY_REPEAT (R499). -/
def twRepeat (n : Nat) (freed : Bool) (s : State) : State :=
  if (s.twc n).busStuck then twRecover n freed s else s

/-- BUS_STUCK_CLEAR (R499). -/
def twUnstick (n : Nat) (s : State) : State := s.setTwc n { s.twc n with busStuck := false }

/-- TW_ALERT_ASSERT (R500): a new episode. -/
def twAlert (n : Nat) (s : State) : State :=
  let c := s.twc n
  if c.alert then s else s.setTwc n { c with alert := true, reads := 0, alertStuck := false }

/-- TW_ALERT_RELEASE (R501). -/
def twAlertGone (n : Nat) (s : State) : State := s.setTwc n { s.twc n with alert := false, alertStuck := false }

/-- TW_ALERT_RESPONSE_READ (R500, R501): the byte is logged; no acknowledge ends the episode. -/
def twAlertRead (n : Nat) (byte : Option Byte) (s : State) : State :=
  let c := s.twc n
  if c.bus = .host ∨ c.bus = .governor ∨ c.busStuck ∨ !c.wantsAlert then
    s.setTwc n (if c.bus = .free then c.ninth else c)
  else match byte with
    | none => s.setTwc n { c with bus := .free, reads := c.reads + 1, alertStuck := true }
    | some b => s.setTwc n { c with bus := .free, reads := c.reads + 1, log := (b :: c.log).take 8, alertCnt := c.alertCnt + 1 }

/-- The governor's transaction leaves TW0 (R503). -/
def govLeavesBus (s : State) : State :=
  let c := s.twc 0
  if c.bus = .governor then s.setTwc 0 { c with bus := .free } else s

/-- GOVERNOR_WRITE_DONE (R82 to R85). -/
def governorDone (ok : Bool) (data : Half) (s : State) : State :=
  let (f, srcs) := s.fab.xferDone s.time ok data.toNat
  reportAll srcs { govLeavesBus s with fab := f }

/-- GOVERNOR_POLL (R82 to R84): the reads of the voltage and of the status word. -/
def governorPoll (ok : Bool) (mv : Half) (s : State) : State :=
  let (f, srcs) := s.fab.poll ok mv.toNat
  reportAll srcs { s with fab := f }

/-- TW_STAT (R507). -/
def twStat (c : TwCtl) : Word :=
  let st := match c.state with
    | .idle => 0 | .queued => 1 | .active => 2 | .retryWait => 3
  fieldAt 0 st ||| fieldAt 3 c.result ||| fieldAt 8 c.doneBytes.toNat ||| bitAt 16 c.alert ||| bitAt 17 c.alertStuck
    ||| bitAt 18 c.busStuck ||| bitAt 19 (c.bus == .governor) ||| fieldAt 24 c.lostAt.toNat

/-- A word of a controller's block (R507). -/
def twCtlRead (c : TwCtl) (o : Nat) : Word :=
  if o = 0x00 then c.cfg
  else if o = 0x04 then c.xfer
  else if o = 0x08 then bitAt 0 (c.state != .idle)
  else if o = 0x0C then twStat c
  else if 0x20 ≤ o ∧ o < 0x40 then BitVec.ofNat 32 (leNat (Store.slice 0 c.tx (o - 0x20) 4))
  else if 0x40 ≤ o ∧ o < 0x60 then BitVec.ofNat 32 (leAt c.rx (o - 0x40) 4)
  else if o = 0x60 ∨ o = 0x64 then BitVec.ofNat 32 (leAt c.log (o - 0x60) 4)
  else if o = 0x68 then c.alertCnt
  else if o = 0x6C then c.xferCnt
  else if o = 0x70 then c.retryCnt
  else if o = 0x74 then c.arbCnt
  else if o = 0x78 then c.stretchCnt
  else if o = 0x7C then c.recoverCnt
  else if o = 0x80 then c.pecCnt
  else 0

/-- A write of a controller's register other than TW_CTRL (R507). -/
def twCtlWrite (n o : Nat) (w : Word) (s : State) : State :=
  let c := s.twc n
  if o = 0x00 then s.setTwc n { c with cfg := w &&& 0x03FF_FFFF }
  else if o = 0x04 then s.setTwc n { c with xfer := w &&& 0x007F_3F7F }
  else if 0x20 ≤ o ∧ o < 0x40 then s.setTwc n { c with tx := Store.putAll 0 c.tx (o - 0x20) (le32 w) }
  else if o = 0x68 then s.setTwc n { c with alertCnt := w }
  else if o = 0x6C then s.setTwc n { c with xferCnt := w }
  else if o = 0x70 then s.setTwc n { c with retryCnt := w }
  else if o = 0x74 then s.setTwc n { c with arbCnt := w }
  else if o = 0x78 then s.setTwc n { c with stretchCnt := w }
  else if o = 0x7C then s.setTwc n { c with recoverCnt := w }
  else if o = 0x80 then s.setTwc n { c with pecCnt := w }
  else s

/-- A word of the target port's registers (R508). BUSY reads 0: the model's transfers are single events (log 46). -/
def twtRead (t : Twt) (o : Nat) : Word :=
  if o = 0x00 then fieldAt 0 t.addr.toNat ||| bitAt 8 t.en ||| bitAt 9 t.alertOnFault
  else if o = 0x08 then bitAt 0 t.alertReq
  else if o = 0x0C then t.protoErr
  else if o = 0x10 then t.wrCnt
  else if 0x20 ≤ o ∧ o < 0x40 then BitVec.ofNat 32 (leNat (Store.slice 0 t.out (o - 0x20) 4))
  else if 0x40 ≤ o ∧ o < 0x60 then BitVec.ofNat 32 (leNat (Store.slice 0 t.inb (o - 0x40) 4))
  else 0

/-- A write of a register of the target port other than TWT_CTRL (R508). -/
def twtRegWrite (o : Nat) (w : Word) (s : State) : State :=
  let t := s.tw.twt
  if o = 0x00 then s.setTwt { t with addr := w.setWidth 7, en := w.getLsbD 8, alertOnFault := w.getLsbD 9 }
  else if o = 0x0C then s.setTwt { t with protoErr := w }
  else if o = 0x10 then s.setTwt { t with wrCnt := w }
  else if 0x20 ≤ o ∧ o < 0x40 then s.setTwt { t with out := Store.putAll 0 t.out (o - 0x20) (le32 w) }
  else s

/-- LKT_STAT (R468). -/
def lktStat (s : State) : Word :=
  (List.range 8).foldl (fun w g =>
      let r := s.record g
      w ||| bitAt g (r.state != .idle) ||| bitAt (8 + g) (r.state == .raised) ||| bitAt (16 + g) (r.state == .acted)) 0
    ||| bitAt 24 (lookoutMute s) ||| bitAt 25 (faultAsserted s) ||| bitAt 26 s.lkt.oscB ||| bitAt 27 s.lkt.failSilent

/-- SYS_ID (R441). -/
def sysId (s : State) : Word := 0x00B1_9410#32 ||| bitAt 24 s.sys.grade

/-- The page of the target port, copied at one instant (R504). -/
def twtPage (s : State) : List Byte :=
  let t := s.tw.twt
  [sysId s, lktStat s, secEval s, sadNodeStat s, s.pst.stateWord, fabRead s Shadow.init 0x5400, s.mcnt, pwsGstat s].flatMap le32
    ++ Store.slice 0 t.out 0 32 ++ Store.slice 0 t.inb 0 32 ++ List.replicate 32 0

/-- TWT_READ (R505): `n` bytes from the pointer, which wraps from 0x7F to 0x00. -/
def twtReadPage (n : Byte) (s : State) : State :=
  let t := s.tw.twt
  if !t.en then s
  else
    let page := twtPage s
    s.setTwt { t with sent := (List.range n.toNat).map fun i => page.getD ((t.pointer.toNat + i) % 128) 0
                      pointer := t.pointer + BitVec.ofNat 7 n.toNat }

/-- Count a protocol error; TWT_FAULT at most once per 1 s window (R505). -/
def twtProto (n : Nat) (s : State) : State :=
  let t := s.tw.twt
  if n = 0 then s
  else
    let due := match t.faultAt with
      | none => true
      | some x => decide (x + 1000000 ≤ s.time)
    let s1 := s.setTwt { t with protoErr := t.protoErr + BitVec.ofNat 32 n, faultAt := if due then some s.time else t.faultAt }
    if due then reportOwn 0x0F4 s1 else s1

/-- TWT_WRITE (R505): the first byte sets the pointer, the others are written together. -/
def twtWritePage (bs : List Byte) (s : State) : State :=
  let t := s.tw.twt
  if !t.en then s
  else match bs with
    | [] => s
    | p :: ds =>
      let start := p.toNat % 128
      let place (i : Nat) : Nat := (start + i) % 128
      let cells := ds.zipIdx.map fun e => (place e.2, e.1)
      let inb := (cells.filter fun c => decide (0x40 ≤ c.1 ∧ c.1 < 0x60)).foldl
        (fun st c => Store.put 0 st (c.1 - 0x40) c.2) t.inb
      let s1 := s.setTwt { t with inb := inb, pointer := BitVec.ofNat 7 (start + ds.length)
                                  wrCnt := if ds.isEmpty then t.wrCnt else t.wrCnt + 1 }
      twtProto (cells.filter fun c => decide (c.1 < 0x40)).length s1

/-- TWT_PROTOCOL_ERROR (R505): the transfer is abandoned. -/
def twtError (s : State) : State := if s.tw.twt.en then twtProto 1 s else s

/-- TWT_SCL_TIMEOUT (R505): the interface is reset. -/
def twtTimeout (s : State) : State :=
  if s.tw.twt.en then twtProto 1 (s.setTwt { s.tw.twt with pointer := 0 }) else s

/-- TWT_CTRL.ALERT (R506). -/
def twtAlert (s : State) : State := s.setTwt { s.tw.twt with alertReq := true }

/-- TWT_ALERT_RESPONSE (R506): the port's own address, with bit 0 clear. -/
def twtAlertResponse (s : State) : State :=
  let t := s.tw.twt
  if t.en ∧ t.alertReq then s.setTwt { t with alertReq := false, sent := [BitVec.ofNat 8 (2 * t.addr.toNat)] } else s

end Sys2Proof.Machine
end

