-- ==== Sys2Proof/Machine/Lookout.lean ====
section
/-! DEFINITION. Lookout (R451 to R470): the causes of R458, oscillators, watchdogs, dual-rail reporting, the records'
timers, claims and clears, the registers and the fault commands. -/

namespace Sys2Proof.Machine

/-- A masked source of class SEVERE is taken to report a fault for as long as it is masked (R454). -/
def presumedFailed (s : State) (src : Nat) : Bool :=
  s.lkt.srcMask.getLsbD src && (classOf s src).any fun ca => ca.1 == .severe

/-- The cause of a source is present (R458, last column); an event has no lasting cause. -/
def causePresent (s : State) (src : Nat) : Bool :=
  if presumedFailed s src then true
  else if src = 0x000 then s.lkt.srcMask != 0
  else if src = 0x001 then s.lkt.xoLoss
  else if src = 0x005 then s.lkt.core0Stop
  else if src = 0x006 then s.lkt.core1Stop
  else if src = 0x007 then s.boot.failCode != 0 && !s.boot.profileOk
  else if src = 0x008 then s.sys.crcMismatch
  else if src = 0x027 then s.pst.state == .holdover
  else if src = 0x028 then s.pst.outOfSpec
  else if src = 0x029 then s.pst.rankDisagree
  else if src = 0x02A then s.pst.phaseHeld
  else if src = 0x02B then s.pst.pullLimit
  else if src = 0x042 then s.fab.missBurst s.time
  else if src = 0x044 then s.fab.coreUv
  else if src = 0x045 then s.fab.busFault
  else if src = 0x046 then s.fab.voutMismatch
  else if src = 0x061 then dbeHeld s
  else if src = 0x064 then s.col.fenced &&& 0x8FFFF != 0
  else if src = 0x065 then s.col.fenced &&& 0x70000 != 0
  else if src = 0x068 then s.dma.stopped
  else if src = 0x06A then !s.mtx.held.isEmpty
  else if 0x080 ≤ src ∧ src < 0x088 then (portsOf (src - 0x080)).any fun n => inSearch s n
  else if 0x088 ≤ src ∧ src < 0x090 then
    let g := src - 0x088
    (s.group g).foreign && !(s.group g).asrcLock && (portsOf g).any fun n => (s.port n).state == .running
  else if src = 0x0A1 then (List.range 16).any fun c => (s.pwsCh c).state == .latched
  else if src = 0x0A2 then (List.range 16).any fun c => (s.pwsCh c).state == .latched && (s.pwsCh c).latchCause == 2
  else if src = 0x0A3 then s.pws.busUv
  else if src = 0x0A4 then s.pws.busOv
  else if 0x0B0 ≤ src ∧ src < 0x0B4 then
    let p := s.netPort (src - 0x0B0)
    p.enabled && !p.linkUp
  else if src = 0x0C4 ∨ src = 0x0C5 then (s.inst (src - 0x0C4)).jumpRefused
  else if src = 0x0D1 then s.stm.rx.any fun e => e.2.state == .running && e.2.conceal == .muted
  else if src = 0x0D4 then s.stm.taps.any fun e => e.2.mismatch
  else if src = 0x0E0 then paired s && !(s.red.nrlOk || s.red.netOk)
  else if src = 0x0E1 then paired s && !s.red.nrlOk
  else if src = 0x0E2 then s.red.noTakeover
  else if src = 0x0E3 then s.red.twoActive
  else if 0x0F0 ≤ src ∧ src < 0x0F4 then (s.twc (src - 0x0F0)).busStuck
  else if src = 0x0F8 then evalCause s
  else if src = 0x0FB then s.sec.fwFallback || s.sec.bootCopy == 3 || s.sec.drbgStopped
  else false

/-- The sources in FIRST and MERGED of record `g`, rising. -/
def recordSources (s : State) (g : Nat) : List Nat :=
  let r := s.record g
  if r.state = .idle then []
  else ((List.range 32).filter fun b => r.first == 32 * g + b || r.merged.getLsbD b).map fun b => 32 * g + b

/-- The lowest source of a record whose cause is present (R464). -/
def clearBlock (s : State) (g : Nat) : Option Nat := (recordSources s g).find? fun src => causePresent s src

/-- Two counts differ by more than 10 % of the second. -/
def offBy (x nominal : Nat) : Bool := decide (nominal < 10 * (x - nominal) ∨ nominal < 10 * (nominal - x))

/-- OSC_COMPARISON (R451): the edges of B and of XO_IN in 10 µs of A; nominal 320 and 491.52. -/
def oscCompare (b xo : Half) (s : State) : State :=
  let bOff := offBy b.toNat 320
  let xOff := offBy (100 * xo.toNat) 49152
  let apart := offBy (xo.toNat * 32000) (b.toNat * 49152)
  let s0 := { s with lkt := { s.lkt with now := s.lkt.now + 10 } }
  if bOff && xOff && !s.lkt.oscB then
    reportOwn 0x004 { s0 with lkt := { s0.lkt with oscB := true, xoBad := false } }
  else
    let bad := if s.lkt.oscB then apart else !bOff && xOff && apart
    let s1 := { s0 with lkt := { s0.lkt with xoBad := bad } }
    if bad && !s.lkt.xoBad then reportOwn 0x001 s1 else s1

/-- SAMPLE_EDGE_TIMEOUT (R20, R451): no sample edge for 3 Ts outside ACQUIRE. -/
def edgeTimeout (s : State) : State :=
  if s.pst.state = .acquire then s
  else reportOwn 0x001 { s with lkt := { s.lkt with edgeLoss := true } }

/-- SUP_WATCHDOG (R453): a period ends; without a kick in it the supervisor has failed. -/
def supWatchdog (s : State) : State :=
  if s.lkt.supKicked then { s with lkt := { s.lkt with supKicked := false } } else reportOwn 0x003 s

/-- A write to LKT_SUP_KICK (R453, R470): a new watchdog period applies from here. -/
def supKick (s : State) : State :=
  { s with lkt := { s.lkt with supKicked := true, supPeriod := s.lkt.supWdog } }

/-- SUMMIT_CORE_STOP (R453): core 0 or 1 has missed two kicks. -/
def coreStop (core1 : Bool) (s : State) : State :=
  if !s.lkt.coresRun then s
  else if core1 then reportOwn 0x006 { s with lkt := { s.lkt with core1Stop := true } }
  else reportOwn 0x005 { s with lkt := { s.lkt with core0Stop := true } }

/-- CORE_WATCHDOG_KICK (R453, R458). -/
def coreKick (core1 : Bool) (s : State) : State :=
  if core1 then { s with lkt := { s.lkt with core1Stop := false } } else { s with lkt := { s.lkt with core0Stop := false } }

/-- SIGNAL_PATH (R454): the broken source is reported and masked, and a SEVERE one is taken to report a fault. A source
already masked is not seen again. -/
def signalPath (src : Nat) (s : State) : State :=
  if s.lkt.srcMask.getLsbD src then { s with lkt := { s.lkt with sigpathLast := BitVec.ofNat 8 src } }
  else match classOf s src with
    | none => s
    | some (c, _) =>
      let s0 := reportFault 0x000 (BitVec.ofNat 16 src) s
      let s1 := { s0 with lkt := { s0.lkt with
        sigpathLast := BitVec.ofNat 8 src, srcMask := setBit s0.lkt.srcMask src true } }
      if c = .severe then recordFault src (ownInst src) s1 else s1

/-- SOURCE_UNMASK (R454). -/
def sourceUnmask (src : Nat) (s : State) : State := { s with lkt := { s.lkt with srcMask := setBit s.lkt.srcMask src false } }

/-- PAIR_PULSE_TEST (R455): the unmasked pairs that fail to invert are broken. -/
def pulseTest (failing : BitVec 256) (s : State) : State :=
  ((bitsOf failing).filter fun src => !s.lkt.srcMask.getLsbD src).foldl (fun t src => signalPath src t) s

/-- FAULT_REPORT (R456 to R462): a source raises its pair. -/
def faultReport (src : Byte) (inst : Half) (s : State) : State := reportFault src.toNat inst s

/-- ESCALATION_EXPIRY (R462). -/
def escalationExpiry (g : Nat) (s : State) : State := if (s.record g).state = .raised then escalate g s else s

/-- CLAIM_TIME_EXPIRY (R462). -/
def claimTimeExpiry (g : Nat) (s : State) : State :=
  let r := s.record g
  if r.state ≠ .claimed then s
  else if r.serviceSinceClaim then
    noteAlert .claimed .raised (s.setRecord g { r with
      state := .raised, claimedBy := 7, serviceSinceClaim := false, escEnd := s.time + s.lkt.escTime, irq := true })
  else s.setRecord g { r with claimExpired := true }

/-- NOTED_EXPIRY (R462): 1 s without a fault, and no cause present. -/
def notedExpiry (g : Nat) (s : State) : State :=
  if (s.record g).state = .noted ∧ (clearBlock s g).isNone then s.setRecord g Record.init else s

/-- A claim of record `g` by a partition 0 to 3 or by the supervisor, 4 (R462). -/
def claimRecord (g who : Nat) (s : State) : State :=
  let r := s.record g
  let c := { r with claimedBy := who, irq := false }
  match r.state with
  | .idle => s
  | .acted => s.setRecord g c
  | _ => s.setRecord g { c with
      state := .claimed, claimEnd := s.time + 1000 * s.lkt.claimTime, claimExpired := false, serviceSinceClaim := false }

/-- An accepted clear of record `g` (R462, R464): its mutes end. -/
def clearRecord (g : Nat) (s : State) : State :=
  let held := (s.record g).muteHeld
  let s1 := s.setRecord g Record.init
  if held && !lookoutMute s1 then openAllTx s1 else s1

/-- LKT_CLEAR (R464, R469): the supervisor's clear. -/
def supClear (g : Nat) (s : State) : State :=
  match clearBlock s g with
  | some src => { s with lkt := { s.lkt with clearRefused := true, clearSource := src } }
  | none => clearRecord g { s with lkt := { s.lkt with clearRefused := false, clearSource := 0 } }

def RecState.code : RecState → Nat
  | .idle => 0 | .noted => 1 | .raised => 2 | .claimed => 3 | .acted => 4

/-- A word of record `g`'s block (R469). -/
def recordRead (s : State) (g o : Nat) : Word :=
  let r := s.record g
  match o with
  | 0x00 => fieldAt 0 r.state.code ||| fieldAt 3 r.cls.rank ||| fieldAt 5 r.claimedBy ||| fieldAt 8 r.first
      ||| fieldAt 16 r.route.toNat ||| bitAt 20 r.claimExpired
  | 0x04 => r.inst.setWidth 32
  | 0x08 => r.mcnt
  | 0x0C => r.merged
  | 0x10 => r.count
  | 0x14 => if r.state = .raised then BitVec.ofNat 32 (r.escEnd - s.time) else 0
  | 0x18 => r.actions.setWidth 32
  | 0x1C => r.time
  | _ => 0

/-- LKT_SRC_PEND (R469). -/
def srcPend (s : State) (w : Nat) : Word :=
  (List.range 32).foldl (fun x b => x ||| bitAt b (causePresent s (32 * w + b))) 0

/-- A read of Lookout's block, 0x0400 to 0x07FF (R468, R469). -/
def lktRead (s : State) (a : Nat) : Word :=
  let l := s.lkt
  if a = 0x0400 then lktStat s
  else if a = 0x0404 then BitVec.ofNat 32 l.escTime
  else if a = 0x0408 then BitVec.ofNat 32 l.claimTime
  else if a = 0x040C then BitVec.ofNat 32 l.supWdog
  else if a = 0x041C then bitAt 0 l.clearRefused ||| fieldAt 8 l.clearSource
  else if a = 0x0420 then l.faultCnt
  else if a = 0x0424 then l.sigpathLast.setWidth 32
  else if 0x0440 ≤ a ∧ a < 0x0460 then srcPend s ((a - 0x0440) / 4)
  else if 0x0460 ≤ a ∧ a < 0x0480 then (l.srcMask >>> (32 * ((a - 0x0460) / 4))).setWidth 32
  else if 0x0480 ≤ a ∧ a < 0x0580 then recordRead s ((a - 0x0480) / 32) ((a - 0x0480) % 32)
  else if 0x0580 ≤ a ∧ a < 0x0680 then BitVec.ofNat 32 (leNat (Store.slice 0 l.srcCnt (a - 0x0580) 4))
  else 0

/-- FLT_GET_STATUS (R470). -/
def fltGetStatus (p : Nat) (s : State) : State × Reply :=
  let mine := (List.range 8).filter fun g => (s.record g).route.getLsbD p
  (s, Reply.ok (le32 (lktStat s) ++ (List.range 8).flatMap (fun w => le32 (srcPend s w))
    ++ mine.flatMap fun g => (List.range 8).flatMap fun i => le32 (recordRead s g (4 * i))))

/-- FLT_CLAIM (R462, R470). -/
def fltClaim (p : Nat) (rec : Byte) (s : State) : State × Reply :=
  let g := rec.toNat
  if 7 < g ∨ (s.record g).state = .idle then (s, Reply.code .badParam)
  else if !(s.record g).route.getLsbD p then (s, Reply.code .notOwner)
  else (claimRecord g p s, Reply.ok [])

/-- FLT_CLEAR (R464, R470). -/
def fltClear (p : Nat) (rec : Byte) (s : State) : State × Reply :=
  let g := rec.toNat
  if 7 < g then (s, Reply.code .badParam)
  else if !(s.record g).route.getLsbD p then (s, Reply.code .notOwner)
  else match clearBlock s g with
    | some src => (s, { status := .busy, payload := [BitVec.ofNat 8 src] })
    | none => (clearRecord g s, Reply.ok [])

/-- The class and action of FLT_SET_CLASS by code (R470). -/
def clsOf : Nat → Option Cls
  | 0 => some .notice | 1 => some .service | 2 => some .severe | _ => none
def actOf : Nat → Option Act
  | 0 => some .none | 1 => some .mute | 2 => some .chMute | 3 => some .domainReset | 4 => some .failSilent | _ => none

/-- FLT_SET_CLASS (R459, R470). -/
def fltSetClass (src cls act : Byte) (s : State) : State × Reply :=
  let n := src.toNat
  match sourceInfo n, clsOf cls.toNat, actOf act.toNat with
  | some (c0, a0, false), some c, some a =>
    if a = .chMute ∧ !decide (0x0A0 ≤ n ∧ n ≤ 0x0A4) then (s, Reply.code .badParam)
    else
      let entry := if c = c0 ∧ a = a0 then none else some (c, a)
      ({ s with lkt := { s.lkt with classes := Store.put none s.lkt.classes n entry } }, Reply.ok [])
  | _, _, _ => (s, Reply.code .badParam)

/-- FLT_SET_TIMERS (R453, R456, R462, R470). -/
def fltSetTimers (esc : Word) (claim : Half) (sup : Word) (s : State) : State × Reply :=
  if esc.toNat < 100 ∨ 100000 < esc.toNat ∨ claim.toNat < 10 ∨ 60000 < claim.toNat ∨ sup.toNat < 100
      ∨ 100000 < sup.toNat then (s, Reply.code .badParam)
  else ({ s with lkt := { s.lkt with escTime := esc.toNat, claimTime := claim.toNat, supWdog := sup.toNat } }, Reply.ok [])

/-- FLT_GET_COUNTS (R470). -/
def fltGetCounts (first : Byte) (count : Half) (s : State) : State × Reply :=
  if count.toNat < 1 ∨ 256 < first.toNat + count.toNat then (s, Reply.code .badParam)
  else (s, Reply.ok (Store.slice 0 s.lkt.srcCnt first.toNat count.toNat))

end Sys2Proof.Machine
end

