-- ==== Sys2Proof/Machine/Rings.lean ====
section
/-! DEFINITION. The host rings (R301 to R308): delivery, transmission, configuration and their registers. -/

namespace Sys2Proof.Machine

/-- Descriptors of a ring (R303). -/
def Ring.count (x : Ring) : Nat := 2 ^ x.size

/-- The address of a ring's descriptor. -/
def Ring.descAddr (x : Ring) (i : Nat) : Nat := x.base.toNat + 32 * (i % x.count)

/-- How a walk over a ring's descriptors ends: the frame is whole; a descriptor is not owned; the order of FIRST and LAST
is broken before or at a descriptor; an address lies outside the owner's regions; an access got an error response. -/
inductive Walk where
  | whole
  | notOwned
  | broken
  | region
  | error
  deriving DecidableEq, Repr

/-- Fetch a descriptor after its region check (R301). -/
def fetchDesc (owner a : Nat) (s : State) : State × Except Walk (List Byte) :=
  if !inOwnRegion s owner a 32 then (s, .error .region)
  else match colRead 12 a 32 s with
    | (s1, none) => (s1, .error .error)
    | (s1, some d) => (s1, .ok d)

/-- Fill consecutive owned descriptors with a frame's bytes (R304): how it ends, and the filled descriptors with their
lengths. -/
def fillRx (owner : Nat) (x : Ring) : Nat → Nat → List Byte → List (Nat × Nat) → State → State × Walk × List (Nat × Nat)
  | 0, _, _, done, s => (s, .notOwned, done)
  | fuel + 1, i, bs, done, s =>
    match fetchDesc owner (x.descAddr i) s with
    | (s1, .error w) => (s1, w, done)
    | (s1, .ok d) =>
      if leAt d 0 1 % 2 = 0 then (s1, .notOwned, done)
      else
        let part := bs.take (leAt d 4 2)
        let buf := leAt d 8 5
        if !inOwnRegion s1 owner buf part.length then (s1, .region, done)
        else match colWrite 12 buf part s1 with
          | (s2, false) => (s2, .error, done)
          | (s2, true) =>
            let rest := bs.drop (leAt d 4 2)
            let done' := done ++ [(i % x.count, part.length)]
            if rest.isEmpty then (s2, .whole, done') else fillRx owner x fuel (i + 1) rest done' s2

/-- Write one receive descriptor back (R303 to R305): `ctrl` has FIRST, LAST, DISCARDED and TS_VALID in place. -/
def backRx (x : Ring) (i : Nat) (ctrl len total : Nat) (f : RxFrame) (s : State) : State :=
  let a := x.descAddr i
  let s1 := (colWrite 12 (a + 6) (leBytes 2 len) s).1
  let tail := (match f.stamp with
    | some q => timeBytes q
    | none => List.replicate 10 0) ++ leBytes 2 total ++ leBytes 2 (frameTci f.bytes) ++ leBytes 1 f.port ++ leBytes 1 f.filter
  let s2 := (colWrite 12 (a + 16) tail s1).1
  (colWrite 12 a (leBytes 4 ctrl) s2).1

/-- Write the filled descriptors of a frame back. -/
def backAllRx (x : Ring) (f : RxFrame) (discard : Bool) (done : List (Nat × Nat)) (s : State) : State :=
  let n := done.length
  (done.zip (List.range n)).foldl (fun t e =>
    let first := if e.2 = 0 then 2 else 0
    let last := if !discard ∧ e.2 + 1 = n then 4 else 0
    let ctrl := first + last + (if discard then 8 else 0) + (if f.stamp.isSome then 16 else 0)
    backRx x e.1.1 ctrl e.1.2 (if last = 4 then f.bytes.length else 0) f t) s

/-- A frame of a ring is complete: counted, and the owner's interrupt cause set where enabled (R304, R422). -/
def ringDone (owner : Nat) (irq : Bool) (s : State) : State :=
  if irq then s.setPart owner { s.part owner with ringEvent := true } else s

/-- RX_RING_DELIVERY (R301, R304 to R306): the frame at the head of the ring's queue. -/
def rxDeliver (r : Nat) (s : State) : State :=
  let x := s.rxRing r
  let owner := ownerOf s (.rxRing r)
  if !x.enable || x.regionStop then s
  else match x.queue with
    | [] => s
    | f :: rest =>
      let (s1, w, done) := fillRx owner x x.count x.head f.bytes [] s
      let y := { s1.rxRing r with queue := rest }
      match w with
      | .region => s1.setRxRing r { y with regionStop := true, queue := [] }
      | .error => s1.setRxRing r { y with discard := y.discard + 1 }
      | .notOwned =>
        if done.isEmpty then s1
        else
          let s2 := backAllRx x f true done s1
          s2.setRxRing r { y with discard := y.discard + 1, head := (x.head + done.length) % x.count }
      | _ =>
        let s2 := backAllRx x f false done s1
        ringDone owner x.irqEn (s2.setRxRing r { y with frames := y.frames + 1, head := (x.head + done.length) % x.count })

/-- What a transmit frame's descriptors say: their count, the data, and the first one's CTRL and port mask (R303, R307). -/
structure TxWalk where
  count : Nat
  data : List Byte
  ctrl : Nat
  mask : Nat
  deriving DecidableEq, Repr

/-- Collect consecutive owned transmit descriptors from FIRST to LAST (R307). -/
def walkTx (owner : Nat) (x : Ring) : Nat → TxWalk → State → State × Walk × TxWalk
  | 0, t, s => (s, .broken, t)
  | fuel + 1, t, s =>
    match fetchDesc owner (x.descAddr (x.head + t.count)) s with
    | (s1, .error w) => (s1, w, t)
    | (s1, .ok d) =>
      let c := leAt d 0 4
      let first := c.testBit 1
      if !c.testBit 0 then (s1, .notOwned, t)
      else if t.count = 0 ∧ !first then (s1, .broken, { t with count := 1 })
      else if 0 < t.count ∧ first then (s1, .broken, t)
      else
        let len := leAt d 4 2
        let buf := leAt d 8 5
        if !inOwnRegion s1 owner buf len then (s1, .region, t)
        else match colRead 12 buf len s1 with
          | (s2, none) => (s2, .error, { t with count := t.count + 1 })
          | (s2, some bs) =>
            let t' : TxWalk := { count := t.count + 1, data := t.data ++ bs
                                 ctrl := if t.count = 0 then c else t.ctrl, mask := if t.count = 0 then leAt d 6 2 % 64 else t.mask }
            if c.testBit 2 then (s2, .whole, t') else walkTx owner x fuel t' s2

/-- Write transmit descriptors back with OWN clear and a flag set: SENT (bit 5) or DROPPED (bit 6) (R307). -/
def backTx (x : Ring) (n flag : Nat) (s : State) : State :=
  (List.range n).foldl (fun t j =>
    let a := x.descAddr (x.head + j)
    let (t1, d) := colRead 12 a 4 t
    let c := (d.map leNat).getD 0
    (colWrite 12 a (leBytes 4 (c / 2 * 2 ||| flag)) t1).1) s

/-- The ports of a host frame: the port mask of a DIRECT one, else R290 within the ring's domain (R307). -/
def txPorts (s : State) (x : Ring) (t : TxWalk) (bs : List Byte) : List Nat :=
  if t.ctrl.testBit 4 then [0, 1, 2, 3].filter fun p => t.mask.testBit p
  else if frameVid bs != 0 && !(match vlanOf s (frameVid bs) with
    | none => false
    | some v => v.members.getLsbD 4) then []
  else forwardPorts s 4 x.domain (frameVid bs) bs

/-- A host frame's port mask spans both domains (R307). -/
def spansDomains (s : State) (ps : List Nat) : Bool :=
  let ds := (ps.filter (· < 4)).map fun p => (s.netPort p).domain
  ds.contains 0 && ds.contains 1

/-- The frame of a whole walk: padded to 64 bytes with its FCS (R307). -/
def padFrame (bs : List Byte) : List Byte := bs ++ List.replicate (60 - bs.length) 0

/-- Hand a whole transmit frame to its egress queues, or drop it (R307). -/
def sendTx (r : Nat) (x : Ring) (t : TxWalk) (s : State) : State :=
  let owner := ownerOf s (.txRing r)
  let bs := padFrame t.data
  let ps := txPorts s x t bs
  let ext := ps.filter (· < 4)
  let cls := classOfFrame s 4 x.domain (!x.bulk) bs
  let direct := t.ctrl.testBit 4
  let full := !cls.express && !ext.isEmpty && decide (s.net.share < occupancy s 4 + ext.length * wireLen bs)
  let bad := (direct && spansDomains s ext) || ext.any fun p => decide ((s.netPort p).maxFrame < wireLen (egressBytes s (frameVid bs) p bs))
  let next := (x.head + t.count) % x.count
  if bad || full then
    let s1 := backTx x t.count 0x40 s
    let s2 := if bad then s1 else ext.foldl (fun u p => dropPre p u) s1
    let y := s2.txRing r
    s2.setTxRing r { y with discard := y.discard + 1, head := next }
  else
    let last := x.descAddr (x.head + t.count - 1)
    let f : QFrame := { bytes := bs, ingress := 4, cls := cls, stamp := none
                        tsDesc := if t.ctrl.testBit 3 && direct && ext.length == 1 then some last else none }
    let s1 := (toPorts (frameVid bs) f ps (backTx x t.count 0x20 s)).1
    let y := s1.txRing r
    pauseCheck (ringDone owner x.irqEn (s1.setTxRing r { y with frames := y.frames + 1, head := next }))

/-- TX_RING_FRAME (R301, R307). -/
def txFrame (r : Nat) (s : State) : State :=
  let x := s.txRing r
  if !x.enable || x.regionStop then s
  else
    let (s1, w, t) := walkTx (ownerOf s (.txRing r)) x x.count { count := 0, data := [], ctrl := 0, mask := 0 } s
    let y := s1.txRing r
    match w with
    | .notOwned => s1
    | .region => s1.setTxRing r { y with regionStop := true }
    | .whole => sendTx r x t s1
    | _ =>
      let s2 := backTx x t.count 0x40 s1
      s2.setTxRing r { y with discard := y.discard + 1, head := (x.head + t.count) % x.count }

/-- A transmit ring is disabled inside a frame: the partial frame goes back with DROPPED (R308). -/
def stopTx (r : Nat) (s : State) : State :=
  let x := s.txRing r
  let (s1, w, t) := walkTx (ownerOf s (.txRing r)) x x.count { count := 0, data := [], ctrl := 0, mask := 0 } s
  if w = .notOwned ∧ 0 < t.count then
    let s2 := backTx x t.count 0x40 s1
    let y := s2.txRing r
    s2.setTxRing r { y with discard := y.discard + 1, head := (x.head + t.count) % x.count }
  else s

/-- The parameter checks of NET_SET_RING (R303, R306, R313). -/
def netRingOk (c : NetSetRing) (s : State) : Bool :=
  let queues := (s.net.rx.map Ring.queueKiB).set c.ring.toNat c.queue.toNat
  decide (c.dir.toNat ≤ 1 ∧ c.ring.toNat ≤ 7 ∧ c.enable.toNat ≤ 1 ∧ 4 ≤ c.size.toNat ∧ c.size.toNat ≤ 12
    ∧ c.base.toNat % 32 = 0 ∧ c.base.toNat < 2 ^ 40 ∧ c.cls.toNat ≤ 1 ∧ c.domain.toNat ≤ 1)
    && (c.dir.toNat == 1 || (decide (4 ≤ c.queue.toNat ∧ c.queue.toNat ≤ 512)
      && memoryFits s.net.expressLimit s.net.share queues))

/-- The ring as the command sets it; an enabled ring begins at descriptor 0. -/
def Ring.configured (x : Ring) (c : NetSetRing) : Ring :=
  let on := c.enable.toNat == 1
  { x with base := c.base.setWidth 40, size := c.size.toNat, enable := on, bulk := c.cls.toNat = 1
           domain := c.domain.toNat, queueKiB := c.queue.toNat, head := if on then 0 else x.head
           regionStop := x.regionStop && !on }

/-- NET_SET_RING (R292, R306, R308, R313). -/
def netSetRing (c : NetSetRing) (s : State) : State × Reply :=
  let r := c.ring.toNat
  let x := if c.dir.toNat = 0 then s.rxRing r else s.txRing r
  if !netRingOk c s then (s, Reply.code .badParam)
  else if x.enable ∧ c.enable.toNat = 1 then (s, Reply.code .busy)
  else if c.dir.toNat = 0 then
    let lost := if x.enable then x.queue.length else 0
    (s.setRxRing r { x.configured c with queue := [], qdrop := x.qdrop + BitVec.ofNat 32 lost }, Reply.ok [])
  else
    let s1 := if x.enable then stopTx r s else s
    (s1.setTxRing r ((s1.txRing r).configured c), Reply.ok [])

/-- A write to a ring's DOORBELL (R304): the device fetches again at HEAD. -/
def ringDoorbell (tx : Bool) (r : Nat) (s : State) : State := if tx then txFrame r s else rxDeliver r s

/-- A write to another word of a ring's block (R310). -/
def ringWrite (tx : Bool) (r o : Nat) (w : Word) (s : State) : State :=
  let x := if tx then s.txRing r else s.rxRing r
  let y :=
    if o = 0x00 then { x with base := ((x.base >>> 32) <<< 32) ||| (w &&& 0xFFFF_FFE0).setWidth 40 }
    else if o = 0x04 then { x with base := (x.base.setWidth 32).setWidth 40 ||| ((w &&& 0xFF).setWidth 40 <<< 32) }
    else if o = 0x08 then { x with irqEn := w.getLsbD 5 }
    else x
  if tx then s.setTxRing r y else s.setRxRing r y

end Sys2Proof.Machine
end

