-- ==== Sys2Proof/Machine/Packets.lean ====
section
/-! DEFINITION. Falver packets (R404 to R409) and the command slots' replies (R411 to R417). -/

namespace Sys2Proof.Machine

/-- The fields of a payload by their widths in bytes; none where the size is wrong. -/
def fieldsOf : List Nat → List Byte → Option (List Nat)
  | [], [] => some []
  | [], _ :: _ => none
  | w :: ws, bs => if bs.length < w then none else (fieldsOf ws (bs.drop w)).map fun t => leNat (bs.take w) :: t

/-- The 16 header bytes of a packet (R404). -/
def headerBytes (flags part status : Nat) (tag : Word) (opcode : Half) (len : Nat) : List Byte :=
  [0x01, BitVec.ofNat 8 flags, BitVec.ofNat 8 part, BitVec.ofNat 8 status] ++ le32 tag ++ le16 opcode ++ leBytes 2 len
    ++ [0, 0, 0, 0]

/-- The tag of a packet under its key, with FLAGS[1] taken as 0; zeros for an unkeyed partition (R405, R407). -/
def packetTag (key : Option (BitVec 256)) (bs : List Byte) : List Byte :=
  match key with
  | none => List.replicate 16 0
  | some k => leBytes 16 (Config.aesCmac k (bs.take 1 ++ [(bs.getD 1 0) &&& 0xFD#8] ++ bs.drop 2)).toNat

/-- A reply packet (R404, R405). -/
def replyPacket (key : Option (BitVec 256)) (part : Nat) (h : PktHdr) (r : Reply) : List Byte :=
  let body := headerBytes 1 part r.status.byte.toNat h.tag h.opcode r.payload.length ++ r.payload ++ le64 h.counter
  body ++ packetTag key body

/-- A packet with REPLAY set (R405, R409). -/
def asReplay (bs : List Byte) : List Byte := setBytes bs 1 [(bs.getD 1 0) ||| 2#8]

/-- A packet as its sender built it. -/
structure Packet where
  version : Nat
  flags : Nat
  part : Nat
  hdr : PktHdr
  length : Nat
  reserved : Nat
  bytes : List Byte
  tag : List Byte
  deriving DecidableEq, Repr

/-- Read a packet of `n` delivered bytes (R404). -/
def readPacket (bs : List Byte) : Packet :=
  let n := leAt bs 0xA 2
  { version := leAt bs 0 1, flags := leAt bs 1 1, part := leAt bs 2 1, length := n, reserved := leAt bs 0xC 4
    hdr := { tag := BitVec.ofNat 32 (leAt bs 4 4), opcode := BitVec.ofNat 16 (leAt bs 8 2)
             counter := BitVec.ofNat 64 (leAt bs (16 + n) 8), newSession := natBit (leAt bs 1 1) 2
             payload := (bs.drop 16).take n }
    bytes := bs.take (24 + n), tag := (bs.drop (24 + n)).take 16 }

/-- Check 1 of R411; `limit` is the longest packet of the transport. -/
def formOk (k : Packet) (delivered limit : Nat) : Bool :=
  k.version == 1 && k.flags % 2 == 0 && k.flags / 8 == 0 && k.reserved == 0 && k.length + 40 == delivered
    && decide (k.length ≤ 4024 ∧ delivered ≤ limit)

/-- Check 2 of R411: the partition is enabled and the tag verifies; an unkeyed partition has its mailbox alone (R407,
R420). -/
def authOk (s : State) (k : Packet) (udp : Bool) : Bool :=
  decide (k.part < 4) && s.own.partEn.getLsbD k.part && (match partKey s k.part with
    | none => !udp
    | some key => k.tag == packetTag (some key) k.bytes)

/-- The counter test of R408. -/
def counterOk (c : PartCmd) (ctr : Long) : Bool :=
  (ctr >>> 32).setWidth 32 == c.session && decide ((c.lastCtr.setWidth 32).toNat < (ctr.setWidth 32).toNat)

/-- A command of the slot executes: it is pending and does not wait (R417). -/
def CmdSlot.executing (c : CmdSlot) : Bool := c.state == .pending && !c.waiting

/-- The mailbox's packet area shows a packet. -/
def showPacket (p : Nat) (bs : List Byte) (s : State) : State :=
  s.setPart p { s.part p with area := Store.putAll 0 [] 0 (bs.take 4064) }

/-- The mailbox becomes READY with a reply packet (R413). -/
def mailboxReply (p : Nat) (h : PktHdr) (pkt : List Byte) (s : State) : State :=
  showPacket p pkt (onSlot p false (fun c => { c with
    state := .ready, waiting := false, hdr := h, result := none, job := none, held := false, stored := some (h, pkt)
    replay := false }) s)

/-- Send a packet to the address that a UDP command came from (R416), through host ring 0 and the switch. -/
def udpSend (c : CmdSlot) (pkt : List Byte) (s : State) : State :=
  let bs := padFrame (udpFrame c.srcMac.toNat s.own.station.toNat 0 0 64 s.own.hostIp.toNat c.srcIp.toNat
    s.own.udpPort.toNat c.srcPort.toNat pkt)
  let p := s.netPort c.ingress
  let f : QFrame := { bytes := bs, ingress := 4, cls := .control, stamp := none, tsDesc := none }
  (toPorts p.pvid f (forwardPorts s 4 p.domain p.pvid bs) s).1

/-- The UDP slot's reply goes out, and is kept for R409. -/
def udpReply (p : Nat) (h : PktHdr) (pkt : List Byte) (s : State) : State :=
  let c := s.slot p true
  udpSend c pkt (onSlot p true (fun c => { c with
    state := .empty, waiting := false, result := none, job := none, held := false, stored := some (h, pkt) }) s)

/-- A slot's command is answered: the reply is written or sent, and the partition's waiting command may run (R413, R416,
R417). -/
def answer (p : Nat) (udp : Bool) (r : Reply) (s : State) : State :=
  let c := s.slot p udp
  let pkt := replyPacket c.key p c.hdr r
  let s1 := if udp then udpReply p c.hdr pkt s else mailboxReply p c.hdr pkt s
  onSlot p (!udp) (fun d => { d with waiting := false }) s1

/-- A free UDP reply, one whose command takes no slot: AUTH_FAIL, REPLAY, BUSY, a stored reply or a PENDING header. -/
def udpDirect (c : CmdSlot) (p : Nat) (h : PktHdr) (key : Option (BitVec 256)) (st : Status) (s : State) : State :=
  udpSend c (replyPacket key p h (Reply.code st)) s

end Sys2Proof.Machine
end

