-- ==== Sys2Proof/Machine/SysCommands.lean ====
section
/-! DEFINITION. The system commands and the profiles (R410, R424 to R430): what each answers, and the profile work that
ends with its command. -/

namespace Sys2Proof.Machine

/-- SYS_HELLO (R408, R410, R482). -/
def sysHello (p : Nat) (newSession : Bool) (s : State) : State × Reply :=
  if newSession && s.sec.drbgStopped then (s, Reply.code .internal)
  else if newSession then
    let (w, s1) := draw s
    let c := s1.part p
    let x := pickSession c.session w
    (s1.setPart p { c with session := x, lastCtr := 0 }, Reply.ok (le32 x ++ le64 0))
  else (s, Reply.ok (le32 (s.part p).session ++ le64 (s.part p).lastCtr))

/-- The profile latch as one byte (R424, R524). -/
def latchByte (k : Ka) : Nat :=
  k.latchSlot % 8 + (if k.latchValid then 8 else 0) + (if k.latchSource then 16 else 0)

/-- SYS_GET_INFO (R424, R427). -/
def sysGetInfo (s : State) : State × Reply :=
  let b := s.boot
  (s, Reply.ok (le32 (sysId s) ++ le32 s.sys.fwVersion ++ leBytes 1 (if b.profileOk then b.slot else 0xFF) ++ le32 b.profileId
    ++ leBytes 1 s.pins.profileSel.toNat ++ leBytes 1 (latchByte s.ka) ++ leBytes 1 s.own.partEn.toNat
    ++ leBytes 1 s.red.state.code ++ leBytes 1 b.failCode ++ leBytes 1 b.failSlot ++ leBytes 2 b.failIndex
    ++ le16 b.failOpcode ++ [b.failStatus]))

/-- SYS_GET_OWNERSHIP: the owners in the order of the ownership section (R424, R426). -/
def sysGetOwnership (s : State) : State × Reply :=
  (s, Reply.ok ((List.range 1127).flatMap fun i => leBytes 1 (Store.look 0 s.own.owners i)))

/-- The slot that the next boot would take (R427). -/
def nextBootSlot (s : State) : Nat :=
  if s.ka.latchValid && s.ka.latchSource then s.ka.latchSlot else s.pins.profileSel.toNat

/-- The job writes, erases or seals a profile slot. -/
def Job.editsProfile : Job → Bool
  | .profileErase _ => true
  | .profileSeal _ => true
  | _ => false

/-- The slot that a load takes (R428). -/
def loadSlot (s : State) (c : ProfileLoad) : Nat := if c.flags.getLsbD 2 then s.pins.profileSel.toNat else c.slot.toNat

/-- SYS_PROFILE_LOAD: what is refused before the verification (R429, R430, R526). -/
def sysProfileLoad (c : ProfileLoad) (s : State) : State × Reply :=
  if 7 < loadSlot s c ∨ 7 < c.flags.toNat then (s, Reply.code .badParam)
  else if s.boot.teardown.isSome || (runningJobs s).any Job.editsProfile then (s, Reply.code .busy)
  else if paired s && (s.red.nrlOk || s.red.netOk) && !c.flags.getLsbD 1 then (s, Reply.code .busy)
  else (s, Reply.code .pending)

/-- The profile latch after an accepted load (R428, R525). -/
def Ka.takeLoad (k : Ka) (n : Nat) (flags : Byte) : Ka :=
  let k1 := if flags.getLsbD 2 then { k with latchValid := false } else k
  if flags.getLsbD 0 then { k1 with latchSlot := n, latchValid := true, latchSource := true, latchOnce := false }
  else if flags.getLsbD 2 then k1
  else { k1 with latchSlot := n, latchValid := true, latchSource := true, latchOnce := true }

/-- The first wave at least 10 ms after now (R428; log 48). -/
def teardownWave (s : State) : Word := s.mcnt + BitVec.ofNat 32 (samplesOfMs s.fs 10 + 1)

/-- A load's verification ends (R428, R430): the teardown is set, or the load is refused and nothing changes. -/
def profileLoadEnd (n : Nat) (flags : Byte) (s : State) : State × Reply :=
  if !isSealed s n then (s, bundleRefused 0x20)
  else match profCheck s n with
    | .error r => (s, bundleRefused r)
    | .ok _ =>
      let v := teardownWave s
      ({ s with ka := s.ka.takeLoad n flags
                boot := { s.boot with teardown := some (.load n), tearWave := some v, tearStarted := false } },
        Reply.ok (le32 v))

/-- An erase of this slot takes FORCE (R430): the slot that the next boot would take, or the one that is loaded. -/
def eraseGuarded (s : State) (n : Nat) : Bool := nextBootSlot s == n || (s.boot.profileOk && s.boot.slot == n)

/-- SYS_PROFILE_ERASE (R424, R430). -/
def sysProfileErase (c : ProfileErase) (s : State) : State × Reply :=
  if 7 < c.slot.toNat ∨ c.flags &&& 0xFD ≠ 0 then (s, Reply.code .badParam)
  else if eraseGuarded s c.slot.toNat && !c.flags.getLsbD 1 then (s, Reply.code .locked)
  else (s, Reply.code .pending)

/-- A profile slot has been erased: its seal goes with it (R425, R430). -/
def profileEraseEnd (n : Nat) (s : State) : State × Reply :=
  let s1 := flashErase (slotBase n) slotBytes s
  ({ s1 with flash := { s1.flash with sealed := setBit s1.flash.sealed n false } }, Reply.ok [])

/-- SYS_PROFILE_WRITE (R424, R430). -/
def sysProfileWrite (w : FlashWrite) (s : State) : State × Reply :=
  let n := w.unit.toNat
  if w.data.length ≠ w.length.toNat then (s, Reply.code .badLength)
  else if 7 < n ∨ isSealed s n ∨ !flashWriteOk s (slotBase n) w then (s, Reply.code .badParam)
  else (flashWrite (slotBase n + w.offset.toNat) w.data s, Reply.ok [])

/-- SYS_PROFILE_SEAL (R424, R430): the verification runs until the command ends. -/
def sysProfileSeal (slot : Byte) (s : State) : State × Reply :=
  if 7 < slot.toNat ∨ isSealed s slot.toNat then (s, Reply.code .badParam) else (s, Reply.code .pending)

/-- A seal's verification ends (R424, R425). -/
def profileSealEnd (n : Nat) (s : State) : State × Reply :=
  match profCheck s n with
  | .error r => (s, bundleRefused r)
  | .ok h =>
    ({ s with flash := { s.flash with sealed := setBit s.flash.sealed n true } }, Reply.ok (le32 h.id ++ le32 h.rollback))

/-- What SYS_PROFILE_LIST tells of a slot; a slot without a seal shows zeros (R424; log 29). -/
def profileEntry (s : State) (n : Nat) : List Byte :=
  match isSealed s n, profHead s n with
  | true, some h => [1] ++ le32 h.id ++ le32 h.rollback ++ h.name
  | _, _ => List.replicate 41 0

/-- SYS_PROFILE_LIST (R424). -/
def sysProfileList (s : State) : State × Reply := (s, Reply.ok ((List.range 8).flatMap (profileEntry s)))

/-- A firmware copy has been erased (R479). -/
def fwEraseEnd (c : Nat) (s : State) : State × Reply := (flashErase (copyBase c) slotBytes s, Reply.ok [])

/-- The work inside a command ends with it: the state after, and the answer; none where the work ends by a row of its own
or is not over (R417, R424, R491, R272). -/
def jobEnd (j : Job) (s : State) : Option (State × Reply) :=
  match j with
  | .fwErase c => some (fwEraseEnd c s)
  | .fwVerify c => some (s, fwVerifyReply s c)
  | .profileErase n => some (profileEraseEnd n s)
  | .profileSeal n => some (profileSealEnd n s)
  | .profileLoad n f => some (profileLoadEnd (if f.getLsbD 2 then s.pins.profileSel.toNat else n) f s)
  | .pwsStart m => (pwsStartEnd m s).map fun r => (s, r)
  | .graphVerify => none
  | .bulkArm => none

end Sys2Proof.Machine
end

