-- ==== Sys2Proof/Machine/Commands.lean ====
section
/-! DEFINITION. The commands of the opcode map (R423): for each its opcode, payload, the units that it names, and its
effect with its answer; and the reading of a packet's opcode and payload as a command. Payload fields are little-endian
in the order of the command tables (R404). -/

namespace Sys2Proof.Machine

/-- A command that has been read from its packet. -/
structure Body where
  opcode : Nat
  /-- The payload as sent, kept for a command that is forwarded to a peer (R388). -/
  payload : List Byte := []
  /-- Accepted only from partition 0. -/
  only0 : Bool := false
  /-- The resource units that it names (R22, R411); a number outside a unit's range names none. -/
  units : List Res := []
  /-- The work that goes on while its reply is PENDING. -/
  job : Option Job := none
  /-- Its effect and its answer for a partition over a slot (true for UDP): the checks of step 9 of R411 onward. -/
  run : Nat → Bool → State → State × Reply

/-- Payload bytes from widths and values. -/
def bytesOf (fs : List (Nat × Nat)) : List Byte := fs.flatMap fun f => leBytes f.1 f.2

def ctxUnits (dir ctx : Nat) : List Res := if dir = 0 then [.txCtx ctx] else if dir = 1 then [.rxCtx ctx] else []
def ringUnits (dir ring : Nat) : List Res :=
  if 7 < ring then [] else if dir = 0 then [.rxRing ring] else if dir = 1 then [.txRing ring] else []
def alarmUnits (a : Nat) : List Res := if a < 8 then [.alarm a] else []
def tapUnits (t : Nat) : List Res := if t < 16 then [.tap t] else []
def groupUnits (g : Nat) : List Res := if g < 8 then [.tdmGroup g] else []
def portUnits (n : Nat) : List Res := if n < 64 then [.tdmGroup (groupOfPort n)] else []
def maskUnits (m : Long) : List Res := (bitsOf m).map fun n => .tdmGroup (groupOfPort n)
def columnUnits (j : Nat) : List Res := if j < 512 then [.column j] else []
def channelUnits (c : Nat) : List Res := if c < 16 then [.pwsCh c] else []
def channelMaskUnits (m : Half) : List Res := (bitsOf m).map fun c => .pwsCh c
def engineUnits (e : Nat) : List Res := if e < 24 then [.cluster (e / 4)] else []

/-- A command without a payload (R424). -/
def noFields (h : PktHdr) (b : Body) : Except Status Body := if h.payload.isEmpty then .ok b else .error .badLength

/-- The payload of SYS_PROFILE_WRITE and of SEC_FW_WRITE. -/
def readFlash (h : PktHdr) (b : FlashWrite → Body) : Except Status Body :=
  if h.payload.length < 12 then .error .badLength
  else .ok (b { unit := h.payload.headD 0, offset := .ofNat 32 (leAt h.payload 4 4), length := .ofNat 16 (leAt h.payload 8 2)
                data := h.payload.drop 12 })

/-- SYS_HELLO (R410). -/
def bodySysHello (newSession : Bool) : Body := { opcode := 0x0101, run := fun p _ s => sysHello p newSession s }

/-- SYS_GET_INFO (R424). -/
def bodySysGetInfo : Body :=
  { opcode := 0x0102, run := fun _ _ s => sysGetInfo s }

/-- SYS_GET_OWNERSHIP (R424). -/
def bodySysGetOwnership : Body :=
  { opcode := 0x0103, run := fun _ _ s => sysGetOwnership s }

/-- SYS_PROFILE_LOAD (R428). -/
def bodySysProfileLoad (c : ProfileLoad) : Body :=
  { opcode := 0x0104, only0 := true, job := some (.profileLoad c.slot.toNat c.flags)
    run := fun _ _ s => sysProfileLoad c s }

/-- SYS_PROFILE_ERASE (R430). -/
def bodySysProfileErase (c : ProfileErase) : Body :=
  { opcode := 0x0105, only0 := true, job := some (.profileErase c.slot.toNat)
    run := fun _ _ s => sysProfileErase c s }

/-- SYS_PROFILE_WRITE (R424, R430). -/
def bodySysProfileWrite (c : FlashWrite) : Body :=
  { opcode := 0x0106, only0 := true, run := fun _ _ s => sysProfileWrite c s }

/-- SYS_PROFILE_SEAL (R424). -/
def bodySysProfileSeal (slot : Byte) : Body :=
  { opcode := 0x0107, only0 := true, job := some (.profileSeal slot.toNat)
    run := fun _ _ s => sysProfileSeal slot s }

/-- SYS_PROFILE_LIST (R424). -/
def bodySysProfileList : Body :=
  { opcode := 0x0108, only0 := true, run := fun _ _ s => sysProfileList s }

/-- FAB_SET_GOVERNOR (R90). -/
def bodyFabSetGovernor (c : FabSetGovernor) : Body :=
  { opcode := 0x0110, only0 := true, run := fun _ _ s => fabSetGovernor c s }

/-- FAB_SET_ESCALATION (R76). -/
def bodyFabSetEscalation (burst stall : Half) : Body :=
  { opcode := 0x0111, only0 := true, run := fun _ _ s => fabSetEscalation burst stall s }

/-- CRN_SET_TRAP_ESCALATION (R157). -/
def bodyCrnSetTrapEscalation (th : Half) : Body :=
  { opcode := 0x0112, only0 := true, run := fun _ _ s => crnSetTrapEscalation th s }

/-- DMA_RESUME (R223). -/
def bodyDmaResume : Body :=
  { opcode := 0x0113, only0 := true, run := fun _ _ s => dmaResume s }

/-- MEM_SET_SCRUB (R230). -/
def bodyMemSetScrub (period timeout : Half) : Body :=
  { opcode := 0x0114, only0 := true, run := fun _ _ s => memSetScrub period timeout s }

/-- CLK_GET_STATUS (R56). -/
def bodyClkGetStatus : Body :=
  { opcode := 0x0201, only0 := true, run := fun _ _ s => clkGetStatus s }

/-- CLK_SET_RATE (R29). -/
def bodyClkSetRate (code : Byte) : Body :=
  { opcode := 0x0202, payload := bytesOf [(1, code.toNat)], only0 := true, run := fun _ _ s => clkSetRate code s }

/-- CLK_REF_CONFIG (R58). -/
def bodyClkRefConfig (c : ClkRefConfig) : Body :=
  { opcode := 0x0203
    payload := bytesOf [(1, c.index.toNat), (1, c.enable.toNat), (1, c.rank.toNat), (1, c.form.toNat), (1,
      c.nominal.toNat), (3, 0), (2, c.qualTime.toNat), (2, c.startQual.toNat), (4, c.bandwidth.toNat), (1,
      c.maxClass.toNat), (3, 0), (4, c.offsetLimit.toNat)]
    only0 := true, run := fun _ _ s => clkRefConfig c s }

/-- CLK_SELECT (R39). -/
def bodyClkSelect (c : ClkSelect) : Body :=
  { opcode := 0x0204, payload := bytesOf [(1, c.mode.toNat), (1, c.manual.toNat), (1, c.revertive.toNat)]
    only0 := true, run := fun _ _ s => clkSelect c s }

/-- CLK_SET_TIMERS (R58). -/
def bodyClkSetTimers (c : ClkSetTimers) : Body :=
  { opcode := 0x0205
    payload := bytesOf [(2, c.wtr.toNat), (2, c.slewLimit.toNat), (4, c.slewWindow.toNat), (4, c.disagree.toNat), (4,
      c.capture.toNat), (2, c.acquire.toNat)]
    only0 := true, run := fun _ _ s => clkSetTimers c s }

/-- CLK_SET_HOLDOVER (R51). -/
def bodyClkSetHoldover (c : ClkSetHoldover) : Body :=
  { opcode := 0x0206
    payload := bytesOf [(1, c.method.toNat), (1, c.oscClass.toNat), (4, c.specWindow.toNat), (1, c.w.toNat), (1,
      c.wc.toNat), (1, c.g.toNat)]
    only0 := true, run := fun _ _ s => clkSetHoldover c s }

/-- CLK_SET_TRIM (R49). -/
def bodyClkSetTrim (ppt : Long) : Body :=
  { opcode := 0x0207, payload := bytesOf [(8, ppt.toNat)], only0 := true, run := fun _ _ s => clkSetTrim ppt s }

/-- CLK_PHASE_STEP (R48). -/
def bodyClkPhaseStep (ns : Word) : Body :=
  { opcode := 0x0208, payload := bytesOf [(4, ns.toNat)], only0 := true, run := fun _ _ s => clkPhaseStep ns s }

/-- CLK_REALIGN (R46): SLEW carries a u16, STEP a u32. -/
def bodyClkRealign (c : ClkRealign) : Body :=
  { opcode := 0x0209, only0 := true, payload := bytesOf [(1, c.method.toNat), (if c.method = 0 then 2 else 4, c.arg.toNat)],
    run := fun _ _ s => clkRealign c s }

/-- CLK_GET_REF (R56). -/
def bodyClkGetRef (index : Byte) : Body :=
  { opcode := 0x020A, payload := bytesOf [(1, index.toNat)], only0 := true, run := fun _ _ s => clkGetRef index s }

/-- NET_SET_PORT (R284). -/
def bodyNetSetPort (c : NetSetPort) : Body :=
  { opcode := 0x0301, only0 := true, run := fun _ _ s => netSetPort c s }

/-- NET_SET_SWITCH (R292). -/
def bodyNetSetSwitch (c : NetSetSwitch) : Body :=
  { opcode := 0x0302, only0 := true, run := fun _ _ s => netSetSwitch c s }

/-- NET_FDB_WRITE (R291). -/
def bodyNetFdbWrite (c : NetFdbWrite) : Body :=
  { opcode := 0x0303, only0 := true, run := fun _ _ s => netFdbWrite c s }

/-- NET_VLAN_WRITE (R291). -/
def bodyNetVlanWrite (vid : Half) (members taggedPorts : Byte) : Body :=
  { opcode := 0x0304, only0 := true, run := fun _ _ s => netVlanWrite vid members taggedPorts s }

/-- NET_SET_FILTER (R302). -/
def bodyNetSetFilter (c : NetSetFilter) : Body :=
  { opcode := 0x0305, only0 := true, run := fun _ _ s => netSetFilter c s }

/-- NET_SET_RING (R306). -/
def bodyNetSetRing (c : NetSetRing) : Body :=
  { opcode := 0x0306, units := ringUnits c.dir.toNat c.ring.toNat, run := fun _ _ s => netSetRing c s }

/-- NET_TEST (R313). -/
def bodyNetTest (port mode : Byte) : Body :=
  { opcode := 0x0307, only0 := true, run := fun _ _ s => netTest port mode s }

/-- NET_GET_STATUS (R313). -/
def bodyNetGetStatus (port : Byte) : Body :=
  { opcode := 0x0308, payload := bytesOf [(1, port.toNat)], run := fun _ _ s => netGetStatus port s }

/-- PTP_SET_INSTANCE (R316). -/
def bodyPtpSetInstance (c : PtpSetInstance) : Body :=
  { opcode := 0x0310
    payload := bytesOf [(1, c.inst.toNat), (1, c.enable.toNat), (1, c.profile.toNat), (1, c.domain.toNat), (1,
      c.logSync.toNat), (1, c.logAnnounce.toNat), (1, c.logDelay.toNat), (1, c.timeout.toNat), (1, c.unicast.toNat),
      (1, c.master.toNat), (2, c.reserved.toNat), (4, c.jump.toNat), (4, c.outlier.toNat)]
    only0 := true, run := fun _ _ s => ptpSetInstance c s }

/-- PTP_SET_PORT_TS (R321). -/
def bodyPtpSetPortTs (c : PtpSetPortTs) : Body :=
  { opcode := 0x0311, only0 := true, run := fun _ _ s => ptpSetPortTs c s }

/-- PTP_SET_MASTER (R320). -/
def bodyPtpSetMaster (c : PtpSetMaster) : Body :=
  { opcode := 0x0312
    payload := bytesOf [(1, c.inst.toNat), (1, c.priority1.toNat), (1, c.priority2.toNat), (1, c.accuracy.toNat), (1,
      c.timeSource.toNat), (2, c.variance.toNat), (1, c.class1.toNat), (1, c.class2.toNat), (1, c.class3.toNat), (1,
      c.class4.toNat), (1, c.class5.toNat), (1, c.class6.toNat), (2, c.utcOfs.toNat), (1, c.flags.toNat)]
    only0 := true, run := fun _ _ s => ptpSetMaster c s }

/-- PTP_ACCEPT_JUMP (R332). -/
def bodyPtpAcceptJump (inst : Byte) (gm : Long) : Body :=
  { opcode := 0x0313, payload := bytesOf [(1, inst.toNat), (3, 0), (8, gm.toNat)], only0 := true
    run := fun _ _ s => ptpAcceptJump inst gm s }

/-- PTP_SET_TIME (R326). -/
def bodyPtpSetTime (sec : Long) : Body :=
  { opcode := 0x0314, payload := bytesOf [(8, sec.toNat)], only0 := true, run := fun _ _ s => ptpSetTime sec s }

/-- PTP_SET_ALARM (R329). -/
def bodyPtpSetAlarm (c : PtpSetAlarm) : Body :=
  { opcode := 0x0315
    payload := bytesOf [(1, c.alarm.toNat), (1, c.unit.toNat), (2, c.reserved.toNat), (4, c.target.toNat), (4,
      c.period.toNat)]
    units := alarmUnits c.alarm.toNat, run := fun _ _ s => ptpSetAlarm c s }

/-- PTP_CANCEL_ALARM (R335). -/
def bodyPtpCancelAlarm (alarm : Byte) : Body :=
  { opcode := 0x0316, payload := bytesOf [(1, alarm.toNat)], units := alarmUnits alarm.toNat
    run := fun _ _ s => ptpCancelAlarm alarm s }

/-- PTP_GET_STATUS (R335). -/
def bodyPtpGetStatus (inst : Byte) : Body :=
  { opcode := 0x0317, payload := bytesOf [(1, inst.toNat)], run := fun _ _ s => ptpGetStatus inst s }

/-- STREAM_SET_TX (R343). -/
def bodyStreamSetTx (ctx : Byte) (c : TxCfg) : Body :=
  { opcode := 0x0320
    payload := bytesOf [(1, ctx.toNat), (1, 0), (1, c.channels.toNat), (1, c.format.toNat), (1, c.ptime.toNat), (1,
      c.launch.toNat), (1, c.paths.toNat), (1, c.label.toNat), (1, c.pt.toNat), (1, c.dscp.toNat), (1, c.ttl.toNat),
      (2, c.vlan.toNat), (2, c.plimit.toNat), (4, c.ssrc.toNat), (4, c.srcIp.toNat), (6, c.a.dstMac.toNat), (4,
      c.a.dstIp.toNat), (2, c.a.srcPort.toNat), (2, c.a.dstPort.toNat), (6, c.b.dstMac.toNat), (4, c.b.dstIp.toNat),
      (2, c.b.srcPort.toNat), (2, c.b.dstPort.toNat)]
    units := [.txCtx ctx.toNat], run := fun _ _ s => streamSetTx ctx c s }

/-- STREAM_SET_RX (R349). -/
def bodyStreamSetRx (ctx : Byte) (c : RxCfg) : Body :=
  { opcode := 0x0321
    payload := bytesOf [(1, ctx.toNat), (1, 0), (1, c.channels.toNat), (1, c.format.toNat), (1, c.ptime.toNat), (1,
      c.senderG.toNat), (1, c.paths.toNat), (1, c.group.toNat), (2, c.l.toNat), (2, c.depth.toNat), (4,
      c.base.toNat), (4, c.rtpOfs.toNat), (1, c.pt.toNat), (1, c.ssrcEn.toNat), (4, c.ssrc.toNat), (4,
      c.a.dstIp.toNat), (2, c.a.dstPort.toNat), (4, c.a.srcFilter.toNat), (2, c.a.vlan.toNat), (4, c.b.dstIp.toNat),
      (2, c.b.dstPort.toNat), (4, c.b.srcFilter.toNat), (2, c.b.vlan.toNat)]
    units := [.rxCtx ctx.toNat], run := fun _ _ s => streamSetRx ctx c s }

/-- STREAM_SET_CS (R342). -/
def bodyStreamSetCs (ctx : Byte) (block : List Byte) : Body :=
  { opcode := 0x0322, payload := [ctx, 0] ++ block, units := [.txCtx ctx.toNat], run := fun _ _ s => streamSetCs ctx block s }

/-- STREAM_START (R345). -/
def bodyStreamStart (dir ctx : Byte) (q0 : Half) (w : Word) : Body :=
  { opcode := 0x0323, payload := bytesOf [(1, dir.toNat), (1, ctx.toNat), (2, q0.toNat), (4, w.toNat)]
    units := ctxUnits dir.toNat ctx.toNat, run := fun _ _ s => streamStart dir ctx q0 w s }

/-- STREAM_STOP (R348). -/
def bodyStreamStop (dir ctx : Byte) (e : Word) : Body :=
  { opcode := 0x0324, payload := bytesOf [(1, dir.toNat), (1, ctx.toNat), (2, 0), (4, e.toNat)]
    units := ctxUnits dir.toNat ctx.toNat, run := fun _ _ s => streamStop dir ctx e s }

/-- STREAM_SET_GROUP (R357). -/
def bodyStreamSetGroup (group : Byte) (p : Half) : Body :=
  { opcode := 0x0325, payload := bytesOf [(1, group.toNat), (1, 0), (2, p.toNat)], only0 := true
    run := fun _ _ s => streamSetGroup group p s }

/-- STREAM_GET_CONTEXT (R368). -/
def bodyStreamGetContext (dir ctx : Byte) : Body :=
  { opcode := 0x0326, payload := bytesOf [(1, dir.toNat), (1, ctx.toNat)], units := ctxUnits dir.toNat ctx.toNat
    run := fun _ _ s => streamGetContext dir ctx s }

/-- STREAM_CLEAR (R368). -/
def bodyStreamClear (dir ctx : Byte) : Body :=
  { opcode := 0x0327, payload := bytesOf [(1, dir.toNat), (1, ctx.toNat)], units := ctxUnits dir.toNat ctx.toNat
    run := fun _ _ s => streamClear dir ctx s }

/-- TAP_SET (R364). -/
def bodyTapSet (c : TapSet) : Body :=
  { opcode := 0x0328
    payload := bytesOf [(1, c.tap.toNat), (1, c.kind.toNat), (2, c.unit.toNat), (1, c.channel.toNat), (1,
      c.flags.toNat), (2, c.n.toNat), (4, c.m.toNat), (4, c.crc.toNat)]
    units := tapUnits c.tap.toNat, run := fun _ _ s => tapSet c s }

/-- TAP_GET (R368). -/
def bodyTapGet (tap : Byte) : Body :=
  { opcode := 0x0329, payload := bytesOf [(1, tap.toNat)], units := tapUnits tap.toNat
    run := fun _ _ s => tapGet tap s }

/-- TDM_SET_GROUP (R232). -/
def bodyTdmSetGroup (c : TdmSetGroup) : Body :=
  { opcode := 0x0401, payload := bytesOf [(1, c.group.toNat), (1, c.foreign.toNat), (1, c.rate.toNat), (1, 0)]
    units := groupUnits c.group.toNat, run := fun _ _ s => tdmSetGroup c s }

/-- TDM_SET_PORT (R233). -/
def bodyTdmSetPort (c : TdmSetPort) : Body :=
  { opcode := 0x0402
    payload := bytesOf [(1, c.port.toNat), (1, c.role.toNat), (1, c.mode.toNat), (1, c.n.toNat), (2, c.l.toNat), (1,
      c.w.toNat), (1, c.offset.toNat), (1, c.fsWidth.toNat), (1, c.flags.toNat), (2, c.timeout.toNat)]
    units := portUnits c.port.toNat, run := fun _ _ s => tdmSetPort c s }

/-- TDM_SET_RING (R241). -/
def bodyTdmSetRing (c : TdmSetRing) : Body :=
  { opcode := 0x0403
    payload := bytesOf [(1, c.port.toNat), (1, c.ringSlots.toNat), (2, c.depth.toNat), (4, c.base.toNat), (1,
      c.dmaReqEn.toNat), (1, 0), (2, c.reqFrames.toNat)]
    units := portUnits c.port.toNat, run := fun p _ s => tdmSetRing p c s }

/-- TDM_STAGE_MASK (R246). -/
def bodyTdmStageMask (c : TdmStageMask) : Body :=
  { opcode := 0x0404, payload := bytesOf [(1, c.port.toNat), (3, 0), (4, c.rx.toNat), (4, c.tx.toNat)]
    units := portUnits c.port.toNat, run := fun _ _ s => tdmStageMask c s }

/-- TDM_COMMIT (R246). -/
def bodyTdmCommit (mask : Long) : Body :=
  { opcode := 0x0405, payload := bytesOf [(8, mask.toNat)], units := maskUnits mask
    run := fun _ _ s => tdmCommit mask s }

/-- TDM_START (R249). -/
def bodyTdmStart (mask : Long) : Body :=
  { opcode := 0x0406, payload := bytesOf [(8, mask.toNat)], units := maskUnits mask
    run := fun _ _ s => tdmStart mask s }

/-- TDM_STOP (R249). -/
def bodyTdmStop (mask : Long) : Body :=
  { opcode := 0x0407, payload := bytesOf [(8, mask.toNat)], units := maskUnits mask
    run := fun _ _ s => tdmStop mask s }

/-- TDM_GET_STATUS (R258). -/
def bodyTdmGetStatus (port : Byte) : Body :=
  { opcode := 0x0408, payload := bytesOf [(1, port.toNat)], units := portUnits port.toNat
    run := fun _ _ s => tdmGetStatus port s }

/-- GRAPH_LOAD_CHUNK (R122). -/
def bodyGraphLoadChunk (c : GraphChunk) : Body :=
  { opcode := 0x0501, payload := bytesOf [(4, c.offset.toNat), (2, c.length.toNat), (2, 0)] ++ c.data,
    run := fun p _ s => graphLoadChunk p c s }

/-- GRAPH_VERIFY (R103). -/
def bodyGraphVerify (length : Word) : Body :=
  { opcode := 0x0502, payload := bytesOf [(4, length.toNat)], job := some .graphVerify
    run := fun p udp s => graphVerify p udp length s }

/-- GRAPH_COMMIT (R109). -/
def bodyGraphCommit (c : GraphWave) : Body :=
  { opcode := 0x0503, payload := bytesOf [(4, c.wave.toNat), (2, c.n.toNat), (2, c.flags.toNat)]
    run := fun p _ s => graphCommit p c s }

/-- GRAPH_CANCEL (R110). -/
def bodyGraphCancel : Body :=
  { opcode := 0x0504, run := fun p _ s => graphCancel p s }

/-- GRAPH_STATUS (R122). -/
def bodyGraphStatus : Body :=
  { opcode := 0x0505, run := fun _ _ s => graphStatus s }

/-- GRAPH_GET_LAYOUT (R122). -/
def bodyGraphGetLayout : Body :=
  { opcode := 0x0506, run := fun p _ s => graphGetLayout p s }

/-- GRAPH_SET_RESERVATION (R101). -/
def bodyGraphSetReservation (ms : Half) : Body :=
  { opcode := 0x0507, payload := bytesOf [(2, ms.toNat)], only0 := true
    run := fun _ _ s => graphSetReservation ms s }

/-- GRAPH_HALT (R111). -/
def bodyGraphHalt (c : GraphWave) : Body :=
  { opcode := 0x0508, payload := bytesOf [(4, c.wave.toNat), (2, c.n.toNat), (2, c.flags.toNat)], only0 := true
    run := fun p _ s => graphHalt p c s }

/-- NODE_SET_GAIN (R115): the channel mask follows where its flag is 1. -/
def bodyNodeSetGain (c : NodeSetGain) : Body :=
  { opcode := 0x0510,
    payload := bytesOf [(2, c.node.toNat), (1, c.param.toNat), (1, c.maskFlag.toNat), (4, c.a.toNat), (4, c.gain.toNat)]
      ++ (if c.maskFlag = 0 then [] else le64 c.mask),
    run := fun p _ s => nodeSetGain p c s }

/-- NODE_SET_TIMEOUT (R116). -/
def bodyNodeSetTimeout (node ms : Half) : Body :=
  { opcode := 0x0511, payload := bytesOf [(2, node.toNat), (2, ms.toNat)]
    run := fun p _ s => nodeSetTimeout p node ms s }

/-- MTX_SET_GAINS (R185, R198). -/
def bodyMtxSetGains (c : MtxSetGains) : Body :=
  { opcode := 0x0601,
    payload := bytesOf [(4, c.a.toNat), (1, c.mode.toNat), (1, c.reserved.toNat), (2, c.n.toNat), (2, c.entries.length),
      (2, c.reserved2.toNat)] ++ c.entries.flatMap le64,
    units := c.entries.flatMap fun e => columnUnits (entryCol e), run := fun p _ s => mtxSetGains p c s }

/-- MTX_BULK_ARM (R190). -/
def bodyMtxBulkArm (c : MtxBulkArm) : Body :=
  { opcode := 0x0602
    payload := bytesOf [(4, c.a.toNat), (1, c.mode.toNat), (1, c.reserved.toNat), (2, c.n.toNat), (2, c.count.toNat)]
    job := some .bulkArm, run := fun p udp s => mtxBulkArm p udp c s }

/-- MTX_BULK_CANCEL (R190). -/
def bodyMtxBulkCancel : Body :=
  { opcode := 0x0603, run := fun p _ s => mtxBulkCancel p s }

/-- MTX_SET_COLUMN (R186). -/
def bodyMtxSetColumn (col ms : Half) : Body :=
  { opcode := 0x0604, payload := bytesOf [(2, col.toNat), (2, ms.toNat)], units := columnUnits col.toNat
    run := fun _ _ s => mtxSetColumn col ms s }

/-- MTX_GET_GAINS (R198). -/
def bodyMtxGetGains (col first count : Half) : Body :=
  { opcode := 0x0605, payload := bytesOf [(2, col.toNat), (2, first.toNat), (2, count.toNat)]
    units := columnUnits col.toNat, run := fun _ _ s => mtxGetGains col first count s }

/-- MTX_GET_STATUS (R198). -/
def bodyMtxGetStatus : Body :=
  { opcode := 0x0606, run := fun p _ s => mtxGetStatus p s }

/-- MTX_SET_QUOTA (R187). -/
def bodyMtxSetQuota (qs : List Half) : Body :=
  { opcode := 0x0607, payload := qs.flatMap le16, only0 := true, run := fun _ _ s => mtxSetQuota qs s }

/-- PWS_SET_STAGE (R283). -/
def bodyPwsSetStage (c : PwsSetStage) : Body :=
  { opcode := 0x0701, only0 := true, run := fun _ _ s => pwsSetStage c s }

/-- PWS_SET_CHANNEL (R283). -/
def bodyPwsSetChannel (c : PwsSetChannel) : Body :=
  { opcode := 0x0702
    payload := bytesOf [(1, c.channel.toNat), (1, c.retries.toNat), (2, c.d.toNat), (2, c.limit.toNat), (2,
      c.dcTh.toNat), (2, c.dcTime.toNat), (2, c.retryDelay.toNat)]
    units := channelUnits c.channel.toNat, run := fun _ _ s => pwsSetChannel c s }

/-- PWS_START (R272). -/
def bodyPwsStart (mask : Half) : Body :=
  { opcode := 0x0703, payload := bytesOf [(2, mask.toNat)], units := channelMaskUnits mask
    job := some (.pwsStart mask), run := fun _ _ s => pwsStart mask s }

/-- PWS_STOP (R273). -/
def bodyPwsStop (mask : Half) : Body :=
  { opcode := 0x0704, payload := bytesOf [(2, mask.toNat)], units := channelMaskUnits mask
    run := fun _ _ s => pwsStop mask s }

/-- PWS_MUTE (R270). -/
def bodyPwsMute (mask : Half) (mute : Byte) : Body :=
  { opcode := 0x0705, payload := bytesOf [(2, mask.toNat), (1, mute.toNat)], units := channelMaskUnits mask
    run := fun _ _ s => pwsMute mask mute s }

/-- PWS_CLEAR (R271). -/
def bodyPwsClear (mask : Half) : Body :=
  { opcode := 0x0706, payload := bytesOf [(2, mask.toNat)], units := channelMaskUnits mask
    run := fun _ _ s => pwsClear mask s }

/-- PWS_GET_STATUS (R283). -/
def bodyPwsGetStatus (channel : Byte) : Body :=
  { opcode := 0x0707, payload := bytesOf [(1, channel.toNat)], units := channelUnits channel.toNat
    run := fun _ _ s => pwsGetStatus channel s }

/-- RED_SET_PAIR (R375). -/
def bodyRedSetPair (c : RedSetPair) : Body :=
  { opcode := 0x0801, only0 := true, run := fun _ _ s => redSetPair c s }

/-- RED_SET_SHARED (R384). -/
def bodyRedSetShared (first : Half) (es : List SharedEntry) : Body :=
  { opcode := 0x0802, only0 := true,
    payload := bytesOf [(2, first.toNat), (2, es.length)] ++ es.flatMap fun e => [e.node, e.port, e.slot, e.reserved],
    run := fun _ _ s => redSetShared first es s }

/-- SAD_SET_PATHDOWN (R373). -/
def bodySadSetPathdown (n : Half) : Body :=
  { opcode := 0x0803, only0 := true, run := fun _ _ s => sadSetPathdown n s }

/-- RED_HANDOVER (R378). -/
def bodyRedHandover (h : Word) : Body :=
  { opcode := 0x0804, payload := bytesOf [(4, h.toNat)], only0 := true, run := fun _ _ s => redHandover h s }

/-- RED_FORCE_ACTIVE (R378). -/
def bodyRedForceActive (confirm : Word) : Body :=
  { opcode := 0x0805, only0 := true, run := fun _ _ s => redForceActive confirm s }

/-- RED_RESYNC (R391). -/
def bodyRedResync : Body :=
  { opcode := 0x0806, only0 := true, run := fun _ _ s => redResync s }

/-- RED_GET_STATUS (R402). -/
def bodyRedGetStatus : Body :=
  { opcode := 0x0807, run := fun _ _ s => redGetStatus s }

/-- FLT_GET_STATUS (R470). -/
def bodyFltGetStatus : Body :=
  { opcode := 0x0901, run := fun p _ s => fltGetStatus p s }

/-- FLT_CLAIM (R462). -/
def bodyFltClaim (rec : Byte) : Body :=
  { opcode := 0x0902, run := fun p _ s => fltClaim p rec s }

/-- FLT_CLEAR (R464). -/
def bodyFltClear (rec : Byte) : Body :=
  { opcode := 0x0903, run := fun p _ s => fltClear p rec s }

/-- FLT_SET_CLASS (R459). -/
def bodyFltSetClass (src cls act : Byte) : Body :=
  { opcode := 0x0904, only0 := true, run := fun _ _ s => fltSetClass src cls act s }

/-- FLT_SET_TIMERS (R470). -/
def bodyFltSetTimers (esc : Word) (claim : Half) (sup : Word) : Body :=
  { opcode := 0x0905, only0 := true, run := fun _ _ s => fltSetTimers esc claim sup s }

/-- FLT_GET_COUNTS (R470). -/
def bodyFltGetCounts (first : Byte) (count : Half) : Body :=
  { opcode := 0x0906, run := fun _ _ s => fltGetCounts first count s }

/-- SEC_GET_STATUS (R491). -/
def bodySecGetStatus : Body :=
  { opcode := 0x0A01, run := fun _ _ s => secGetStatus s }

/-- SEC_KEY_PROGRAM (R473). -/
def bodySecKeyProgram (c : SecKeyProgram) : Body :=
  { opcode := 0x0A02, only0 := true, run := fun _ udp s => secKeyProgram udp c s }

/-- SEC_KEY_REVOKE (R474). -/
def bodySecKeyRevoke (c : SecKeyRevoke) : Body :=
  { opcode := 0x0A03, only0 := true, run := fun _ _ s => secKeyRevoke c s }

/-- SEC_ARB_ADVANCE (R481). -/
def bodySecArbAdvance (c : SecArbAdvance) : Body :=
  { opcode := 0x0A04, only0 := true, run := fun _ _ s => secArbAdvance c s }

/-- SEC_FW_ERASE (R479). -/
def bodySecFwErase (copy : Byte) : Body :=
  { opcode := 0x0A05, only0 := true, job := some (.fwErase copy.toNat), run := fun _ _ s => secFwErase copy s }

/-- SEC_FW_WRITE (R479). -/
def bodySecFwWrite (c : FlashWrite) : Body :=
  { opcode := 0x0A06, only0 := true, run := fun _ _ s => secFwWrite c s }

/-- SEC_FW_VERIFY (R476). -/
def bodySecFwVerify (copy : Byte) : Body :=
  { opcode := 0x0A07, only0 := true, job := some (.fwVerify copy.toNat), run := fun _ _ s => secFwVerify copy s }

/-- SEC_DEBUG_CHALLENGE (R484). -/
def bodySecDebugChallenge : Body :=
  { opcode := 0x0A08, run := fun _ _ s => secDebugChallenge s }

/-- SEC_DEBUG_UNLOCK (R484). -/
def bodySecDebugUnlock (block : List Byte) : Body :=
  { opcode := 0x0A09, only0 := true, run := fun _ _ s => secDebugUnlock block s }

/-- SEC_SET_LOCK (R490). -/
def bodySecSetLock (bits : Word) : Body :=
  { opcode := 0x0A0A, only0 := true, run := fun _ _ s => secSetLock bits s }

/-- FAB_SET_TELEMETRY (R70). -/
def bodyFabSetTelemetry (n : Byte) (w : Half) : Body :=
  { opcode := 0x0B10, run := fun _ _ s => fabSetTelemetry n w s }

/-- FAB_CLEAR_TELEMETRY (R89). -/
def bodyFabClearTelemetry : Body :=
  { opcode := 0x0B11, run := fun _ _ s => fabClearTelemetry s }

/-- CRN_GET_STATUS (R157). -/
def bodyCrnGetStatus : Body :=
  { opcode := 0x0B20, run := fun _ _ s => crnGetStatus s }

/-- CRN_READ_MEM (R158). -/
def bodyCrnReadMem (engine mem : Byte) (addr count : Half) : Body :=
  { opcode := 0x0B21, units := engineUnits engine.toNat, run := fun _ _ s => crnReadMem engine mem addr count s }

/-- MEM_GET_STATUS (R230). -/
def bodyMemGetStatus : Body :=
  { opcode := 0x0B30, run := fun p _ s => memGetStatus p s }

/-- Opcode group 0x01 (R423). -/
def readSystem (h : PktHdr) : Except Status Body :=
  match h.opcode.toNat with
  | 0x0101 => noFields h (bodySysHello h.newSession)
  | 0x0102 => noFields h bodySysGetInfo
  | 0x0103 => noFields h bodySysGetOwnership
  | 0x0104 => match fieldsOf [1, 1, 2] h.payload with
    | some [x0, x1, _] =>
      .ok (bodySysProfileLoad { slot := .ofNat 8 x0, flags := .ofNat 8 x1 })
    | _ => .error .badLength
  | 0x0105 => match fieldsOf [1, 1, 2] h.payload with
    | some [x0, x1, _] =>
      .ok (bodySysProfileErase { slot := .ofNat 8 x0, flags := .ofNat 8 x1 })
    | _ => .error .badLength
  | 0x0106 => readFlash h bodySysProfileWrite
  | 0x0107 => match fieldsOf [1] h.payload with
    | some [x0] =>
      .ok (bodySysProfileSeal (.ofNat 8 x0))
    | _ => .error .badLength
  | 0x0108 => noFields h bodySysProfileList
  | 0x0110 => match fieldsOf [1, 2, 1, 1, 1, 2, 1, 1, 2, 2, 2] h.payload with
    | some [x0, x1, x2, x3, x4, x5, x6, x7, x8, x9, x10] =>
      .ok (bodyFabSetGovernor {
        mode := .ofNat 8 x0, fixed := .ofNat 16 x1, target := .ofNat 8 x2, deadband := .ofNat 8 x3,
        floor := .ofNat 8 x4, upGain := .ofNat 16 x5, upMax := .ofNat 8 x6, downStep := .ofNat 8 x7,
        interval := .ofNat 16 x8, settle := .ofNat 16 x9, recovery := .ofNat 16 x10 })
    | _ => .error .badLength
  | 0x0111 => match fieldsOf [2, 2] h.payload with
    | some [x0, x1] =>
      .ok (bodyFabSetEscalation (.ofNat 16 x0) (.ofNat 16 x1))
    | _ => .error .badLength
  | 0x0112 => match fieldsOf [2] h.payload with
    | some [x0] =>
      .ok (bodyCrnSetTrapEscalation (.ofNat 16 x0))
    | _ => .error .badLength
  | 0x0113 => noFields h bodyDmaResume
  | 0x0114 => match fieldsOf [2, 2] h.payload with
    | some [x0, x1] =>
      .ok (bodyMemSetScrub (.ofNat 16 x0) (.ofNat 16 x1))
    | _ => .error .badLength
  | _ => .error .badOpcode

/-- Opcode group 0x02 (R423). -/
def readClock (h : PktHdr) : Except Status Body :=
  match h.opcode.toNat with
  | 0x0201 => noFields h bodyClkGetStatus
  | 0x0202 => match fieldsOf [1] h.payload with
    | some [x0] =>
      .ok (bodyClkSetRate (.ofNat 8 x0))
    | _ => .error .badLength
  | 0x0203 => match fieldsOf [1, 1, 1, 1, 1, 3, 2, 2, 4, 1, 3, 4] h.payload with
    | some [x0, x1, x2, x3, x4, _, x5, x6, x7, x8, _, x9] =>
      .ok (bodyClkRefConfig {
        index := .ofNat 8 x0, enable := .ofNat 8 x1, rank := .ofNat 8 x2, form := .ofNat 8 x3,
        nominal := .ofNat 8 x4, qualTime := .ofNat 16 x5, startQual := .ofNat 16 x6, bandwidth := .ofNat 32 x7,
        maxClass := .ofNat 8 x8, offsetLimit := .ofNat 32 x9 })
    | _ => .error .badLength
  | 0x0204 => match fieldsOf [1, 1, 1] h.payload with
    | some [x0, x1, x2] =>
      .ok (bodyClkSelect { mode := .ofNat 8 x0, manual := .ofNat 8 x1, revertive := .ofNat 8 x2 })
    | _ => .error .badLength
  | 0x0205 => match fieldsOf [2, 2, 4, 4, 4, 2] h.payload with
    | some [x0, x1, x2, x3, x4, x5] =>
      .ok (bodyClkSetTimers {
        wtr := .ofNat 16 x0, slewLimit := .ofNat 16 x1, slewWindow := .ofNat 32 x2, disagree := .ofNat 32 x3,
        capture := .ofNat 32 x4, acquire := .ofNat 16 x5 })
    | _ => .error .badLength
  | 0x0206 => match fieldsOf [1, 1, 4, 1, 1, 1] h.payload with
    | some [x0, x1, x2, x3, x4, x5] =>
      .ok (bodyClkSetHoldover {
        method := .ofNat 8 x0, oscClass := .ofNat 8 x1, specWindow := .ofNat 32 x2, w := .ofNat 8 x3,
        wc := .ofNat 8 x4, g := .ofNat 8 x5 })
    | _ => .error .badLength
  | 0x0207 => match fieldsOf [8] h.payload with
    | some [x0] =>
      .ok (bodyClkSetTrim (.ofNat 64 x0))
    | _ => .error .badLength
  | 0x0208 => match fieldsOf [4] h.payload with
    | some [x0] =>
      .ok (bodyClkPhaseStep (.ofNat 32 x0))
    | _ => .error .badLength
  | 0x0209 =>
    if (h.payload.length = 3 ∧ h.payload.head? ≠ some 1) ∨ (h.payload.length = 5 ∧ h.payload.head? ≠ some 0) then
      .ok (bodyClkRealign { method := h.payload.headD 0, arg := .ofNat 32 (leNat h.payload.tail) })
    else .error .badLength
  | 0x020A => match fieldsOf [1] h.payload with
    | some [x0] =>
      .ok (bodyClkGetRef (.ofNat 8 x0))
    | _ => .error .badLength
  | _ => .error .badOpcode

/-- Opcode group 0x03 (R423). -/
def readNet (h : PktHdr) : Except Status Body :=
  match h.opcode.toNat with
  | 0x0301 => match fieldsOf [1, 1, 1, 1, 2, 1, 1, 1, 1, 2, 2, 2, 2] h.payload with
    | some [x0, x1, x2, x3, x4, x5, x6, x7, x8, x9, x10, x11, x12] =>
      .ok (bodyNetSetPort {
        port := .ofNat 8 x0, enable := .ofNat 8 x1, speed := .ofNat 8 x2, fec := .ofNat 8 x3,
        maxFrame := .ofNat 16 x4, preempt := .ofNat 8 x5, addFrag := .ofNat 8 x6, pauseMode := .ofNat 8 x7,
        domain := .ofNat 8 x8, pvid := .ofNat 16 x9, holdDown := .ofNat 16 x10, watchdog := .ofNat 16 x11,
        release := .ofNat 16 x12 })
    | _ => .error .badLength
  | 0x0302 => match fieldsOf [4, 4, 1, 1, 1, 1, 2] h.payload with
    | some [x0, x1, x2, x3, x4, x5, x6] =>
      .ok (bodyNetSetSwitch {
        express := .ofNat 32 x0, share := .ofNat 32 x1, high := .ofNat 8 x2, low := .ofNat 8 x3,
        causes := .ofNat 8 x4, unknown := .ofNat 8 x5, ageing := .ofNat 16 x6 })
    | _ => .error .badLength
  | 0x0303 => match fieldsOf [6, 2, 1, 1, 1, 1] h.payload with
    | some [x0, x1, x2, x3, x4, x5] =>
      .ok (bodyNetFdbWrite {
        addr := .ofNat 48 x0, vlan := .ofNat 16 x1, domain := .ofNat 8 x2, mask := .ofNat 8 x3,
        flags := .ofNat 8 x4, reserved := .ofNat 8 x5 })
    | _ => .error .badLength
  | 0x0304 => match fieldsOf [2, 1, 1] h.payload with
    | some [x0, x1, x2] =>
      .ok (bodyNetVlanWrite (.ofNat 16 x0) (.ofNat 8 x1) (.ofNat 8 x2))
    | _ => .error .badLength
  | 0x0305 => match fieldsOf [1, 1, 1, 1, 2, 1, 1, 2, 2] h.payload with
    | some [x0, x1, x2, x3, x4, x5, x6, x7, x8] =>
      .ok (bodyNetSetFilter {
        index := .ofNat 8 x0, enable := .ofNat 8 x1, ring := .ofNat 8 x2, kind := .ofNat 8 x3,
        etherType := .ofNat 16 x4, proto := .ofNat 8 x5, reserved := .ofNat 8 x6, dstPort := .ofNat 16 x7,
        vlan := .ofNat 16 x8 })
    | _ => .error .badLength
  | 0x0306 => match fieldsOf [1, 1, 1, 1, 8, 2, 1, 1] h.payload with
    | some [x0, x1, x2, x3, x4, x5, x6, x7] =>
      .ok (bodyNetSetRing {
        dir := .ofNat 8 x0, ring := .ofNat 8 x1, enable := .ofNat 8 x2, size := .ofNat 8 x3, base := .ofNat 64 x4,
        queue := .ofNat 16 x5, cls := .ofNat 8 x6, domain := .ofNat 8 x7 })
    | _ => .error .badLength
  | 0x0307 => match fieldsOf [1, 1] h.payload with
    | some [x0, x1] =>
      .ok (bodyNetTest (.ofNat 8 x0) (.ofNat 8 x1))
    | _ => .error .badLength
  | 0x0308 => match fieldsOf [1] h.payload with
    | some [x0] =>
      .ok (bodyNetGetStatus (.ofNat 8 x0))
    | _ => .error .badLength
  | 0x0310 => match fieldsOf [1, 1, 1, 1, 1, 1, 1, 1, 1, 1, 2, 4, 4] h.payload with
    | some [x0, x1, x2, x3, x4, x5, x6, x7, x8, x9, x10, x11, x12] =>
      .ok (bodyPtpSetInstance {
        inst := .ofNat 8 x0, enable := .ofNat 8 x1, profile := .ofNat 8 x2, domain := .ofNat 8 x3,
        logSync := .ofNat 8 x4, logAnnounce := .ofNat 8 x5, logDelay := .ofNat 8 x6, timeout := .ofNat 8 x7,
        unicast := .ofNat 8 x8, master := .ofNat 8 x9, reserved := .ofNat 16 x10, jump := .ofNat 32 x11,
        outlier := .ofNat 32 x12 })
    | _ => .error .badLength
  | 0x0311 => match fieldsOf [1, 3, 4, 4, 4] h.payload with
    | some [x0, x1, x2, x3, x4] =>
      .ok (bodyPtpSetPortTs {
        port := .ofNat 8 x0, reserved := .ofNat 24 x1, ingress := .ofNat 32 x2, egress := .ofNat 32 x3,
        asym := .ofNat 32 x4 })
    | _ => .error .badLength
  | 0x0312 => match fieldsOf [1, 1, 1, 1, 1, 2, 1, 1, 1, 1, 1, 1, 2, 1] h.payload with
    | some [x0, x1, x2, x3, x4, x5, x6, x7, x8, x9, x10, x11, x12, x13] =>
      .ok (bodyPtpSetMaster {
        inst := .ofNat 8 x0, priority1 := .ofNat 8 x1, priority2 := .ofNat 8 x2, accuracy := .ofNat 8 x3,
        timeSource := .ofNat 8 x4, variance := .ofNat 16 x5, class1 := .ofNat 8 x6, class2 := .ofNat 8 x7,
        class3 := .ofNat 8 x8, class4 := .ofNat 8 x9, class5 := .ofNat 8 x10, class6 := .ofNat 8 x11,
        utcOfs := .ofNat 16 x12, flags := .ofNat 8 x13 })
    | _ => .error .badLength
  | 0x0313 => match fieldsOf [1, 3, 8] h.payload with
    | some [x0, _, x1] =>
      .ok (bodyPtpAcceptJump (.ofNat 8 x0) (.ofNat 64 x1))
    | _ => .error .badLength
  | 0x0314 => match fieldsOf [8] h.payload with
    | some [x0] =>
      .ok (bodyPtpSetTime (.ofNat 64 x0))
    | _ => .error .badLength
  | 0x0315 => match fieldsOf [1, 1, 2, 4, 4] h.payload with
    | some [x0, x1, x2, x3, x4] =>
      .ok (bodyPtpSetAlarm {
        alarm := .ofNat 8 x0, unit := .ofNat 8 x1, reserved := .ofNat 16 x2, target := .ofNat 32 x3,
        period := .ofNat 32 x4 })
    | _ => .error .badLength
  | 0x0316 => match fieldsOf [1] h.payload with
    | some [x0] =>
      .ok (bodyPtpCancelAlarm (.ofNat 8 x0))
    | _ => .error .badLength
  | 0x0317 => match fieldsOf [1] h.payload with
    | some [x0] =>
      .ok (bodyPtpGetStatus (.ofNat 8 x0))
    | _ => .error .badLength
  | 0x0320 => match fieldsOf [1, 1, 1, 1, 1, 1, 1, 1, 1, 1, 1, 2, 2, 4, 4, 6, 4, 2, 2, 6, 4, 2, 2] h.payload with
    | some [x0, _, x1, x2, x3, x4, x5, x6, x7, x8, x9, x10, x11, x12, x13, x14, x15, x16, x17, x18, x19, x20, x21] =>
      .ok (bodyStreamSetTx (.ofNat 8 x0) {
        channels := .ofNat 8 x1, format := .ofNat 8 x2, ptime := .ofNat 8 x3, launch := .ofNat 8 x4,
        paths := .ofNat 8 x5, label := .ofNat 8 x6, pt := .ofNat 8 x7, dscp := .ofNat 8 x8, ttl := .ofNat 8 x9,
        vlan := .ofNat 16 x10, plimit := .ofNat 16 x11, ssrc := .ofNat 32 x12, srcIp := .ofNat 32 x13,
        a := { dstMac := .ofNat 48 x14, dstIp := .ofNat 32 x15, srcPort := .ofNat 16 x16, dstPort := .ofNat 16 x17 },
        b := { dstMac := .ofNat 48 x18, dstIp := .ofNat 32 x19, srcPort := .ofNat 16 x20, dstPort := .ofNat 16 x21 } })
    | _ => .error .badLength
  | 0x0321 => match fieldsOf [1, 1, 1, 1, 1, 1, 1, 1, 2, 2, 4, 4, 1, 1, 4, 4, 2, 4, 2, 4, 2, 4, 2] h.payload with
    | some [x0, _, x1, x2, x3, x4, x5, x6, x7, x8, x9, x10, x11, x12, x13, x14, x15, x16, x17, x18, x19, x20, x21] =>
      .ok (bodyStreamSetRx (.ofNat 8 x0) {
        channels := .ofNat 8 x1, format := .ofNat 8 x2, ptime := .ofNat 8 x3, senderG := .ofNat 8 x4,
        paths := .ofNat 8 x5, group := .ofNat 8 x6, l := .ofNat 16 x7, depth := .ofNat 16 x8, base := .ofNat 32 x9,
        rtpOfs := .ofNat 32 x10, pt := .ofNat 8 x11, ssrcEn := .ofNat 8 x12, ssrc := .ofNat 32 x13,
        a := { dstIp := .ofNat 32 x14, dstPort := .ofNat 16 x15, srcFilter := .ofNat 32 x16, vlan := .ofNat 16 x17 },
        b := { dstIp := .ofNat 32 x18, dstPort := .ofNat 16 x19, srcFilter := .ofNat 32 x20, vlan := .ofNat 16 x21 } })
    | _ => .error .badLength
  | 0x0322 =>
    if h.payload.length = 26 then .ok (bodyStreamSetCs (h.payload.headD 0) (h.payload.drop 2)) else .error .badLength
  | 0x0323 => match fieldsOf [1, 1, 2, 4] h.payload with
    | some [x0, x1, x2, x3] =>
      .ok (bodyStreamStart (.ofNat 8 x0) (.ofNat 8 x1) (.ofNat 16 x2) (.ofNat 32 x3))
    | _ => .error .badLength
  | 0x0324 => match fieldsOf [1, 1, 2, 4] h.payload with
    | some [x0, x1, _, x2] =>
      .ok (bodyStreamStop (.ofNat 8 x0) (.ofNat 8 x1) (.ofNat 32 x2))
    | _ => .error .badLength
  | 0x0325 => match fieldsOf [1, 1, 2] h.payload with
    | some [x0, _, x1] =>
      .ok (bodyStreamSetGroup (.ofNat 8 x0) (.ofNat 16 x1))
    | _ => .error .badLength
  | 0x0326 => match fieldsOf [1, 1] h.payload with
    | some [x0, x1] =>
      .ok (bodyStreamGetContext (.ofNat 8 x0) (.ofNat 8 x1))
    | _ => .error .badLength
  | 0x0327 => match fieldsOf [1, 1] h.payload with
    | some [x0, x1] =>
      .ok (bodyStreamClear (.ofNat 8 x0) (.ofNat 8 x1))
    | _ => .error .badLength
  | 0x0328 => match fieldsOf [1, 1, 2, 1, 1, 2, 4, 4] h.payload with
    | some [x0, x1, x2, x3, x4, x5, x6, x7] =>
      .ok (bodyTapSet {
        tap := .ofNat 8 x0, kind := .ofNat 8 x1, unit := .ofNat 16 x2, channel := .ofNat 8 x3,
        flags := .ofNat 8 x4, n := .ofNat 16 x5, m := .ofNat 32 x6, crc := .ofNat 32 x7 })
    | _ => .error .badLength
  | 0x0329 => match fieldsOf [1] h.payload with
    | some [x0] =>
      .ok (bodyTapGet (.ofNat 8 x0))
    | _ => .error .badLength
  | _ => .error .badOpcode

/-- Opcode group 0x04 (R423). -/
def readTdm (h : PktHdr) : Except Status Body :=
  match h.opcode.toNat with
  | 0x0401 => match fieldsOf [1, 1, 1, 1] h.payload with
    | some [x0, x1, x2, _] =>
      .ok (bodyTdmSetGroup { group := .ofNat 8 x0, foreign := .ofNat 8 x1, rate := .ofNat 8 x2 })
    | _ => .error .badLength
  | 0x0402 => match fieldsOf [1, 1, 1, 1, 2, 1, 1, 1, 1, 2] h.payload with
    | some [x0, x1, x2, x3, x4, x5, x6, x7, x8, x9] =>
      .ok (bodyTdmSetPort {
        port := .ofNat 8 x0, role := .ofNat 8 x1, mode := .ofNat 8 x2, n := .ofNat 8 x3, l := .ofNat 16 x4,
        w := .ofNat 8 x5, offset := .ofNat 8 x6, fsWidth := .ofNat 8 x7, flags := .ofNat 8 x8,
        timeout := .ofNat 16 x9 })
    | _ => .error .badLength
  | 0x0403 => match fieldsOf [1, 1, 2, 4, 1, 1, 2] h.payload with
    | some [x0, x1, x2, x3, x4, _, x5] =>
      .ok (bodyTdmSetRing {
        port := .ofNat 8 x0, ringSlots := .ofNat 8 x1, depth := .ofNat 16 x2, base := .ofNat 32 x3,
        dmaReqEn := .ofNat 8 x4, reqFrames := .ofNat 16 x5 })
    | _ => .error .badLength
  | 0x0404 => match fieldsOf [1, 3, 4, 4] h.payload with
    | some [x0, _, x1, x2] =>
      .ok (bodyTdmStageMask { port := .ofNat 8 x0, rx := .ofNat 32 x1, tx := .ofNat 32 x2 })
    | _ => .error .badLength
  | 0x0405 => match fieldsOf [8] h.payload with
    | some [x0] =>
      .ok (bodyTdmCommit (.ofNat 64 x0))
    | _ => .error .badLength
  | 0x0406 => match fieldsOf [8] h.payload with
    | some [x0] =>
      .ok (bodyTdmStart (.ofNat 64 x0))
    | _ => .error .badLength
  | 0x0407 => match fieldsOf [8] h.payload with
    | some [x0] =>
      .ok (bodyTdmStop (.ofNat 64 x0))
    | _ => .error .badLength
  | 0x0408 => match fieldsOf [1] h.payload with
    | some [x0] =>
      .ok (bodyTdmGetStatus (.ofNat 8 x0))
    | _ => .error .badLength
  | _ => .error .badOpcode

/-- Opcode group 0x05 (R423). -/
def readGraph (h : PktHdr) : Except Status Body :=
  match h.opcode.toNat with
  | 0x0501 =>
    if h.payload.length < 8 then .error .badLength
    else .ok (bodyGraphLoadChunk { offset := .ofNat 32 (leAt h.payload 0 4), length := .ofNat 16 (leAt h.payload 4 2),
                                   data := h.payload.drop 8 })
  | 0x0502 => match fieldsOf [4] h.payload with
    | some [x0] =>
      .ok (bodyGraphVerify (.ofNat 32 x0))
    | _ => .error .badLength
  | 0x0503 => match fieldsOf [4, 2, 2] h.payload with
    | some [x0, x1, x2] =>
      .ok (bodyGraphCommit { wave := .ofNat 32 x0, n := .ofNat 16 x1, flags := .ofNat 16 x2 })
    | _ => .error .badLength
  | 0x0504 => noFields h bodyGraphCancel
  | 0x0505 => noFields h bodyGraphStatus
  | 0x0506 => noFields h bodyGraphGetLayout
  | 0x0507 => match fieldsOf [2] h.payload with
    | some [x0] =>
      .ok (bodyGraphSetReservation (.ofNat 16 x0))
    | _ => .error .badLength
  | 0x0508 => match fieldsOf [4, 2, 2] h.payload with
    | some [x0, x1, x2] =>
      .ok (bodyGraphHalt { wave := .ofNat 32 x0, n := .ofNat 16 x1, flags := .ofNat 16 x2 })
    | _ => .error .badLength
  | 0x0510 =>
    if h.payload.length = 20 ∨ (h.payload.length = 12 ∧ leAt h.payload 3 1 = 0) then
      .ok (bodyNodeSetGain {
        node := .ofNat 16 (leAt h.payload 0 2), param := .ofNat 8 (leAt h.payload 2 1), maskFlag := .ofNat 8 (leAt h.payload 3 1),
        a := .ofNat 32 (leAt h.payload 4 4), gain := .ofNat 32 (leAt h.payload 8 4), mask := .ofNat 64 (leAt h.payload 12 8) })
    else .error .badLength
  | 0x0511 => match fieldsOf [2, 2] h.payload with
    | some [x0, x1] =>
      .ok (bodyNodeSetTimeout (.ofNat 16 x0) (.ofNat 16 x1))
    | _ => .error .badLength
  | _ => .error .badOpcode

/-- Opcode group 0x06 (R423). -/
def readMatrix (h : PktHdr) : Except Status Body :=
  match h.opcode.toNat with
  | 0x0601 =>
    if h.payload.length < 12 ∨ h.payload.length ≠ 12 + 8 * leAt h.payload 8 2 then .error .badLength
    else .ok (bodyMtxSetGains {
      a := .ofNat 32 (leAt h.payload 0 4), mode := .ofNat 8 (leAt h.payload 4 1), reserved := .ofNat 8 (leAt h.payload 5 1),
      n := .ofNat 16 (leAt h.payload 6 2), reserved2 := .ofNat 16 (leAt h.payload 10 2),
      entries := (List.range (leAt h.payload 8 2)).map fun i => .ofNat 64 (leAt h.payload (12 + 8 * i) 8) })
  | 0x0602 => match fieldsOf [4, 1, 1, 2, 2] h.payload with
    | some [x0, x1, x2, x3, x4] =>
      .ok (bodyMtxBulkArm {
        a := .ofNat 32 x0, mode := .ofNat 8 x1, reserved := .ofNat 8 x2, n := .ofNat 16 x3,
        count := .ofNat 16 x4 })
    | _ => .error .badLength
  | 0x0603 => noFields h bodyMtxBulkCancel
  | 0x0604 => match fieldsOf [2, 2] h.payload with
    | some [x0, x1] =>
      .ok (bodyMtxSetColumn (.ofNat 16 x0) (.ofNat 16 x1))
    | _ => .error .badLength
  | 0x0605 => match fieldsOf [2, 2, 2] h.payload with
    | some [x0, x1, x2] =>
      .ok (bodyMtxGetGains (.ofNat 16 x0) (.ofNat 16 x1) (.ofNat 16 x2))
    | _ => .error .badLength
  | 0x0606 => noFields h bodyMtxGetStatus
  | 0x0607 =>
    if h.payload.length = 8 then
      .ok (bodyMtxSetQuota ((List.range 4).map fun i => .ofNat 16 (leAt h.payload (2 * i) 2)))
    else .error .badLength
  | _ => .error .badOpcode

/-- Opcode group 0x07 (R423). -/
def readStage (h : PktHdr) : Except Status Body :=
  match h.opcode.toNat with
  | 0x0701 => match fieldsOf [2, 2, 2, 2] h.payload with
    | some [x0, x1, x2, x3] =>
      .ok (bodyPwsSetStage { f0 := .ofNat 16 x0, divider := .ofNat 16 x1, uv := .ofNat 16 x2, ov := .ofNat 16 x3 })
    | _ => .error .badLength
  | 0x0702 => match fieldsOf [1, 1, 2, 2, 2, 2, 2] h.payload with
    | some [x0, x1, x2, x3, x4, x5, x6] =>
      .ok (bodyPwsSetChannel {
        channel := .ofNat 8 x0, retries := .ofNat 8 x1, d := .ofNat 16 x2, limit := .ofNat 16 x3,
        dcTh := .ofNat 16 x4, dcTime := .ofNat 16 x5, retryDelay := .ofNat 16 x6 })
    | _ => .error .badLength
  | 0x0703 => match fieldsOf [2] h.payload with
    | some [x0] =>
      .ok (bodyPwsStart (.ofNat 16 x0))
    | _ => .error .badLength
  | 0x0704 => match fieldsOf [2] h.payload with
    | some [x0] =>
      .ok (bodyPwsStop (.ofNat 16 x0))
    | _ => .error .badLength
  | 0x0705 => match fieldsOf [2, 1] h.payload with
    | some [x0, x1] =>
      .ok (bodyPwsMute (.ofNat 16 x0) (.ofNat 8 x1))
    | _ => .error .badLength
  | 0x0706 => match fieldsOf [2] h.payload with
    | some [x0] =>
      .ok (bodyPwsClear (.ofNat 16 x0))
    | _ => .error .badLength
  | 0x0707 => match fieldsOf [1] h.payload with
    | some [x0] =>
      .ok (bodyPwsGetStatus (.ofNat 8 x0))
    | _ => .error .badLength
  | _ => .error .badOpcode

/-- Opcode group 0x08 (R423). -/
def readPair (h : PktHdr) : Except Status Body :=
  match h.opcode.toNat with
  | 0x0801 => match fieldsOf [2, 1, 1, 1, 1, 2, 2, 6, 2] h.payload with
    | some [x0, x1, x2, x3, x4, x5, x6, x7, x8] =>
      .ok (bodyRedSetPair {
        pair := .ofNat 16 x0, node := .ofNat 8 x1, preferred := .ofNat 8 x2, ports := .ofNat 8 x3,
        reserved := .ofNat 8 x4, etherType := .ofNat 16 x5, claim := .ofNat 16 x6, addr := .ofNat 48 x7,
        vlan := .ofNat 16 x8 })
    | _ => .error .badLength
  | 0x0802 =>
    if h.payload.length < 4 ∨ h.payload.length ≠ 4 + 4 * leAt h.payload 2 2 then .error .badLength
    else .ok (bodyRedSetShared (.ofNat 16 (leAt h.payload 0 2)) ((List.range (leAt h.payload 2 2)).map fun i =>
      { node := h.payload.getD (4 + 4 * i) 0, port := h.payload.getD (5 + 4 * i) 0, slot := h.payload.getD (6 + 4 * i) 0
        reserved := h.payload.getD (7 + 4 * i) 0 }))
  | 0x0803 => match fieldsOf [2] h.payload with
    | some [x0] =>
      .ok (bodySadSetPathdown (.ofNat 16 x0))
    | _ => .error .badLength
  | 0x0804 => match fieldsOf [4] h.payload with
    | some [x0] =>
      .ok (bodyRedHandover (.ofNat 32 x0))
    | _ => .error .badLength
  | 0x0805 => match fieldsOf [4] h.payload with
    | some [x0] =>
      .ok (bodyRedForceActive (.ofNat 32 x0))
    | _ => .error .badLength
  | 0x0806 => noFields h bodyRedResync
  | 0x0807 => noFields h bodyRedGetStatus
  | _ => .error .badOpcode

/-- Opcode group 0x09 (R423). -/
def readFault (h : PktHdr) : Except Status Body :=
  match h.opcode.toNat with
  | 0x0901 => noFields h bodyFltGetStatus
  | 0x0902 => match fieldsOf [1] h.payload with
    | some [x0] =>
      .ok (bodyFltClaim (.ofNat 8 x0))
    | _ => .error .badLength
  | 0x0903 => match fieldsOf [1] h.payload with
    | some [x0] =>
      .ok (bodyFltClear (.ofNat 8 x0))
    | _ => .error .badLength
  | 0x0904 => match fieldsOf [1, 1, 1, 1] h.payload with
    | some [x0, x1, x2, _] =>
      .ok (bodyFltSetClass (.ofNat 8 x0) (.ofNat 8 x1) (.ofNat 8 x2))
    | _ => .error .badLength
  | 0x0905 => match fieldsOf [4, 2, 4] h.payload with
    | some [x0, x1, x2] =>
      .ok (bodyFltSetTimers (.ofNat 32 x0) (.ofNat 16 x1) (.ofNat 32 x2))
    | _ => .error .badLength
  | 0x0906 => match fieldsOf [1, 2] h.payload with
    | some [x0, x1] =>
      .ok (bodyFltGetCounts (.ofNat 8 x0) (.ofNat 16 x1))
    | _ => .error .badLength
  | _ => .error .badOpcode

/-- Opcode group 0x0A (R423). -/
def readSecurity (h : PktHdr) : Except Status Body :=
  match h.opcode.toNat with
  | 0x0A01 => noFields h bodySecGetStatus
  | 0x0A02 => match fieldsOf [1, 1, 1, 1, 48] h.payload with
    | some [x0, x1, x2, _, x3] =>
      .ok (bodySecKeyProgram {
        kind := .ofNat 8 x0, index := .ofNat 8 x1, slot := .ofNat 8 x2, value := .ofNat 384 x3 })
    | _ => .error .badLength
  | 0x0A03 => match fieldsOf [1, 1, 1, 1] h.payload with
    | some [x0, x1, x2, _] =>
      .ok (bodySecKeyRevoke { kind := .ofNat 8 x0, index := .ofNat 8 x1, slot := .ofNat 8 x2 })
    | _ => .error .badLength
  | 0x0A04 => match fieldsOf [4, 1, 3] h.payload with
    | some [x0, x1, _] =>
      .ok (bodySecArbAdvance { value := .ofNat 32 x0, flags := .ofNat 8 x1 })
    | _ => .error .badLength
  | 0x0A05 => match fieldsOf [1] h.payload with
    | some [x0] =>
      .ok (bodySecFwErase (.ofNat 8 x0))
    | _ => .error .badLength
  | 0x0A06 => readFlash h bodySecFwWrite
  | 0x0A07 => match fieldsOf [1] h.payload with
    | some [x0] =>
      .ok (bodySecFwVerify (.ofNat 8 x0))
    | _ => .error .badLength
  | 0x0A08 => noFields h bodySecDebugChallenge
  | 0x0A09 => if h.payload.length = 256 then .ok (bodySecDebugUnlock h.payload) else .error .badLength
  | 0x0A0A => match fieldsOf [4] h.payload with
    | some [x0] =>
      .ok (bodySecSetLock (.ofNat 32 x0))
    | _ => .error .badLength
  | _ => .error .badOpcode

/-- Opcode group 0x0B (R423). -/
def readDiag (h : PktHdr) : Except Status Body :=
  match h.opcode.toNat with
  | 0x0B10 => match fieldsOf [1, 2] h.payload with
    | some [x0, x1] =>
      .ok (bodyFabSetTelemetry (.ofNat 8 x0) (.ofNat 16 x1))
    | _ => .error .badLength
  | 0x0B11 => noFields h bodyFabClearTelemetry
  | 0x0B20 => noFields h bodyCrnGetStatus
  | 0x0B21 => match fieldsOf [1, 1, 2, 2] h.payload with
    | some [x0, x1, x2, x3] =>
      .ok (bodyCrnReadMem (.ofNat 8 x0) (.ofNat 8 x1) (.ofNat 16 x2) (.ofNat 16 x3))
    | _ => .error .badLength
  | 0x0B30 => noFields h bodyMemGetStatus
  | _ => .error .badOpcode

/-- Read a packet as a command: steps 5 and 6 of R411, the reply's size apart. -/
def readBody (h : PktHdr) : Except Status Body :=
  match h.opcode.toNat / 256 with
  | 1 => readSystem h
  | 2 => readClock h
  | 3 => readNet h
  | 4 => readTdm h
  | 5 => readGraph h
  | 6 => readMatrix h
  | 7 => readStage h
  | 8 => readPair h
  | 9 => readFault h
  | 10 => readSecurity h
  | 11 => readDiag h
  | _ => .error .badOpcode

end Sys2Proof.Machine
end

