-- ==== Sys2Proof/Machine/Falver.lean ====
section
/-! DEFINITION. Running Falver commands (R388, R389, R408 to R419, R428, R442 to R446): the checks, the effect, the reply
and what follows from them; the mailbox and UDP slots; forwarding to a peer. -/

namespace Sys2Proof.Machine

/-- The lock bit of SYS_LOCK that covers an opcode (R442), FREEZE apart. -/
def lockBit (op : Nat) : Option Nat :=
  if 0x0104 ≤ op ∧ op ≤ 0x0107 then some 0
  else if 0x0202 ≤ op ∧ op ≤ 0x0209 then some 1
  else if (0x0301 ≤ op ∧ op ≤ 0x0307) ∨ (0x0310 ≤ op ∧ op ≤ 0x0312) ∨ op = 0x0314 then some 2
  else if 0x0401 ≤ op ∧ op ≤ 0x0403 then some 3
  else if op = 0x0701 ∨ op = 0x0702 then some 4
  else if 0x0801 ≤ op ∧ op ≤ 0x0803 then some 5
  else if (0x0110 ≤ op ∧ op ≤ 0x0112) ∨ op = 0x0114 then some 6
  else none

/-- A command that changes covered configuration (R444). -/
def coversConfig (op : Nat) : Bool :=
  decide ((0x0202 ≤ op ∧ op ≤ 0x0206) ∨ (0x0301 ≤ op ∧ op ≤ 0x0306) ∨ (0x0310 ≤ op ∧ op ≤ 0x0312)
    ∨ (0x0320 ≤ op ∧ op ≤ 0x0322) ∨ op = 0x0325 ∨ (0x0401 ≤ op ∧ op ≤ 0x0403) ∨ op = 0x0604 ∨ op = 0x0607
    ∨ op = 0x0701 ∨ op = 0x0702 ∨ (0x0801 ≤ op ∧ op ≤ 0x0803) ∨ (0x0110 ≤ op ∧ op ≤ 0x0112) ∨ op = 0x0114
    ∨ op = 0x0904 ∨ op = 0x0905)

/-- A kind of command that the active forwards (R388) and that a STANDBY or OBSERVER refuses from its own host (R389). -/
def forwardedKind (op : Nat) : Bool :=
  (decide (0x0200 ≤ op ∧ op < 0x0800) && !decide ((0x0301 ≤ op ∧ op ≤ 0x0307) ∨ op = 0x0311 ∨ op = 0x0701)) || op == 0x0802

/-- A node that takes its commands from its peer (R389). -/
def follows (s : State) : Bool := s.red.state == .standby || s.red.state == .observer

/-- A lock bit covers the command, or the pair state refuses it (step 8 of R411, R389, R442). -/
def commandLocked (s : State) (fwd : Bool) (op : Nat) : Bool :=
  (match lockBit op with
    | some n => s.sys.lock.getLsbD n
    | none => false)
  || (s.sys.lock.getLsbD 8 && coversConfig op) || (!fwd && follows s && forwardedKind op)

/-- Every command but SYS_HELLO and SYS_GET_INFO answers BUSY from an accepted load on (R428). -/
def loadBusy (s : State) (op : Nat) : Bool :=
  (match s.boot.teardown with
    | some (.load _) => true
    | _ => false) && op != 0x0101 && op != 0x0102

/-- Steps 7 and 8 of R411. -/
def refusal (s : State) (fwd : Bool) (p : Nat) (b : Body) : Option Status :=
  if loadBusy s b.opcode then some .busy
  else if (b.only0 && p != 0) || !ownsAll s p b.units then some .notOwner
  else if commandLocked s fwd b.opcode then some .locked
  else none

/-- A change of covered configuration: the pass in progress is dirty (R444, R445). -/
def configDirty (s : State) : State := if s.sys.crcEnable then { s with sys := { s.sys with crcDirty := true } } else s

/-- A commit is requested (R446); none is accepted under FREEZE (R447). -/
def crcCommit (s : State) : State :=
  if s.sys.lock.getLsbD 8 then s else { s with sys := { s.sys with crcWait := true, crcWaitLate := true } }

/-- Whether a command has been carried out, or is being carried out. -/
def Reply.accepted (r : Reply) : Bool := r.status == .ok || r.status == .pending

/-- The offset in a payload of the wave that a command names, if it names one (R388, R389). -/
def waveOffset (op : Nat) (payload : List Byte) : Option Nat :=
  match op with
  | 0x0209 => if payload.length = 5 then some 1 else none
  | 0x0323 | 0x0324 | 0x0510 => some 4
  | 0x0503 | 0x0508 | 0x0601 | 0x0602 => some 0
  | _ => none

/-- The wave in effect of a command that has been accepted: its reply gives it, or the state does (R388). -/
def waveInEffect (s : State) (p op : Nat) (payload : List Byte) (r : Reply) : Word :=
  let named := BitVec.ofNat 32 (leAt payload ((waveOffset op payload).getD 0) 4)
  match op with
  | 0x0209 => named
  | 0x0324 => if named = 0 then s.mcnt + 1 else named
  | 0x0602 => ((s.mtx.arm p).map fun x => x.a).getD named
  | _ => BitVec.ofNat 32 (leAt r.payload 0 4)

/-- The payload with every wave given as 0 or IMMEDIATE replaced by the one in effect (R388). -/
def resolved (s : State) (p op : Nat) (payload : List Byte) (r : Reply) : List Byte :=
  match waveOffset op payload with
  | none => payload
  | some o =>
    let bs := setBytes payload o (le32 (waveInEffect s p op payload r))
    if op = 0x0503 ∨ op = 0x0508 then setBytes bs 6 [(bs.getD 6 0) &&& 0xFE#8] else bs

/-- The data that a forwarded command takes from memory (R388). -/
def takenData (s : State) (p : Nat) (b : Body) : List Byte :=
  match b.opcode with
  | 0x0502 => match regionOf s .staging p with
    | none => []
    | some r => s.mem.readTarn r.base (min (leAt b.payload 0 4) r.size)
  | 0x0602 => (List.range (leAt b.payload 8 2)).flatMap fun i => le64 (stagedEntry s.mtx p i)
  | _ => []

/-- The active forwards an accepted command (R388); RED_HANDOVER reaches the peer the same way (log 49). -/
def forwardBody (s : State) (p : Nat) (b : Body) (r : Reply) (t : State) : State :=
  if s.red.state == .active && r.accepted && (forwardedKind b.opcode || b.opcode == 0x0804) then
    forward { part := Fin.ofNat 4 p, opcode := BitVec.ofNat 16 b.opcode, payload := resolved t p b.opcode b.payload r
              data := takenData s p b } t
  else t

/-- What follows an accepted command: the configuration commit (R446) and the report of SEC_EVAL_STATE (R487). -/
def afterCommand (s : State) (op : Nat) (r : Reply) (t : State) : State :=
  let t1 := if r.status = .ok ∧ coversConfig op then crcCommit (configDirty t) else t
  noteEval s t1

/-- A command has had its effect `t` on `s` and has its reply: what follows from it, and the peer's copy unless it came from
the peer. -/
def carriedOut (fwd : Bool) (p : Nat) (b : Body) (r : Reply) (s t : State) : State :=
  let t1 := afterCommand s b.opcode r t
  if fwd then t1 else forwardBody s p b r t1

/-- Steps 7 to 9 of R411 and the command's effect. `fwd` is true for a command from the peer. -/
def perform (fwd : Bool) (p : Nat) (udp : Bool) (limit : Nat) (b : Body) (s : State) : State × Reply :=
  match refusal s fwd p b with
  | some st => (s, Reply.code st)
  | none =>
    let (t, r) := b.run p udp s
    if limit < 40 + r.payload.length then (s, Reply.code .badLength)
    else (carriedOut fwd p b r s t, r)

/-- A reply waits for the peer's outcome (R389). -/
def awaitsPeer (s : State) (op : Nat) (r : Reply) : Bool :=
  r.accepted && (forwardedKind op || op == 0x0804) && peerFollows s && s.red.peerState == 3

/-- The slot of a command that has run: its result, or the work that goes on. -/
def CmdSlot.ran (c : CmdSlot) (b : Body) (held : Bool) (r : Reply) : CmdSlot :=
  if r.status = .pending then { c with result := none, job := b.job, held := held }
  else { c with result := some r, job := none, held := held }

/-- The slot takes the outcome of the command that has run in it: `s` before the command, `t` after it. -/
def slotRan (p : Nat) (udp : Bool) (b : Body) (r : Reply) (s t : State) : State :=
  onSlot p udp (fun c => c.ran b (awaitsPeer s b.opcode r) r) t

/-- Run a command in its slot. -/
def runInSlot (p : Nat) (udp : Bool) (b : Body) (s : State) : State :=
  let (t, r) := perform false p udp (s.slot p udp).limit b s
  slotRan p udp b r s t

/-- Checks 2 of R411 for a partition (R407, R420): it is enabled, and over UDP it is keyed. -/
def partReach (s : State) (p : Nat) (udp : Bool) : Bool :=
  s.own.partEn.getLsbD p && (!udp || (partKey s p).isSome)

/-- The commands that a halted boot answers (R478). -/
def haltAnswers (op : Nat) : Bool := [0x0101, 0x0102, 0x0A01, 0x0A05, 0x0A06, 0x0A07].contains op

/-- The command interpreter takes commands: cores 0 and 1 run, and a halted boot answers only R478's through a mailbox of
partition 0. -/
def serves (s : State) (p : Nat) (udp : Bool) (op : Nat) : Bool :=
  s.lkt.coresRun && (!s.boot.halted || (p == 0 && !udp && haltAnswers op))

/-- The command may start in its slot: no other command of its partition executes (R417), and the slot is free or holds
this command, not yet run. -/
def startable (s : State) (p : Nat) (udp : Bool) (op : Nat) : Bool :=
  let c := s.slot p udp
  serves s p udp op && !(s.slot p (!udp)).executing
    && (c.state != .pending || (!c.waiting && c.result.isNone && c.job.isNone && c.hdr.opcode.toNat == op))

/-- The mailbox shows a header with STATUS PENDING, and zeros (R413). -/
def pendingHeader (p : Nat) (h : PktHdr) (s : State) : State :=
  showPacket p (headerBytes 1 p 1 h.tag h.opcode 0) s

/-- The slot of a command that is a row of its own: one that the slot holds already, or one whose packet has been accepted
with it. -/
def takeSlotFor (p : Nat) (udp : Bool) (op : Nat) (s : State) : State :=
  if (s.slot p udp).state = .pending then s
  else
    let h : PktHdr := { PktHdr.init with opcode := BitVec.ofNat 16 op }
    let s1 := onSlot p udp (fun c => { c with
      state := .pending, waiting := false, hdr := h, key := partKey s p, result := none, job := none, held := false
      replay := false, limit := if udp then 1472 else 4064 }) s
    if udp then s1 else pendingHeader p h s1

/-- A Falver command row: an accepted packet's command runs for its partition (R411, R417). -/
def runCommand (q : Sender) (b : Body) (s : State) : State :=
  let p := q.part.val
  let udp := q.via == .udp
  if !startable s p udp b.opcode then s
  else
    let s1 := takeSlotFor p udp b.opcode s
    if !partReach s p udp then
      onSlot p udp (fun c => c.ran b false (Reply.code .authFail)) (authFailed p s1)
    else runInSlot p udp b s1

/-- Run the command of a slot's packet: steps 5 and 6 of R411, then the rest. -/
def runPacket (p : Nat) (udp : Bool) (s : State) : State :=
  match readBody (s.slot p udp).hdr with
  | .error st => onSlot p udp (fun c => { c with result := some (Reply.code st) }) s
  | .ok b => runInSlot p udp b s

/-- COMMAND_EXECUTION_END (R413, R417): a command that has not run yet runs; work inside it ends; its reply is written
unless it is held (R389). -/
def executionEnd (q : Sender) (s : State) : State :=
  let p := q.part.val
  let udp := q.via == .udp
  let c := s.slot p udp
  if !c.executing || !serves s p udp c.hdr.opcode.toNat then s
  else
    let s1 := match c.result, c.job with
      | some _, _ => s
      | none, none => runPacket p udp s
      | none, some j => match jobEnd j s with
        | none => s
        | some (t, r) => giveResult p udp j r (noteEval s t)
    let d := s1.slot p udp
    match d.result with
    | none => s1
    | some r => if d.held then s1 else answer p udp r s1

/-- The reply of a forwarded command is held no longer (R389): PEER_OUTCOME_REPORT and MIRROR_REPLY_TIMEOUT. -/
def releaseReply (q : Sender) (s : State) : State :=
  onSlot q.part.val (q.via == .udp) (fun c => { c with held := false }) s

/-- A packet that is refused over the mailbox is answered at once (R411). -/
def refuseMailbox (m : Nat) (k : Packet) (key : Option (BitVec 256)) (st : Status) (s : State) : State :=
  mailboxReply m k.hdr (replyPacket key k.part k.hdr (Reply.code st)) s

/-- An accepted packet goes into its slot; it waits while another command of its partition executes (R417). -/
def acceptPacket (p : Nat) (udp : Bool) (k : Packet) (src : CmdSlot) (s : State) : State :=
  let busy := (s.slot p (!udp)).executing
  onSlot p udp (fun c => { src with
    state := .pending, waiting := busy, hdr := k.hdr, key := partKey s p, result := none, job := none, held := false
    stored := if udp then c.stored else none, replay := false }) s

/-- The last accepted counter advances (R408); SYS_HELLO is exempt (R410). -/
def takeCounter (k : Packet) (s : State) : State :=
  if k.hdr.opcode = 0x0101 then s else s.setPart k.part { s.part k.part with lastCtr := k.hdr.counter }

/-- CMD_DOORBELL of mailbox `m` (R411, R413). -/
def doorbell (m : Nat) (s : State) : State :=
  let c := s.part m
  if !s.lkt.coresRun then s
  else if c.mbox.state = .pending then s.setPart m { c with dbIgnored := true }
  else
    let area := Store.slice 0 c.area 0 4064
    let k := readPacket area
    let n := min (40 + k.length) 4064
    let s1 := pendingHeader m k.hdr (onSlot m false (fun d => { d with
      state := .pending, waiting := false, hdr := k.hdr, key := none, result := none, job := none, held := false
      stored := none, replay := false, limit := 4064 }) (s.setPart m { c with dbIgnored := false }))
    if !serves s m false k.hdr.opcode.toNat then s1
    else if !formOk k n 4064 then refuseMailbox m k none .badLength s1
    else if !authOk s k false then
      refuseMailbox m k none .authFail (if k.part < 4 then authFailed k.part s1 else s1)
    else if k.hdr.opcode ≠ 0x0101 ∧ !counterOk (s.part k.part) k.hdr.counter then
      refuseMailbox m k (partKey s k.part) .replay s1
    else
      let s2 := takeCounter k s1
      if k.part ≠ m then refuseMailbox m k (partKey s k.part) .notOwner s2
      else acceptPacket m false k { CmdSlot.init with state := .pending } s2

/-- The UDP packet repeats the command that its slot executes (R409). -/
def sameCommand (h x : PktHdr) : Bool := h.counter == x.counter && h.tag == x.tag && h.opcode == x.opcode

/-- At most 100 AUTH_FAIL replies a second go out over UDP for a partition (R416). -/
def udpAuthFail (src : CmdSlot) (k : Packet) (s : State) : State :=
  if 4 ≤ k.part then s
  else
    let s1 := authFailed k.part s
    let c := s1.part k.part
    let fresh := decide (c.udpAuthWindow + 1000000 ≤ s.time)
    let n := if fresh then 0 else c.udpAuthReplies
    if 100 ≤ n then s1
    else
      udpDirect src k.part k.hdr none .authFail (s1.setPart k.part { c with
        udpAuthWindow := if fresh then s.time else c.udpAuthWindow, udpAuthReplies := n + 1 })

/-- A datagram is counted in CMD_UDP_DROP (R411, R416). -/
def udpDropped (s : State) : State := { s with own := { s.own with udpDrop := s.own.udpDrop + 1 } }

/-- A packet that arrived over UDP: the checks of R411, R409, R416 and R417. -/
def udpPacket (src : CmdSlot) (bs : List Byte) (s : State) : State :=
  let k := readPacket bs
  if !formOk k bs.length src.limit then udpDropped s
  else if !authOk s k true then udpAuthFail src k s
  else
    let c := s.slot k.part true
    let key := partKey s k.part
    if k.hdr.opcode ≠ 0x0101 ∧ !counterOk (s.part k.part) k.hdr.counter then
      if (s.part k.part).lastCtr ≠ k.hdr.counter then udpDirect src k.part k.hdr key .replay s
      else if c.state = .pending ∧ sameCommand k.hdr c.hdr then udpDirect src k.part k.hdr key .pending s
      else match c.stored with
        | some (h, pkt) =>
          if sameCommand k.hdr h then udpSend src (asReplay pkt) s else udpDirect src k.part k.hdr key .replay s
        | none => udpDirect src k.part k.hdr key .replay s
    else
      let s1 := takeCounter k s
      if c.state = .pending then udpDirect src k.part k.hdr key .busy s1
      else acceptPacket k.part true k src s1

/-- The frame is an IPv4 fragment. -/
def isFragment (bs : List Byte) : Bool := beAt bs (l3Off bs + 6) 2 % 16384 != 0

/-- UDP_COMMAND_RECEIVED (R416): a frame from an external port to the station's command port, taken from host ring 0. -/
def udpCommand (port : Nat) (bs : List Byte) (s : State) : State :=
  if !isIpv4 bs || ipProto bs != 17 || ipDst bs != s.own.hostIp.toNat || !s.lkt.coresRun || s.boot.halted then s
  else
    let x := s.rxRing 0
    let s1 := s.setRxRing 0 { x with queue := x.queue.filter fun f => f.bytes != bs }
    if isFragment bs then udpDropped s1
    else if dstPort bs ≠ s.own.udpPort.toNat then s1
    else
      let o := l4Off bs
      let src := { CmdSlot.init with
        srcMac := BitVec.ofNat 48 (frameSrc bs), srcIp := BitVec.ofNat 32 (ipSrc bs), srcPort := BitVec.ofNat 16 (beAt bs o 2)
        ingress := port, limit := (s.netPort port).maxFrame - 50 }
      udpPacket src ((bs.drop (o + 8)).take (beAt bs (o + 4) 2 - 8)) s1

/-- The least lead of a named wave is taken as met for a command from the peer (R389; log 49): the command is judged as if
MCNT stood 8 waves before the wave. -/
def withLead (w : Word) (f : State → State × Reply) (s : State) : State × Reply :=
  if 0 < ahead s w ∧ ahead s w < 8 then
    let (t, r) := f { s with pst := { s.pst with mcnt := w - 8 } }
    ({ t with pst := { t.pst with mcnt := s.pst.mcnt } }, r)
  else f s

/-- The data that travels ahead of a forwarded command goes where the command takes it from (R388). -/
def placeData (m : MirrorCmd) (s : State) : State :=
  match m.opcode.toNat with
  | 0x0502 => match regionOf s .staging m.part.val with
    | none => s
    | some r => { s with mem := s.mem.writeTarn r.base (m.data.take r.size) }
  | 0x0602 => { s with mtx := { s.mtx with
      staging := Store.putAll 0 s.mtx.staging (0x8000 * m.part.val) (m.data.take 0x8000) } }
  | _ => s

/-- Run a forwarded command with the payload given (R389). -/
def runForwarded (m : MirrorCmd) (payload : List Byte) (s : State) : State × Reply :=
  match readBody { PktHdr.init with opcode := m.opcode, payload := payload } with
  | .error st => (s, Reply.code st)
  | .ok b =>
    let f := perform true m.part.val false 65536 b
    match waveOffset m.opcode.toNat payload with
    | none => f s
    | some o => withLead (BitVec.ofNat 32 (leAt payload o 4)) f s

/-- Apply a forwarded command (R389): one whose wave has passed applies at the next wave, and the node leaves step, as it
does where its outcome is not the active's. -/
def applyForwarded (m : MirrorCmd) (s : State) : State :=
  let s1 := if m.data.isEmpty then s else placeData m s
  let late := match waveOffset m.opcode.toNat m.payload with
    | none => none
    | some o => if ahead s (BitVec.ofNat 32 (leAt m.payload o 4)) ≤ 0 then some o else none
  let payload := match late with
    | none => m.payload
    | some o => setBytes m.payload o (le32 (s.mcnt + 1))
  let (t, r) := if m.opcode = 0x0804 then
      ({ s1 with red := { s1.red with handover := some (BitVec.ofNat 32 (leAt payload 0 4)) } }, Reply.ok [])
    else runForwarded m payload s1
  if late.isSome || !r.accepted then leaveStep 3 t else t

/-- MIRROR_CMD_RECEIVED (R389, R391): a node that waits for its adoption keeps the command until then. -/
def mirrorCmd (m : MirrorCmd) (s : State) : State :=
  if !paired s || !s.red.nrl.up || !follows s then s
  else
    let s1 := tookFrame s
    match s1.red.join with
    | .adopting _ _ => { s1 with red := { s1.red with recorded := s1.red.recorded ++ [m] } }
    | _ => applyForwarded m s1

end Sys2Proof.Machine
end

