-- ==== Sys2Proof/Machine/Teardown.lean ====
section
/-! DEFINITION. The teardown before a profile load, a restart or a deep-off (R428, R520, R525). -/

namespace Sys2Proof.Machine

/-- A transmit context sends no packet that begins at or after wave `w`. -/
def TxCtx.tearAt (x : TxCtx) (w : Word) : TxCtx :=
  match x.state, x.stop with
  | .stopped, _ => x
  | _, some e => if serialDiff e w < 0 then x else { x with stop := some w }
  | _, none => { x with stop := some w }

/-- A receive context stops at wave `w`. -/
def RxCtx.tearAt (x : RxCtx) (w : Word) : RxCtx :=
  match x.state, x.stop with
  | .stopped, _ => x
  | _, some e => if serialDiff e w < 0 then x else { x with stop := some w }
  | _, none => { x with stop := some w }

/-- Instant 0 of the teardown at wave `w` (R428): power-stage stops, TDM fades, the end of streams. -/
def startTeardown (w : Word) (s : State) : State :=
  let s1 := fadeAllTx (pwsStopAll s)
  { s1 with
    stm := { s1.stm with
      tx := Store.mapAll TxCtx.init s1.stm.tx fun _ x => x.tearAt w
      rx := Store.mapAll RxCtx.init s1.stm.rx fun _ x => x.tearAt w }
    boot := { s1.boot with tearStarted := true } }

/-- A teardown that waits for its instant begins at the edge of wave `k` (R428, R520). -/
def teardownEdge (k : Word) (s : State) : State :=
  let b := s.boot
  let due := match b.tearWave with
    | some v => decide (0 ≤ serialDiff k v)
    | none => true
  if b.teardown.isSome && !b.tearStarted && due then startTeardown k s else s

/-- Polestar produces no sample edges (R29, R451, R520). -/
def noEdges (s : State) : Bool := s.pst.state == .acquire || s.lkt.edgeLoss

/-- An accepted KA_CTRL request (R520): the teardown begins at the next sample edge, or at once without edges. -/
def kaRequest (t : Teardown) (s : State) : State :=
  let s1 := { s with boot := { s.boot with teardown := some t, tearWave := none, tearStarted := false } }
  if noEdges s then startTeardown s.mcnt s1 else s1

/-- A write to KA_CTRL; none where it is refused (R524, R525). -/
def kaCtrlWrite (w : Word) (s : State) : Option State :=
  if (w >>> 16) ≠ 0x4B41 ∨ (w.getLsbD 0 ∧ w.getLsbD 1) ∨ s.boot.teardown.isSome then none
  else if w.getLsbD 0 then some (kaRequest .deepOff s)
  else if w.getLsbD 1 then some (kaRequest .restart s)
  else some s

end Sys2Proof.Machine
end

