-- ==== Sys2Proof/Machine/IndirectSpace.lean ====
section
/-! DEFINITION. The indirect space (R448 to R450, R524, R525, R557, R558): its regions, and reads and writes of a word.
Words of the trim and PHY regions are kept as their difference from the reset value (log 50: factory trims read 0). -/

namespace Sys2Proof.Machine

/-- The PHY block of an indirect address and the offset in it: 0 to 3 the NET ports, 4 the Noril lane (R449, R558). -/
def phyAt (a : Nat) : Option (Nat × Nat) :=
  if 0x0110_0000 ≤ a ∧ a < 0x0110_000C then some (4, a - 0x0110_0000)
  else if 0x0100_0000 ≤ a ∧ a < 0x0110_0000 ∧ (a - 0x0100_0000) % 0x4_0000 < 0xC then
    some ((a - 0x0100_0000) / 0x4_0000, (a - 0x0100_0000) % 0x4_0000)
  else none

/-- A word of the power-stage trims: 16 channel blocks and the shared block, 0x100 bytes each (R449; log 51). -/
def isTrim (a : Nat) : Bool := decide (0x0200_0000 ≤ a ∧ a < 0x0200_1100)

/-- The receive clock of a PHY block is recovered: its link is up (R558; log 52). -/
def cdrLocked (s : State) (block : Nat) : Bool := if block = 4 then s.red.nrl.up else (s.netPort block).linkUp

/-- The eye of a block that is locked is not stated: its two values are free, and 0 while there is no lock (R558). -/
def eyeWord (s : State) (block : Nat) : Word × State :=
  if cdrLocked s block then
    let (w, t) := draw s
    (1 ||| (w &&& 0x00FF_FF00#32), t)
  else (0, s)

/-- A stored word of the indirect space: PHY_RX_ADAPT resets to 1. -/
def storedWord (s : State) (a : Nat) : Word :=
  Store.look 0 s.sys.ind a ^^^ (match phyAt a with
    | some (_, 4) => 1
    | _ => 0)

/-- Store a word of the indirect space. -/
def storeWord (a : Nat) (w : Word) (s : State) : State :=
  let base : Word := match phyAt a with
    | some (_, 4) => 1
    | _ => 0
  { s with sys := { s.sys with ind := Store.put 0 s.sys.ind a (w ^^^ base) } }

/-- KA_STAT (R524). -/
def kaStat (s : State) : Word :=
  fieldAt 0 s.ka.lastStart ||| bitAt 2 (!s.pins.wakeN) ||| bitAt 3 s.ka.pwrEn ||| bitAt 4 s.boot.teardown.isSome

/-- KA_LATCH (R524). -/
def kaLatch (k : Ka) : Word :=
  fieldAt 0 (k.latchSlot % 8) ||| bitAt 3 k.latchValid ||| bitAt 4 k.latchSource ||| bitAt 5 k.latchOnce

/-- DDR_TRAIN_DONE, DDR_TRAIN_FAIL, DDR_TRAIN_BYTE and DDR_RATE (R558). -/
def ddrStat (b : Boot) : Word :=
  bitAt 0 b.dramTrained ||| bitAt 1 b.dramFailed ||| fieldAt 2 b.dramByte.toNat ||| fieldAt 8 b.dramRate

/-- A read of the indirect space; none where it is refused (R449, R450). -/
def indRead (a : Nat) (s : State) : Option (Word × State) :=
  if a = 0x0300_0000 then some (0, s)
  else if a = 0x0300_0004 then some (kaStat s, s)
  else if a = 0x0300_0008 then some (kaLatch s.ka, s)
  else if a = 0x0300_000C then some (s.ka.arbCount, s)
  else if a = 0x0300_0010 then some (s.ka.wakeCnt, s)
  else if a = 0x0400_0000 then some (ddrStat s.boot, s)
  else if a = 0x0400_0004 then some (s.boot.retrainCnt, s)
  else if isTrim a then some (storedWord s a, s)
  else match phyAt a with
    | some (n, 8) => some (eyeWord s n)
    | some _ => some (storedWord s a, s)
    | none => none

/-- The word is covered configuration: an RW field of the trims or of a PHY block (R444). -/
def indCovered (a : Nat) : Bool := isTrim a || (match phyAt a with
  | some (_, o) => o != 8
  | none => false)

/-- A write to the indirect space; none where it is refused (R449, R450, R525). -/
def indWrite (a : Nat) (w : Word) (s : State) : Option State :=
  if s.sys.lock.getLsbD 7 || s.sys.lock.getLsbD 8 then none
  else if a = 0x0300_0000 then kaCtrlWrite w s
  else if a = 0x0300_0010 then some { s with ka := { s.ka with wakeCnt := w } }
  else if a = 0x0400_0004 then some { s with boot := { s.boot with retrainCnt := w } }
  else if isTrim a then some (configDirty (storeWord a w s))
  else match phyAt a with
    | some (_, 0) => some (configDirty (storeWord a (w &&& 0x000F_1F0F#32) s))
    | some (_, 4) => some (configDirty (storeWord a (w &&& 3#32) s))
    | _ => none

/-- A refused access is counted (R450). -/
def indRefused (s : State) : State := { s with sys := { s.sys with indErr := s.sys.indErr + 1 } }

/-- The pointer after a data access (R448). -/
def Shadow.advance (x : Shadow) : Shadow :=
  if x.autoInc then { x with indAddr := (x.indAddr &&& 0xFF00_0000#32) ||| ((x.indAddr + 4) &&& 0x00FF_FFFF#32) } else x

end Sys2Proof.Machine
end

