-- ==== Sys2Proof/Machine/RegisterMap.lean ====
section
/-! DEFINITION. The direct window (R431, R432): which registers exist, whose they are, and what each reads. -/

namespace Sys2Proof.Machine

/-- A register of the SYS block (R441). -/
def isSysReg (a : Nat) : Bool := decide (a ≤ 0x0034 ∨ (0x0040 ≤ a ∧ a ≤ 0x004C))

/-- A register of Lookout (R468, R469). -/
def isLktReg (a : Nat) : Bool :=
  decide ((0x0400 ≤ a ∧ a ≤ 0x0424) ∨ (0x0440 ≤ a ∧ a < 0x0680))

/-- A register of the network blocks, 0x5800 to 0x5FFF (R309 to R312, R333, R334). -/
def isNetReg (a : Nat) : Bool :=
  decide ((0x5800 ≤ a ∧ a ≤ 0x5808) ∨ (0x5900 ≤ a ∧ a < 0x5A00) ∨ (0x5A00 ≤ a ∧ a < 0x5B00 ∧ a % 0x20 ≠ 0x1C)
    ∨ (0x5C00 ≤ a ∧ a < 0x5E00 ∧ a % 0x80 ≤ 0x3C) ∨ (0x5E00 ≤ a ∧ a < 0x5F00 ∧ a % 0x80 ≤ 0x2C)
    ∨ (0x5F00 ≤ a ∧ a < 0x5F40 ∧ a % 0x10 ≤ 4) ∨ (0x5F40 ≤ a ∧ a ≤ 0x5FCC))

/-- A register of a two-wire controller or of the target port (R507, R508). -/
def isTwReg (a : Nat) : Bool :=
  let o := (a - 0x6000) % 0xC0
  decide ((0x6000 ≤ a ∧ a < 0x6300 ∧ (o ≤ 0x0C ∨ (0x20 ≤ o ∧ o < 0x68) ∨ (0x68 ≤ o ∧ o ≤ 0x80)))
    ∨ (0x6300 ≤ a ∧ a ≤ 0x6310) ∨ (0x6320 ≤ a ∧ a < 0x6360))

/-- A register of the pair (R400 to R402). -/
def isPairReg (a : Nat) : Bool :=
  decide ((0x6800 ≤ a ∧ a ≤ 0x6824) ∨ (0x6840 ≤ a ∧ a < 0x6860) ∨ (0x6880 ≤ a ∧ a ≤ 0x689C))

/-- A register of the clock, the fabric, Col or the engines, 0x5000 to 0x57FF. -/
def isFabricReg (a : Nat) : Bool :=
  decide ((0x5000 ≤ a ∧ a < 0x5074) ∨ (0x5400 ≤ a ∧ a ≤ 0x5438) ∨ (0x5480 ≤ a ∧ a < 0x5500)
    ∨ (0x5500 ≤ a ∧ a ≤ 0x5528) ∨ (0x5580 ≤ a ∧ a ≤ 0x5590) ∨ (0x55A0 ≤ a ∧ a ≤ 0x55D8)
    ∨ (0x5600 ≤ a ∧ a ≤ 0x5614) ∨ (0x5640 ≤ a ∧ a < 0x5700) ∨ (0x5700 ≤ a ∧ a ≤ 0x574C))

/-- The register exists: it is neither reserved nor in a reserved range (R432). -/
def isReg (a : Nat) : Bool :=
  if a < 0x0400 then isSysReg a
  else if a < 0x0800 then isLktReg a
  else if a < 0x5000 then true
  else if a < 0x5800 then isFabricReg a
  else if a < 0x6000 then isNetReg a
  else if a < 0x6400 then isTwReg a
  else if a < 0x6600 then decide (a ≤ 0x6408 ∨ 0x6500 ≤ a)
  else if a < 0x6800 then decide (a ≤ 0x6638 ∨ (0x6640 ≤ a ∧ a ≤ 0x66A0) ∨ 0x6700 ≤ a)
  else if a < 0x6900 then isPairReg a
  else if a < 0x7000 then false
  else if a < 0x7800 then decide (a ≤ 0x7018 ∨ (0x7020 ≤ a ∧ a ≤ 0x7038))
  else decide (a < 0x7C80)

/-- The mailbox of an address, and the offset in it (R412). -/
def mboxAt (a : Nat) : Option (Nat × Nat) :=
  if 0x1000 ≤ a ∧ a < 0x5000 then some ((a - 0x1000) / 0x1000, a % 0x1000) else none

/-- The resource unit that a register belongs to (R22, R433). -/
def unitAt (a : Nat) : Option Res :=
  if 0x0800 ≤ a ∧ a < 0x1000 then some (.dmaCh ((a - 0x0800) / 0x40))
  else if 0x5640 ≤ a ∧ a < 0x56A0 then some (.cluster ((a - 0x5640) / 16))
  else if 0x56A0 ≤ a ∧ a < 0x5700 then some (.cluster ((a - 0x56A0) / 16))
  else if 0x5900 ≤ a ∧ a < 0x5A00 then some (.rxRing ((a - 0x5900) / 0x20))
  else if 0x5A00 ≤ a ∧ a < 0x5B00 then some (.txRing ((a - 0x5A00) / 0x20))
  else if 0x5F40 ≤ a ∧ a < 0x5FC0 then some (.alarm ((a - 0x5F40) / 0x10))
  else if 0x6000 ≤ a ∧ a < 0x6300 then some (.tw ((a - 0x6000) / 0xC0))
  else if 0x6300 ≤ a ∧ a < 0x6400 then some (.tw 0)
  else if 0x6500 ≤ a ∧ a < 0x6600 then some (.pwsCh ((a - 0x6500) / 0x10))
  else if 0x6700 ≤ a ∧ a < 0x6800 then some (.tap ((a - 0x6700) / 0x10))
  else if 0x7800 ≤ a ∧ a < 0x7C00 then some (.tdmGroup ((a - 0x7800) / 0x80))
  else if 0x7C00 ≤ a ∧ a < 0x7C80 then some (.tdmGroup ((a - 0x7C00) / 0x10))
  else none

/-- R433 allows the requester to write the register (with R212, R301, R412, R468 and R490). -/
def regAllowed (s : State) (q : Requester) (a : Nat) : Bool :=
  let p := q.part.val
  if a < 0x0400 then p == 0
  else if a < 0x0800 then (q == .summit 2) && (a == 0x0410 || a == 0x0414 || a == 0x0418)
  else if 0x7000 ≤ a ∧ a < 0x7800 then p == 0 && a == 0x7014
  else match mboxAt a with
    | some (m, _) => p == m
    | none => match unitAt a with
      | some r => ownerOf s r == p
      | none => true

/-- The requester reaches the window: its function is presented (R414, R542), its partition is in the SPI mask (R415), or
its core runs; a halted boot answers partition 0 alone (R478). -/
def present (s : State) (q : Requester) : Bool :=
  match q with
  | .pf p => s.own.partEn.getLsbD p && s.pins.perstN && (!s.boot.halted || p == 0)
  | .spi p => s.own.spiMask.getLsbD p && (!s.boot.halted || p == 0)
  | .summit n => n == 2 || s.lkt.coresRun

/-- SYS_STATUS (R441). -/
def sysStatus (s : State) : Word :=
  bitAt 0 s.boot.bootDone ||| bitAt 1 s.boot.profileOk ||| fieldAt 4 s.own.partEn.toNat ||| fieldAt 8 s.boot.slot

/-- SYS_REQ (R441). -/
def sysReq (q : Requester) : Word :=
  fieldAt 0 q.part.val ||| fieldAt 2 (match q with
    | .summit _ => 0
    | .pf _ => 1
    | .spi _ => 2)

/-- CFG_CRC_CTRL and CFG_CRC_STAT (R441, R446). -/
def crcCtrl (y : Sys) : Word := bitAt 0 y.crcEnable ||| bitAt 1 y.crcWait
def crcStat (y : Sys) : Word :=
  bitAt 0 y.crcMismatch ||| bitAt 1 y.crcRefValid ||| bitAt 2 y.crcWait ||| bitAt 3 y.crcDirty

/-- A read of the SYS block apart from SYS_IND_DATA (R441). -/
def sysRead (s : State) (q : Requester) (a : Nat) : Word :=
  let y := s.sys
  let x := s.shadow q.ix
  match a with
  | 0x0000 => sysId s
  | 0x0004 => y.fwVersion
  | 0x0008 => sysStatus s
  | 0x000C => sysReq q
  | 0x0010 => y.lock
  | 0x0014 => y.wrIgnored
  | 0x0018 => fieldAt 0 y.lastAddr.toNat ||| fieldAt 16 y.lastPart ||| fieldAt 18 y.lastReason
  | 0x001C => y.scDrop
  | 0x0020 => crcCtrl y
  | 0x0024 => crcStat y
  | 0x0028 => y.crcLast
  | 0x002C => y.crcRef
  | 0x0030 => y.crcPassCnt
  | 0x0034 => y.crcMismatchCnt
  | 0x0040 => x.indAddr
  | 0x0048 => bitAt 0 x.autoInc
  | 0x004C => y.indErr
  | _ => 0

/-- The causes of CMD_IRQ_STAT for partition `p` (R422). -/
def irqStat (s : State) (p : Nat) : Word :=
  let c := s.part p
  let fault := (List.range 8).any fun g => (s.record g).irq && (s.record g).route.getLsbD p
  let dma := (List.range 32).any fun n => ownerOf s (.dmaCh n) == p && (s.dmaCh n).irqPend
  let stream := s.stm.rx.any fun e => ownerOf s (.rxCtx e.1) == p && degraded e.2
  bitAt 0 (c.mbox.state == .ready && !c.mbox.replay) ||| bitAt 1 fault ||| bitAt 2 dma ||| bitAt 3 stream
    ||| bitAt 4 c.ringEvent ||| bitAt 5 c.alarmEvent

/-- IRQ_N of a partition is driven low (R422). -/
def irqLow (s : State) (p : Nat) : Bool := (irqStat s p &&& (s.part p).irqEn.setWidth 32) != 0

/-- SlotSt codes (R412). -/
def SlotSt.code : SlotSt → Nat
  | .empty => 0 | .pending => 1 | .ready => 2

/-- CMD_RSTAT (R412). -/
def rstat (c : PartCmd) : Word :=
  let d := c.mbox
  let ready := d.state == .ready
  fieldAt 0 d.state.code ||| bitAt 2 (ready && d.replay) ||| bitAt 3 c.dbIgnored
    ||| fieldAt 8 (if ready then (Store.look 0 c.area 3).toNat else 0)
    ||| fieldAt 16 (if d.state == .empty then 0 else (d.hdr.tag.setWidth 16 : Half).toNat)

/-- A word of a partition's own mailbox (R412). -/
def mboxRead (s : State) (p o : Nat) : Word :=
  let c := s.part p
  if o < 0xFE0 then BitVec.ofNat 32 (leNat (Store.slice 0 c.area o 4))
  else match o with
    | 0xFE4 => rstat c
    | 0xFEC => c.session
    | 0xFF0 => c.lastCtr.setWidth 32
    | 0xFF4 => (c.lastCtr >>> 32).setWidth 32
    | 0xFF8 => irqStat s p
    | 0xFFC => c.irqEn.setWidth 32
    | _ => 0

/-- A read of the blocks 0x5000 to 0x57FF. -/
def fabricRead (s : State) (x : Shadow) (a : Nat) : Word :=
  if a < 0x5100 then pstRead s x a
  else if a < 0x5500 then fabRead s x a
  else if a < 0x5580 then rdgRead s a
  else if a < 0x55A0 then dmaRegRead s a
  else if a < 0x5600 then colRegRead s a
  else if a < 0x5700 then crnRead s a
  else mrdRead s a

/-- A read of the two-wire block (R507, R508). -/
def twRead (s : State) (a : Nat) : Word :=
  if a < 0x6300 then twCtlRead (s.twc ((a - 0x6000) / 0xC0)) ((a - 0x6000) % 0xC0) else twtRead s.tw.twt (a - 0x6300)

/-- What a register shows to a requester, latches and shadows apart (R432, R433). -/
def regRead (s : State) (q : Requester) (a : Nat) : Word :=
  let x := s.shadow q.ix
  if !isReg a then 0
  else if a < 0x0400 then sysRead s q a
  else if a < 0x0800 then lktRead s a
  else if a < 0x1000 then dmaChRead s a
  else if a < 0x5000 then
    let m := (a - 0x1000) / 0x1000
    if q.part.val = m then mboxRead s m (a % 0x1000) else 0
  else if a < 0x5800 then fabricRead s x a
  else if a < 0x5E00 then netRead s a
  else if a < 0x6000 then ptpRead s x a
  else if a < 0x6400 then twRead s a
  else if a < 0x6600 then pwsRead s a
  else if a < 0x6800 then stmRead s x a
  else if 0x6840 ≤ a ∧ a < 0x6860 then stmRead s x a
  else if a < 0x6900 then redRead s a
  else if a < 0x7800 then secRead s a
  else tdmRead s a

end Sys2Proof.Machine
end

