-- ==== Sys2Proof/Machine/RegisterReads.lean ====
section
/-! DEFINITION. Reads of the direct window with their latches and shadows (R413, R435, R436, R448). -/

namespace Sys2Proof.Machine

/-- Change the registers and latches of a requester. -/
def onShadow (q : Requester) (f : Shadow → Shadow) (s : State) : State := s.setShadow q.ix (f (s.shadow q.ix))

/-- The _LO word of a value wider than 32 bits; its _HI word follows it (R436). -/
def isWideLo (a : Nat) : Bool :=
  [0x5010, 0x501C, 0x5024, 0x5584, 0x55BC, 0x55C8, 0x5FC4, 0x7034].contains a
    || (decide (0x0800 ≤ a ∧ a < 0x1000) && [0x08, 0x10, 0x1C, 0x24].contains ((a - 0x0800) % 0x40))
    || (decide (0x1000 ≤ a ∧ a < 0x5000) && a % 0x1000 == 0xFF0)
    || (decide (0x5900 ≤ a ∧ a < 0x5B00) && a % 0x20 == 0)
    || (decide (0x5C00 ≤ a ∧ a < 0x5E00) && [0x08, 0x14].contains (a % 0x80))
    || (decide (0x5E00 ≤ a ∧ a < 0x5F00) && a % 0x80 == 0x0C)

/-- The requester's mailbox: whether address `a` is its CMD_RSTAT. -/
def isRstat (q : Requester) (a : Nat) : Bool := a == 0x1000 + 0x1000 * q.part.val + 0xFE4

/-- The first read of CMD_RSTAT while READY sets REPLAY, in the register and in the stored reply (R413). -/
def markRead (p : Nat) (s : State) : State :=
  let c := s.part p
  if c.mbox.state = .ready then
    s.setPart p { c with
      mbox := { c.mbox with replay := true }
      area := Store.upd 0 c.area 1 fun b => b ||| 2 }
  else s

/-- A read of SYS_IND_DATA (R448, R450); another partition than 0 reads 0 and moves nothing (R433). -/
def indDataRead (q : Requester) (s : State) : State × Word :=
  if q.part ≠ 0 then (s, 0)
  else
    let a := (s.shadow q.ix).indAddr.toNat
    match indRead a s with
    | none => (onShadow q Shadow.advance (indRefused s), 0)
    | some (w, t) => (onShadow q Shadow.advance t, w)

/-- What a read latches (R55, R71, R327, R366, R413, R436). -/
def latchRead (q : Requester) (a : Nat) (s : State) : State :=
  if a = 0x500C then onShadow q (fun x => { x with ptpSec := s.pst.ptpSec, mcntLatch := s.mcnt }) s
  else if a = 0x5480 then onShadow q (fun x => { x with hist := Store.slice 0 s.fab.hist 0 32 }) s
  else if a = 0x5FC0 then onShadow q (fun x => { x with ppsSec := s.ptp.ppsSec }) s
  else if a = 0x6608 then onShadow q (fun x => { x with ctx := selectedWindow s }) s
  else if isRstat q a then markRead q.part.val s
  else if isWideLo a then onShadow q (fun x => { x with wideAddr := some a, wideHi := regRead s q (a + 4) }) s
  else s

/-- The word that a read returns: CTX_STAT shows what it has just latched; a _HI word comes from the shadow that holds its
_LO word (R366, R436). -/
def readWord (before after : State) (q : Requester) (a : Nat) : Word :=
  let x := after.shadow q.ix
  if a = 0x6608 then regRead after q a
  else if 4 ≤ a ∧ isWideLo (a - 4) ∧ x.wideAddr = some (a - 4) then x.wideHi
  else regRead before q a

/-- One read of the direct window by a requester that reaches it: the state after, and the word (R431 to R436). -/
def readReg (q : Requester) (a : Nat) (s : State) : State × Word :=
  if a = 0x0044 then indDataRead q s
  else if !isReg a then (s, 0)
  else
    let t := latchRead q a s
    (t, readWord s t q a)

/-- A read, with its word kept for the requester. -/
def busRead (q : Requester) (a : Nat) (s : State) : State :=
  let a := a / 4 * 4 % 0x1_0000
  if !present s q then onShadow q (fun x => { x with rdata := [0] }) s
  else
    let (t, w) := readReg q a s
    onShadow q (fun x => { x with rdata := [w] }) t

end Sys2Proof.Machine
end

