-- ==== Sys2Proof/Machine/RegisterWrites.lean ====
section
/-! DEFINITION. Writes of the direct window (R412, R413, R433, R437, R441 to R447) and the configuration CRC engine. -/

namespace Sys2Proof.Machine

/-- A write is ignored, counted and recorded (R433): reason 0 not owner, 1 part of a word, 2 locked. -/
def ignoreWrite (q : Requester) (a reason : Nat) (s : State) : State :=
  { s with sys := { s.sys with
      wrIgnored := s.sys.wrIgnored + 1, lastAddr := BitVec.ofNat 16 a, lastPart := q.part.val, lastReason := reason } }

/-- A write to CFG_CRC_CTRL: ENABLE, then COMMIT (R445, R446). A new pass starts when ENABLE is set again. -/
def crcEnableWrite (on : Bool) (s : State) : State :=
  if on && !s.sys.crcEnable then
    { s with sys := { s.sys with crcEnable := true, crcDirty := false, crcWaitLate := false, crcDiffered := false } }
  else if !on && s.sys.crcEnable then
    { s with sys := { s.sys with crcEnable := false, crcRefValid := false, crcDirty := false } }
  else s

def crcCtrlWrite (w : Word) (s : State) : State :=
  let s1 := crcEnableWrite (w.getLsbD 0) s
  if w.getLsbD 1 then crcCommit s1 else s1

/-- Lock bits set by a write (R442): writing 0 has no effect, and reserved bits read 0. -/
def sysLockWrite (w : Word) (s : State) : State :=
  { s with sys := { s.sys with lock := s.sys.lock ||| (w &&& 0x1FF#32) } }

/-- A write to the SYS block apart from SYS_IND_DATA (R441). -/
def sysWrite (q : Requester) (a : Nat) (w : Word) (s : State) : State :=
  let y := s.sys
  match a with
  | 0x0010 => sysLockWrite w s
  | 0x0014 => { s with sys := { y with wrIgnored := w } }
  | 0x001C => { s with sys := { y with scDrop := w } }
  | 0x0020 => crcCtrlWrite w s
  | 0x0030 => { s with sys := { y with crcPassCnt := w } }
  | 0x0034 => { s with sys := { y with crcMismatchCnt := w } }
  | 0x0040 => onShadow q (fun x => { x with indAddr := w &&& 0xFFFF_FFFC#32 }) s
  | 0x0048 => onShadow q (fun x => { x with autoInc := w.getLsbD 0 }) s
  | 0x004C => { s with sys := { y with indErr := w } }
  | _ => s

/-- A write of SYS_IND_DATA by partition 0 (R442, R448, R450). A lock bit that covers the write records it under R433. -/
def indDataWrite (q : Requester) (w : Word) (s : State) : State :=
  let a := (s.shadow q.ix).indAddr.toNat
  match indWrite a w s with
  | some t => onShadow q Shadow.advance t
  | none =>
    let s1 := indRefused s
    let s2 := if s.sys.lock.getLsbD 7 || (s.sys.lock.getLsbD 8 && indCovered a) then ignoreWrite q 0x0044 2 s1 else s1
    onShadow q Shadow.advance s2

/-- The mailbox slot empties and its packet area reads 0 (R413). -/
def emptyMbox (p : Nat) (s : State) : State := s.setPart p { s.part p with mbox := CmdSlot.init, area := [] }

/-- A write to the packet area (R413): ignored while PENDING; a READY reply is discarded first. -/
def packetWrite (p o : Nat) (w : Word) (s : State) : State :=
  match (s.part p).mbox.state with
  | .pending => s
  | st =>
    let s1 := if st = .ready then emptyMbox p s else s
    s1.setPart p { s1.part p with area := Store.putAll 0 (s1.part p).area o (le32 w) }

/-- CMD_ACK[0], [4] and [5] (R413, R422). -/
def ackReply (p : Nat) (s : State) : State := if (s.part p).mbox.state = .ready then emptyMbox p s else s
def ackRing (p : Nat) (s : State) : State := s.setPart p { s.part p with ringEvent := false }
def ackAlarm (p : Nat) (s : State) : State := s.setPart p { s.part p with alarmEvent := false }

def ackWrite (p : Nat) (w : Word) (s : State) : State :=
  let s1 := if w.getLsbD 0 then ackReply p s else s
  let s2 := if w.getLsbD 4 then ackRing p s1 else s1
  if w.getLsbD 5 then ackAlarm p s2 else s2

/-- A write to a partition's own mailbox (R412, R413, R422). -/
def mboxWrite (p o : Nat) (w : Word) (s : State) : State :=
  if o < 0xFE0 then packetWrite p o w s
  else match o with
    | 0xFE0 => doorbell p s
    | 0xFE8 => ackWrite p w s
    | 0xFFC => s.setPart p { s.part p with irqEn := w.setWidth 6 }
    | _ => s

/-- A write to Lookout from the supervisor (R468). -/
def lktWrite (a : Nat) (w : Word) (s : State) : State :=
  match a with
  | 0x0410 => supKick s
  | 0x0414 => claimRecord (w.toNat % 8) 4 s
  | 0x0418 => supClear (w.toNat % 8) s
  | _ => s

/-- A write to a DMA channel's block from its owner: its counters load (R227, R228), the rest as R226. -/
def dmaWrite (a : Nat) (w : Word) (s : State) : State :=
  let n := (a - 0x0800) / 0x40
  let c := s.dmaCh n
  match (a - 0x0800) % 0x40 with
  | 0x04 => s.setDmaCh n { c with reqDrop := (w >>> 16).setWidth 8, evtOvr := (w >>> 24).setWidth 8 }
  | 0x38 => s.setDmaCh n { c with doneCnt := w }
  | _ => dmaChWrite a w s

/-- Writes to the counters of Polestar and the fabric (R55, R71, R88). -/
def clockWrite (a : Nat) (w : Word) (s : State) : State :=
  let p := s.pst
  let f := s.fab
  match a with
  | 0x503C => { s with pst := { p with switchCnt := w } }
  | 0x5040 => { s with pst := { p with holdoverCnt := w } }
  | 0x5418 => { s with fab := { f with missCnt := w } }
  | 0x541C => { s with fab := { f with skipCnt := w } }
  | 0x5420 => { s with fab := { f with lateCnt := w } }
  | 0x5434 => { s with fab := { f with writes := w } }
  | 0x5438 => { s with fab := { f with emergCnt := w } }
  | _ => if 0x5480 ≤ a ∧ a < 0x5500 then { s with fab := { f with hist := Store.put 0 f.hist ((a - 0x5480) / 4) w } } else s

/-- Writes to the counters of Ridge, DMA, memory and Col (R121, R229). -/
def ridgeWrite (a : Nat) (w : Word) (s : State) : State :=
  let r := s.rdg
  let c := s.col
  match a with
  | 0x5514 => { s with rdg := { r with commitCnt := w } }
  | 0x5518 => { s with rdg := { r with rejectCnt := w } }
  | 0x5524 => { s with rdg := { r with gainTimeoutCnt := w } }
  | 0x5528 => { s with rdg := { r with gainDropCnt := w } }
  | 0x558C => { s with dma := { s.dma with busErrCnt := w } }
  | 0x55A4 => { s with col := { c with corrCnt := w } }
  | 0x55A8 => { s with col := { c with dbeCnt := w } }
  | 0x55B4 => { s with col := { c with ddrCorr := w } }
  | 0x55B8 => { s with col := { c with ddrDbe := w } }
  | 0x55D0 => { s with col := { c with errCnt := w } }
  | 0x55D4 => { s with col := { c with timeoutCnt := w } }
  | _ => s

/-- Writes to the counters of Cairn and Meridian (R156, R197). -/
def engineWrite (a : Nat) (w : Word) (s : State) : State :=
  let m := s.mtx
  match a with
  | 0x5730 => { s with mtx := { m with satCnt := w } }
  | 0x5738 => { s with mtx := { m with zcCnt := w } }
  | 0x573C => { s with mtx := { m with replaceCnt := w } }
  | 0x5740 => { s with mtx := { m with stageDrop := w } }
  | 0x5744 => { s with mtx := { m with eccCorr := w } }
  | 0x5748 => { s with mtx := { m with eccDbe := w } }
  | _ =>
    if 0x5640 ≤ a ∧ a < 0x56A0 then
      let n := (a - 0x5640) / 4
      s.setEngine n { s.engine n with trapCnt := w }
    else if 0x56A0 ≤ a ∧ a < 0x5700 then
      let n := (a - 0x56A0) / 4
      s.setEngine n { s.engine n with satCnt := w }
    else s

/-- Load one half of a 64-bit counter (R437). -/
def loadHi (x : Long) (w : Word) : Long := (w.setWidth 64 <<< 32) ||| (x &&& 0xFFFF_FFFF#64)
def loadBoth (hi lo : Word) : Long := (hi.setWidth 64 <<< 32) ||| lo.setWidth 64

/-- A write to a network port's block (R312): a 64-bit counter's _LO word is staged, its _HI word loads (R437). -/
def netPortWrite (q : Requester) (a : Nat) (w : Word) (s : State) : State :=
  let n := (a - 0x5C00) / 0x80
  let p := s.netPort n
  let x := s.shadow q.ix
  let wide (old : Long) : Long := if x.stagedAddr = some (a - 4) then loadBoth w x.stagedLo else loadHi old w
  let stage (t : State) : State := onShadow q (fun y => { y with stagedAddr := some a, stagedLo := w }) t
  let unstage (t : State) : State := onShadow q (fun y => { y with stagedAddr := none }) t
  match (a - 0x5C00) % 0x80 with
  | 0x04 => s.setNetPort n { p with rxFrames := w }
  | 0x08 => stage s
  | 0x0C => unstage (s.setNetPort n { p with rxBytes := wide p.rxBytes })
  | 0x10 => s.setNetPort n { p with txFrames := w }
  | 0x14 => stage s
  | 0x18 => unstage (s.setNetPort n { p with txBytes := wide p.txBytes })
  | 0x1C => s.setNetPort n { p with
      errFcs := w.setWidth 8, errRunt := (w >>> 8).setWidth 8, errOver := (w >>> 16).setWidth 8
      errVlan := (w >>> 24).setWidth 8 }
  | 0x20 => s.setNetPort n { p with rxPause := w }
  | 0x24 => s.setNetPort n { p with txPause := w }
  | 0x28 => s.setNetPort n { p with wdogCnt := w }
  | 0x2C => s.setNetPort n { p with expDrop := w }
  | 0x30 => s.setNetPort n { p with preDrop := w }
  | 0x34 => s.setNetPort n { p with fragCnt := w }
  | 0x38 => s.setNetPort n { p with swCrc := w }
  | 0x3C => s.setNetPort n { p with linkDownCnt := w }
  | _ => s

/-- A write to a ring's block from its owner: its counters load, its doorbell acts, the rest as R310. -/
def ringBlockWrite (tx : Bool) (r o : Nat) (w : Word) (s : State) : State :=
  let x := if tx then s.txRing r else s.rxRing r
  let keep (y : Ring) : State := if tx then s.setTxRing r y else s.setRxRing r y
  match o with
  | 0x0C => if w.getLsbD 0 then ringDoorbell tx r s else s
  | 0x14 => keep { x with frames := w }
  | 0x18 => keep { x with discard := w }
  | 0x1C => if tx then s else keep { x with qdrop := w }
  | _ => ringWrite tx r o w s

/-- A write to the switch, a ring or a port (R309 to R312). -/
def netWrite (q : Requester) (a : Nat) (w : Word) (s : State) : State :=
  if a = 0x5804 then { s with net := { s.net with learnDrop := w } }
  else if 0x5900 ≤ a ∧ a < 0x5A00 then ringBlockWrite false ((a - 0x5900) / 0x20) (a % 0x20) w s
  else if 0x5A00 ≤ a ∧ a < 0x5B00 then ringBlockWrite true ((a - 0x5A00) / 0x20) (a % 0x20) w s
  else if 0x5C00 ≤ a ∧ a < 0x5E00 then netPortWrite q a w s
  else s

/-- Writes to the counters of the PTP block (R334). -/
def ptpWrite (a : Nat) (w : Word) (s : State) : State :=
  if a < 0x5F00 then
    let i := (a - 0x5E00) / 0x80
    let x := s.inst i
    match (a - 0x5E00) % 0x80 with
    | 0x18 => s.setInst i { x with syncCnt := w }
    | 0x1C => s.setInst i { x with syncLostCnt := w }
    | 0x20 => s.setInst i { x with drespCnt := w }
    | 0x24 => s.setInst i { x with outlierCnt := w }
    | 0x28 => s.setInst i { x with gmCnt := w }
    | 0x2C => s.setInst i { x with jumpCnt := w }
    | _ => s
  else if a < 0x5F40 then
    let n := (a - 0x5F00) / 0x10
    if a % 0x10 = 0 then s.setNetPort n { s.netPort n with tcCnt := w } else s
  else if a < 0x5FC0 then
    let n := (a - 0x5F40) / 0x10
    if a % 0x10 = 0xC then s.setAlarm n { s.alarm n with missed := w } else s
  else s

/-- A write to TW_CTRL (R495, R502): ABORT, then GO. -/
def twCtrlWrite (n : Nat) (w : Word) (s : State) : State :=
  let s1 := if w.getLsbD 1 then twAbort n s else s
  if w.getLsbD 0 then twGo n s1 else s1

/-- A write to a two-wire controller or to the target port (R506 to R508). -/
def twWrite (a : Nat) (w : Word) (s : State) : State :=
  if a < 0x6300 then
    let n := (a - 0x6000) / 0xC0
    let o := (a - 0x6000) % 0xC0
    if o = 0x08 then twCtrlWrite n w s else twCtlWrite n o w s
  else if a = 0x6304 then (if w.getLsbD 0 then twtAlert s else s)
  else twtRegWrite (a - 0x6300) w s

/-- Writes to the power stage's counters (R282). -/
def pwsWrite (a : Nat) (w : Word) (s : State) : State :=
  if a < 0x6500 then s
  else
    let n := (a - 0x6500) / 0x10
    match a % 0x10 with
    | 0x8 => s.setPwsCh n { s.pwsCh n with limitShutCnt := w }
    | 0xC => s.setPwsCh n { s.pwsCh n with clipCnt := w }
    | _ => s

/-- Writes to STM_SEL and to a tap's counter (R366, R367). -/
def stmWrite (a : Nat) (w : Word) (s : State) : State :=
  if a = 0x6604 then stmSelWrite w s
  else if 0x6700 ≤ a ∧ a % 0x10 = 0xC then
    let n := (a - 0x6700) / 0x10
    s.setTap n { s.tap n with doneCnt := w }
  else s

/-- Writes to the counters of the pair (R400, R401). -/
def redWrite (a : Nat) (w : Word) (s : State) : State :=
  let r := s.red
  let n := r.nrl
  match a with
  | 0x6810 => { s with red := { r with mismatch := w } }
  | 0x6814 => { s with red := { r with withheld := w } }
  | 0x6818 => { s with red := { r with unverified := w } }
  | 0x681C => { s with red := { r with failover := w } }
  | 0x6824 => { s with red := { r with stateDiff := w } }
  | 0x6884 => { s with red := { r with nrl := { n with crcErr := w } } }
  | 0x6888 => { s with red := { r with nrl := { n with waveMiss := w } } }
  | 0x688C => { s with red := { r with nrl := { n with retx := w } } }
  | 0x6890 => { s with red := { r with nrl := { n with hbBad := w } } }
  | 0x689C => { s with red := { r with nrl := { n with joinRestart := w } } }
  | _ => s

/-- Writes to the counters of the TDM block (R256, R257). -/
def tdmWrite (a : Nat) (w : Word) (s : State) : State :=
  if a < 0x7C00 then
    let n := (a - 0x7800) / 0x10
    if a % 0x10 = 0xC then
      s.setPort n { s.port n with
        frameErr := w.setWidth 8, phaseErr := (w >>> 8).setWidth 8, parErr := (w >>> 16).setWidth 8
        syncLost := (w >>> 24).setWidth 8 }
    else s
  else
    let g := (a - 0x7C00) / 0x10
    match a % 0x10 with
    | 0x8 => s.setGroup g { s.group g with unlockCnt := w }
    | 0xC => s.setGroup g { s.group g with zcCnt := w }
    | _ => s

/-- What an accepted write does (R7): RW fields take the value, CNT fields load it, WO and SC fields act, RO and CC fields
ignore it. -/
def regStore (q : Requester) (a : Nat) (w : Word) (s : State) : State :=
  if a < 0x0400 then (if a = 0x0044 then indDataWrite q w s else sysWrite q a w s)
  else if a < 0x0800 then lktWrite a w s
  else if a < 0x1000 then dmaWrite a w s
  else if a < 0x5000 then mboxWrite ((a - 0x1000) / 0x1000) (a % 0x1000) w s
  else if a < 0x5500 then clockWrite a w s
  else if a < 0x5600 then ridgeWrite a w s
  else if a < 0x5800 then engineWrite a w s
  else if a < 0x5E00 then netWrite q a w s
  else if a < 0x6000 then ptpWrite a w s
  else if a < 0x6400 then twWrite a w s
  else if a < 0x6600 then pwsWrite a w s
  else if a < 0x6800 then stmWrite a w s
  else if a < 0x6900 then redWrite a w s
  else if a = 0x7014 then noteEval s (secSetBits w s)
  else if a < 0x7800 then s
  else tdmWrite a w s

/-- A ring base, which NET_SET_RING stores too, so that it is covered configuration (R444). -/
def isRingBase (a : Nat) : Bool := decide (0x5900 ≤ a ∧ a < 0x5B00 ∧ a % 0x20 ≤ 4)

/-- A lock bit covers the register write (R442): FREEZE covers CFG_CRC_CTRL and the ring bases; SYS_IND_DATA has its own rule
(R450). -/
def regLocked (s : State) (a : Nat) : Bool := s.sys.lock.getLsbD 8 && (a == 0x0020 || isRingBase a)

/-- One write of the direct window by a requester that reaches it; `whole` is false for part of a word (R431, R433). -/
def writeReg (q : Requester) (a : Nat) (w : Word) (whole : Bool) (s : State) : State :=
  if !isReg a then s
  else if !regAllowed s q a then ignoreWrite q a 0 s
  else if !whole then ignoreWrite q a 1 s
  else if regLocked s a then ignoreWrite q a 2 s
  else if isRingBase a then configDirty (regStore q a w s)
  else regStore q a w s

/-- A write by a requester, which does nothing where the requester does not reach the window (R415, R542). -/
def busWrite (q : Requester) (a : Nat) (w : Word) (whole : Bool) (s : State) : State :=
  if !present s q then s else writeReg q (a / 4 * 4 % 0x1_0000) w whole s

/-- The words read by an SPI read frame (R415). -/
def spiReads (q : Requester) : Nat → Nat → State → State × List Word
  | 0, _, s => (s, [])
  | n + 1, a, s =>
    let (t, w) := if present s q then readReg q (a % 0x1_0000) s else (s, 0)
    let (u, ws) := spiReads q n (a + 4) t
    (u, w :: ws)

/-- The words written by an SPI write frame; the bytes of a part word at its end are discarded (R415). -/
def spiWrites (q : Requester) : Nat → Nat → List Byte → State → State
  | 0, _, _, s => s
  | n + 1, a, bs, s => spiWrites q n (a + 4) (bs.drop 4) (busWrite q a (BitVec.ofNat 32 (leAt bs 0 4)) true s)

/-- SPI_FRAME (R415): the bytes that the host clocks from the fall of chip select to its rise. -/
def spiFrame (bs : List Byte) (s : State) : State :=
  let q : Requester := .spi (Fin.ofNat 4 (leAt bs 1 1))
  let a := beNat ((bs.drop 2).take 2) / 4 * 4
  if leAt bs 0 1 = 0x0B then
    let (t, ws) := spiReads q ((bs.length - 5 + 3) / 4) a s
    onShadow q (fun x => { x with rdata := ws }) t
  else if leAt bs 0 1 = 0x02 then spiWrites q ((bs.length - 4) / 4) a (bs.drop 4) s
  else s

/-- A clean pass ends with a result (R445 to R447): it loads the reference, or is compared with it. -/
def crcClean (r : Word) (s : State) : State :=
  let y := { s.sys with crcLast := r, crcPassCnt := s.sys.crcPassCnt + 1 }
  if y.crcWait && !y.crcWaitLate then
    { s with sys := { y with crcRef := r, crcRefValid := true, crcWait := false, crcDiffered := false, crcMismatch := false } }
  else if y.crcRefValid && !y.crcWait then
    if r = y.crcRef then { s with sys := { y with crcDiffered := false, crcMismatch := false } }
    else
      let z := { y with crcMismatchCnt := y.crcMismatchCnt + 1, crcDiffered := true }
      if y.crcDiffered && !y.crcMismatch then reportOwn 0x008 { s with sys := { z with crcMismatch := true } }
      else { s with sys := z }
  else { s with sys := y }

/-- CFG_CRC_PASS (R445 to R447): a dirty pass is discarded; the next pass begins, so a waiting commit may take it. -/
def crcPass (r : Word) (s : State) : State :=
  if !s.sys.crcEnable then s
  else
    let t := if s.sys.crcDirty then s else crcClean r s
    { t with sys := { t.sys with crcDirty := false, crcWaitLate := false } }

/-- A function reaches Tarn and DRAM in the host-visible regions of its partition alone (R208, R414). -/
def bar2Denied (p : Nat) (a n : Nat) (s : State) : Bool :=
  decide (targetOf s a ≤ 16) && !inHostRegion s p a n

/-- A read of a Col address by a function (R199, R206 to R208, R414): all ones stand for Completer Abort. -/
def bar2Read (p : Fin 4) (a n : Nat) (s : State) : State × List Byte :=
  if targetOf s a = 17 then
    let (t, w) := readReg (.pf p) ((a - 0x4000_0000) / 4 * 4) s
    (t, le32 w)
  else
    let (t, r) := if bar2Denied p.val a n s then (colError 31 11 2 false a s, none) else colRead 11 a n s
    (t, r.getD (List.replicate n 0xFF))

/-- The words of a byte list, the last one padded with ones. -/
def busWords : Nat → List Byte → List Word
  | 0, _ => []
  | n + 1, bs => BitVec.ofNat 32 (leNat ((bs.take 4 ++ List.replicate 4 0xFF).take 4)) :: busWords n (bs.drop 4)

/-- A write of a Col address by a function (R206 to R208, R414). -/
def bar2Write (p : Fin 4) (a : Nat) (bs : List Byte) (s : State) : State :=
  if targetOf s a = 17 then
    writeReg (.pf p) ((a - 0x4000_0000) / 4 * 4) (BitVec.ofNat 32 (leAt bs 0 4)) (decide (a % 4 = 0 ∧ bs.length = 4)) s
  else if bar2Denied p.val a bs.length s then colError 31 11 2 true a s
  else (colWrite 11 a bs s).1

/-- One access through BAR2: a write of bytes, or a read of `n` bytes. -/
def bar2Access (p : Fin 4) (a n : Nat) (data : Option (List Byte)) (s : State) : State :=
  if !present s (.pf p) then s
  else match data with
    | some bs => bar2Write p a bs s
    | none =>
      let (t, bs) := bar2Read p a n s
      onShadow (.pf p) (fun x => { x with rdata := busWords ((bs.length + 3) / 4) bs }) t

end Sys2Proof.Machine
end

