-- ==== Sys2Proof/Machine/CairnRows.lean ====
section
/-! DEFINITION. The meanings of the rows of the Cairn engines (R123 to R174): an engine meets one instruction word. A
word that its slots make illegal traps, as R161 has it. -/

namespace Sys2Proof.Machine

/-- ENTRY_DISPATCH (R150, R178). -/
def execEntryDispatch (p : Fin 4) (entry : Fin 4096) (s : State) : Host.Outcome State Fault Refusal :=
  .next (whenUp s (entryDispatch p.val entry.val s))

/-- ENTRY_COMPLETION (R150). -/
def execEntryCompletion (p : Fin 4) (entry : Fin 4096) (s : State) : Host.Outcome State Fault Refusal :=
  .next (whenUp s (entryCompletion p.val entry.val s))

/-- PARAM_WRITE_WINDOW (R153, R154). -/
def execParamWriteWindow (e : Fin 24) (s : State) : Host.Outcome State Fault Refusal :=
  .next (whenUp s (paramWindow e.val s))

/-- FAR_TRANSFER_COMPLETE (R147). -/
def execFarTransferComplete (e : Fin 24) (inbound : Bool) (s : State) : Host.Outcome State Fault Refusal :=
  .next (whenUp s (farComplete e.val inbound s))

/-- MNOP (R168). -/
def execMnop (e : Fin 24) (rest : MacRest) (s : State) : Host.Outcome State Fault Refusal :=
  .next (whenUp s (issueRow e (rest.word .mnop) s))

/-- MPY (R168). -/
def execMpy (e : Fin 24) (acc : BitVec 2) (ty : BitVec 3) (sa sb : BitVec 4) (rest : MacRest) (s : State) :
    Host.Outcome State Fault Refusal :=
  .next (whenUp s (issueRow e (rest.word (.mpy acc ty sa sb)) s))

/-- MAC (R168). -/
def execMac (e : Fin 24) (acc : BitVec 2) (ty : BitVec 3) (sa sb : BitVec 4) (rest : MacRest) (s : State) :
    Host.Outcome State Fault Refusal :=
  .next (whenUp s (issueRow e (rest.word (.mac acc ty sa sb)) s))

/-- LDA (R168). -/
def execLda (e : Fin 24) (acc : BitVec 2) (ty : BitVec 3) (sa : BitVec 4) (rest : MacRest) (s : State) :
    Host.Outcome State Fault Refusal :=
  .next (whenUp s (issueRow e (rest.word (.lda acc ty sa)) s))

/-- ADDA (R168). -/
def execAdda (e : Fin 24) (acc : BitVec 2) (ty : BitVec 3) (sa : BitVec 4) (rest : MacRest) (s : State) :
    Host.Outcome State Fault Refusal :=
  .next (whenUp s (issueRow e (rest.word (.adda acc ty sa)) s))

/-- SHA (R168). -/
def execSha (e : Fin 24) (acc : BitVec 2) (sh : BitVec 4) (rest : MacRest) (s : State) :
    Host.Outcome State Fault Refusal :=
  .next (whenUp s (issueRow e (rest.word (.sha acc sh)) s))

/-- NRW (R168). -/
def execNrw (e : Fin 24) (acc : BitVec 2) (vd : BitVec 3) (sh : BitVec 4) (rest : MacRest) (s : State) :
    Host.Outcome State Fault Refusal :=
  .next (whenUp s (issueRow e (rest.word (.nrw acc vd sh)) s))

/-- DNRW (R168). -/
def execDnrw (e : Fin 24) (acc : BitVec 2) (vd : BitVec 3) (sh : BitVec 4) (rest : MacRest) (s : State) :
    Host.Outcome State Fault Refusal :=
  .next (whenUp s (issueRow e (rest.word (.dnrw acc vd sh)) s))

/-- NRWC (R168). -/
def execNrwc (e : Fin 24) (acc : BitVec 2) (vd : BitVec 3) (sh : BitVec 4) (rest : MacRest) (s : State) :
    Host.Outcome State Fault Refusal :=
  .next (whenUp s (issueRow e (rest.word (.nrwc acc vd sh)) s))

/-- NRWE (R168). -/
def execNrwe (e : Fin 24) (acc : BitVec 2) (vd : BitVec 3) (rest : MacRest) (s : State) :
    Host.Outcome State Fault Refusal :=
  .next (whenUp s (issueRow e (rest.word (.nrwe acc vd)) s))

/-- ADD (R169). -/
def execAdd (e : Fin 24) (vd : BitVec 3) (sa sb : BitVec 4) (rest : MacRest) (s : State) :
    Host.Outcome State Fault Refusal :=
  .next (whenUp s (issueRow e (rest.word (.add vd sa sb)) s))

/-- SUB (R169). -/
def execSub (e : Fin 24) (vd : BitVec 3) (sa sb : BitVec 4) (rest : MacRest) (s : State) :
    Host.Outcome State Fault Refusal :=
  .next (whenUp s (issueRow e (rest.word (.sub vd sa sb)) s))

/-- MAX (R169). -/
def execMax (e : Fin 24) (vd : BitVec 3) (sa sb : BitVec 4) (rest : MacRest) (s : State) :
    Host.Outcome State Fault Refusal :=
  .next (whenUp s (issueRow e (rest.word (.max vd sa sb)) s))

/-- MIN (R169). -/
def execMin (e : Fin 24) (vd : BitVec 3) (sa sb : BitVec 4) (rest : MacRest) (s : State) :
    Host.Outcome State Fault Refusal :=
  .next (whenUp s (issueRow e (rest.word (.min vd sa sb)) s))

/-- ABS (R169). -/
def execAbs (e : Fin 24) (vd : BitVec 3) (sa : BitVec 4) (rest : MacRest) (s : State) :
    Host.Outcome State Fault Refusal :=
  .next (whenUp s (issueRow e (rest.word (.abs vd sa)) s))

/-- NEG (R169). -/
def execNeg (e : Fin 24) (vd : BitVec 3) (sa : BitVec 4) (rest : MacRest) (s : State) :
    Host.Outcome State Fault Refusal :=
  .next (whenUp s (issueRow e (rest.word (.neg vd sa)) s))

/-- AND (R169). -/
def execAnd (e : Fin 24) (vd : BitVec 3) (sa sb : BitVec 4) (rest : MacRest) (s : State) :
    Host.Outcome State Fault Refusal :=
  .next (whenUp s (issueRow e (rest.word (.and vd sa sb)) s))

/-- OR (R169). -/
def execOr (e : Fin 24) (vd : BitVec 3) (sa sb : BitVec 4) (rest : MacRest) (s : State) :
    Host.Outcome State Fault Refusal :=
  .next (whenUp s (issueRow e (rest.word (.or vd sa sb)) s))

/-- XOR (R169). -/
def execXor (e : Fin 24) (vd : BitVec 3) (sa sb : BitVec 4) (rest : MacRest) (s : State) :
    Host.Outcome State Fault Refusal :=
  .next (whenUp s (issueRow e (rest.word (.xor vd sa sb)) s))

/-- SHL (R169). -/
def execShl (e : Fin 24) (vd : BitVec 3) (sa n : BitVec 4) (rest : MacRest) (s : State) :
    Host.Outcome State Fault Refusal :=
  .next (whenUp s (issueRow e (rest.word (.shl vd sa n)) s))

/-- SHR (R169). -/
def execShr (e : Fin 24) (vd : BitVec 3) (sa n : BitVec 4) (rest : MacRest) (s : State) :
    Host.Outcome State Fault Refusal :=
  .next (whenUp s (issueRow e (rest.word (.shr vd sa n)) s))

/-- SHV (R169). -/
def execShv (e : Fin 24) (vd : BitVec 3) (sa sb : BitVec 4) (rest : MacRest) (s : State) :
    Host.Outcome State Fault Refusal :=
  .next (whenUp s (issueRow e (rest.word (.shv vd sa sb)) s))

/-- NORM (R170). -/
def execNorm (e : Fin 24) (vd : BitVec 3) (sa : BitVec 4) (rest : MacRest) (s : State) :
    Host.Outcome State Fault Refusal :=
  .next (whenUp s (issueRow e (rest.word (.norm vd sa)) s))

/-- EXPN (R170). -/
def execExpn (e : Fin 24) (vd : BitVec 3) (sa : BitVec 4) (rest : MacRest) (s : State) :
    Host.Outcome State Fault Refusal :=
  .next (whenUp s (issueRow e (rest.word (.expn vd sa)) s))

/-- SEL (R169). -/
def execSel (e : Fin 24) (vd : BitVec 3) (sa sb : BitVec 4) (rest : MacRest) (s : State) :
    Host.Outcome State Fault Refusal :=
  .next (whenUp s (issueRow e (rest.word (.sel vd sa sb)) s))

/-- SNOP (R171). -/
def execSnop (e : Fin 24) (rest : ShortRest) (s : State) : Host.Outcome State Fault Refusal :=
  .next (whenUp s (issueRow e (rest.word .snop) s))

/-- LDV (R171). -/
def execLdv (e : Fin 24) (vd : BitVec 3) (rest : ShortRest) (s : State) : Host.Outcome State Fault Refusal :=
  .next (whenUp s (issueRow e (rest.word (.ldv vd)) s))

/-- ST (R171). -/
def execSt (e : Fin 24) (vs : BitVec 3) (lane : BitVec 2) (rest : ShortRest) (s : State) :
    Host.Outcome State Fault Refusal :=
  .next (whenUp s (issueRow e (rest.word (.st vs lane)) s))

/-- CPY (R171). -/
def execCpy (e : Fin 24) (rest : ShortRest) (s : State) : Host.Outcome State Fault Refusal :=
  .next (whenUp s (issueRow e (rest.word .cpy) s))

/-- MOVV (R171). -/
def execMovv (e : Fin 24) (vd vs : BitVec 3) (rest : ShortRest) (s : State) : Host.Outcome State Fault Refusal :=
  .next (whenUp s (issueRow e (rest.word (.movv vd vs)) s))

/-- MOVSV (R171). -/
def execMovsv (e : Fin 24) (sd vs : BitVec 3) (lane : BitVec 2) (rest : ShortRest) (s : State) :
    Host.Outcome State Fault Refusal :=
  .next (whenUp s (issueRow e (rest.word (.movsv sd vs lane)) s))

/-- BCST (R171). -/
def execBcst (e : Fin 24) (vd ss : BitVec 3) (rest : ShortRest) (s : State) : Host.Outcome State Fault Refusal :=
  .next (whenUp s (issueRow e (rest.word (.bcst vd ss)) s))

/-- WAITF (R147). -/
def execWaitf (e : Fin 24) (dirs : BitVec 2) (rest : ShortRest) (s : State) : Host.Outcome State Fault Refusal :=
  .next (whenUp s (issueRow e (rest.word (.waitf dirs)) s))

/-- LNOP (R172). -/
def execLnop (e : Fin 24) (rest : LongRest) (s : State) : Host.Outcome State Fault Refusal :=
  .next (whenUp s (issueRow e (rest.word .lnop) s))

/-- BR (R172). -/
def execBr (e : Fin 24) (cond : BitVec 4) (target : BitVec 11) (rest : LongRest) (s : State) :
    Host.Outcome State Fault Refusal :=
  .next (whenUp s (issueRow e (rest.word (.br cond target)) s))

/-- CALL (R172). -/
def execCall (e : Fin 24) (sd : BitVec 3) (target : BitVec 11) (rest : LongRest) (s : State) :
    Host.Outcome State Fault Refusal :=
  .next (whenUp s (issueRow e (rest.word (.call sd target)) s))

/-- RET (R172). -/
def execRet (e : Fin 24) (ss : BitVec 3) (rest : LongRest) (s : State) : Host.Outcome State Fault Refusal :=
  .next (whenUp s (issueRow e (rest.word (.ret ss)) s))

/-- ADDSI (R172). -/
def execAddsi (e : Fin 24) (sd ss : BitVec 3) (imm : BitVec 11) (rest : LongRest) (s : State) :
    Host.Outcome State Fault Refusal :=
  .next (whenUp s (issueRow e (rest.word (.addsi sd ss imm)) s))

/-- ALUS (R172). -/
def execAlus (e : Fin 24) (sd ss st op : BitVec 3) (rest : LongRest) (s : State) : Host.Outcome State Fault Refusal :=
  .next (whenUp s (issueRow e (rest.word (.alus sd ss st op)) s))

/-- MOVA (R172). -/
def execMova (e : Fin 24) (cls : BitVec 2) (n sx : BitVec 3) (dir : Bool) (rest : LongRest) (s : State) :
    Host.Outcome State Fault Refusal :=
  .next (whenUp s (issueRow e (rest.word (.mova cls n sx dir)) s))

/-- MOVC (R172). -/
def execMovc (e : Fin 24) (sd : BitVec 3) (src : BitVec 4) (rest : LongRest) (s : State) :
    Host.Outcome State Fault Refusal :=
  .next (whenUp s (issueRow e (rest.word (.movc sd src)) s))

/-- LDS (R172). -/
def execLds (e : Fin 24) (sd : BitVec 3) (rest : LongRest) (s : State) : Host.Outcome State Fault Refusal :=
  .next (whenUp s (issueRow e (rest.word (.lds sd)) s))

/-- STS (R172). -/
def execSts (e : Fin 24) (ss : BitVec 3) (rest : LongRest) (s : State) : Host.Outcome State Fault Refusal :=
  .next (whenUp s (issueRow e (rest.word (.sts ss)) s))

/-- MOVVS (R172). -/
def execMovvs (e : Fin 24) (vd ss : BitVec 3) (lane : BitVec 2) (rest : LongRest) (s : State) :
    Host.Outcome State Fault Refusal :=
  .next (whenUp s (issueRow e (rest.word (.movvs vd ss lane)) s))

/-- SETDW (R172). -/
def execSetdw (e : Fin 24) (b : BitVec 6) (rest : LongRest) (s : State) : Host.Outcome State Fault Refusal :=
  .next (whenUp s (issueRow e (rest.word (.setdw b)) s))

/-- LOOP (R173). -/
def execLoop (e : Fin 24) (ss : BitVec 3) (len : BitVec 11) (s : State) : Host.Outcome State Fault Refusal :=
  .next (whenUp s (issueRow e (.c (.loop ss len)) s))

/-- LOOPI (R173). -/
def execLoopi (e : Fin 24) (count : Half) (len : BitVec 11) (s : State) : Host.Outcome State Fault Refusal :=
  .next (whenUp s (issueRow e (.c (.loopi count len)) s))

/-- SETA (R173). -/
def execSeta (e : Fin 24) (cls : BitVec 2) (n : BitVec 3) (value : Half) (s : State) :
    Host.Outcome State Fault Refusal :=
  .next (whenUp s (issueRow e (.c (.seta cls n value)) s))

/-- MOVI (R173). -/
def execMovi (e : Fin 24) (sd : BitVec 3) (imm : Word) (s : State) : Host.Outcome State Fault Refusal :=
  .next (whenUp s (issueRow e (.c (.movi sd imm)) s))

/-- FAR (R145). -/
def execFar (e : Fin 24) (out toY : Bool) (pn ss : BitVec 3) (lines : Byte) (s : State) :
    Host.Outcome State Fault Refusal :=
  .next (whenUp s (issueRow e (.c (.far out toY pn ss lines)) s))

/-- SEED (R144). -/
def execSeed (e : Fin 24) (ss : BitVec 3) (s : State) : Host.Outcome State Fault Refusal :=
  .next (whenUp s (issueRow e (.c (.seed ss)) s))

/-- END (R150). -/
def execEndEntry (e : Fin 24) (s : State) : Host.Outcome State Fault Refusal := .next (whenUp s (issueRow e (.c .stop) s))

/-- CRN_SET_TRAP_ESCALATION (R157). -/
def execCrnSetTrapEscalation (q : Sender) (th : Half) (s : State) : Host.Outcome State Fault Refusal :=
  .next (whenUp s (runCommand q (bodyCrnSetTrapEscalation th) s))

/-- CRN_GET_STATUS (R157). -/
def execCrnGetStatus (q : Sender) (s : State) : Host.Outcome State Fault Refusal :=
  .next (whenUp s (runCommand q bodyCrnGetStatus s))

/-- CRN_READ_MEM (R158). -/
def execCrnReadMem (q : Sender) (engine mem : Byte) (addr count : Half) (s : State) :
    Host.Outcome State Fault Refusal :=
  .next (whenUp s (runCommand q (bodyCrnReadMem engine mem addr count) s))

/-- ILLEGAL_INSTRUCTION (R151, R159, R161). -/
def execIllegalInstruction (e : Fin 24) (word : Long) (s : State) : Host.Outcome State Fault Refusal :=
  .next (whenUp s (issueRaw e.val word s))

end Sys2Proof.Machine
end

