-- ==== Sys2Proof/Machine/ClockRows.lean ====
section
/-! DEFINITION. The meanings of the rows of Polestar (R27 to R59). -/

namespace Sys2Proof.Machine

/-- REFERENCE_VALID (R36, R37): A PTP reference must also meet its instance's conditions. -/
def execReferenceValid (ref : Fin 6) (m : RefMeas) (s : State) : Host.Outcome State Fault Refusal :=
  .next (whenUp s (if ref.val < 2 ∧ !ptpRefOk s ref.val then s else { s with pst := s.pst.refValid s.time ref.val m }))

/-- REFERENCE_QUALIFIED (R37, R40): `sec` and `ns` are the PTP time of a PTP reference that locks in ACQUIRE. -/
def execReferenceQualified (ref : Fin 6) (m : RefMeas) (sec : BitVec 48) (ns : Word) (s : State) :
    Host.Outcome State Fault Refusal :=
  .next (whenUp s (withPst (fun p => p.refQualified s.time ref.val m sec ns) s))

/-- REFERENCE_LOST (R36, R40, R59). -/
def execReferenceLost (ref : Fin 6) (present : Bool) (s : State) : Host.Outcome State Fault Refusal :=
  .next (whenUp s (withPst (fun p => p.refLost s.time ref.val present) s))

/-- ACQUIRE_WINDOW_EXPIRY (R40). -/
def execAcquireWindowExpiry (s : State) : Host.Outcome State Fault Refusal :=
  .next (whenUp s (if s.pst.state = .acquire then withPst (fun p => (p.toFreerun s.time).refreshFreq) s else s))

/-- WAIT_TO_RESTORE_EXPIRY (R41, R42). -/
def execWaitToRestoreExpiry (ref : Fin 6) (s : State) : Host.Outcome State Fault Refusal :=
  .next (whenUp s (withPst (fun p => p.wtrExpiry s.time ref.val) s))

/-- SLEW_COMPLETE (R42, R44). -/
def execSlewComplete (s : State) : Host.Outcome State Fault Refusal := .next (whenUp s (slewComplete s))

/-- HOLDOVER_SPEC_EXPIRY (R52). -/
def execHoldoverSpecExpiry (s : State) : Host.Outcome State Fault Refusal := .next (whenUp s (withPst Pst.specExpiry s))

/-- HOLDOVER_HISTORY_SECOND (R50): `mean` is the second's mean DPLL control word in ppt, signed. -/
def execHoldoverHistorySecond (mean : Long) (s : State) : Host.Outcome State Fault Refusal :=
  .next (whenUp s ({ s with pst := s.pst.historySecond s.time mean.toInt }))

/-- DISAGREE_WINDOW (R43): `ms` measures the six references. -/
def execDisagreeWindow (ms : List RefMeas) (s : State) : Host.Outcome State Fault Refusal :=
  .next (whenUp s (withPst (fun p => p.disagreeWindow ms) s))

/-- PST_PTP_NS_READ (R55). -/
def execPstPtpNsRead (q : Requester) (s : State) : Host.Outcome State Fault Refusal := .next (whenUp s (busRead q 0x500C s))

/-- CLK_GET_STATUS (R56). -/
def execClkGetStatus (q : Sender) (s : State) : Host.Outcome State Fault Refusal :=
  .next (whenUp s (runCommand q bodyClkGetStatus s))

/-- CLK_SET_RATE (R29). -/
def execClkSetRate (q : Sender) (code : Byte) (s : State) : Host.Outcome State Fault Refusal :=
  .next (whenUp s (runCommand q (bodyClkSetRate code) s))

/-- CLK_REF_CONFIG (R58). -/
def execClkRefConfig (q : Sender) (c : ClkRefConfig) (s : State) : Host.Outcome State Fault Refusal :=
  .next (whenUp s (runCommand q (bodyClkRefConfig c) s))

/-- CLK_SELECT (R39). -/
def execClkSelect (q : Sender) (c : ClkSelect) (s : State) : Host.Outcome State Fault Refusal :=
  .next (whenUp s (runCommand q (bodyClkSelect c) s))

/-- CLK_SET_TIMERS (R58). -/
def execClkSetTimers (q : Sender) (c : ClkSetTimers) (s : State) : Host.Outcome State Fault Refusal :=
  .next (whenUp s (runCommand q (bodyClkSetTimers c) s))

/-- CLK_SET_HOLDOVER (R51). -/
def execClkSetHoldover (q : Sender) (c : ClkSetHoldover) (s : State) : Host.Outcome State Fault Refusal :=
  .next (whenUp s (runCommand q (bodyClkSetHoldover c) s))

/-- CLK_SET_TRIM (R49). -/
def execClkSetTrim (q : Sender) (ppt : Long) (s : State) : Host.Outcome State Fault Refusal :=
  .next (whenUp s (runCommand q (bodyClkSetTrim ppt) s))

/-- CLK_PHASE_STEP (R48). -/
def execClkPhaseStep (q : Sender) (ns : Word) (s : State) : Host.Outcome State Fault Refusal :=
  .next (whenUp s (runCommand q (bodyClkPhaseStep ns) s))

/-- CLK_REALIGN (R46). -/
def execClkRealign (q : Sender) (c : ClkRealign) (s : State) : Host.Outcome State Fault Refusal :=
  .next (whenUp s (runCommand q (bodyClkRealign c) s))

/-- CLK_GET_REF (R56). -/
def execClkGetRef (q : Sender) (index : Byte) (s : State) : Host.Outcome State Fault Refusal :=
  .next (whenUp s (runCommand q (bodyClkGetRef index) s))

end Sys2Proof.Machine
end

