-- ==== Sys2Proof/Machine/Edge.lean ====
section
/-! DEFINITION. The steps of a wave and of a sample edge (R11, R27, R62 to R77, R110 to R112, R152, R337, R391). -/

namespace Sys2Proof.Machine

/-- Take the images of a snapshot into a bank half: programs and initial values, and the parts that they make up (R391).
The corner shown is the longest of theirs (log 53). -/
def takeImage (half : Nat) (x : State × List BankPart × Word) (bs : List Byte) : State × List BankPart × Word :=
  let (s, ps, corner) := x
  let ds := readDirectory bs
  let p := readPart bs ds
  let part := leAt bs 0x0C 1
  let c : VerifyCtx := { verifyCtx s part with live := none }
  let s1 := (programsOf bs ds).foldl (loadProgram half) s
  let s2 := (initsOf c bs ds p).foldl writeInit s1
  (s2, combine (some ps) part p, BitVec.ofNat 32 (max corner.toNat (leAt bs 0x14 4)))

def takeImages (half : Nat) (base : List BankPart) (images : List (List Byte)) (s : State) : State × List BankPart × Word :=
  images.foldl (takeImage half) (s, base, 0)

/-- The images of a snapshot are adopted at wave `k` as a commit with N = 0 (R391). -/
def adoptImages (k : Word) (snap : Snapshot) (s : State) : State :=
  if snap.images.isEmpty then s
  else
    let sh := s.rdg.shadow
    let (s1, ps, corner) := takeImages sh Bank.init.parts snap.images s
    let s2 := { s1 with rdg := { s1.rdg.setBank sh { state := .pending, parts := ps, corner := corner, rate := s.pst.rate } with
        build := none, commit := some { m := k, n := 0, part := 0 }, commitM := k } }
    let s3 := applyCommit k s2
    { s3 with rdg := { s3.rdg with generation := snap.generation } }

/-- A PENDING bank of the snapshot becomes pending here (R391). -/
def adoptPending (k : Word) (snap : Snapshot) (s : State) : State :=
  match snap.pendingBank with
  | none => s
  | some b =>
    let sh := s.rdg.shadow
    let later := decide (0 < serialDiff b.m k)
    let m := if later then b.m else k + 1
    let n := if later then b.n.toNat else 0
    let (s1, ps, corner) := takeImages sh (s.rdg.liveParts.getD Bank.init.parts) b.images (keepPrograms 4 sh s)
    { s1 with rdg := { s1.rdg.setBank sh { state := .pending, parts := ps, corner := corner, rate := s.pst.rate } with
        commit := some { m := m, n := n, part := b.part.val }, commitM := m } }

/-- A waiting change of the snapshot as Meridian holds it. -/
def snapChange (c : SnapChange) : Change :=
  let mode : MtxMode := if c.mode = 0 then .step else if c.mode = 1 then .ramp c.n.toNat else .zc
  { key := c.key, target := c.target, a := c.a, mode := mode, timeout := c.timeout, part := c.part.val, bulk := c.bulk
    slot := !(c.bulk && mode == .step)
    phase := match c.phase with
      | .ahead => .ahead
      | .watching => .watching
      | .ramping w n old => .ramping w n.toNat old }

/-- A bulk update whose entries wait in the snapshot is armed here too (R190, R391). -/
def snapArm (m : Mtx) (c : Change) : Mtx :=
  if c.bulk && c.phase == .ahead then
    let n := match m.arm c.part with
      | some x => x.count
      | none => 0
    m.setArm c.part (some { a := c.a, mode := c.mode, count := n + 1, checking := false, udp := false })
  else m

/-- The gain store and the parameter regions of the snapshot (R391). -/
def adoptGains (snap : Snapshot) (s : State) : State :=
  let cs := snap.changes.map snapChange
  let m := snap.gains.foldl (fun (m : Mtx) g => m.setGain g.1 g.2) { s.mtx with gains := [] }
  let none4 := (List.range 4).foldl (fun (m : Mtx) p => m.setArm p none) { m with changes := cs }
  let s1 := { s with mtx := cs.foldl snapArm none4 }
  snap.params.foldl (fun t x => t.setEngine x.1.val ((t.engine x.1.val).putMem 3 (x.2.1 / 4) x.2.2)) s1

/-- The adoption wave (R391): configuration, images, gains, parameters, the pending bank, then the recorded commands. -/
def adoptionEdge (k : Word) (s : State) : State :=
  match s.red.join with
  | .adopting w snap =>
    if serialDiff k w < 0 then s
    else
      let s1 := snap.config.foldl (fun t m => applyForwarded m t) s
      let s2 := adoptPending k snap (adoptGains snap (adoptImages k snap s1))
      let rs := s2.red.recorded
      let s3 := { s2 with red := { s2.red with join := .complete, recorded := [] } }
      rs.foldl (fun t m => applyForwarded m t) s3
  | _ => s

/-- Wave `k` is due: a bank is LIVE and its halt is not over, or a commit takes effect (R102, R110, R111). -/
def waveDue (k : Word) (s : State) : Bool :=
  (s.rdg.live.isSome && !haltOver s k) || (match s.rdg.commit with
    | some c => decide (0 ≤ serialDiff k c.m)
    | none => false)

/-- Ridge at a sample edge: it launches wave `k`, or the wave waits for the token of the one before it (R62, R64, R73). -/
def waveEdge (k : Word) (s : State) : State :=
  if !waveDue k s then { s with wave := { s.wave with expected := false, tokenIn := false, fresh := none, waiting := none, guarded := false } }
  else
    let s1 := { s with wave := { s.wave with expected := true, tokenIn := false, fresh := none, guarded := false } }
    if s1.wave.running.isNone then launchWave k s1 else { s1 with wave := { s1.wave with waiting := some k } }

/-- The ingress stage of period `k`: it fills the input image of wave k + 1 (R11). -/
def ingress (k : Word) (s : State) : State :=
  sharedEdge k (rxIngress (k + 1) (tdmIngress (k + 1) (edgeEntries k s)))

/-- SAMPLE_EDGE (R27): what has waited for the edge, Polestar, the pair, the adoption, the wave, a teardown, the ingress
stage and the stream contexts. -/
def sampleEdge (s : State) : State :=
  if s.pst.state = .acquire then s
  else
    let s0 := applyWaiting { s with lkt := { s.lkt with edgeLoss := false } }
    if s0.pst.state = .acquire then s0
    else
      let s1 := polestarEdge s0
      let k := s1.mcnt
      let s2 := waveEdge k (adoptionEdge k (inStepEdge (handoverEdge s1)))
      txEdge k (ingress k (teardownEdge k s2))

/-- A word of an output image. -/
def imageWord (st : Store Word) (i : Nat) : Word := Store.look 0 st i

/-- COMPLETION_TOKEN (R62, R68, R73, R346): early transmit contexts take their samples from a token that is in time. -/
def tokenReturn (slack : Word) (s : State) : State :=
  match s.wave.running with
  | none => s
  | some k =>
    let kept := (keepImage (decide (slack.toInt < 0)) s).wave.fresh
    let t := completionToken slack s
    match kept with
    | none => t
    | some st => txToken k (fun i => scale (imageWord st i) (haltFactor t k)) t

/-- A power-stage channel is bound in the live bank (R100, R260). -/
def pwsBound (s : State) (c : Nat) : Bool :=
  ((s.rdg.liveParts).getD []).any fun p => p.bindings.any fun b => b.kind == 4 && b.unit == c

/-- Every power-stage channel takes its sample; an unbound channel receives 0 (R263, the collisions of R279). -/
def pwsGuard (image : Nat → Word) (s : State) : State :=
  (List.range 16).foldl (fun t c => guardPws t c (if pwsBound t c then image (imgPws c) else 0)) s

/-- A wave whose token has not returned at its deadline (R72, R74, R76, R77). -/
def missWave (k : Word) (s : State) : State :=
  let s1 := reportOwn 0x040 { s with fab := (s.fab.countMiss s.time k).emergency s.time }
  if s1.wave.waiting.isSome then
    reportOwn 0x041 { s1 with
      fab := { s1.fab with skipCnt := s1.fab.skipCnt + 1 }, wave := { s1.wave with waiting := none } }
  else s1

/-- The guard of period `k`, when the wave was expected: its image, or the one before it again (R62, R72, R111, R152). -/
def guardWave (k : Word) (parity : List (Nat × Word)) (s : State) : State :=
  let s1 := if s.wave.tokenIn then { s with fab := { s.fab with missRun := 0 } } else missWave k s
  let good := s1.wave.fresh.getD s1.wave.lastGood
  let f := haltFactor s1 k
  let image (i : Nat) : Word := scale (imageWord good i) f
  let s2 := tdmGuard (s1.wave.fresh.map fun _ => image) parity s1
  let s3 := txGuard k image (pwsGuard image s2)
  { s3 with wave := { s3.wave with lastGood := good, fresh := none, expected := false, tokenIn := false } }

/-- OUTPUT_GUARD (R62): at D of the present period the samples go to the outputs; with no wave they are zero (R102).
`parity` gives the slots whose FIFO parity check fails (R245). -/
def outputGuard (parity : List (Nat × Word)) (s : State) : State :=
  if s.pst.state = .acquire ∨ s.wave.guarded then s
  else
    let s1 := { s with wave := { s.wave with guarded := true } }
    if s.wave.expected then guardWave s.mcnt parity s1
    else txGuard s.mcnt (fun _ => 0) (pwsGuard (fun _ => 0) (tdmGuard (some fun _ => 0) parity s1))

/-- MISS_BURST, FABRIC_STALL and TRAP_STALL (R76, R152): the counts have reached their thresholds. -/
def missBurst (s : State) : State := if s.fab.missBurst s.time then reportOwn 0x042 s else s
def fabricStall (s : State) : State := if s.fab.stallTh ≤ s.fab.missRun.toNat then reportOwn 0x043 s else s
def trapStall (s : State) : State := if s.crn.trapStallTh ≤ s.crn.trapRun.toNat then reportOwn 0x05F s else s

/-- CORE_UV (R79). -/
def coreUnder (s : State) : State := reportOwn 0x044 { s with fab := { s.fab with coreUv := true } }

end Sys2Proof.Machine
end

