-- ==== Sys2Proof/Machine/FabricRows.lean ====
section
/-! DEFINITION. The meanings of the rows of the self-timed fabric (R60 to R90) and the sample edge. -/

namespace Sys2Proof.Machine

/-- SAMPLE_EDGE (R27, R62, R64, R110, R183). -/
def execSampleEdge (s : State) : Host.Outcome State Fault Refusal := .next (whenUp s (sampleEdge s))

/-- COMPLETION_TOKEN (R62, R68, R73): `slack` is D − Tc in 2 ns units, signed. -/
def execCompletionToken (slack : Word) (s : State) : Host.Outcome State Fault Refusal :=
  .next (whenUp s (tokenReturn slack s))

/-- OUTPUT_GUARD (R62, R72, R245): `parity` names the ports and slots whose FIFO check fails. -/
def execOutputGuard (parity : List (Fin 64 × Word)) (s : State) : Host.Outcome State Fault Refusal :=
  .next (whenUp s (outputGuard (parity.map fun e => (e.1.val, e.2)) s))

/-- MISS_BURST (R76). -/
def execMissBurst (s : State) : Host.Outcome State Fault Refusal := .next (whenUp s (missBurst s))

/-- FABRIC_STALL (R76). -/
def execFabricStall (s : State) : Host.Outcome State Fault Refusal := .next (whenUp s (fabricStall s))

/-- TRAP_STALL (R152). -/
def execTrapStall (s : State) : Host.Outcome State Fault Refusal := .next (whenUp s (trapStall s))

/-- GOVERNOR_UPDATE (R81, R90). -/
def execGovernorUpdate (s : State) : Host.Outcome State Fault Refusal :=
  .next (whenUp s ({ s with fab := s.fab.update s.time s.fs }))

/-- GOVERNOR_POLL (R82, R84): The read succeeds or not; `mv` is READ_VOUT in mV. -/
def execGovernorPoll (ok : Bool) (mv : Half) (s : State) : Host.Outcome State Fault Refusal :=
  .next (whenUp s (governorPoll ok mv s))

/-- GOVERNOR_WRITE_DONE (R83, R85): `data` is what a read returned. -/
def execGovernorWriteDone (ok : Bool) (data : Half) (s : State) : Host.Outcome State Fault Refusal :=
  .next (whenUp s (governorDone ok data s))

/-- CORE_UV (R79). -/
def execCoreUv (s : State) : Host.Outcome State Fault Refusal := .next (whenUp s (coreUnder s))

/-- HIST_LATCH_READ (R71). -/
def execHistLatchRead (q : Requester) (s : State) : Host.Outcome State Fault Refusal :=
  .next (whenUp s (busRead q 0x5480 s))

/-- FAB_SET_GOVERNOR (R90). -/
def execFabSetGovernor (q : Sender) (c : FabSetGovernor) (s : State) : Host.Outcome State Fault Refusal :=
  .next (whenUp s (runCommand q (bodyFabSetGovernor c) s))

/-- FAB_SET_ESCALATION (R76). -/
def execFabSetEscalation (q : Sender) (burst stall : Half) (s : State) : Host.Outcome State Fault Refusal :=
  .next (whenUp s (runCommand q (bodyFabSetEscalation burst stall) s))

/-- FAB_SET_TELEMETRY (R70). -/
def execFabSetTelemetry (q : Sender) (n : Byte) (w : Half) (s : State) : Host.Outcome State Fault Refusal :=
  .next (whenUp s (runCommand q (bodyFabSetTelemetry n w) s))

/-- FAB_CLEAR_TELEMETRY (R89). -/
def execFabClearTelemetry (q : Sender) (s : State) : Host.Outcome State Fault Refusal :=
  .next (whenUp s (runCommand q bodyFabClearTelemetry s))

end Sys2Proof.Machine
end

