-- ==== Sys2Proof/Machine/GraphRows.lean ====
section
/-! DEFINITION. The meanings of the rows of Ridge and the graph (R91 to R122). -/

namespace Sys2Proof.Machine

/-- GRAPH_LOAD_CHUNK (R122). -/
def execGraphLoadChunk (q : Sender) (c : GraphChunk) (s : State) : Host.Outcome State Fault Refusal :=
  .next (whenUp s (runCommand q (bodyGraphLoadChunk c) s))

/-- GRAPH_VERIFY (R103). -/
def execGraphVerify (q : Sender) (length : Word) (s : State) : Host.Outcome State Fault Refusal :=
  .next (whenUp s (runCommand q (bodyGraphVerify length) s))

/-- BANK_BUILD_COMPLETE (R101, R103). -/
def execBankBuildComplete (s : State) : Host.Outcome State Fault Refusal := .next (whenUp s (buildComplete s))

/-- RESERVATION_EXPIRY (R101). -/
def execReservationExpiry (s : State) : Host.Outcome State Fault Refusal := .next (whenUp s (reservationExpiry s))

/-- GRAPH_COMMIT (R109). -/
def execGraphCommit (q : Sender) (c : GraphWave) (s : State) : Host.Outcome State Fault Refusal :=
  .next (whenUp s (runCommand q (bodyGraphCommit c) s))

/-- GRAPH_CANCEL (R110). -/
def execGraphCancel (q : Sender) (s : State) : Host.Outcome State Fault Refusal :=
  .next (whenUp s (runCommand q bodyGraphCancel s))

/-- GRAPH_STATUS (R122). -/
def execGraphStatus (q : Sender) (s : State) : Host.Outcome State Fault Refusal :=
  .next (whenUp s (runCommand q bodyGraphStatus s))

/-- GRAPH_GET_LAYOUT (R122). -/
def execGraphGetLayout (q : Sender) (s : State) : Host.Outcome State Fault Refusal :=
  .next (whenUp s (runCommand q bodyGraphGetLayout s))

/-- GRAPH_SET_RESERVATION (R101). -/
def execGraphSetReservation (q : Sender) (ms : Half) (s : State) : Host.Outcome State Fault Refusal :=
  .next (whenUp s (runCommand q (bodyGraphSetReservation ms) s))

/-- GRAPH_HALT (R111). -/
def execGraphHalt (q : Sender) (c : GraphWave) (s : State) : Host.Outcome State Fault Refusal :=
  .next (whenUp s (runCommand q (bodyGraphHalt c) s))

/-- CROSSFADE_END (R112). -/
def execCrossfadeEnd (s : State) : Host.Outcome State Fault Refusal := .next (whenUp s (crossfadeEnd s))

/-- BANK_HALT_END (R111). -/
def execBankHaltEnd (s : State) : Host.Outcome State Fault Refusal := .next (whenUp s (bankHaltEnd s))

/-- NODE_SET_GAIN (R115). -/
def execNodeSetGain (q : Sender) (c : NodeSetGain) (s : State) : Host.Outcome State Fault Refusal :=
  .next (whenUp s (runCommand q (bodyNodeSetGain c) s))

/-- NODE_SET_TIMEOUT (R116). -/
def execNodeSetTimeout (q : Sender) (node ms : Half) (s : State) : Host.Outcome State Fault Refusal :=
  .next (whenUp s (runCommand q (bodyNodeSetTimeout node ms) s))

/-- GAIN_ZC_TIMEOUT (R116, R154): `cell` is the gain cell's byte address in C memory. -/
def execGainZcTimeout (e : Fin 24) (cell : Half) (s : State) : Host.Outcome State Fault Refusal :=
  .next (whenUp s (gainTimeout e.val cell.toNat s))

end Sys2Proof.Machine
end

