-- ==== Sys2Proof/Machine/Reset.lean ====
section
/-! DEFINITION. The reset domains and the ways into and out of a reset (R512 to R515, R520, R521, R523, R526, R541). -/

namespace Sys2Proof.Machine

/-- An erase that a reset interrupts leaves its copy or slot without its contents and its seal (R430, R526; log 54). -/
def abandonJob (s : State) (j : Job) : State :=
  match j with
  | .fwErase c => flashErase (copyBase c) slotBytes s
  | .profileErase n => (profileEraseEnd n s).1
  | _ => s

/-- A new session for every partition, unlike the one it replaces (R408, R523). -/
def newSessions (s : State) : State :=
  let (ws, s1) := drawN s 4
  { s1 with cmds := (s.cmds.zip ws).map fun x => PartCmd.init (pickSession x.1.session x.2) }

/-- The LKT, SYS and CORE01 domains enter reset (R512, R523): the keep-alive domain, the fuses, the flash and the pins
stay, and so does the fuse shadow. -/
def resetDomains (s : State) : State :=
  let s1 := newSessions ((runningJobs s).foldl abandonJob s)
  { State.reset with
    cmds := s1.cmds, sec := { Sec.init with otp := s1.sec.otp }, flash := s1.flash
    sys := { Sys.init with grade := s1.sys.grade }
    boot := { Boot.init with otpSensed := s1.boot.otpSensed }
    ka := { s1.ka with reassert := s1.ka.deepOff && s1.ka.reassert }
    pins := s1.pins, fresh := s1.fresh, pending := s1.pending }

/-- The fuse shadow is gone: the next boot senses the OTP (R513, R516). -/
def dropShadow (s : State) : State := { s with boot := { s.boot with otpSensed := false } }

/-- A boot begins: PROFILE_SEL is sampled, and KA_STAT notes the kind of start (R515, R524). -/
def beginBoot (kind : Nat) (sel : BitVec 3) (s : State) : State :=
  { s with
    pins := { s.pins with profileSel := sel, profileSampled := sel }
    ka := { s.ka with lastStart := if s.ka.vkaNew then 0 else kind, vkaNew := false } }

/-- No pin holds the domains in reset. -/
def pinsReleased (p : Pins) : Bool := p.porstN && p.sysrstN && !p.testEn

/-- PORST_ASSERT (R513, R526): the TAP is reset with the rest (the text after the pin table). -/
def porstAssert (s : State) : State :=
  let s1 := { s with pins := { s.pins with porstN := false, boundary := false } }
  if s.ka.deepOff then s1 else dropShadow (resetDomains s1)

/-- PORST_RELEASE (R515, R516, R521, R532): the bank senses are taken; deep-off ends only at a rise that comes at least
1 ms after PWR_EN rose, which `settled` tells. -/
def porstRelease (sel : BitVec 3) (iox : BitVec 9) (settled : Bool) (s : State) : State :=
  if s.pins.porstN then s
  else
    let s1 := { s with pins := { s.pins with porstN := true, ioxSense := iox } }
    if s.ka.deepOff then
      if s.ka.pwrEn && settled && pinsReleased s1.pins then
        beginBoot 2 sel { s1 with ka := { s1.ka with deepOff := false, reassert := false } }
      else s1
    else if pinsReleased s1.pins then beginBoot 1 sel s1
    else s1

/-- SYSRST_ASSERT (R513). -/
def sysrstAssert (s : State) : State :=
  let s1 := { s with pins := { s.pins with sysrstN := false } }
  if s.ka.deepOff then s1 else resetDomains s1

/-- SYSRST_RELEASE (R513, R515): the boot skips the OTP sense while the fuse shadow of the last PORST_N boot is there. -/
def sysrstRelease (sel : BitVec 3) (s : State) : State :=
  if s.pins.sysrstN then s
  else
    let s1 := { s with pins := { s.pins with sysrstN := true } }
    if s.ka.deepOff || !pinsReleased s1.pins then s1 else beginBoot 3 sel s1

/-- TEST_EN (R541): high holds the domains as PORST_N does. -/
def testEnable (high : Bool) (sel : BitVec 3) (s : State) : State :=
  let s1 := { s with pins := { s.pins with testEn := high } }
  if s.ka.deepOff then s1
  else if high then dropShadow (resetDomains s1)
  else if s.pins.testEn && pinsReleased s1.pins then beginBoot 1 sel s1
  else s1

/-- PCIE_PERST (R542): the endpoint alone. -/
def pciePerst (high : Bool) (s : State) : State := { s with pins := { s.pins with perstN := high } }

/-- VKA_POWER_ON (R510, R523): the keep-alive domain is reset; PORST_N is low while the rails rise. -/
def vkaPowerOn (s : State) : State :=
  let s1 := { s with pins := { s.pins with porstN := false, boundary := false }, ka := { s.ka with deepOff := false } }
  let s2 := dropShadow (resetDomains s1)
  { s2 with ka := { Ka.init with vkaNew := true } }

/-- TEARDOWN_RESET (R428, R520, R521): 5 ms after instant 0 of the teardown the domains enter reset; a load and a restart
boot from an internal release, a deep-off drops PWR_EN. -/
def teardownReset (sel : BitVec 3) (s : State) : State :=
  match s.boot.teardown with
  | none => s
  | some .deepOff =>
    let s1 := dropShadow (resetDomains { s with ka := { s.ka with deepOff := true, pwrEn := false } })
    { s1 with ka := { s1.ka with reassert := s.ka.reassert || !s.pins.wakeN } }
  | some _ => beginBoot 3 sel (resetDomains s)

/-- WAKE (R521): WAKE_N has been low for 1 ms, or is high again. -/
def wake (low : Bool) (s : State) : State :=
  let s1 := { s with pins := { s.pins with wakeN := !low } }
  let k := s.ka
  if !low then s1
  else if k.deepOff && !k.pwrEn && !k.reassert then { s1 with ka := { k with pwrEn := true, wakeCnt := k.wakeCnt + 1 } }
  else if s.boot.teardown = some .deepOff then { s1 with ka := { k with reassert := true } }
  else s1

/-- PWR_EN_REASSERT (R521). -/
def pwrReassert (s : State) : State :=
  if s.ka.deepOff && s.ka.reassert then
    { s with ka := { s.ka with pwrEn := true, reassert := false, wakeCnt := s.ka.wakeCnt + 1 } }
  else s

end Sys2Proof.Machine
end

