-- ==== Sys2Proof/Machine/Boot.lean ====
section
/-! DEFINITION. The boot (R426, R427, R477, R478, R514, R516 to R518, R557): its steps, the profile, its command section. -/

namespace Sys2Proof.Machine

/-- BOOT_OTP_SENSED (R516). -/
def otpSensed (s : State) : State := { s with boot := { s.boot with otpSensed := true } }

/-- TARN_ZERO_FILL_DONE (R516, R523). -/
def tarnFilled (s : State) : State :=
  if s.boot.otpSensed && !s.boot.tarnFilled then
    { s with mem := { s.mem with tarn := [], tarnBad := [] }, boot := { s.boot with tarnFilled := true } }
  else s

/-- DRAM_TRAINING_DONE (R557, R558): training completes at a rate code, or fails in some bytes. -/
def dramTraining (ok : Bool) (bytes : BitVec 4) (rate : BitVec 5) (s : State) : State :=
  if !s.boot.tarnFilled || s.boot.dramTrained || s.boot.dramFailed then s
  else if ok then { s with boot := { s.boot with dramTrained := true, dramRate := rate.toNat } }
  else { s with boot := { s.boot with dramFailed := true, dramByte := bytes } }

/-- DRAM_ECC_INIT_DONE (R516): every line not yet reached is initialised to 0, as it reads already. -/
def eccDone (s : State) : State :=
  if s.boot.dramTrained then { s with boot := { s.boot with eccDone := true } } else s

/-- DRAM_RETRAIN (R557). -/
def dramRetrain (s : State) : State :=
  if s.boot.dramTrained then { s with boot := { s.boot with retrainCnt := s.boot.retrainCnt + 1 } } else s

/-- The copy that boots (R477): the valid one with the higher VERSION, copy A when they are equal. -/
def chosenCopy (s : State) : Option (Nat × FwHead × Bool) :=
  match fwCheck s 0, fwCheck s 1 with
  | .ok a, .ok b => if a.version.toNat < b.version.toNat then some (1, b, false) else some (0, a, false)
  | .ok a, .error _ => some (0, a, false)
  | .error _, .ok b => some (1, b, true)
  | .error _, .error _ => none

/-- BOOT_FW_VERIFIED (R477, R478). -/
def fwVerified (s : State) : State :=
  if s.boot.fwRunning || s.boot.halted || !s.boot.tarnFilled then s
  else match chosenCopy s with
    | none =>
      reportOwn 0x0FB { s with boot := { s.boot with halted := true }, sec := { s.sec with bootCopy := 3 } }
    | some (c, h, fallback) =>
      let keyed := s.sec.otp.imgProg != 0
      let slot := leAt (flashRead s.flash (copyBase c + h.len) 256) 5 1
      let s1 := { s with
        boot := { s.boot with fwRunning := true }
        sys := { s.sys with fwVersion := h.version }
        sec := { s.sec with
          bootCopy := c, fwFallback := fallback, fwAuth := keyed, fwSlot := if keyed then some slot else none
          fwEvaluated := h.evaluated, fwRollback := h.rollback } }
      if fallback then reportOwn 0x0FB s1 else s1

/-- The slot that this boot takes (R427). -/
def bootSlot (s : State) : Nat :=
  if s.ka.latchValid && s.ka.latchSource then s.ka.latchSlot else s.pins.profileSampled.toNat

/-- A latch for one boot has served it (R525). -/
def Ka.served (k : Ka) : Ka := if k.latchOnce then { k with latchSource := false, latchOnce := false } else k

/-- A profile step fails (R427): everything that the profile applied goes, and partition 0 runs alone. -/
def profileFail (code index : Nat) (opcode : Half) (status : Byte) (s : State) : State :=
  let n := if s.boot.profileApplied then s.boot.slot else bootSlot s
  reportOwn 0x007 { s with
    own := { Own.init with udpDrop := s.own.udpDrop }
    pst := Pst.init, pws := Pws.init, tdm := Tdm.init, fab := Fab.init, wave := Wave.init, rdg := Rdg.init, crn := Crn.init
    mtx := Mtx.init, net := Net.init, ptp := Ptp.init, stm := Stm.init, red := Red.init
    sec := { s.sec with profileAuth := false }
    lkt := { s.lkt with
      classes := [], escTime := Lkt.init.escTime, claimTime := Lkt.init.claimTime, supWdog := Lkt.init.supWdog }
    ka := s.ka.served
    boot := { s.boot with
      profileApplied := false, profileOk := false, bootDone := false, slot := 0, profileId := 0, profileRollback := 0
      commands := [], index := 0, job := none, result := none, acquireWait := false
      failCode := code, failSlot := n, failIndex := index, failOpcode := opcode, failStatus := status } }

/-- A region of the profile lies in Tarn or in usable DRAM, and its owner is enabled (R200, R203, R426). -/
def regionOk (parts : Byte) (dram : Nat) (r : Region) : Bool :=
  decide (r.owner < 4) && parts.getLsbD r.owner
    && decide (r.base + r.size ≤ 0x0200_0000
      ∨ (dramBase ≤ r.base ∧ r.base + r.size ≤ dramBase + dram * 0x4000_0000 / 8 * 7))

/-- The ownership, regions and platform sections are well formed (R22, R187, R203, R426). -/
def bundleOk (parts : Byte) (b : Bundle) : Bool :=
  b.owners.length == 1127 && (b.owners.all fun o => decide (o.toNat < 4) && parts.getLsbD o.toNat)
    && [1, 2, 4, 8].contains b.platform.dramSize.toNat && b.regions.all (regionOk parts b.platform.dramSize.toNat)
    && b.platform.quotas.length == 4 && decide ((b.platform.quotas.map BitVec.toNat).sum ≤ 8192)

/-- The ownership, regions and platform sections are applied (R302, R426, R427). -/
def applyBundle (h : ProfHead) (b : Bundle) (s : State) : State :=
  let p := b.platform
  { s with
    own := { s.own with
      partEn := h.parts.setWidth 4, spiMask := (h.parts >>> 4).setWidth 4
      owners := Store.putAll 0 [] 0 (b.owners.map BitVec.toNat), regions := b.regions, station := p.station
      hostIp := p.hostIp, hostMask := p.hostMask, hostGateway := p.hostGateway, udpPort := p.udpPort
      dramSize := p.dramSize.toNat, regAddr := p.regAddr }
    mtx := { s.mtx with quotas := p.quotas.map BitVec.toNat }
    net := { s.net with defaultRing := match p.defaultRing with
      | some r => r.val
      | none => 1 }
    pst := { s.pst with rate := h.rate }
    sec := { s.sec with profileAuth := s.sec.otp.imgProg != 0 }
    boot := { s.boot with
      profileApplied := true, slot := bootSlot s, profileId := h.id, profileRollback := h.rollback
      commands := b.commands, index := 0, job := none, result := none, acquireWait := false, acquireWaited := false } }

/-- BOOT_PROFILE_APPLIED (R427). `b` is what the sections of the slot's profile say (log 5). -/
def profileApplied (b : Bundle) (s : State) : State :=
  if !s.boot.fwRunning || s.boot.profileApplied || s.boot.failCode ≠ 0 || s.boot.teardown.isSome then s
  else
    let n := bootSlot s
    if !isSealed s n then profileFail 1 0 0 0 s
    else match profCheck s n with
      | .error _ => profileFail 2 0 0 0 s
      | .ok h => if bundleOk h.parts b then noteEval s (applyBundle h b s) else profileFail 3 0 0 0 s

/-- The command section has run to its end (R427, R441, R446, R525). -/
def bootFinish (s : State) : State :=
  let k := s.ka
  let keeps := k.latchValid && k.latchSource && !k.latchOnce
  let latch := if keeps then k
    else { k with latchSlot := s.boot.slot, latchValid := true, latchSource := false, latchOnce := false }
  pauseCheck (crcCommit { s with ka := latch, boot := { s.boot with bootDone := true, profileOk := true } })

/-- A command of the section has its reply (R427). -/
def bootReplied (r : Reply) (c : BootCmd) (s : State) : State :=
  if r.status = .ok then
    let t := { s with boot := { s.boot with index := s.boot.index + 1, job := none, result := none } }
    if t.boot.commands.length ≤ t.boot.index then bootFinish t else t
  else profileFail 4 s.boot.index c.opcode r.status.byte s

/-- The boot ROM starts a command, as from the partition in its header (R426, R427). -/
def bootStart (c : BootCmd) (s : State) : State :=
  let p := c.part.toNat
  if 4 ≤ p ∨ !s.own.partEn.getLsbD p then bootReplied (Reply.code .authFail) c s
  else match readBody { PktHdr.init with opcode := c.opcode, payload := c.payload } with
    | .error st => bootReplied (Reply.code st) c s
    | .ok b =>
      let (t, r) := perform false p false 65536 b s
      if r.status = .pending then
        match b.job with
        | none => bootReplied (Reply.code .internal) c t
        | some j => { t with boot := { t.boot with job := some (p, j), result := none } }
      else bootReplied r c t

/-- The boot's PENDING command: its reply, once the work has come to one. -/
def bootPoll (c : BootCmd) (j : Job) (s : State) : State :=
  match s.boot.result with
  | some r => bootReplied r c s
  | none => match jobEnd j s with
    | none => s
    | some (t, r) => bootReplied r c t

/-- BOOT_COMMAND_NEXT (R427, R517): the reply of the command before, then the next command; the first one at 0x0320 or
above waits for Polestar to leave ACQUIRE. -/
def bootNext (s : State) : State :=
  if !s.boot.profileApplied || s.boot.bootDone || !s.lkt.coresRun then s
  else match s.boot.commands[s.boot.index]? with
    | none => bootFinish s
    | some c => match s.boot.job with
      | some (_, j) => bootPoll c j s
      | none =>
        if 0x0320 ≤ c.opcode.toNat ∧ !s.boot.acquireWaited ∧ s.pst.state = .acquire then
          { s with boot := { s.boot with acquireWait := true } }
        else
          bootStart c { s with boot := { s.boot with
            acquireWaited := s.boot.acquireWaited || decide (0x0320 ≤ c.opcode.toNat), acquireWait := false } }

/-- BOOT_ACQUIRE_WAIT_END (R517). -/
def acquireWaitEnd (s : State) : State :=
  if s.boot.acquireWait && s.pst.state != .acquire then bootNext s else s

/-- CORE_RESTART_COMPLETE (R514, R526): the digest agrees and the cores serve commands again, or it does not and they stay
stopped. A boot that the reset stopped has failed its profile. -/
def coreRestart (digestOk : Bool) (s : State) : State :=
  if s.lkt.coresRun then s
  else if !digestOk then reportOwn 0x005 { s with lkt := { s.lkt with core0Stop := true } }
  else
    let s1 := { s with lkt := { s.lkt with coresRun := true } }
    if s.boot.profileApplied && !s.boot.bootDone && s.boot.failCode == 4 then
      profileFail 4 s.boot.failIndex s.boot.failOpcode s.boot.failStatus s1
    else pauseCheck s1

end Sys2Proof.Machine
end

