-- ==== Sys2Proof/Machine/LookoutRows.lean ====
section
/-! DEFINITION. The meanings of the rows of Lookout (R451 to R472). -/

namespace Sys2Proof.Machine

/-- OSC_COMPARISON (R451): The edges of oscillator B and of XO_IN in 10 µs of oscillator A. -/
def execOscComparison (b xo : Half) (s : State) : Host.Outcome State Fault Refusal := .next (whenUp s (oscCompare b xo s))

/-- SAMPLE_EDGE_TIMEOUT (R451). -/
def execSampleEdgeTimeout (s : State) : Host.Outcome State Fault Refusal := .next (whenUp s (edgeTimeout s))

/-- SUP_WATCHDOG (R453). -/
def execSupWatchdog (s : State) : Host.Outcome State Fault Refusal := .next (whenUp s (supWatchdog s))

/-- LKT_SUP_KICK (R453, R468). -/
def execLktSupKick (q : Requester) (w : Word) (s : State) : Host.Outcome State Fault Refusal :=
  .next (whenUp s (busWrite q 0x0410 w true s))

/-- SUP_LOCKSTEP (R453, R458). -/
def execSupLockstep (s : State) : Host.Outcome State Fault Refusal := .next (whenUp s (reportOwn 0x002 s))

/-- SUMMIT_CORE_STOP (R453). -/
def execSummitCoreStop (core1 : Bool) (s : State) : Host.Outcome State Fault Refusal := .next (whenUp s (coreStop core1 s))

/-- SIGNAL_PATH (R454). -/
def execSignalPath (src : Byte) (s : State) : Host.Outcome State Fault Refusal := .next (whenUp s (signalPath src.toNat s))

/-- SOURCE_UNMASK (R454). -/
def execSourceUnmask (src : Byte) (s : State) : Host.Outcome State Fault Refusal :=
  .next (whenUp s (sourceUnmask src.toNat s))

/-- PAIR_PULSE_TEST (R455): `failing` names the pairs that do not invert. -/
def execPairPulseTest (failing : BitVec 256) (s : State) : Host.Outcome State Fault Refusal :=
  .next (whenUp s (pulseTest failing s))

/-- FAULT_REPORT (R456 to R462). -/
def execFaultReport (src : Byte) (unit : Half) (s : State) : Host.Outcome State Fault Refusal :=
  .next (whenUp s (faultReport src unit s))

/-- ESCALATION_EXPIRY (R462). -/
def execEscalationExpiry (rec : Fin 8) (s : State) : Host.Outcome State Fault Refusal :=
  .next (whenUp s (escalationExpiry rec.val s))

/-- CLAIM_TIME_EXPIRY (R462). -/
def execClaimTimeExpiry (rec : Fin 8) (s : State) : Host.Outcome State Fault Refusal :=
  .next (whenUp s (claimTimeExpiry rec.val s))

/-- NOTED_EXPIRY (R462). -/
def execNotedExpiry (rec : Fin 8) (s : State) : Host.Outcome State Fault Refusal := .next (whenUp s (notedExpiry rec.val s))

/-- LKT_CLAIM (R462, R468). -/
def execLktClaim (q : Requester) (rec : Fin 8) (s : State) : Host.Outcome State Fault Refusal :=
  .next (whenUp s (busWrite q 0x0414 (BitVec.ofNat 32 rec.val) true s))

/-- LKT_CLEAR (R464, R468). -/
def execLktClear (q : Requester) (rec : Fin 8) (s : State) : Host.Outcome State Fault Refusal :=
  .next (whenUp s (busWrite q 0x0418 (BitVec.ofNat 32 rec.val) true s))

/-- CORE_RESTART_COMPLETE (R514). -/
def execCoreRestartComplete (digestOk : Bool) (s : State) : Host.Outcome State Fault Refusal :=
  .next (whenUp s (coreRestart digestOk s))

/-- FLT_GET_STATUS (R470). -/
def execFltGetStatus (q : Sender) (s : State) : Host.Outcome State Fault Refusal :=
  .next (whenUp s (runCommand q bodyFltGetStatus s))

/-- FLT_CLAIM (R462). -/
def execFltClaim (q : Sender) (rec : Byte) (s : State) : Host.Outcome State Fault Refusal :=
  .next (whenUp s (runCommand q (bodyFltClaim rec) s))

/-- FLT_CLEAR (R464). -/
def execFltClear (q : Sender) (rec : Byte) (s : State) : Host.Outcome State Fault Refusal :=
  .next (whenUp s (runCommand q (bodyFltClear rec) s))

/-- FLT_SET_CLASS (R459). -/
def execFltSetClass (q : Sender) (src cls act : Byte) (s : State) : Host.Outcome State Fault Refusal :=
  .next (whenUp s (runCommand q (bodyFltSetClass src cls act) s))

/-- FLT_SET_TIMERS (R470). -/
def execFltSetTimers (q : Sender) (esc : Word) (claim : Half) (sup : Word) (s : State) :
    Host.Outcome State Fault Refusal :=
  .next (whenUp s (runCommand q (bodyFltSetTimers esc claim sup) s))

/-- FLT_GET_COUNTS (R470). -/
def execFltGetCounts (q : Sender) (first : Byte) (count : Half) (s : State) : Host.Outcome State Fault Refusal :=
  .next (whenUp s (runCommand q (bodyFltGetCounts first count) s))

/-- CORE_WATCHDOG_KICK (R453). -/
def execCoreWatchdogKick (core1 : Bool) (s : State) : Host.Outcome State Fault Refusal :=
  .next (whenUp s (coreKick core1 s))

end Sys2Proof.Machine
end

