-- ==== Sys2Proof/Machine/MatrixRows.lean ====
section
/-! DEFINITION. The meanings of the rows of the Meridian matrix (R175 to R198). -/

namespace Sys2Proof.Machine

/-- The check of a partition's arm has ended: the command has its answer (R190, R413). -/
def bulkCheckDone (p : Nat) (s : State) : State :=
  match bulkCheck p s with
  | (t, none) => t
  | (t, some (udp, r)) => giveResult p udp .bulkArm r t

/-- MTX_SET_GAINS (R185). -/
def execMtxSetGains (q : Sender) (c : MtxSetGains) (s : State) : Host.Outcome State Fault Refusal :=
  .next (whenUp s (runCommand q (bodyMtxSetGains c) s))

/-- MTX_BULK_ARM (R190). -/
def execMtxBulkArm (q : Sender) (c : MtxBulkArm) (s : State) : Host.Outcome State Fault Refusal :=
  .next (whenUp s (runCommand q (bodyMtxBulkArm c) s))

/-- BULK_ARM_CHECK_DONE (R190). -/
def execBulkArmCheckDone (p : Fin 4) (s : State) : Host.Outcome State Fault Refusal :=
  .next (whenUp s (bulkCheckDone p.val s))

/-- MTX_BULK_CANCEL (R190). -/
def execMtxBulkCancel (q : Sender) (s : State) : Host.Outcome State Fault Refusal :=
  .next (whenUp s (runCommand q bodyMtxBulkCancel s))

/-- MTX_SET_COLUMN (R198). -/
def execMtxSetColumn (q : Sender) (col ms : Half) (s : State) : Host.Outcome State Fault Refusal :=
  .next (whenUp s (runCommand q (bodyMtxSetColumn col ms) s))

/-- MTX_GET_GAINS (R198). -/
def execMtxGetGains (q : Sender) (col first count : Half) (s : State) : Host.Outcome State Fault Refusal :=
  .next (whenUp s (runCommand q (bodyMtxGetGains col first count) s))

/-- MTX_GET_STATUS (R198). -/
def execMtxGetStatus (q : Sender) (s : State) : Host.Outcome State Fault Refusal :=
  .next (whenUp s (runCommand q bodyMtxGetStatus s))

/-- MTX_SET_QUOTA (R187). -/
def execMtxSetQuota (q : Sender) (qs : List Half) (s : State) : Host.Outcome State Fault Refusal :=
  .next (whenUp s (runCommand q (bodyMtxSetQuota qs) s))

/-- MTX_ZC_TIMEOUT (R186). -/
def execMtxZcTimeout (col : Fin 512) (input : Fin 2048) (s : State) : Host.Outcome State Fault Refusal :=
  .next (whenUp s (zcExpire col.val input.val s))

/-- STAGING_WINDOW_WRITE (R189). -/
def execStagingWindowWrite (p : Fin 4) (offset : BitVec 15) (bytes : List Byte) (s : State) :
    Host.Outcome State Fault Refusal :=
  .next (whenUp s (stagingWrite p.val offset.toNat bytes s))

end Sys2Proof.Machine
end

