-- ==== Sys2Proof/Machine/MemoryRows.lean ====
section
/-! DEFINITION. The meanings of the rows of Tarn, Col and the DMA engine (R199 to R230), and the access through BAR2
(R414). -/

namespace Sys2Proof.Machine

/-- COL_PATH_TIMEOUT (R207, R210). -/
def execColPathTimeout (m : Fin 13) (t : Fin 20) (addr : ColAddr) (write : Bool) (s : State) :
    Host.Outcome State Fault Refusal :=
  .next (whenUp s (colTimeout m.val t.val addr.toNat write s))

/-- PATROL_SCRUB (R201, R202): `word` is the 32-bit word of Tarn, `err` what the scrubber meets in it. -/
def execPatrolScrub (word : BitVec 23) (err : WordErr) (s : State) : Host.Outcome State Fault Refusal :=
  .next (whenUp s (scrubWord word.toNat err s))

/-- COL_PORT_GATE (R211). -/
def execColPortGate (target : Bool) (port : Fin 20) (s : State) : Host.Outcome State Fault Refusal :=
  .next (whenUp s (gatePort target port.val s))

/-- DMA_RUN (R212, R213, R225): `ctrl` gives the other fields of the write. -/
def execDmaRun (q : Requester) (ch : Fin 32) (ctrl : Word) (s : State) : Host.Outcome State Fault Refusal :=
  .next (whenUp s (busWrite q (0x0800 + 0x40 * ch.val) ((ctrl &&& 0x0FFC#32) ||| 1) true s))

/-- DMA_STOP (R212, R225): `ctrl` gives the other fields of the write. -/
def execDmaStop (q : Requester) (ch : Fin 32) (ctrl : Word) (s : State) : Host.Outcome State Fault Refusal :=
  .next (whenUp s (busWrite q (0x0800 + 0x40 * ch.val) ((ctrl &&& 0x0FFC#32) ||| 2) true s))

/-- DMA_DESC_FETCH (R216). -/
def execDmaDescFetch (ch : Fin 32) (s : State) : Host.Outcome State Fault Refusal := .next (whenUp s (dmaFetch ch.val s))

/-- DMA_BURST (R217, R218, R222). -/
def execDmaBurst (ch : Fin 32) (s : State) : Host.Outcome State Fault Refusal := .next (whenUp s (dmaBurst ch.val s))

/-- DMA_REQUEST (R218). -/
def execDmaRequest (line : Fin 128) (s : State) : Host.Outcome State Fault Refusal :=
  .next (whenUp s (dmaRequest line.val s))

/-- DMA_TIMER_EVENT (R219). -/
def execDmaTimerEvent (ch : Fin 32) (s : State) : Host.Outcome State Fault Refusal := .next (whenUp s (dmaTimer ch.val s))

/-- DMA_MCNT_MATCH (R219). -/
def execDmaMcntMatch (ch : Fin 32) (s : State) : Host.Outcome State Fault Refusal := .next (whenUp s (dmaMatch ch.val s))

/-- DMA_COMPLETION (R216, R221). -/
def execDmaCompletion (ch : Fin 32) (s : State) : Host.Outcome State Fault Refusal :=
  .next (whenUp s (dmaComplete ch.val s))

/-- DMA_ERROR_RESPONSE (R223). -/
def execDmaErrorResponse (addr : ColAddr) (write : Bool) (s : State) : Host.Outcome State Fault Refusal :=
  .next (whenUp s (dmaError addr.toNat write s))

/-- DMA_RESUME (R223). -/
def execDmaResume (q : Sender) (s : State) : Host.Outcome State Fault Refusal :=
  .next (whenUp s (runCommand q bodyDmaResume s))

/-- MEM_SET_SCRUB (R230). -/
def execMemSetScrub (q : Sender) (period timeout : Half) (s : State) : Host.Outcome State Fault Refusal :=
  .next (whenUp s (runCommand q (bodyMemSetScrub period timeout) s))

/-- MEM_GET_STATUS (R230). -/
def execMemGetStatus (q : Sender) (s : State) : Host.Outcome State Fault Refusal :=
  .next (whenUp s (runCommand q bodyMemGetStatus s))

/-- PCIE_BAR2_ACCESS (R206 to R208, R414): A write of bytes, or a read of `n` bytes. -/
def execPcieBar2Access (p : Fin 4) (addr : ColAddr) (n : Half) (data : Option (List Byte)) (s : State) :
    Host.Outcome State Fault Refusal :=
  .next (whenUp s (bar2Access p addr.toNat n.toNat data s))

/-- DMA_REQUEST_WITHDRAWAL (R218). -/
def execDmaRequestWithdrawal (line : Fin 128) (s : State) : Host.Outcome State Fault Refusal :=
  .next (whenUp s (dmaWithdraw line.val s))

end Sys2Proof.Machine
end

