-- ==== Sys2Proof/Machine/NetRows.lean ====
section
/-! DEFINITION. The meanings of the rows of the network ports (R284 to R314). -/

namespace Sys2Proof.Machine

/-- NET_SET_PORT (R284). -/
def execNetSetPort (q : Sender) (c : NetSetPort) (s : State) : Host.Outcome State Fault Refusal :=
  .next (whenUp s (runCommand q (bodyNetSetPort c) s))

/-- NET_SET_SWITCH (R292). -/
def execNetSetSwitch (q : Sender) (c : NetSetSwitch) (s : State) : Host.Outcome State Fault Refusal :=
  .next (whenUp s (runCommand q (bodyNetSetSwitch c) s))

/-- NET_FDB_WRITE (R291). -/
def execNetFdbWrite (q : Sender) (c : NetFdbWrite) (s : State) : Host.Outcome State Fault Refusal :=
  .next (whenUp s (runCommand q (bodyNetFdbWrite c) s))

/-- NET_VLAN_WRITE (R291). -/
def execNetVlanWrite (q : Sender) (vid : Half) (members taggedPorts : Byte) (s : State) :
    Host.Outcome State Fault Refusal :=
  .next (whenUp s (runCommand q (bodyNetVlanWrite vid members taggedPorts) s))

/-- NET_SET_FILTER (R302). -/
def execNetSetFilter (q : Sender) (c : NetSetFilter) (s : State) : Host.Outcome State Fault Refusal :=
  .next (whenUp s (runCommand q (bodyNetSetFilter c) s))

/-- NET_SET_RING (R306). -/
def execNetSetRing (q : Sender) (c : NetSetRing) (s : State) : Host.Outcome State Fault Refusal :=
  .next (whenUp s (runCommand q (bodyNetSetRing c) s))

/-- NET_TEST (R313). -/
def execNetTest (q : Sender) (port mode : Byte) (s : State) : Host.Outcome State Fault Refusal :=
  .next (whenUp s (runCommand q (bodyNetTest port mode) s))

/-- NET_GET_STATUS (R313). -/
def execNetGetStatus (q : Sender) (port : Byte) (s : State) : Host.Outcome State Fault Refusal :=
  .next (whenUp s (runCommand q (bodyNetGetStatus port) s))

/-- LINK_UP (R285): `remote` says that the link partner signals a fault. -/
def execLinkUp (port : Fin 4) (remote : Bool) (s : State) : Host.Outcome State Fault Refusal :=
  .next (whenUp s (linkUp port.val remote s))

/-- LINK_LOSS (R285): A local fault, or loss of block lock. -/
def execLinkLoss (port : Fin 4) (fault : Bool) (s : State) : Host.Outcome State Fault Refusal :=
  .next (whenUp s (linkLoss port.val fault s))

/-- FRAME_RECEIVED (R286, R290, R291, R321): `frame` is without its FCS. -/
def execFrameReceived (port : Fin 4) (frame : List Byte) (fcsOk : Bool) (t : Stamp) (s : State) :
    Host.Outcome State Fault Refusal :=
  .next (whenUp s (frameReceived port.val frame fcsOk t s))

/-- FRAME_TRANSMIT (R292, R296, R323): A failed check of switch memory, the egress time, the fragments. -/
def execFrameTransmit (port : Fin 4) (fcsBad : Bool) (t : Stamp) (frags : Half) (s : State) :
    Host.Outcome State Fault Refusal :=
  .next (whenUp s (frameTransmit port.val fcsBad t frags.toNat s))

/-- FDB_AGE_OUT (R291). -/
def execFdbAgeOut (addr : BitVec 48) (vlan : Half) (domain : Bool) (s : State) : Host.Outcome State Fault Refusal :=
  .next (whenUp s (fdbAgeOut addr vlan domain s))

/-- PREEMPT_VERIFY (R296). -/
def execPreemptVerify (port : Fin 4) (outcome : VerifyEnd) (s : State) : Host.Outcome State Fault Refusal :=
  .next (whenUp s (preemptVerify port.val outcome s))

/-- PAUSE_RECEIVED (R297, R298). -/
def execPauseReceived (port : Fin 4) (opcode quanta : Half) (s : State) : Host.Outcome State Fault Refusal :=
  .next (whenUp s (pauseReceived port.val opcode quanta s))

/-- PAUSE_EXPIRY (R297). -/
def execPauseExpiry (port : Fin 4) (s : State) : Host.Outcome State Fault Refusal :=
  .next (whenUp s (pauseExpiry port.val s))

/-- PAUSE_WATCHDOG (R298). -/
def execPauseWatchdog (port : Fin 4) (s : State) : Host.Outcome State Fault Refusal :=
  .next (whenUp s (pauseWatchdog port.val s))

/-- PAUSE_RELEASE_END (R298). -/
def execPauseReleaseEnd (port : Fin 4) (s : State) : Host.Outcome State Fault Refusal :=
  .next (whenUp s (pauseReleaseEnd port.val s))

/-- PAUSE_TX_REPEAT (R300). -/
def execPauseTxRepeat (port : Fin 4) (s : State) : Host.Outcome State Fault Refusal :=
  .next (whenUp s (pauseTxRepeat port.val s))

/-- RX_RING_DELIVERY (R304 to R306). -/
def execRxRingDelivery (ring : Fin 8) (s : State) : Host.Outcome State Fault Refusal :=
  .next (whenUp s (rxDeliver ring.val s))

/-- NET_RING_DOORBELL (R301, R304). -/
def execNetRingDoorbell (q : Requester) (tx : Bool) (ring : Fin 8) (s : State) : Host.Outcome State Fault Refusal :=
  .next (whenUp s (busWrite q ((if tx then 0x5A0C else 0x590C) + 0x20 * ring.val) 1 true s))

/-- TX_RING_FRAME (R307). -/
def execTxRingFrame (ring : Fin 8) (s : State) : Host.Outcome State Fault Refusal := .next (whenUp s (txFrame ring.val s))

end Sys2Proof.Machine
end

