-- ==== Sys2Proof/Machine/PairRows.lean ====
section
/-! DEFINITION. The meanings of the rows of the redundancy (R370 to R403). -/

namespace Sys2Proof.Machine

/-- SAD_PATH_DOWN (R373). -/
def execSadPathDown (ctx : Fin 256) (pathB : Bool) (s : State) : Host.Outcome State Fault Refusal :=
  .next (whenUp s (pathDown ctx.val pathB s))

/-- RED_SET_PAIR (R375). -/
def execRedSetPair (q : Sender) (c : RedSetPair) (s : State) : Host.Outcome State Fault Refusal :=
  .next (whenUp s (runCommand q (bodyRedSetPair c) s))

/-- RED_SET_SHARED (R384). -/
def execRedSetShared (q : Sender) (first : Half) (es : List SharedEntry) (s : State) :
    Host.Outcome State Fault Refusal :=
  .next (whenUp s (runCommand q (bodyRedSetShared first es) s))

/-- SAD_SET_PATHDOWN (R373). -/
def execSadSetPathdown (q : Sender) (n : Half) (s : State) : Host.Outcome State Fault Refusal :=
  .next (whenUp s (runCommand q (bodySadSetPathdown n) s))

/-- RED_HANDOVER (R378). -/
def execRedHandover (q : Sender) (h : Word) (s : State) : Host.Outcome State Fault Refusal :=
  .next (whenUp s (runCommand q (bodyRedHandover h) s))

/-- RED_FORCE_ACTIVE (R378). -/
def execRedForceActive (q : Sender) (confirm : Word) (s : State) : Host.Outcome State Fault Refusal :=
  .next (whenUp s (runCommand q (bodyRedForceActive confirm) s))

/-- RED_RESYNC (R391). -/
def execRedResync (q : Sender) (s : State) : Host.Outcome State Fault Refusal :=
  .next (whenUp s (runCommand q bodyRedResync s))

/-- RED_GET_STATUS (R402). -/
def execRedGetStatus (q : Sender) (s : State) : Host.Outcome State Fault Refusal :=
  .next (whenUp s (runCommand q bodyRedGetStatus s))

/-- CLAIM_WINDOW_EXPIRY (R378). -/
def execClaimWindowExpiry (s : State) : Host.Outcome State Fault Refusal := .next (whenUp s (claimExpiry s))

/-- HEARTBEAT_SEND (R385). -/
def execHeartbeatSend (s : State) : Host.Outcome State Fault Refusal := .next (whenUp s (heartbeatSend s))

/-- HEARTBEAT_RECEIVED (R378, R386). -/
def execHeartbeatReceived (path : HbPath) (h : Heartbeat) (s : State) : Host.Outcome State Fault Refusal :=
  .next (whenUp s (heartbeatReceived path h s))

/-- SILENCE_TIMEOUT (R378, R387). -/
def execSilenceTimeout (path : HbPath) (s : State) : Host.Outcome State Fault Refusal :=
  .next (whenUp s (silenceTimeout path s))

/-- NORIL_LINK_UP (R380, R391). -/
def execNorilLinkUp (s : State) : Host.Outcome State Fault Refusal := .next (whenUp s (norilUp s))

/-- NORIL_LINK_DOWN (R380). -/
def execNorilLinkDown (s : State) : Host.Outcome State Fault Refusal := .next (whenUp s (norilDown s))

/-- NORIL_WAVE_SEND (R383). -/
def execNorilWaveSend (s : State) : Host.Outcome State Fault Refusal := .next (whenUp s (waveSend s))

/-- NORIL_WAVE_RECEIVED (R383, R393 to R396). -/
def execNorilWaveReceived (frame : WaveFrame) (s : State) : Host.Outcome State Fault Refusal :=
  .next (whenUp s (waveReceived frame s))

/-- NORIL_WAVE_MISSING (R383). -/
def execNorilWaveMissing (s : State) : Host.Outcome State Fault Refusal := .next (whenUp s (waveMissing s))

/-- SHARED_CHANNEL_FADE (R384). -/
def execSharedChannelFade (index : Fin 512) (s : State) : Host.Outcome State Fault Refusal :=
  .next (whenUp s (sharedFade index.val s))

/-- MIRROR_CMD_RECEIVED (R389, R391). -/
def execMirrorCmdReceived (m : MirrorCmd) (s : State) : Host.Outcome State Fault Refusal := .next (whenUp s (mirrorCmd m s))

/-- MIRROR_REPLY_TIMEOUT (R389). -/
def execMirrorReplyTimeout (q : Sender) (s : State) : Host.Outcome State Fault Refusal :=
  .next (whenUp s (releaseReply q s))

/-- MIRROR_PERIOD_BOUNDARY (R390). -/
def execMirrorPeriodBoundary (s : State) : Host.Outcome State Fault Refusal := .next (whenUp s (mirrorBoundary s))

/-- MIRROR_REC_RECEIVED (R390). -/
def execMirrorRecReceived (m : MirrorRec) (s : State) : Host.Outcome State Fault Refusal := .next (whenUp s (mirrorRec m s))

/-- NORIL_ACK_SEND (R382). -/
def execNorilAckSend (s : State) : Host.Outcome State Fault Refusal := .next (whenUp s (ackSend s))

/-- NORIL_ACK_RECEIVED (R382). -/
def execNorilAckReceived (seq : Word) (s : State) : Host.Outcome State Fault Refusal := .next (whenUp s (ackReceived seq s))

/-- NORIL_RETRANSMIT (R382). -/
def execNorilRetransmit (s : State) : Host.Outcome State Fault Refusal := .next (whenUp s (norilRetransmit s))

/-- JOIN_RECEIVED (R391). -/
def execJoinReceived (s : State) : Host.Outcome State Fault Refusal := .next (whenUp s (joinReceived s))

/-- SNAPSHOT_COMPLETE (R391). -/
def execSnapshotComplete (wave : Word) (snap : Snapshot) (s : State) : Host.Outcome State Fault Refusal :=
  .next (whenUp s (snapshotComplete wave snap s))

/-- PEER_OUTCOME_REPORT (R389): Leaving step on an unequal outcome is the peer's own change. -/
def execPeerOutcomeReport (q : Sender) (s : State) : Host.Outcome State Fault Refusal := .next (whenUp s (releaseReply q s))

end Sys2Proof.Machine
end

