-- ==== Sys2Proof/Machine/PowerRows.lean ====
section
/-! DEFINITION. The meanings of the rows of the power stage (R260 to R283). -/

namespace Sys2Proof.Machine

/-- PWS_SET_STAGE (R283). -/
def execPwsSetStage (q : Sender) (c : PwsSetStage) (s : State) : Host.Outcome State Fault Refusal :=
  .next (whenUp s (runCommand q (bodyPwsSetStage c) s))

/-- PWS_SET_CHANNEL (R283). -/
def execPwsSetChannel (q : Sender) (c : PwsSetChannel) (s : State) : Host.Outcome State Fault Refusal :=
  .next (whenUp s (runCommand q (bodyPwsSetChannel c) s))

/-- PWS_START (R272). -/
def execPwsStart (q : Sender) (mask : Half) (s : State) : Host.Outcome State Fault Refusal :=
  .next (whenUp s (runCommand q (bodyPwsStart mask) s))

/-- PWS_STOP (R273). -/
def execPwsStop (q : Sender) (mask : Half) (s : State) : Host.Outcome State Fault Refusal :=
  .next (whenUp s (runCommand q (bodyPwsStop mask) s))

/-- PWS_MUTE (R270). -/
def execPwsMute (q : Sender) (mask : Half) (mute : Byte) (s : State) : Host.Outcome State Fault Refusal :=
  .next (whenUp s (runCommand q (bodyPwsMute mask mute) s))

/-- PWS_CLEAR (R271). -/
def execPwsClear (q : Sender) (mask : Half) (s : State) : Host.Outcome State Fault Refusal :=
  .next (whenUp s (runCommand q (bodyPwsClear mask) s))

/-- PWS_GET_STATUS (R283). -/
def execPwsGetStatus (q : Sender) (channel : Byte) (s : State) : Host.Outcome State Fault Refusal :=
  .next (whenUp s (runCommand q (bodyPwsGetStatus channel) s))

/-- PWS_PRE_RELEASE_CHECK (R272): The FB difference and ISENSE in mV, signed. -/
def execPwsPreReleaseCheck (ch : Fin 16) (fb isense : Word) (s : State) : Host.Outcome State Fault Refusal :=
  .next (whenUp s (preRelease ch.val fb.toInt isense.toInt s))

/-- PWS_UNMUTE_START (R272). -/
def execPwsUnmuteStart (ch : Fin 16) (s : State) : Host.Outcome State Fault Refusal :=
  .next (whenUp s (unmuteStart ch.val s))

/-- MUTE_STEP (R269). -/
def execMuteStep (ch : Fin 16) (s : State) : Host.Outcome State Fault Refusal := .next (whenUp s (muteStep ch.val s))

/-- PWS_GATES_OFF (R273). -/
def execPwsGatesOff (ch : Fin 16) (s : State) : Host.Outcome State Fault Refusal := .next (whenUp s (gatesOff ch.val s))

/-- CURRENT_LIMIT (R274). -/
def execCurrentLimit (ch : Fin 16) (s : State) : Host.Outcome State Fault Refusal :=
  .next (whenUp s (currentLimit ch.val s))

/-- LIMIT_SHUTDOWN (R275). -/
def execLimitShutdown (ch : Fin 16) (s : State) : Host.Outcome State Fault Refusal :=
  .next (whenUp s (limitShutdown ch.val s))

/-- RETRY_DELAY_EXPIRY (R275). -/
def execRetryDelayExpiry (ch : Fin 16) (s : State) : Host.Outcome State Fault Refusal :=
  .next (whenUp s (retryExpiry ch.val s))

/-- RETRIES_RESET (R275). -/
def execRetriesReset (ch : Fin 16) (s : State) : Host.Outcome State Fault Refusal :=
  .next (whenUp s (retriesReset ch.val s))

/-- DC_WINDOW (R277): The window's mean output in mV, signed, and whether a cycle in it was limited. -/
def execDcWindow (ch : Fin 16) (mv : Word) (limited : Bool) (s : State) : Host.Outcome State Fault Refusal :=
  .next (whenUp s (dcWindow ch.val mv limited s))

/-- BUS_UNDERVOLTAGE (R278). -/
def execBusUndervoltage (vbus : Half) (s : State) : Host.Outcome State Fault Refusal := .next (whenUp s (busUnder vbus s))

/-- BUS_OVERVOLTAGE (R278). -/
def execBusOvervoltage (vbus : Half) (s : State) : Host.Outcome State Fault Refusal := .next (whenUp s (busOver vbus s))

/-- BUS_RECOVERY (R278). -/
def execBusRecovery (vbus : Half) (s : State) : Host.Outcome State Fault Refusal := .next (whenUp s (busRecovery vbus s))

/-- STAGGER_LOCK (R268). -/
def execStaggerLock (ch : Fin 16) (locked : Bool) (s : State) : Host.Outcome State Fault Refusal :=
  .next (whenUp s (staggerLock ch.val locked s))

end Sys2Proof.Machine
end

