-- ==== Sys2Proof/Machine/RegisterRows.lean ====
section
/-! DEFINITION. The meanings of the rows of the register window (R412, R413, R415, R431 to R450): each is a read or a
write of the window at the address of its register, so that every check of R433 applies to it. -/

namespace Sys2Proof.Machine

/-- CMD_DOORBELL (R411, R412, R413). -/
def execCmdDoorbell (q : Requester) (m : Fin 4) (s : State) : Host.Outcome State Fault Refusal :=
  .next (whenUp s (busWrite q (0x1FE0 + 0x1000 * m.val) 1 true s))

/-- CMD_RSTAT_READ (R413). -/
def execCmdRstatRead (q : Requester) (m : Fin 4) (s : State) : Host.Outcome State Fault Refusal :=
  .next (whenUp s (busRead q (0x1FE4 + 0x1000 * m.val) s))

/-- CMD_ACK_REPLY (R413). -/
def execCmdAckReply (q : Requester) (m : Fin 4) (s : State) : Host.Outcome State Fault Refusal :=
  .next (whenUp s (busWrite q (0x1FE8 + 0x1000 * m.val) 1 true s))

/-- CMD_ACK_RING (R422). -/
def execCmdAckRing (q : Requester) (m : Fin 4) (s : State) : Host.Outcome State Fault Refusal :=
  .next (whenUp s (busWrite q (0x1FE8 + 0x1000 * m.val) 0x10 true s))

/-- CMD_ACK_ALARM (R422). -/
def execCmdAckAlarm (q : Requester) (m : Fin 4) (s : State) : Host.Outcome State Fault Refusal :=
  .next (whenUp s (busWrite q (0x1FE8 + 0x1000 * m.val) 0x20 true s))

/-- MAILBOX_PACKET_WRITE (R412, R413): `word` is the word of the packet area. -/
def execMailboxPacketWrite (q : Requester) (m : Fin 4) (word : Fin 1016) (w : Word) (s : State) :
    Host.Outcome State Fault Refusal :=
  .next (whenUp s (busWrite q (0x1000 + 0x1000 * m.val + 4 * word.val) w true s))

/-- SPI_FRAME (R415). -/
def execSpiFrame (bytes : List Byte) (s : State) : Host.Outcome State Fault Refusal := .next (whenUp s (spiFrame bytes s))

/-- REGISTER_WRITE (R7, R431 to R434, R442): `whole` is false for a part of a word. -/
def execRegisterWrite (q : Requester) (addr : Half) (w : Word) (whole : Bool) (s : State) :
    Host.Outcome State Fault Refusal :=
  .next (whenUp s (busWrite q addr.toNat w whole s))

/-- WIDE_LO_READ (R436). -/
def execWideLoRead (q : Requester) (addr : Half) (s : State) : Host.Outcome State Fault Refusal :=
  .next (whenUp s (busRead q addr.toNat s))

/-- WIDE_COUNTER_LO_WRITE (R437). -/
def execWideCounterLoWrite (q : Requester) (addr : Half) (w : Word) (s : State) : Host.Outcome State Fault Refusal :=
  .next (whenUp s (busWrite q addr.toNat w true s))

/-- WIDE_COUNTER_HI_WRITE (R437). -/
def execWideCounterHiWrite (q : Requester) (addr : Half) (w : Word) (s : State) : Host.Outcome State Fault Refusal :=
  .next (whenUp s (busWrite q addr.toNat w true s))

/-- SYS_LOCK (R442). -/
def execSysLock (q : Requester) (bits : Word) (s : State) : Host.Outcome State Fault Refusal :=
  .next (whenUp s (busWrite q 0x0010 bits true s))

/-- CFG_CRC_COMMIT (R446). -/
def execCfgCrcCommit (q : Requester) (s : State) : Host.Outcome State Fault Refusal :=
  .next (whenUp s (busWrite q 0x0020 (bitAt 0 s.sys.crcEnable ||| 2) true s))

/-- CFG_CRC_ENABLE (R445, R446). -/
def execCfgCrcEnable (q : Requester) (on : Bool) (s : State) : Host.Outcome State Fault Refusal :=
  .next (whenUp s (busWrite q 0x0020 (bitAt 0 on) true s))

/-- CFG_CRC_PASS (R445 to R447). -/
def execCfgCrcPass (result : Word) (s : State) : Host.Outcome State Fault Refusal := .next (whenUp s (crcPass result s))

/-- IND_DATA_READ (R448, R450). -/
def execIndDataRead (q : Requester) (s : State) : Host.Outcome State Fault Refusal := .next (whenUp s (busRead q 0x0044 s))

/-- IND_DATA_WRITE (R442, R448, R450). -/
def execIndDataWrite (q : Requester) (w : Word) (s : State) : Host.Outcome State Fault Refusal :=
  .next (whenUp s (busWrite q 0x0044 w true s))

end Sys2Proof.Machine
end

