-- ==== Sys2Proof/Machine/SecurityRows.lean ====
section
/-! DEFINITION. The meanings of the rows of security (R471 to R492). -/

namespace Sys2Proof.Machine

/-- SEC_GET_STATUS (R491). -/
def execSecGetStatus (q : Sender) (s : State) : Host.Outcome State Fault Refusal :=
  .next (whenUp s (runCommand q bodySecGetStatus s))

/-- SEC_KEY_PROGRAM (R473). -/
def execSecKeyProgram (q : Sender) (c : SecKeyProgram) (s : State) : Host.Outcome State Fault Refusal :=
  .next (whenUp s (runCommand q (bodySecKeyProgram c) s))

/-- SEC_KEY_REVOKE (R474). -/
def execSecKeyRevoke (q : Sender) (c : SecKeyRevoke) (s : State) : Host.Outcome State Fault Refusal :=
  .next (whenUp s (runCommand q (bodySecKeyRevoke c) s))

/-- SEC_ARB_ADVANCE (R481). -/
def execSecArbAdvance (q : Sender) (c : SecArbAdvance) (s : State) : Host.Outcome State Fault Refusal :=
  .next (whenUp s (runCommand q (bodySecArbAdvance c) s))

/-- SEC_FW_ERASE (R479). -/
def execSecFwErase (q : Sender) (copy : Byte) (s : State) : Host.Outcome State Fault Refusal :=
  .next (whenUp s (runCommand q (bodySecFwErase copy) s))

/-- SEC_FW_WRITE (R479). -/
def execSecFwWrite (q : Sender) (c : FlashWrite) (s : State) : Host.Outcome State Fault Refusal :=
  .next (whenUp s (runCommand q (bodySecFwWrite c) s))

/-- SEC_FW_VERIFY (R476). -/
def execSecFwVerify (q : Sender) (copy : Byte) (s : State) : Host.Outcome State Fault Refusal :=
  .next (whenUp s (runCommand q (bodySecFwVerify copy) s))

/-- SEC_DEBUG_CHALLENGE (R484). -/
def execSecDebugChallenge (q : Sender) (s : State) : Host.Outcome State Fault Refusal :=
  .next (whenUp s (runCommand q bodySecDebugChallenge s))

/-- SEC_DEBUG_UNLOCK (R484). -/
def execSecDebugUnlock (q : Sender) (block : List Byte) (s : State) : Host.Outcome State Fault Refusal :=
  .next (whenUp s (runCommand q (bodySecDebugUnlock block) s))

/-- SEC_SET_LOCK (R490). -/
def execSecSetLock (q : Sender) (bits : Word) (s : State) : Host.Outcome State Fault Refusal :=
  .next (whenUp s (runCommand q (bodySecSetLock bits) s))

/-- DEBUG_NONCE_EXPIRY (R484). -/
def execDebugNonceExpiry (s : State) : Host.Outcome State Fault Refusal := .next (whenUp s (nonceExpiry s))

/-- DRBG_HEALTH_FAIL (R482). -/
def execDrbgHealthFail (s : State) : Host.Outcome State Fault Refusal := .next (whenUp s (drbgFail s))

/-- PRIVATE_JTAG_INSTRUCTION (R483): While debug is OPEN it acts on the Summit cores and on Col, which the spec does not describe. -/
def execPrivateJtagInstruction (s : State) : Host.Outcome State Fault Refusal :=
  if s.held then .next s
  else if debugCode s = 2 then .refused .debugUnit
  else .next (privateJtag s)

/-- BOUNDARY_TEST_SELECT (R485): With the domains in reset there is nothing to silence. -/
def execBoundaryTestSelect (s : State) : Host.Outcome State Fault Refusal :=
  .next (if !s.pins.porstN || s.ka.deepOff then s
    else if s.held then { s with pins := { s.pins with boundary := true } }
    else boundarySelect s)

end Sys2Proof.Machine
end

