-- ==== Sys2Proof/Machine/StartRows.lean ====
section
/-! DEFINITION. The meanings of the rows of reset, boot, deep-off and wake (R509 to R526, R541, R542, R557). -/

namespace Sys2Proof.Machine

/-- A write of KA_CTRL through the indirect pair by a requester that reaches the window: partition 0 alone writes it
(R433, R442, R450, R524, R525). The pointer is left where it is: the write that moves it is IND_DATA_WRITE (log 56). -/
def kaWrite (q : Requester) (w : Word) (s : State) : State :=
  if !present s q then s
  else if q.part ≠ 0 then ignoreWrite q 0x0044 0 s
  else match indWrite 0x0300_0000 w s with
    | some t => t
    | none => if s.sys.lock.getLsbD 7 then ignoreWrite q 0x0044 2 (indRefused s) else indRefused s

/-- PORST_ASSERT (R513). -/
def execPorstAssert (s : State) : Host.Outcome State Fault Refusal := .next (porstAssert s)

/-- PORST_RELEASE (R515, R516, R521, R532): PROFILE_SEL, the bank senses, and whether PWR_EN rose at least 1 ms before. -/
def execPorstRelease (sel : BitVec 3) (iox : BitVec 9) (settled : Bool) (s : State) :
    Host.Outcome State Fault Refusal :=
  .next (porstRelease sel iox settled s)

/-- SYSRST_ASSERT (R513). -/
def execSysrstAssert (s : State) : Host.Outcome State Fault Refusal := .next (sysrstAssert s)

/-- SYSRST_RELEASE (R513, R515). -/
def execSysrstRelease (sel : BitVec 3) (s : State) : Host.Outcome State Fault Refusal := .next (sysrstRelease sel s)

/-- BOOT_OTP_SENSED (R516). -/
def execBootOtpSensed (s : State) : Host.Outcome State Fault Refusal := .next (whenUp s (otpSensed s))

/-- TARN_ZERO_FILL_DONE (R516). -/
def execTarnZeroFillDone (s : State) : Host.Outcome State Fault Refusal := .next (whenUp s (tarnFilled s))

/-- DRAM_TRAINING_DONE (R557, R558). -/
def execDramTrainingDone (ok : Bool) (bytes : BitVec 4) (rate : BitVec 5) (s : State) :
    Host.Outcome State Fault Refusal :=
  .next (whenUp s (dramTraining ok bytes rate s))

/-- DRAM_ECC_INIT_DONE (R516). -/
def execDramEccInitDone (s : State) : Host.Outcome State Fault Refusal := .next (whenUp s (eccDone s))

/-- BOOT_FW_VERIFIED (R477). -/
def execBootFwVerified (s : State) : Host.Outcome State Fault Refusal := .next (whenUp s (fwVerified s))

/-- BOOT_PROFILE_APPLIED (R427). -/
def execBootProfileApplied (b : Bundle) (s : State) : Host.Outcome State Fault Refusal :=
  .next (whenUp s (profileApplied b s))

/-- BOOT_COMMAND_NEXT (R427). -/
def execBootCommandNext (s : State) : Host.Outcome State Fault Refusal := .next (whenUp s (bootNext s))

/-- BOOT_ACQUIRE_WAIT_END (R517). -/
def execBootAcquireWaitEnd (s : State) : Host.Outcome State Fault Refusal := .next (whenUp s (acquireWaitEnd s))

/-- KA_DEEP_OFF (R442, R450, R520, R525). -/
def execKaDeepOff (q : Requester) (s : State) : Host.Outcome State Fault Refusal :=
  .next (whenUp s (kaWrite q 0x4B410001 s))

/-- KA_RESTART (R442, R450, R520, R525). -/
def execKaRestart (q : Requester) (s : State) : Host.Outcome State Fault Refusal :=
  .next (whenUp s (kaWrite q 0x4B410002 s))

/-- WAKE (R521): WAKE_N has been low for 1 ms, or is high again. -/
def execWake (low : Bool) (s : State) : Host.Outcome State Fault Refusal := .next (wake low s)

/-- PWR_EN_REASSERT (R521). -/
def execPwrEnReassert (s : State) : Host.Outcome State Fault Refusal := .next (pwrReassert s)

/-- VKA_POWER_ON (R523). -/
def execVkaPowerOn (s : State) : Host.Outcome State Fault Refusal := .next (vkaPowerOn s)

/-- TEST_EN (R541). -/
def execTestEn (high : Bool) (sel : BitVec 3) (s : State) : Host.Outcome State Fault Refusal :=
  .next (testEnable high sel s)

/-- PCIE_PERST (R542). -/
def execPciePerst (high : Bool) (s : State) : Host.Outcome State Fault Refusal := .next (pciePerst high s)

/-- DRAM_RETRAIN (R557). -/
def execDramRetrain (s : State) : Host.Outcome State Fault Refusal := .next (whenUp s (dramRetrain s))

end Sys2Proof.Machine
end

