-- ==== Sys2Proof/Machine/StreamRows.lean ====
section
/-! DEFINITION. The meanings of the rows of the media streams and the taps (R337 to R369). -/

namespace Sys2Proof.Machine

/-- STREAM_SET_TX (R343). -/
def execStreamSetTx (q : Sender) (ctx : Byte) (c : TxCfg) (s : State) : Host.Outcome State Fault Refusal :=
  .next (whenUp s (runCommand q (bodyStreamSetTx ctx c) s))

/-- STREAM_SET_RX (R349). -/
def execStreamSetRx (q : Sender) (ctx : Byte) (c : RxCfg) (s : State) : Host.Outcome State Fault Refusal :=
  .next (whenUp s (runCommand q (bodyStreamSetRx ctx c) s))

/-- STREAM_SET_CS (R342). -/
def execStreamSetCs (q : Sender) (ctx : Byte) (block : List Byte) (s : State) : Host.Outcome State Fault Refusal :=
  .next (whenUp s (runCommand q (bodyStreamSetCs ctx block) s))

/-- STREAM_START (R345). -/
def execStreamStart (q : Sender) (dir ctx : Byte) (q0 : Half) (wave : Word) (s : State) :
    Host.Outcome State Fault Refusal :=
  .next (whenUp s (runCommand q (bodyStreamStart dir ctx q0 wave) s))

/-- STREAM_STOP (R348). -/
def execStreamStop (q : Sender) (dir ctx : Byte) (wave : Word) (s : State) : Host.Outcome State Fault Refusal :=
  .next (whenUp s (runCommand q (bodyStreamStop dir ctx wave) s))

/-- STREAM_SET_GROUP (R357). -/
def execStreamSetGroup (q : Sender) (group : Byte) (delay : Half) (s : State) : Host.Outcome State Fault Refusal :=
  .next (whenUp s (runCommand q (bodyStreamSetGroup group delay) s))

/-- STREAM_GET_CONTEXT (R368). -/
def execStreamGetContext (q : Sender) (dir ctx : Byte) (s : State) : Host.Outcome State Fault Refusal :=
  .next (whenUp s (runCommand q (bodyStreamGetContext dir ctx) s))

/-- STREAM_CLEAR (R368). -/
def execStreamClear (q : Sender) (dir ctx : Byte) (s : State) : Host.Outcome State Fault Refusal :=
  .next (whenUp s (runCommand q (bodyStreamClear dir ctx) s))

/-- TAP_SET (R364). -/
def execTapSet (q : Sender) (c : TapSet) (s : State) : Host.Outcome State Fault Refusal :=
  .next (whenUp s (runCommand q (bodyTapSet c) s))

/-- TAP_GET (R368). -/
def execTapGet (q : Sender) (tap : Byte) (s : State) : Host.Outcome State Fault Refusal :=
  .next (whenUp s (runCommand q (bodyTapGet tap) s))

/-- TAP_WINDOW_END (R364). -/
def execTapWindowEnd (tap : Fin 16) (s : State) : Host.Outcome State Fault Refusal :=
  .next (whenUp s (tapWindowEnd tap.val s))

/-- PACKET_LAUNCH (R346, R395). -/
def execPacketLaunch (ctx : Fin 256) (s : State) : Host.Outcome State Fault Refusal :=
  .next (whenUp s (packetLaunch ctx.val s))

/-- MEDIA_PACKET_RECEIVED (R350 to R355, R370 to R373). -/
def execMediaPacketReceived (port : Fin 4) (frame : List Byte) (t : Stamp) (s : State) :
    Host.Outcome State Fault Refusal :=
  .next (whenUp s (mediaPacket port.val frame t s))

/-- STREAM_RX_STOPPED (R360). -/
def execStreamRxStopped (ctx : Fin 256) (s : State) : Host.Outcome State Fault Refusal :=
  .next (whenUp s (rxStopped ctx.val s))

/-- STM_CTX_STAT_READ (R366). -/
def execStmCtxStatRead (q : Requester) (s : State) : Host.Outcome State Fault Refusal :=
  .next (whenUp s (busRead q 0x6608 s))

end Sys2Proof.Machine
end

