-- ==== Sys2Proof/Machine/SystemRows.lean ====
section
/-! DEFINITION. The meanings of the system commands and the command interface (R404 to R430). -/

namespace Sys2Proof.Machine

/-- SYS_HELLO (R410). -/
def execSysHello (q : Sender) (newSession : Bool) (s : State) : Host.Outcome State Fault Refusal :=
  .next (whenUp s (runCommand q (bodySysHello newSession) s))

/-- SYS_GET_INFO (R424). -/
def execSysGetInfo (q : Sender) (s : State) : Host.Outcome State Fault Refusal :=
  .next (whenUp s (runCommand q bodySysGetInfo s))

/-- SYS_GET_OWNERSHIP (R424). -/
def execSysGetOwnership (q : Sender) (s : State) : Host.Outcome State Fault Refusal :=
  .next (whenUp s (runCommand q bodySysGetOwnership s))

/-- SYS_PROFILE_LOAD (R428). -/
def execSysProfileLoad (q : Sender) (c : ProfileLoad) (s : State) : Host.Outcome State Fault Refusal :=
  .next (whenUp s (runCommand q (bodySysProfileLoad c) s))

/-- SYS_PROFILE_ERASE (R430). -/
def execSysProfileErase (q : Sender) (c : ProfileErase) (s : State) : Host.Outcome State Fault Refusal :=
  .next (whenUp s (runCommand q (bodySysProfileErase c) s))

/-- SYS_PROFILE_WRITE (R424). -/
def execSysProfileWrite (q : Sender) (c : FlashWrite) (s : State) : Host.Outcome State Fault Refusal :=
  .next (whenUp s (runCommand q (bodySysProfileWrite c) s))

/-- SYS_PROFILE_SEAL (R424). -/
def execSysProfileSeal (q : Sender) (n : Byte) (s : State) : Host.Outcome State Fault Refusal :=
  .next (whenUp s (runCommand q (bodySysProfileSeal n) s))

/-- SYS_PROFILE_LIST (R424). -/
def execSysProfileList (q : Sender) (s : State) : Host.Outcome State Fault Refusal :=
  .next (whenUp s (runCommand q bodySysProfileList s))

/-- TEARDOWN_RESET (R428, R520, R521): `sel` is the level of PROFILE_SEL. -/
def execTeardownReset (sel : BitVec 3) (s : State) : Host.Outcome State Fault Refusal := .next (teardownReset sel s)

/-- UDP_COMMAND_RECEIVED (R409, R411, R416). -/
def execUdpCommandReceived (port : Fin 4) (frame : List Byte) (s : State) : Host.Outcome State Fault Refusal :=
  .next (whenUp s (udpCommand port.val frame s))

/-- COMMAND_EXECUTION_END (R413, R416, R417). -/
def execCommandExecutionEnd (q : Sender) (s : State) : Host.Outcome State Fault Refusal :=
  .next (whenUp s (executionEnd q s))

end Sys2Proof.Machine
end

