-- ==== Sys2Proof/Machine/TdmRows.lean ====
section
/-! DEFINITION. The meanings of the rows of the TDM ports (R231 to R259). -/

namespace Sys2Proof.Machine

/-- TDM_SET_GROUP (R232). -/
def execTdmSetGroup (q : Sender) (c : TdmSetGroup) (s : State) : Host.Outcome State Fault Refusal :=
  .next (whenUp s (runCommand q (bodyTdmSetGroup c) s))

/-- TDM_SET_PORT (R233). -/
def execTdmSetPort (q : Sender) (c : TdmSetPort) (s : State) : Host.Outcome State Fault Refusal :=
  .next (whenUp s (runCommand q (bodyTdmSetPort c) s))

/-- TDM_SET_RING (R241). -/
def execTdmSetRing (q : Sender) (c : TdmSetRing) (s : State) : Host.Outcome State Fault Refusal :=
  .next (whenUp s (runCommand q (bodyTdmSetRing c) s))

/-- TDM_STAGE_MASK (R246). -/
def execTdmStageMask (q : Sender) (c : TdmStageMask) (s : State) : Host.Outcome State Fault Refusal :=
  .next (whenUp s (runCommand q (bodyTdmStageMask c) s))

/-- TDM_COMMIT (R246). -/
def execTdmCommit (q : Sender) (mask : Long) (s : State) : Host.Outcome State Fault Refusal :=
  .next (whenUp s (runCommand q (bodyTdmCommit mask) s))

/-- TDM_START (R249). -/
def execTdmStart (q : Sender) (mask : Long) (s : State) : Host.Outcome State Fault Refusal :=
  .next (whenUp s (runCommand q (bodyTdmStart mask) s))

/-- TDM_STOP (R249). -/
def execTdmStop (q : Sender) (mask : Long) (s : State) : Host.Outcome State Fault Refusal :=
  .next (whenUp s (runCommand q (bodyTdmStop mask) s))

/-- TDM_GET_STATUS (R258). -/
def execTdmGetStatus (q : Sender) (port : Byte) (s : State) : Host.Outcome State Fault Refusal :=
  .next (whenUp s (runCommand q (bodyTdmGetStatus port) s))

/-- TDM_FRAME_RECEIVED (R240, R242, R245). -/
def execTdmFrameReceived (port : Fin 64) (frame : TdmFrame) (s : State) : Host.Outcome State Fault Refusal :=
  .next (whenUp s (tdmFrame port.val frame s))

/-- FSYNC_TIMEOUT (R240). -/
def execFsyncTimeout (port : Fin 64) (s : State) : Host.Outcome State Fault Refusal :=
  .next (whenUp s (fsyncTimeout port.val s))

/-- TDM_SLAVE_LOCK (R240). -/
def execTdmSlaveLock (port : Fin 64) (s : State) : Host.Outcome State Fault Refusal :=
  .next (whenUp s (slaveLock port.val s))

/-- TDM_SYNC_LOST (R240, R247). -/
def execTdmSyncLost (port : Fin 64) (s : State) : Host.Outcome State Fault Refusal := .next (whenUp s (syncLost port.val s))

/-- TDM_GATE_TIMEOUT (R248). -/
def execTdmGateTimeout (port : Fin 64) (dir : TdmDir) (slot : Fin 32) (s : State) : Host.Outcome State Fault Refusal :=
  .next (whenUp s (gateTimeout port.val dir slot.val s))

/-- TDM_FADE_END (R248). -/
def execTdmFadeEnd (port : Fin 64) (dir : TdmDir) (slot : Fin 32) (s : State) : Host.Outcome State Fault Refusal :=
  .next (whenUp s (fadeEnd port.val dir slot.val s))

/-- MASK_EPOCH_CHANGE (R246). -/
def execMaskEpochChange (port : Fin 64) (s : State) : Host.Outcome State Fault Refusal :=
  .next (whenUp s (maskChange port.val s))

/-- TDM_PORT_RUNNING (R249). -/
def execTdmPortRunning (port : Fin 64) (s : State) : Host.Outcome State Fault Refusal :=
  .next (whenUp s (portRunning port.val s))

/-- TDM_PORT_STOPPED (R249). -/
def execTdmPortStopped (port : Fin 64) (s : State) : Host.Outcome State Fault Refusal :=
  .next (whenUp s (portStopped port.val s))

/-- ASRC_LOCK (R253). -/
def execAsrcLock (group : Fin 8) (s : State) : Host.Outcome State Fault Refusal := .next (whenUp s (asrcLock group.val s))

/-- ASRC_RATE_MEASURE (R254): `ofs` is the measured rate offset in ppb, signed. -/
def execAsrcRateMeasure (group : Fin 8) (ofs : Word) (s : State) : Host.Outcome State Fault Refusal :=
  .next (whenUp s (asrcMeasure group.val ofs s))

end Sys2Proof.Machine
end

