-- ==== Sys2Proof/Machine/TimeRows.lean ====
section
/-! DEFINITION. The meanings of the rows of the network time (R315 to R336). -/

namespace Sys2Proof.Machine

/-- PTP_SET_INSTANCE (R316). -/
def execPtpSetInstance (q : Sender) (c : PtpSetInstance) (s : State) : Host.Outcome State Fault Refusal :=
  .next (whenUp s (runCommand q (bodyPtpSetInstance c) s))

/-- PTP_SET_PORT_TS (R321). -/
def execPtpSetPortTs (q : Sender) (c : PtpSetPortTs) (s : State) : Host.Outcome State Fault Refusal :=
  .next (whenUp s (runCommand q (bodyPtpSetPortTs c) s))

/-- PTP_SET_MASTER (R320). -/
def execPtpSetMaster (q : Sender) (c : PtpSetMaster) (s : State) : Host.Outcome State Fault Refusal :=
  .next (whenUp s (runCommand q (bodyPtpSetMaster c) s))

/-- PTP_ACCEPT_JUMP (R332). -/
def execPtpAcceptJump (q : Sender) (inst : Byte) (gm : Long) (s : State) : Host.Outcome State Fault Refusal :=
  .next (whenUp s (runCommand q (bodyPtpAcceptJump inst gm) s))

/-- PTP_SET_TIME (R326). -/
def execPtpSetTime (q : Sender) (sec : Long) (s : State) : Host.Outcome State Fault Refusal :=
  .next (whenUp s (runCommand q (bodyPtpSetTime sec) s))

/-- PTP_SET_TIME_APPLY (R326). -/
def execPtpSetTimeApply (s : State) : Host.Outcome State Fault Refusal := .next (whenUp s (ptpSetTimeApply s))

/-- PTP_SET_ALARM (R329). -/
def execPtpSetAlarm (q : Sender) (c : PtpSetAlarm) (s : State) : Host.Outcome State Fault Refusal :=
  .next (whenUp s (runCommand q (bodyPtpSetAlarm c) s))

/-- PTP_CANCEL_ALARM (R335). -/
def execPtpCancelAlarm (q : Sender) (alarm : Byte) (s : State) : Host.Outcome State Fault Refusal :=
  .next (whenUp s (runCommand q (bodyPtpCancelAlarm alarm) s))

/-- PTP_GET_STATUS (R335). -/
def execPtpGetStatus (q : Sender) (inst : Byte) (s : State) : Host.Outcome State Fault Refusal :=
  .next (whenUp s (runCommand q (bodyPtpGetStatus inst) s))

/-- ANNOUNCE_RECEIVED (R318). -/
def execAnnounceReceived (inst : Fin 2) (a : Announce) (s : State) : Host.Outcome State Fault Refusal :=
  .next (whenUp s (announceReceived inst.val a s))

/-- SYNC_RECEIVED (R317, R319). -/
def execSyncReceived (inst : Fin 2) (m : SyncMsg) (s : State) : Host.Outcome State Fault Refusal :=
  .next (whenUp s (syncReceived inst.val m s))

/-- FOLLOW_UP_RECEIVED (R317). -/
def execFollowUpReceived (inst : Fin 2) (m : SyncMsg) (s : State) : Host.Outcome State Fault Refusal :=
  .next (whenUp s (followUp inst.val m s))

/-- FOLLOW_UP_TIMEOUT (R317). -/
def execFollowUpTimeout (inst : Fin 2) (s : State) : Host.Outcome State Fault Refusal :=
  .next (whenUp s (followUpTimeout inst.val s))

/-- DELAY_REQ_SEND (R317): `t` is the egress timestamp. -/
def execDelayReqSend (inst : Fin 2) (t : Stamp) (s : State) : Host.Outcome State Fault Refusal :=
  .next (whenUp s (delayReqSend inst.val t s))

/-- DELAY_RESP_RECEIVED (R317, R319, R331). -/
def execDelayRespReceived (inst : Fin 2) (m : DelayResp) (s : State) : Host.Outcome State Fault Refusal :=
  .next (whenUp s (delayResp inst.val m s))

/-- DELAY_RESP_TIMEOUT (R317). -/
def execDelayRespTimeout (inst : Fin 2) (s : State) : Host.Outcome State Fault Refusal :=
  .next (whenUp s (delayRespTimeout inst.val s))

/-- SYNC_TIMEOUT (R36). -/
def execSyncTimeout (inst : Fin 2) (s : State) : Host.Outcome State Fault Refusal :=
  .next (whenUp s (syncTimeout inst.val s))

/-- ANNOUNCE_TIMEOUT (R36, R318). -/
def execAnnounceTimeout (inst : Fin 2) (s : State) : Host.Outcome State Fault Refusal :=
  .next (whenUp s (announceTimeout inst.val s))

/-- MASTER_SYNC_SEND (R320). -/
def execMasterSyncSend (inst : Fin 2) (t : Stamp) (s : State) : Host.Outcome State Fault Refusal :=
  .next (whenUp s (masterSync inst.val t s))

/-- MASTER_ANNOUNCE_SEND (R320). -/
def execMasterAnnounceSend (inst : Fin 2) (s : State) : Host.Outcome State Fault Refusal :=
  .next (whenUp s (masterAnnounce inst.val s))

/-- MASTER_DELAY_REQ_RECEIVED (R320). -/
def execMasterDelayReqReceived (inst : Fin 2) (domain : Byte) (source : BitVec 80) (seq : Half) (correction : Long)
    (t : Stamp) (s : State) : Host.Outcome State Fault Refusal :=
  .next (whenUp s (masterDelayReq inst.val domain source seq correction t s))

/-- PPS_EDGE (R327): `after` is the time since the PTP counter last advanced in the model, in ns. -/
def execPpsEdge (after : Word) (s : State) : Host.Outcome State Fault Refusal := .next (whenUp s (ppsEdge after s))

/-- PPS_CAPTURE_READ (R327). -/
def execPpsCaptureRead (q : Requester) (s : State) : Host.Outcome State Fault Refusal :=
  .next (whenUp s (busRead q 0x5FC0 s))

/-- ALARM_FIRE (R328, R329). -/
def execAlarmFire (alarm : Fin 8) (s : State) : Host.Outcome State Fault Refusal := .next (whenUp s (alarmFire alarm.val s))

end Sys2Proof.Machine
end

