-- ==== Sys2Proof/Machine/TwoWireRows.lean ====
section
/-! DEFINITION. The meanings of the rows of the two-wire controllers and the target port (R493 to R508). -/

namespace Sys2Proof.Machine

/-- TW_GO (R495, R496). -/
def execTwGo (q : Requester) (bus : Fin 4) (s : State) : Host.Outcome State Fault Refusal :=
  .next (whenUp s (busWrite q (0x6008 + 0xC0 * bus.val) 1 true s))

/-- TW_ABORT (R502). -/
def execTwAbort (q : Requester) (bus : Fin 4) (s : State) : Host.Outcome State Fault Refusal :=
  .next (whenUp s (busWrite q (0x6008 + 0xC0 * bus.val) 2 true s))

/-- TW_TRANSACTION_START (R496). -/
def execTwTransactionStart (bus : Fin 4) (s : State) : Host.Outcome State Fault Refusal :=
  .next (whenUp s (twServe bus.val s))

/-- TW_TRANSACTION_END (R495, R499, R502). -/
def execTwTransactionEnd (bus : Fin 4) (outcome : TwEnd) (s : State) : Host.Outcome State Fault Refusal :=
  .next (whenUp s (twEnd bus.val outcome s))

/-- TW_RETRY_DELAY (R497). -/
def execTwRetryDelay (bus : Fin 4) (s : State) : Host.Outcome State Fault Refusal := .next (whenUp s (twRetry bus.val s))

/-- TW_STRETCH_TIMEOUT (R498, R499). -/
def execTwStretchTimeout (bus : Fin 4) (done : BitVec 6) (freed : Bool) (s : State) :
    Host.Outcome State Fault Refusal :=
  .next (whenUp s (twStretch bus.val done freed s))

/-- TW_SCL_STUCK_TIMEOUT (R499). -/
def execTwSclStuckTimeout (bus : Fin 4) (s : State) : Host.Outcome State Fault Refusal :=
  .next (whenUp s (twSclStuck bus.val s))

/-- TW_STUCK_RECOVERY_REPEAT (R499). -/
def execTwStuckRecoveryRepeat (bus : Fin 4) (freed : Bool) (s : State) : Host.Outcome State Fault Refusal :=
  .next (whenUp s (twRepeat bus.val freed s))

/-- TW_ALERT_ASSERT (R500). -/
def execTwAlertAssert (bus : Fin 4) (s : State) : Host.Outcome State Fault Refusal := .next (whenUp s (twAlert bus.val s))

/-- TW_ALERT_RELEASE (R501). -/
def execTwAlertRelease (bus : Fin 4) (s : State) : Host.Outcome State Fault Refusal :=
  .next (whenUp s (twAlertGone bus.val s))

/-- TW_ALERT_RESPONSE_READ (R500, R501): None where no device acknowledges. -/
def execTwAlertResponseRead (bus : Fin 4) (byte : Option Byte) (s : State) : Host.Outcome State Fault Refusal :=
  .next (whenUp s (twAlertRead bus.val byte s))

/-- TWT_READ (R505): `n` is the number of bytes that the host reads. -/
def execTwtRead (n : Byte) (s : State) : Host.Outcome State Fault Refusal := .next (whenUp s (twtReadPage n s))

/-- TWT_WRITE (R505). -/
def execTwtWrite (bytes : List Byte) (s : State) : Host.Outcome State Fault Refusal :=
  .next (whenUp s (twtWritePage bytes s))

/-- TWT_PROTOCOL_ERROR (R505). -/
def execTwtProtocolError (s : State) : Host.Outcome State Fault Refusal := .next (whenUp s (twtError s))

/-- TWT_SCL_TIMEOUT (R505). -/
def execTwtSclTimeout (s : State) : Host.Outcome State Fault Refusal := .next (whenUp s (twtTimeout s))

/-- TWT_ALERT (R506). -/
def execTwtAlert (q : Requester) (s : State) : Host.Outcome State Fault Refusal :=
  .next (whenUp s (busWrite q 0x6304 1 true s))

/-- TWT_ALERT_RESPONSE (R506). -/
def execTwtAlertResponse (s : State) : Host.Outcome State Fault Refusal := .next (whenUp s (twtAlertResponse s))

/-- BUS_STUCK_CLEAR (R499). -/
def execBusStuckClear (bus : Fin 4) (s : State) : Host.Outcome State Fault Refusal := .next (whenUp s (twUnstick bus.val s))

end Sys2Proof.Machine
end

