-- ==== Sys2Proof/Machine/Dispatch.lean ====
section
/-! DEFINITION. One arm per command: its meaning, which acts on everything but the queue. -/

namespace Sys2Proof.Machine

def exec (i : Instr) (s : State) : Host.Outcome State Fault Refusal :=
  match i with
  | .sampleEdge => Sys2Proof.Machine.execSampleEdge s
  | .completionToken slack => Sys2Proof.Machine.execCompletionToken slack s
  | .outputGuard parity => Sys2Proof.Machine.execOutputGuard parity s
  | .missBurst => Sys2Proof.Machine.execMissBurst s
  | .fabricStall => Sys2Proof.Machine.execFabricStall s
  | .trapStall => Sys2Proof.Machine.execTrapStall s
  | .referenceValid ref m => Sys2Proof.Machine.execReferenceValid ref m s
  | .referenceQualified ref m sec ns => Sys2Proof.Machine.execReferenceQualified ref m sec ns s
  | .referenceLost ref present => Sys2Proof.Machine.execReferenceLost ref present s
  | .acquireWindowExpiry => Sys2Proof.Machine.execAcquireWindowExpiry s
  | .waitToRestoreExpiry ref => Sys2Proof.Machine.execWaitToRestoreExpiry ref s
  | .slewComplete => Sys2Proof.Machine.execSlewComplete s
  | .holdoverSpecExpiry => Sys2Proof.Machine.execHoldoverSpecExpiry s
  | .holdoverHistorySecond mean => Sys2Proof.Machine.execHoldoverHistorySecond mean s
  | .disagreeWindow ms => Sys2Proof.Machine.execDisagreeWindow ms s
  | .pstPtpNsRead q => Sys2Proof.Machine.execPstPtpNsRead q s
  | .clkGetStatus q => Sys2Proof.Machine.execClkGetStatus q s
  | .clkSetRate q code => Sys2Proof.Machine.execClkSetRate q code s
  | .clkRefConfig q c => Sys2Proof.Machine.execClkRefConfig q c s
  | .clkSelect q c => Sys2Proof.Machine.execClkSelect q c s
  | .clkSetTimers q c => Sys2Proof.Machine.execClkSetTimers q c s
  | .clkSetHoldover q c => Sys2Proof.Machine.execClkSetHoldover q c s
  | .clkSetTrim q ppt => Sys2Proof.Machine.execClkSetTrim q ppt s
  | .clkPhaseStep q ns => Sys2Proof.Machine.execClkPhaseStep q ns s
  | .clkRealign q c => Sys2Proof.Machine.execClkRealign q c s
  | .clkGetRef q index => Sys2Proof.Machine.execClkGetRef q index s
  | .governorUpdate => Sys2Proof.Machine.execGovernorUpdate s
  | .governorPoll ok mv => Sys2Proof.Machine.execGovernorPoll ok mv s
  | .governorWriteDone ok data => Sys2Proof.Machine.execGovernorWriteDone ok data s
  | .coreUv => Sys2Proof.Machine.execCoreUv s
  | .histLatchRead q => Sys2Proof.Machine.execHistLatchRead q s
  | .fabSetGovernor q c => Sys2Proof.Machine.execFabSetGovernor q c s
  | .fabSetEscalation q burst stall => Sys2Proof.Machine.execFabSetEscalation q burst stall s
  | .fabSetTelemetry q n w => Sys2Proof.Machine.execFabSetTelemetry q n w s
  | .fabClearTelemetry q => Sys2Proof.Machine.execFabClearTelemetry q s
  | .graphLoadChunk q c => Sys2Proof.Machine.execGraphLoadChunk q c s
  | .graphVerify q length => Sys2Proof.Machine.execGraphVerify q length s
  | .bankBuildComplete => Sys2Proof.Machine.execBankBuildComplete s
  | .reservationExpiry => Sys2Proof.Machine.execReservationExpiry s
  | .graphCommit q c => Sys2Proof.Machine.execGraphCommit q c s
  | .graphCancel q => Sys2Proof.Machine.execGraphCancel q s
  | .graphStatus q => Sys2Proof.Machine.execGraphStatus q s
  | .graphGetLayout q => Sys2Proof.Machine.execGraphGetLayout q s
  | .graphSetReservation q ms => Sys2Proof.Machine.execGraphSetReservation q ms s
  | .graphHalt q c => Sys2Proof.Machine.execGraphHalt q c s
  | .crossfadeEnd => Sys2Proof.Machine.execCrossfadeEnd s
  | .bankHaltEnd => Sys2Proof.Machine.execBankHaltEnd s
  | .nodeSetGain q c => Sys2Proof.Machine.execNodeSetGain q c s
  | .nodeSetTimeout q node ms => Sys2Proof.Machine.execNodeSetTimeout q node ms s
  | .gainZcTimeout e cell => Sys2Proof.Machine.execGainZcTimeout e cell s
  | .entryDispatch p entry => Sys2Proof.Machine.execEntryDispatch p entry s
  | .entryCompletion p entry => Sys2Proof.Machine.execEntryCompletion p entry s
  | .paramWriteWindow e => Sys2Proof.Machine.execParamWriteWindow e s
  | .farTransferComplete e inbound => Sys2Proof.Machine.execFarTransferComplete e inbound s
  | .mnop e rest => Sys2Proof.Machine.execMnop e rest s
  | .mpy e acc ty sa sb rest => Sys2Proof.Machine.execMpy e acc ty sa sb rest s
  | .mac e acc ty sa sb rest => Sys2Proof.Machine.execMac e acc ty sa sb rest s
  | .lda e acc ty sa rest => Sys2Proof.Machine.execLda e acc ty sa rest s
  | .adda e acc ty sa rest => Sys2Proof.Machine.execAdda e acc ty sa rest s
  | .sha e acc sh rest => Sys2Proof.Machine.execSha e acc sh rest s
  | .nrw e acc vd sh rest => Sys2Proof.Machine.execNrw e acc vd sh rest s
  | .dnrw e acc vd sh rest => Sys2Proof.Machine.execDnrw e acc vd sh rest s
  | .nrwc e acc vd sh rest => Sys2Proof.Machine.execNrwc e acc vd sh rest s
  | .nrwe e acc vd rest => Sys2Proof.Machine.execNrwe e acc vd rest s
  | .add e vd sa sb rest => Sys2Proof.Machine.execAdd e vd sa sb rest s
  | .sub e vd sa sb rest => Sys2Proof.Machine.execSub e vd sa sb rest s
  | .max e vd sa sb rest => Sys2Proof.Machine.execMax e vd sa sb rest s
  | .min e vd sa sb rest => Sys2Proof.Machine.execMin e vd sa sb rest s
  | .abs e vd sa rest => Sys2Proof.Machine.execAbs e vd sa rest s
  | .neg e vd sa rest => Sys2Proof.Machine.execNeg e vd sa rest s
  | .and e vd sa sb rest => Sys2Proof.Machine.execAnd e vd sa sb rest s
  | .or e vd sa sb rest => Sys2Proof.Machine.execOr e vd sa sb rest s
  | .xor e vd sa sb rest => Sys2Proof.Machine.execXor e vd sa sb rest s
  | .shl e vd sa n rest => Sys2Proof.Machine.execShl e vd sa n rest s
  | .shr e vd sa n rest => Sys2Proof.Machine.execShr e vd sa n rest s
  | .shv e vd sa sb rest => Sys2Proof.Machine.execShv e vd sa sb rest s
  | .norm e vd sa rest => Sys2Proof.Machine.execNorm e vd sa rest s
  | .expn e vd sa rest => Sys2Proof.Machine.execExpn e vd sa rest s
  | .sel e vd sa sb rest => Sys2Proof.Machine.execSel e vd sa sb rest s
  | .snop e rest => Sys2Proof.Machine.execSnop e rest s
  | .ldv e vd rest => Sys2Proof.Machine.execLdv e vd rest s
  | .st e vs lane rest => Sys2Proof.Machine.execSt e vs lane rest s
  | .cpy e rest => Sys2Proof.Machine.execCpy e rest s
  | .movv e vd vs rest => Sys2Proof.Machine.execMovv e vd vs rest s
  | .movsv e sd vs lane rest => Sys2Proof.Machine.execMovsv e sd vs lane rest s
  | .bcst e vd ss rest => Sys2Proof.Machine.execBcst e vd ss rest s
  | .waitf e dirs rest => Sys2Proof.Machine.execWaitf e dirs rest s
  | .lnop e rest => Sys2Proof.Machine.execLnop e rest s
  | .br e cond target rest => Sys2Proof.Machine.execBr e cond target rest s
  | .call e sd target rest => Sys2Proof.Machine.execCall e sd target rest s
  | .ret e ss rest => Sys2Proof.Machine.execRet e ss rest s
  | .addsi e sd ss imm rest => Sys2Proof.Machine.execAddsi e sd ss imm rest s
  | .alus e sd ss st op rest => Sys2Proof.Machine.execAlus e sd ss st op rest s
  | .mova e cls n sx dir rest => Sys2Proof.Machine.execMova e cls n sx dir rest s
  | .movc e sd src rest => Sys2Proof.Machine.execMovc e sd src rest s
  | .lds e sd rest => Sys2Proof.Machine.execLds e sd rest s
  | .sts e ss rest => Sys2Proof.Machine.execSts e ss rest s
  | .movvs e vd ss lane rest => Sys2Proof.Machine.execMovvs e vd ss lane rest s
  | .setdw e b rest => Sys2Proof.Machine.execSetdw e b rest s
  | .loop e ss len => Sys2Proof.Machine.execLoop e ss len s
  | .loopi e count len => Sys2Proof.Machine.execLoopi e count len s
  | .seta e cls n value => Sys2Proof.Machine.execSeta e cls n value s
  | .movi e sd imm => Sys2Proof.Machine.execMovi e sd imm s
  | .far e out toY pn ss lines => Sys2Proof.Machine.execFar e out toY pn ss lines s
  | .seed e ss => Sys2Proof.Machine.execSeed e ss s
  | .endEntry e => Sys2Proof.Machine.execEndEntry e s
  | .crnSetTrapEscalation q th => Sys2Proof.Machine.execCrnSetTrapEscalation q th s
  | .crnGetStatus q => Sys2Proof.Machine.execCrnGetStatus q s
  | .crnReadMem q engine mem addr count => Sys2Proof.Machine.execCrnReadMem q engine mem addr count s
  | .mtxSetGains q c => Sys2Proof.Machine.execMtxSetGains q c s
  | .mtxBulkArm q c => Sys2Proof.Machine.execMtxBulkArm q c s
  | .bulkArmCheckDone p => Sys2Proof.Machine.execBulkArmCheckDone p s
  | .mtxBulkCancel q => Sys2Proof.Machine.execMtxBulkCancel q s
  | .mtxSetColumn q col ms => Sys2Proof.Machine.execMtxSetColumn q col ms s
  | .mtxGetGains q col first count => Sys2Proof.Machine.execMtxGetGains q col first count s
  | .mtxGetStatus q => Sys2Proof.Machine.execMtxGetStatus q s
  | .mtxSetQuota q qs => Sys2Proof.Machine.execMtxSetQuota q qs s
  | .mtxZcTimeout col input => Sys2Proof.Machine.execMtxZcTimeout col input s
  | .stagingWindowWrite p offset bytes => Sys2Proof.Machine.execStagingWindowWrite p offset bytes s
  | .colPathTimeout m t addr write => Sys2Proof.Machine.execColPathTimeout m t addr write s
  | .patrolScrub word err => Sys2Proof.Machine.execPatrolScrub word err s
  | .colPortGate target port => Sys2Proof.Machine.execColPortGate target port s
  | .dmaRun q ch ctrl => Sys2Proof.Machine.execDmaRun q ch ctrl s
  | .dmaStop q ch ctrl => Sys2Proof.Machine.execDmaStop q ch ctrl s
  | .dmaDescFetch ch => Sys2Proof.Machine.execDmaDescFetch ch s
  | .dmaBurst ch => Sys2Proof.Machine.execDmaBurst ch s
  | .dmaRequest line => Sys2Proof.Machine.execDmaRequest line s
  | .dmaTimerEvent ch => Sys2Proof.Machine.execDmaTimerEvent ch s
  | .dmaMcntMatch ch => Sys2Proof.Machine.execDmaMcntMatch ch s
  | .dmaCompletion ch => Sys2Proof.Machine.execDmaCompletion ch s
  | .dmaErrorResponse addr write => Sys2Proof.Machine.execDmaErrorResponse addr write s
  | .dmaResume q => Sys2Proof.Machine.execDmaResume q s
  | .memSetScrub q period timeout => Sys2Proof.Machine.execMemSetScrub q period timeout s
  | .memGetStatus q => Sys2Proof.Machine.execMemGetStatus q s
  | .tdmSetGroup q c => Sys2Proof.Machine.execTdmSetGroup q c s
  | .tdmSetPort q c => Sys2Proof.Machine.execTdmSetPort q c s
  | .tdmSetRing q c => Sys2Proof.Machine.execTdmSetRing q c s
  | .tdmStageMask q c => Sys2Proof.Machine.execTdmStageMask q c s
  | .tdmCommit q mask => Sys2Proof.Machine.execTdmCommit q mask s
  | .tdmStart q mask => Sys2Proof.Machine.execTdmStart q mask s
  | .tdmStop q mask => Sys2Proof.Machine.execTdmStop q mask s
  | .tdmGetStatus q port => Sys2Proof.Machine.execTdmGetStatus q port s
  | .tdmFrameReceived port frame => Sys2Proof.Machine.execTdmFrameReceived port frame s
  | .fsyncTimeout port => Sys2Proof.Machine.execFsyncTimeout port s
  | .tdmSlaveLock port => Sys2Proof.Machine.execTdmSlaveLock port s
  | .tdmSyncLost port => Sys2Proof.Machine.execTdmSyncLost port s
  | .tdmGateTimeout port dir slot => Sys2Proof.Machine.execTdmGateTimeout port dir slot s
  | .tdmFadeEnd port dir slot => Sys2Proof.Machine.execTdmFadeEnd port dir slot s
  | .maskEpochChange port => Sys2Proof.Machine.execMaskEpochChange port s
  | .tdmPortRunning port => Sys2Proof.Machine.execTdmPortRunning port s
  | .tdmPortStopped port => Sys2Proof.Machine.execTdmPortStopped port s
  | .asrcLock group => Sys2Proof.Machine.execAsrcLock group s
  | .asrcRateMeasure group ofs => Sys2Proof.Machine.execAsrcRateMeasure group ofs s
  | .pwsSetStage q c => Sys2Proof.Machine.execPwsSetStage q c s
  | .pwsSetChannel q c => Sys2Proof.Machine.execPwsSetChannel q c s
  | .pwsStart q mask => Sys2Proof.Machine.execPwsStart q mask s
  | .pwsStop q mask => Sys2Proof.Machine.execPwsStop q mask s
  | .pwsMute q mask mute => Sys2Proof.Machine.execPwsMute q mask mute s
  | .pwsClear q mask => Sys2Proof.Machine.execPwsClear q mask s
  | .pwsGetStatus q channel => Sys2Proof.Machine.execPwsGetStatus q channel s
  | .pwsPreReleaseCheck ch fb isense => Sys2Proof.Machine.execPwsPreReleaseCheck ch fb isense s
  | .pwsUnmuteStart ch => Sys2Proof.Machine.execPwsUnmuteStart ch s
  | .muteStep ch => Sys2Proof.Machine.execMuteStep ch s
  | .pwsGatesOff ch => Sys2Proof.Machine.execPwsGatesOff ch s
  | .currentLimit ch => Sys2Proof.Machine.execCurrentLimit ch s
  | .limitShutdown ch => Sys2Proof.Machine.execLimitShutdown ch s
  | .retryDelayExpiry ch => Sys2Proof.Machine.execRetryDelayExpiry ch s
  | .retriesReset ch => Sys2Proof.Machine.execRetriesReset ch s
  | .dcWindow ch mv limited => Sys2Proof.Machine.execDcWindow ch mv limited s
  | .busUndervoltage vbus => Sys2Proof.Machine.execBusUndervoltage vbus s
  | .busOvervoltage vbus => Sys2Proof.Machine.execBusOvervoltage vbus s
  | .busRecovery vbus => Sys2Proof.Machine.execBusRecovery vbus s
  | .staggerLock ch locked => Sys2Proof.Machine.execStaggerLock ch locked s
  | .netSetPort q c => Sys2Proof.Machine.execNetSetPort q c s
  | .netSetSwitch q c => Sys2Proof.Machine.execNetSetSwitch q c s
  | .netFdbWrite q c => Sys2Proof.Machine.execNetFdbWrite q c s
  | .netVlanWrite q vid members taggedPorts => Sys2Proof.Machine.execNetVlanWrite q vid members taggedPorts s
  | .netSetFilter q c => Sys2Proof.Machine.execNetSetFilter q c s
  | .netSetRing q c => Sys2Proof.Machine.execNetSetRing q c s
  | .netTest q port mode => Sys2Proof.Machine.execNetTest q port mode s
  | .netGetStatus q port => Sys2Proof.Machine.execNetGetStatus q port s
  | .linkUp port remote => Sys2Proof.Machine.execLinkUp port remote s
  | .linkLoss port fault => Sys2Proof.Machine.execLinkLoss port fault s
  | .frameReceived port frame fcsOk t => Sys2Proof.Machine.execFrameReceived port frame fcsOk t s
  | .frameTransmit port fcsBad t frags => Sys2Proof.Machine.execFrameTransmit port fcsBad t frags s
  | .fdbAgeOut addr vlan domain => Sys2Proof.Machine.execFdbAgeOut addr vlan domain s
  | .preemptVerify port outcome => Sys2Proof.Machine.execPreemptVerify port outcome s
  | .pauseReceived port opcode quanta => Sys2Proof.Machine.execPauseReceived port opcode quanta s
  | .pauseExpiry port => Sys2Proof.Machine.execPauseExpiry port s
  | .pauseWatchdog port => Sys2Proof.Machine.execPauseWatchdog port s
  | .pauseReleaseEnd port => Sys2Proof.Machine.execPauseReleaseEnd port s
  | .pauseTxRepeat port => Sys2Proof.Machine.execPauseTxRepeat port s
  | .rxRingDelivery ring => Sys2Proof.Machine.execRxRingDelivery ring s
  | .netRingDoorbell q tx ring => Sys2Proof.Machine.execNetRingDoorbell q tx ring s
  | .txRingFrame ring => Sys2Proof.Machine.execTxRingFrame ring s
  | .ptpSetInstance q c => Sys2Proof.Machine.execPtpSetInstance q c s
  | .ptpSetPortTs q c => Sys2Proof.Machine.execPtpSetPortTs q c s
  | .ptpSetMaster q c => Sys2Proof.Machine.execPtpSetMaster q c s
  | .ptpAcceptJump q inst gm => Sys2Proof.Machine.execPtpAcceptJump q inst gm s
  | .ptpSetTime q sec => Sys2Proof.Machine.execPtpSetTime q sec s
  | .ptpSetTimeApply => Sys2Proof.Machine.execPtpSetTimeApply s
  | .ptpSetAlarm q c => Sys2Proof.Machine.execPtpSetAlarm q c s
  | .ptpCancelAlarm q alarm => Sys2Proof.Machine.execPtpCancelAlarm q alarm s
  | .ptpGetStatus q inst => Sys2Proof.Machine.execPtpGetStatus q inst s
  | .announceReceived inst a => Sys2Proof.Machine.execAnnounceReceived inst a s
  | .syncReceived inst m => Sys2Proof.Machine.execSyncReceived inst m s
  | .followUpReceived inst m => Sys2Proof.Machine.execFollowUpReceived inst m s
  | .followUpTimeout inst => Sys2Proof.Machine.execFollowUpTimeout inst s
  | .delayReqSend inst t => Sys2Proof.Machine.execDelayReqSend inst t s
  | .delayRespReceived inst m => Sys2Proof.Machine.execDelayRespReceived inst m s
  | .delayRespTimeout inst => Sys2Proof.Machine.execDelayRespTimeout inst s
  | .syncTimeout inst => Sys2Proof.Machine.execSyncTimeout inst s
  | .announceTimeout inst => Sys2Proof.Machine.execAnnounceTimeout inst s
  | .masterSyncSend inst t => Sys2Proof.Machine.execMasterSyncSend inst t s
  | .masterAnnounceSend inst => Sys2Proof.Machine.execMasterAnnounceSend inst s
  | .masterDelayReqReceived inst domain source seq correction t => Sys2Proof.Machine.execMasterDelayReqReceived inst domain source seq correction t s
  | .ppsEdge after => Sys2Proof.Machine.execPpsEdge after s
  | .ppsCaptureRead q => Sys2Proof.Machine.execPpsCaptureRead q s
  | .alarmFire alarm => Sys2Proof.Machine.execAlarmFire alarm s
  | .streamSetTx q ctx c => Sys2Proof.Machine.execStreamSetTx q ctx c s
  | .streamSetRx q ctx c => Sys2Proof.Machine.execStreamSetRx q ctx c s
  | .streamSetCs q ctx block => Sys2Proof.Machine.execStreamSetCs q ctx block s
  | .streamStart q dir ctx q0 wave => Sys2Proof.Machine.execStreamStart q dir ctx q0 wave s
  | .streamStop q dir ctx wave => Sys2Proof.Machine.execStreamStop q dir ctx wave s
  | .streamSetGroup q group delay => Sys2Proof.Machine.execStreamSetGroup q group delay s
  | .streamGetContext q dir ctx => Sys2Proof.Machine.execStreamGetContext q dir ctx s
  | .streamClear q dir ctx => Sys2Proof.Machine.execStreamClear q dir ctx s
  | .tapSet q c => Sys2Proof.Machine.execTapSet q c s
  | .tapGet q tap => Sys2Proof.Machine.execTapGet q tap s
  | .tapWindowEnd tap => Sys2Proof.Machine.execTapWindowEnd tap s
  | .packetLaunch ctx => Sys2Proof.Machine.execPacketLaunch ctx s
  | .mediaPacketReceived port frame t => Sys2Proof.Machine.execMediaPacketReceived port frame t s
  | .streamRxStopped ctx => Sys2Proof.Machine.execStreamRxStopped ctx s
  | .stmCtxStatRead q => Sys2Proof.Machine.execStmCtxStatRead q s
  | .sadPathDown ctx pathB => Sys2Proof.Machine.execSadPathDown ctx pathB s
  | .redSetPair q c => Sys2Proof.Machine.execRedSetPair q c s
  | .redSetShared q first es => Sys2Proof.Machine.execRedSetShared q first es s
  | .sadSetPathdown q n => Sys2Proof.Machine.execSadSetPathdown q n s
  | .redHandover q h => Sys2Proof.Machine.execRedHandover q h s
  | .redForceActive q confirm => Sys2Proof.Machine.execRedForceActive q confirm s
  | .redResync q => Sys2Proof.Machine.execRedResync q s
  | .redGetStatus q => Sys2Proof.Machine.execRedGetStatus q s
  | .claimWindowExpiry => Sys2Proof.Machine.execClaimWindowExpiry s
  | .heartbeatSend => Sys2Proof.Machine.execHeartbeatSend s
  | .heartbeatReceived path h => Sys2Proof.Machine.execHeartbeatReceived path h s
  | .silenceTimeout path => Sys2Proof.Machine.execSilenceTimeout path s
  | .norilLinkUp => Sys2Proof.Machine.execNorilLinkUp s
  | .norilLinkDown => Sys2Proof.Machine.execNorilLinkDown s
  | .norilWaveSend => Sys2Proof.Machine.execNorilWaveSend s
  | .norilWaveReceived frame => Sys2Proof.Machine.execNorilWaveReceived frame s
  | .norilWaveMissing => Sys2Proof.Machine.execNorilWaveMissing s
  | .sharedChannelFade index => Sys2Proof.Machine.execSharedChannelFade index s
  | .mirrorCmdReceived m => Sys2Proof.Machine.execMirrorCmdReceived m s
  | .mirrorReplyTimeout q => Sys2Proof.Machine.execMirrorReplyTimeout q s
  | .mirrorPeriodBoundary => Sys2Proof.Machine.execMirrorPeriodBoundary s
  | .mirrorRecReceived m => Sys2Proof.Machine.execMirrorRecReceived m s
  | .norilAckSend => Sys2Proof.Machine.execNorilAckSend s
  | .norilAckReceived seq => Sys2Proof.Machine.execNorilAckReceived seq s
  | .norilRetransmit => Sys2Proof.Machine.execNorilRetransmit s
  | .joinReceived => Sys2Proof.Machine.execJoinReceived s
  | .snapshotComplete wave snap => Sys2Proof.Machine.execSnapshotComplete wave snap s
  | .sysHello q newSession => Sys2Proof.Machine.execSysHello q newSession s
  | .sysGetInfo q => Sys2Proof.Machine.execSysGetInfo q s
  | .sysGetOwnership q => Sys2Proof.Machine.execSysGetOwnership q s
  | .sysProfileLoad q c => Sys2Proof.Machine.execSysProfileLoad q c s
  | .sysProfileErase q c => Sys2Proof.Machine.execSysProfileErase q c s
  | .sysProfileWrite q c => Sys2Proof.Machine.execSysProfileWrite q c s
  | .sysProfileSeal q n => Sys2Proof.Machine.execSysProfileSeal q n s
  | .sysProfileList q => Sys2Proof.Machine.execSysProfileList q s
  | .teardownReset sel => Sys2Proof.Machine.execTeardownReset sel s
  | .cmdDoorbell q m => Sys2Proof.Machine.execCmdDoorbell q m s
  | .udpCommandReceived port frame => Sys2Proof.Machine.execUdpCommandReceived port frame s
  | .commandExecutionEnd q => Sys2Proof.Machine.execCommandExecutionEnd q s
  | .cmdRstatRead q m => Sys2Proof.Machine.execCmdRstatRead q m s
  | .cmdAckReply q m => Sys2Proof.Machine.execCmdAckReply q m s
  | .cmdAckRing q m => Sys2Proof.Machine.execCmdAckRing q m s
  | .cmdAckAlarm q m => Sys2Proof.Machine.execCmdAckAlarm q m s
  | .mailboxPacketWrite q m word w => Sys2Proof.Machine.execMailboxPacketWrite q m word w s
  | .spiFrame bytes => Sys2Proof.Machine.execSpiFrame bytes s
  | .registerWrite q addr w whole => Sys2Proof.Machine.execRegisterWrite q addr w whole s
  | .wideLoRead q addr => Sys2Proof.Machine.execWideLoRead q addr s
  | .wideCounterLoWrite q addr w => Sys2Proof.Machine.execWideCounterLoWrite q addr w s
  | .wideCounterHiWrite q addr w => Sys2Proof.Machine.execWideCounterHiWrite q addr w s
  | .sysLock q bits => Sys2Proof.Machine.execSysLock q bits s
  | .cfgCrcCommit q => Sys2Proof.Machine.execCfgCrcCommit q s
  | .cfgCrcEnable q on => Sys2Proof.Machine.execCfgCrcEnable q on s
  | .cfgCrcPass result => Sys2Proof.Machine.execCfgCrcPass result s
  | .indDataRead q => Sys2Proof.Machine.execIndDataRead q s
  | .indDataWrite q w => Sys2Proof.Machine.execIndDataWrite q w s
  | .oscComparison b xo => Sys2Proof.Machine.execOscComparison b xo s
  | .sampleEdgeTimeout => Sys2Proof.Machine.execSampleEdgeTimeout s
  | .supWatchdog => Sys2Proof.Machine.execSupWatchdog s
  | .lktSupKick q w => Sys2Proof.Machine.execLktSupKick q w s
  | .supLockstep => Sys2Proof.Machine.execSupLockstep s
  | .summitCoreStop core1 => Sys2Proof.Machine.execSummitCoreStop core1 s
  | .signalPath src => Sys2Proof.Machine.execSignalPath src s
  | .sourceUnmask src => Sys2Proof.Machine.execSourceUnmask src s
  | .pairPulseTest failing => Sys2Proof.Machine.execPairPulseTest failing s
  | .faultReport src unit => Sys2Proof.Machine.execFaultReport src unit s
  | .escalationExpiry rec => Sys2Proof.Machine.execEscalationExpiry rec s
  | .claimTimeExpiry rec => Sys2Proof.Machine.execClaimTimeExpiry rec s
  | .notedExpiry rec => Sys2Proof.Machine.execNotedExpiry rec s
  | .lktClaim q rec => Sys2Proof.Machine.execLktClaim q rec s
  | .lktClear q rec => Sys2Proof.Machine.execLktClear q rec s
  | .coreRestartComplete digestOk => Sys2Proof.Machine.execCoreRestartComplete digestOk s
  | .fltGetStatus q => Sys2Proof.Machine.execFltGetStatus q s
  | .fltClaim q rec => Sys2Proof.Machine.execFltClaim q rec s
  | .fltClear q rec => Sys2Proof.Machine.execFltClear q rec s
  | .fltSetClass q src cls act => Sys2Proof.Machine.execFltSetClass q src cls act s
  | .fltSetTimers q esc claim sup => Sys2Proof.Machine.execFltSetTimers q esc claim sup s
  | .fltGetCounts q first count => Sys2Proof.Machine.execFltGetCounts q first count s
  | .secGetStatus q => Sys2Proof.Machine.execSecGetStatus q s
  | .secKeyProgram q c => Sys2Proof.Machine.execSecKeyProgram q c s
  | .secKeyRevoke q c => Sys2Proof.Machine.execSecKeyRevoke q c s
  | .secArbAdvance q c => Sys2Proof.Machine.execSecArbAdvance q c s
  | .secFwErase q copy => Sys2Proof.Machine.execSecFwErase q copy s
  | .secFwWrite q c => Sys2Proof.Machine.execSecFwWrite q c s
  | .secFwVerify q copy => Sys2Proof.Machine.execSecFwVerify q copy s
  | .secDebugChallenge q => Sys2Proof.Machine.execSecDebugChallenge q s
  | .secDebugUnlock q block => Sys2Proof.Machine.execSecDebugUnlock q block s
  | .secSetLock q bits => Sys2Proof.Machine.execSecSetLock q bits s
  | .debugNonceExpiry => Sys2Proof.Machine.execDebugNonceExpiry s
  | .drbgHealthFail => Sys2Proof.Machine.execDrbgHealthFail s
  | .privateJtagInstruction => Sys2Proof.Machine.execPrivateJtagInstruction s
  | .boundaryTestSelect => Sys2Proof.Machine.execBoundaryTestSelect s
  | .twGo q bus => Sys2Proof.Machine.execTwGo q bus s
  | .twAbort q bus => Sys2Proof.Machine.execTwAbort q bus s
  | .twTransactionStart bus => Sys2Proof.Machine.execTwTransactionStart bus s
  | .twTransactionEnd bus outcome => Sys2Proof.Machine.execTwTransactionEnd bus outcome s
  | .twRetryDelay bus => Sys2Proof.Machine.execTwRetryDelay bus s
  | .twStretchTimeout bus done freed => Sys2Proof.Machine.execTwStretchTimeout bus done freed s
  | .twSclStuckTimeout bus => Sys2Proof.Machine.execTwSclStuckTimeout bus s
  | .twStuckRecoveryRepeat bus freed => Sys2Proof.Machine.execTwStuckRecoveryRepeat bus freed s
  | .twAlertAssert bus => Sys2Proof.Machine.execTwAlertAssert bus s
  | .twAlertRelease bus => Sys2Proof.Machine.execTwAlertRelease bus s
  | .twAlertResponseRead bus byte => Sys2Proof.Machine.execTwAlertResponseRead bus byte s
  | .twtRead n => Sys2Proof.Machine.execTwtRead n s
  | .twtWrite bytes => Sys2Proof.Machine.execTwtWrite bytes s
  | .twtProtocolError => Sys2Proof.Machine.execTwtProtocolError s
  | .twtSclTimeout => Sys2Proof.Machine.execTwtSclTimeout s
  | .twtAlert q => Sys2Proof.Machine.execTwtAlert q s
  | .twtAlertResponse => Sys2Proof.Machine.execTwtAlertResponse s
  | .porstAssert => Sys2Proof.Machine.execPorstAssert s
  | .porstRelease sel iox settled => Sys2Proof.Machine.execPorstRelease sel iox settled s
  | .sysrstAssert => Sys2Proof.Machine.execSysrstAssert s
  | .sysrstRelease sel => Sys2Proof.Machine.execSysrstRelease sel s
  | .bootOtpSensed => Sys2Proof.Machine.execBootOtpSensed s
  | .tarnZeroFillDone => Sys2Proof.Machine.execTarnZeroFillDone s
  | .dramTrainingDone ok bytes rate => Sys2Proof.Machine.execDramTrainingDone ok bytes rate s
  | .dramEccInitDone => Sys2Proof.Machine.execDramEccInitDone s
  | .bootFwVerified => Sys2Proof.Machine.execBootFwVerified s
  | .bootProfileApplied b => Sys2Proof.Machine.execBootProfileApplied b s
  | .bootCommandNext => Sys2Proof.Machine.execBootCommandNext s
  | .bootAcquireWaitEnd => Sys2Proof.Machine.execBootAcquireWaitEnd s
  | .kaDeepOff q => Sys2Proof.Machine.execKaDeepOff q s
  | .kaRestart q => Sys2Proof.Machine.execKaRestart q s
  | .wake low => Sys2Proof.Machine.execWake low s
  | .pwrEnReassert => Sys2Proof.Machine.execPwrEnReassert s
  | .vkaPowerOn => Sys2Proof.Machine.execVkaPowerOn s
  | .testEn high sel => Sys2Proof.Machine.execTestEn high sel s
  | .pciePerst high => Sys2Proof.Machine.execPciePerst high s
  | .dramRetrain => Sys2Proof.Machine.execDramRetrain s
  | .illegalInstruction e word => Sys2Proof.Machine.execIllegalInstruction e word s
  | .peerOutcomeReport q => Sys2Proof.Machine.execPeerOutcomeReport q s
  | .coreWatchdogKick core1 => Sys2Proof.Machine.execCoreWatchdogKick core1 s
  | .pcieBar2Access p addr n data => Sys2Proof.Machine.execPcieBar2Access p addr n data s
  | .busStuckClear bus => Sys2Proof.Machine.execBusStuckClear bus s
  | .dmaRequestWithdrawal line => Sys2Proof.Machine.execDmaRequestWithdrawal line s

end Sys2Proof.Machine
end

