-- ==== Sys2Proof/Safety.lean ====
section
/-! DEFINITION. What a safe step is, and the invariant of every step. -/

namespace Sys2Proof.Machine

/-- The step at the front of the queue takes effect: it neither faults nor refuses. -/
def Safe (s : State) : Prop := ∃ t, step s = .next t

/-- The invariant of the model. Byte memory has its canonical form; there are four partitions, each with a session that is
not zero (R408), six references (R34), four network ports (R284) and four two-wire controllers (R493); and the reserved
bits of SYS_LOCK read 0 (R442). -/
structure Inv (s : State) : Prop where
  tarn : Memory.wf s.mem.tarn = true
  dram : Memory.wf s.mem.dram = true
  parts : s.cmds.length = 4
  sessions : ∀ c ∈ s.cmds, c.session ≠ 0
  refs : s.pst.refs.length = 6
  ports : s.net.ports.length = 4
  ctl : s.tw.ctl.length = 4
  locks : s.sys.lock &&& 0xFFFF_FE00#32 = 0#32

/-- The one-time-programmable store `b` holds all that `a` held: a programmed item keeps its value, a blown fuse stays blown
(R471, R481). -/
structure Otp.Grown (a b : Otp) : Prop where
  part : ∀ i, a.partProg.getLsbD i = true →
    b.partProg.getLsbD i = true ∧ Store.look 0 b.partKeys i = Store.look 0 a.partKeys i
  pair : ∀ i, a.pairProg.getLsbD i = true →
    b.pairProg.getLsbD i = true ∧ Store.look 0 b.pairKeys i = Store.look 0 a.pairKeys i
  img : ∀ i, a.imgProg.getLsbD i = true →
    b.imgProg.getLsbD i = true ∧ Store.look 0 b.imgHashes i = Store.look 0 a.imgHashes i
  partRevoked : ∀ i, a.partRevoked.getLsbD i = true → b.partRevoked.getLsbD i = true
  pairRevoked : ∀ i, a.pairRevoked.getLsbD i = true → b.pairRevoked.getLsbD i = true
  imgRevoked : ∀ i, a.imgRevoked.getLsbD i = true → b.imgRevoked.getLsbD i = true
  floor : a.floor ≤ b.floor
  debug : a.dbgDisable = true → b.dbgDisable = true
  device : b.deviceId = a.deviceId

/-- The parts of the state, the queue apart. -/
inductive Part where
  | lkt | pst | sys | cmds | own | sec | flash | boot | ka | pins | pws | tdm | fab | wave
  | rdg | crn | mtx | col | dma | net | ptp | stm | red | tw | mem | fresh
  deriving DecidableEq, Repr

/-- A part is the same in two states. -/
def Part.same (s t : State) : Part → Prop
  | .lkt => t.lkt = s.lkt
  | .pst => t.pst = s.pst
  | .sys => t.sys = s.sys
  | .cmds => t.cmds = s.cmds
  | .own => t.own = s.own
  | .sec => t.sec = s.sec
  | .flash => t.flash = s.flash
  | .boot => t.boot = s.boot
  | .ka => t.ka = s.ka
  | .pins => t.pins = s.pins
  | .pws => t.pws = s.pws
  | .tdm => t.tdm = s.tdm
  | .fab => t.fab = s.fab
  | .wave => t.wave = s.wave
  | .rdg => t.rdg = s.rdg
  | .crn => t.crn = s.crn
  | .mtx => t.mtx = s.mtx
  | .col => t.col = s.col
  | .dma => t.dma = s.dma
  | .net => t.net = s.net
  | .ptp => t.ptp = s.ptp
  | .stm => t.stm = s.stm
  | .red => t.red = s.red
  | .tw => t.tw = s.tw
  | .mem => t.mem = s.mem
  | .fresh => t.fresh = s.fresh

end Sys2Proof.Machine
end

