-- ==== Sys2Proof/WellFormed.lean ====
section
/-! DEFINITION. Well-formed commands: operands whose parts agree, as every command that the block can be sent has them.
The lengths are those of the payload tables; a payload of another length is refused with BAD_LENGTH before it becomes a
command (R411, R424). -/

namespace Sys2Proof

/-- The data of a packet's last field fits a packet of R406 that fits the mailbox. -/
def fitsPacket (head n : Nat) : Bool := decide (40 + head + n ≤ 4064)

/-- The checks of each command that has any. -/
def Instr.wellFormed : Instr → Bool
  | .disagreeWindow ms => ms.length == 6
  | .graphLoadChunk _ c => c.data.length == c.length.toNat && fitsPacket 8 c.data.length
  | .sysProfileWrite _ c => c.data.length == c.length.toNat && fitsPacket 12 c.data.length
  | .secFwWrite _ c => c.data.length == c.length.toNat && fitsPacket 12 c.data.length
  | .mtxSetGains _ c => fitsPacket 12 (8 * c.entries.length)
  | .mtxSetQuota _ qs => qs.length == 4
  | .redSetShared _ _ es => fitsPacket 4 (4 * es.length)
  | .streamSetCs _ _ block => block.length == 24
  | .secDebugUnlock _ block => block.length == 256
  | .tdmFrameReceived _ frame => decide (frame.words.length ≤ 32)
  | .stagingWindowWrite _ offset bytes => decide (offset.toNat + bytes.length ≤ 0x8000)
  | .pcieBar2Access _ _ n data => match data with
    | some bs => !bs.isEmpty
    | none => n != 0
  | .spiFrame bytes => decide (4 ≤ bytes.length)
  | .registerWrite _ addr _ whole => !whole || addr % 4 == 0
  | .wideLoRead _ addr => addr % 4 == 0
  | .wideCounterLoWrite _ addr _ => addr % 4 == 0
  | .wideCounterHiWrite _ addr _ => addr % 4 == 0
  | .twtWrite bytes => !bytes.isEmpty
  | .twTransactionEnd _ outcome => decide (outcome.read.length ≤ 32)
  | _ => true

end Sys2Proof
end

