-- ==== Sys2Proof/Certificates/Slice0/Obligations.lean ====
section
/-! DEFINITION. The statements about the model that the provers prove, with the few predicates that they share. -/

namespace Sys2Proof.Machine

/-- The slot of a sender. -/
def slotOf (q : Sender) (s : State) : CmdSlot := s.slot q.part.val (q.via == .udp)

/-- The state in which a sender's command runs: the command is in its slot (R413). -/
def opened (q : Sender) (b : Body) (s : State) : State := takeSlotFor q.part.val (q.via == .udp) b.opcode s

/-- The interpreter takes a command: the block is out of reset, the slot and its partition are free for it (R413, R417), the
partition is enabled and, over UDP, keyed (R411 step 2), and steps 7 and 8 of R411 find nothing against it. -/
def Accepts (s : State) (q : Sender) (b : Body) : Prop :=
  s.held = false ∧ startable s q.part.val (q.via == .udp) b.opcode = true
    ∧ partReach s q.part.val (q.via == .udp) = true
    ∧ refusal (opened q b s) false q.part.val b = none ∧ 1472 ≤ (slotOf q (opened q b s)).limit

/-- The state after a command that has run: `t` is its own effect on `opened q b s`, and `r` its reply. What follows is that
of every command: the reply or the unfinished work in the slot (R413), the configuration CRC (R444, R446), the report of
R487, and the copy for a peer (R388). -/
def closed (q : Sender) (b : Body) (r : Reply) (s t : State) : State :=
  slotRan q.part.val (q.via == .udp) b r (opened q b s) (carriedOut false q.part.val b r (opened q b s) t)

/-- The command row `i` runs `b` for `q` with effect `f` and reply `r`. -/
def Runs (i : Instr) (q : Sender) (b : Body) (s : State) (r : Reply) (f : State → State) : Prop :=
  exec i s = .next (closed q b r s (f (opened q b s)))

/-- A command row runs, answers OK and leaves everything as it was but its slot. -/
def Reads (i : Instr) (q : Sender) (b : Body) (s : State) : Prop := ∃ r, r.status = .ok ∧ Runs i q b s r id

/-- A write of a whole word to a register of the direct window is accepted (R414, R415, R433, R442). -/
def MayWrite (s : State) (q : Requester) (a : Nat) : Prop :=
  s.held = false ∧ present s q = true ∧ regAllowed s q a = true ∧ regLocked s a = false

/-- A requester reaches the direct window to read it. -/
def MayRead (s : State) (q : Requester) : Prop := s.held = false ∧ present s q = true

/-- The state in which a read has given `w` to its requester. -/
def given (q : Requester) (w : Word) (s : State) : State := onShadow q (fun x => { x with rdata := [w] }) s

/-- Engine `n` issues the word: it runs, its program and what the word reads hold no error, and the word breaks no rule
(R129, R151, R161). -/
def CanIssue (s : State) (n : Nat) (w : CWord) : Prop :=
  s.held = false ∧ (s.engine n).trapped = false ∧ (s.engine n).ended = false
    ∧ (s.engine n).bad.contains (s.engine n).progKey = false ∧ w.legal = true ∧ (s.engine n).movaBad w = false
    ∧ (((s.engine n).touched (readersOf w)).any fun k => (s.engine n).bad.contains k) = false

/-- The engine after a word of format A or B (R159, R160). -/
def Engine.after (e : Engine) : CWord → Engine
  | .a m x y z v => e.runA m x y z v
  | .b m x y v => e.runB m x y v
  | .c _ => e

/-- The word waits for far-port transfers (R147). -/
def wordWaits : CWord → Bool
  | .a _ _ _ _ (.waitf _) => true
  | _ => false

/-- A word of format A or B that waits for nothing changes its engine and nothing else, where the next index lies in the
half (R174). -/
def Issues (i : Instr) (n : Nat) (w : CWord) (s : State) : Prop :=
  CanIssue s n w → wordWaits w = false → ((s.engine n).after w).pc < 2048 →
    exec i s = .next (s.setEngine n ((s.engine n).after w))

end Sys2Proof.Machine

open Sys2Proof Sys2Proof.Machine

/-- FAB_SET_GOVERNOR, FAB_SET_ESCALATION, FAB_SET_TELEMETRY and FAB_CLEAR_TELEMETRY complete (R70, R76, R89, R90). -/
def Obligations.FabricCommandsComplete : Prop :=
  ∀ (s : State) (q : Sender),
    (∀ c, Accepts s q (bodyFabSetGovernor c) → fabGovernorOk c = true →
      Runs (.fabSetGovernor q c) q (bodyFabSetGovernor c) s (Reply.ok []) fun t =>
        { t with fab := t.fab.setGovernor (decide (c.mode.toNat = 1)) (govParamsOf c) })
    ∧ (∀ burst stall, Accepts s q (bodyFabSetEscalation burst stall) → 1 ≤ burst.toNat → burst.toNat ≤ 1000 →
        2 ≤ stall.toNat → stall.toNat ≤ 4800 →
      Runs (.fabSetEscalation q burst stall) q (bodyFabSetEscalation burst stall) s (Reply.ok []) fun t =>
        { t with fab := { t.fab with burstTh := burst.toNat, stallTh := stall.toNat } })
    ∧ (∀ n w, Accepts s q (bodyFabSetTelemetry n w) → 8 ≤ n.toNat → n.toNat ≤ 16 → 2 ≤ w.toNat → w.toNat ≤ 4096 →
        w.toNat % 2 = 0 → n.toNat ≠ s.fab.n →
      Runs (.fabSetTelemetry q n w) q (bodyFabSetTelemetry n w) s (Reply.ok []) fun t =>
        { t with fab := { t.fab with n := n.toNat, w := w.toNat, hist := [], winSum := 0, winCount := 0 } })
    ∧ (Accepts s q bodyFabClearTelemetry →
      Runs (.fabClearTelemetry q) q bodyFabClearTelemetry s (Reply.ok []) fun t =>
        { t with fab := { t.fab with slackMin := 0x7FFFFFFF, hist := [], winSum := 0, winCount := 0 } })

/-- The clock commands complete (R29, R39, R46, R48, R49, R56, R58): a setting takes effect at the next sample edge, or at
once in ACQUIRE. -/
def Obligations.ClockCommandsComplete : Prop :=
  ∀ (s : State) (q : Sender),
    (Accepts s q bodyClkGetStatus → Reads (.clkGetStatus q) q bodyClkGetStatus s)
    ∧ (∀ index, Accepts s q (bodyClkGetRef index) → index.toNat ≤ 5 →
      Reads (.clkGetRef q index) q (bodyClkGetRef index) s)
    ∧ (∀ code, Accepts s q (bodyClkSetRate code) → code.toNat ≤ 4 → code.toNat ≠ s.pst.rate →
        s.rdg.busyForRate = false → rateBreaksRef s.pst code.toNat = false →
      Runs (.clkSetRate q code) q (bodyClkSetRate code) s (Reply.ok []) fun t =>
        later (.rate code.toNat) (rateAccepted t))
    ∧ (∀ c, Accepts s q (bodyClkRefConfig c) → refConfigOk c s.pst.rate = true →
      Runs (.clkRefConfig q c) q (bodyClkRefConfig c) s (Reply.ok []) fun t =>
        later (.refConfig c.index.toNat (clkCfgOf c)) (withPst (fun p => p.applyRank t.time c.index.toNat c.rank.toNat) t))
    ∧ (∀ c, Accepts s q (bodyClkSelect c) → c.revertive.toNat ≤ 1 → c.mode = 1 → c.manual.toNat ≤ 5 →
      Runs (.clkSelect q c) q (bodyClkSelect c) s (Reply.ok []) fun t =>
        later (.select .manual c.manual.toNat (decide (c.revertive.toNat = 1))) t)
    ∧ (∀ c, Accepts s q (bodyClkSetTimers c) → clkTimersOk c = true →
      Runs (.clkSetTimers q c) q (bodyClkSetTimers c) s (Reply.ok []) fun t => later (.timers c) t)
    ∧ (∀ c, Accepts s q (bodyClkSetHoldover c) → clkHoldoverOk c = true →
      Runs (.clkSetHoldover q c) q (bodyClkSetHoldover c) s (Reply.ok []) fun t => later (.holdover c) t)
    ∧ (∀ ppt, Accepts s q (bodyClkSetTrim ppt) → ppt.toInt.natAbs ≤ 100000000 → s.pst.state = .freerun →
      Runs (.clkSetTrim q ppt) q (bodyClkSetTrim ppt) s (Reply.ok (le64 ppt)) fun t =>
        { t with pst := { t.pst with waiting := t.pst.waiting ++ [.trim ppt.toInt] } })
    ∧ (∀ ns, Accepts s q (bodyClkPhaseStep ns) → s.pst.state ≠ .acquire →
        (phaseAhead s.pst + ns.toInt).natAbs ≤ 10000000 →
      Runs (.clkPhaseStep q ns) q (bodyClkPhaseStep ns) s
        (Reply.ok (le32 (BitVec.ofInt 32 (phaseAhead s.pst + ns.toInt)))) fun t =>
        { t with pst := { t.pst with waiting := t.pst.waiting ++ [.phaseStep ns.toInt] } })
    ∧ (∀ c, Accepts s q (bodyClkRealign c) → c.method = 0 → 1 ≤ c.arg.toNat → c.arg.toNat ≤ 10000 →
        s.pst.phaseHeld = true → realigning s.pst = false →
      Runs (.clkRealign q c) q (bodyClkRealign c) s (realignReply s.pst) fun t =>
        later (.realign (.slew c.arg.toNat)) t)

/-- Polestar's events complete (R36, R37, R40 to R44, R50, R52): each with what it does to the references and the state. -/
def Obligations.ClockEventsComplete : Prop :=
  ∀ (s : State), s.held = false →
    (∀ (ref : Fin 6) m, (s.pst.ref ref.val).cfg.enable = true → (s.pst.ref ref.val).valid = false →
        s.pst.refs.length = 6 → (ref.val < 2 → ptpRefOk s ref.val = true) →
        m.fofs.toInt.natAbs ≤ s.pst.capture.toNat →
      ∃ t, exec (.referenceValid ref m) s = .next t ∧ (t.pst.ref ref.val).valid = true
        ∧ (t.pst.ref ref.val).validSince = s.time ∧ (t.pst.ref ref.val).fofs = m.fofs ∧ t = { s with pst := t.pst })
    ∧ (∀ (ref : Fin 6) m sec ns, s.pst.mode = .none → s.pst.state = .freerun → s.pst.refs.length = 6 →
        (s.pst.ref ref.val).cfg.enable = true → (s.pst.ref ref.val).valid = true → (s.pst.ref ref.val).qualified = false →
      ∃ t, exec (.referenceQualified ref m sec ns) s = .next t ∧ (t.pst.ref ref.val).qualified = true
        ∧ (t.pst.ref ref.val).qualSince = s.time ∧ (t.pst.ref ref.val).fofs = m.fofs ∧ t.pst.state = .freerun)
    ∧ (∀ (ref : Fin 6) present, (s.pst.ref ref.val).valid = false → s.pst.refs.length = 6 →
      ∃ t, exec (.referenceLost ref present) s = .next t ∧ t = { s with pst := t.pst }
        ∧ t.pst = s.pst.setRef ref.val { s.pst.ref ref.val with present := present })
    ∧ (s.pst.state = .acquire →
      ∃ t, exec .acquireWindowExpiry s = .next t ∧ t.pst.state = .freerun ∧ t.pst.mcnt = 0 ∧ t.pst.firstEdge = true
        ∧ t.pst.trim = s.pst.trim ∧ t.pst.selref = 7)
    ∧ (∀ ref : Fin 6, (s.pst.ref ref.val).wtrRun = true → s.pst.refs.length = 6 → s.pst.mode = .none →
        s.pst.state = .freerun →
      ∃ t, exec (.waitToRestoreExpiry ref) s = .next t ∧ (t.pst.ref ref.val).wtrRun = false
        ∧ (t.pst.ref ref.val).wtrDone = true)
    ∧ (s.pst.state = .freerun → s.pst.mode = .none →
      ∃ t, exec .slewComplete s = .next t ∧ t.pst.resid = 0 ∧ t.pst.stepLeft = 0 ∧ t.pst.state = .freerun
        ∧ t.ptp.moved = s.ptp.moved + (s.pst.resid - s.pst.stepShare s.pst.resid))
    ∧ (s.pst.state = .holdover → s.pst.hoNative = true → s.pst.outOfSpec = false →
      exec .holdoverSpecExpiry s = .next (reportOwn 0x028 { s with pst := { s.pst with outOfSpec := true } }))
    ∧ (∀ mean, s.pst.state = .locked → s.pst.secDirty = false → s.pst.slewing = false →
        (s.pst.ref s.pst.selref).valid = true →
      ∃ t, exec (.holdoverHistorySecond mean) s = .next t ∧ t = { s with pst := t.pst }
        ∧ t.pst.hist = ((s.time, mean.toInt) :: s.pst.hist).take 256 ∧ t.pst.loopWord = mean.toInt)
    ∧ (∀ ms, s.pst.refs.length = 6 →
      ∃ t, exec (.disagreeWindow ms) s = .next t
        ∧ (∀ (i : Fin 6) m, ms[i.val]? = some m → (t.pst.ref i.val).fofs = m.fofs)
        ∧ t.pst.state = s.pst.state ∧ t.pst.mcnt = s.pst.mcnt)

/-- The fabric's events complete (R27, R62, R68, R72 to R77, R79, R81 to R85, R152). -/
def Obligations.FabricEventsComplete : Prop :=
  ∀ (s : State), s.held = false →
    (s.pst.state ≠ .acquire → s.pst.waiting = [] → s.pst.realign = .idle → s.pst.firstEdge = false →
      ∃ u, u.mcnt = s.mcnt + 1 ∧ u = polestarEdge { s with lkt := { s.lkt with edgeLoss := false } }
        ∧ exec .sampleEdge s = .next (txEdge u.mcnt (ingress u.mcnt (teardownEdge u.mcnt
            (waveEdge u.mcnt (adoptionEdge u.mcnt (inStepEdge (handoverEdge u))))))))
    ∧ (∀ slack k, s.wave.running = some k → s.wave.waiting = none → slack.toInt < 0 →
      ∃ t, exec (.completionToken slack) s = .next t ∧ t.wave.running = none ∧ t.wave.tokenIn = false
        ∧ t.wave.fresh = none ∧ t.fab.slackLast = BitVec.ofInt 32 (clampInt (-(2 ^ 31 - 1)) (2 ^ 31 - 1) slack.toInt)
        ∧ t.crn.trapRun = (if s.wave.trapped then s.crn.trapRun + 1 else 0) ∧ t.mem = s.mem)
    ∧ (∀ slack k, s.wave.running = some k → s.wave.waiting = none → s.wave.trapped = false → 0 ≤ slack.toInt →
      exec (.completionToken slack) s = .next (txToken k (fun i => scale (imageWord (outputSnapshot s) i)
        (haltFactor (completionToken slack s) k)) (completionToken slack s)))
    ∧ (∀ parity, s.pst.state ≠ .acquire → s.wave.guarded = false → s.wave.expected = true →
      exec (.outputGuard parity) s = .next (guardWave s.mcnt (parity.map fun e => (e.1.val, e.2))
        { s with wave := { s.wave with guarded := true } }))
    ∧ (s.fab.missBurst s.time = true → exec .missBurst s = .next (reportOwn 0x042 s))
    ∧ (s.fab.stallTh ≤ s.fab.missRun.toNat → exec .fabricStall s = .next (reportOwn 0x043 s))
    ∧ (s.crn.trapStallTh ≤ s.crn.trapRun.toNat → exec .trapStall s = .next (reportOwn 0x05F s))
    ∧ (s.fab.govState = .tracking → s.fab.newParams = none → s.fab.auto = true → s.fab.queue = [] →
        s.fab.intervalMin = none →
      exec .governorUpdate s = .next { s with fab := s.fab })
    ∧ (s.fab.govState = .emergency → s.time < s.fab.emergAt + s.fab.params.recovery * 1000 →
      exec .governorUpdate s = .next { s with fab := { s.fab with intervalMin := none } })
    ∧ (∀ mv, s.fab.govState = .tracking → mv.toNat = s.fab.vcmd.toNat →
      exec (.governorPoll true mv) s = .next { s with fab := { s.fab with
        failures := 0, busFault := false, vread := mv, mismatchRun := 0, voutMismatch := false } })
    ∧ (∀ data, s.fab.xfer = some .writeVout → s.fab.waitingV = none → s.fab.queue = [] →
      ∃ t, exec (.governorWriteDone true data) s = .next t ∧ t.fab.writes = s.fab.writes + 1
        ∧ t.fab.settleUntil = s.time + s.fab.params.settle * 10 ∧ t.fab.xfer = none ∧ t.fab.failures = 0
        ∧ (t.twc 0).bus ≠ .governor)
    ∧ (∃ t, exec .coreUv s = .next t ∧ t = reportOwn 0x044 { s with fab := { s.fab with coreUv := true } }
        ∧ t.fab.coreUv = true)

/-- The graph and node commands complete (R101, R103, R109 to R111, R115, R116, R122). -/
def Obligations.GraphCommandsComplete : Prop :=
  ∀ (s : State) (q : Sender),
    (∀ c r, Accepts s q (bodyGraphLoadChunk c) → c.data.length = c.length.toNat → 4 ≤ c.length.toNat →
        c.length.toNat ≤ 4000 → c.length.toNat % 4 = 0 → regionOf s .staging q.part.val = some r →
        c.offset.toNat + c.length.toNat ≤ r.size →
      Runs (.graphLoadChunk q c) q (bodyGraphLoadChunk c) s (Reply.ok []) fun t =>
        { t with mem := t.mem.writeTarn (r.base + c.offset.toNat) c.data })
    ∧ (∀ length r, Accepts s q (bodyGraphVerify length) → verifyBusy s q.part.val = false →
        regionOf s .staging q.part.val = some r → length.toNat ≤ r.size → length.toNat ≤ 0x100000 →
        (s.rdg.bank s.rdg.shadow).state ≠ .ready →
      Runs (.graphVerify q length) q (bodyGraphVerify length) s { status := .pending, payload := [] } fun t =>
        { t with rdg := { t.rdg.setBank t.rdg.shadow { t.rdg.bank t.rdg.shadow with state := .building } with
            build := some (buildOf q.part.val (q.via == .udp) t.pst.rate
              (verifyImage (verifyCtx t q.part.val) (t.mem.readTarn r.base length.toNat) length.toNat))
            resPart := q.part.val, resRunning := false, lost := setBit t.rdg.lost q.part.val false } })
    ∧ (∀ c, Accepts s q (bodyGraphCommit c) → waveOk s c = true → s.rdg.commit = none → s.rdg.halt = none →
        stepWaiting s.pst = false → (s.rdg.bank s.rdg.shadow).state = .ready → s.rdg.resPart = q.part.val →
        (s.rdg.bank s.rdg.shadow).rate = s.pst.rate → (s.rdg.bank s.rdg.shadow).corner.toNat ≤ loadCeiling s.fs →
      Runs (.graphCommit q c) q (bodyGraphCommit c) s (Reply.ok (le32 (namedWave s c))) fun t =>
        { t with rdg := { t.rdg.setBank t.rdg.shadow { t.rdg.bank t.rdg.shadow with state := .pending } with
            commit := some { m := namedWave s c, n := c.n.toNat, part := q.part.val }, commitM := namedWave s c
            resRunning := false } })
    ∧ (∀ c, Accepts s q bodyGraphCancel → s.rdg.commit = some c → c.part = q.part.val → 2 ≤ ahead s c.m →
      Runs (.graphCancel q) q bodyGraphCancel s (Reply.ok []) fun t =>
        { t with rdg := { t.rdg.setBank t.rdg.shadow { t.rdg.bank t.rdg.shadow with state := .ready } with
            commit := none, resRunning := true } })
    ∧ (Accepts s q bodyGraphStatus → Reads (.graphStatus q) q bodyGraphStatus s)
    ∧ (Accepts s q bodyGraphGetLayout → (graphGetLayout q.part.val s).2.payload.length ≤ 1432 →
      Reads (.graphGetLayout q) q bodyGraphGetLayout s)
    ∧ (∀ ms, Accepts s q (bodyGraphSetReservation ms) → 100 ≤ ms.toNat → ms.toNat ≤ 10000 →
      Runs (.graphSetReservation q ms) q (bodyGraphSetReservation ms) s (Reply.ok []) fun t =>
        { t with rdg := { t.rdg with resMs := ms.toNat } })
    ∧ (∀ c, Accepts s q (bodyGraphHalt c) → waveOk s c = true → s.rdg.commit = none → s.rdg.xfade = none →
        s.rdg.halt = none → s.rdg.live.isSome = true →
      Runs (.graphHalt q c) q (bodyGraphHalt c) s (Reply.ok (le32 (namedWave s c))) fun t =>
        { t with rdg := { t.rdg with halt := some { h := namedWave s c, n := c.n.toNat, began := none } } })
    ∧ (∀ c n, Accepts s q (bodyNodeSetGain c) → liveNode s q.part.val c.node.toNat = some n →
        c.param.toNat < n.gainParams → c.maskFlag = 0 → c.a = 0 → n.channels = 1 → s.rdg.cellWrites = [] →
      ∃ r, r.status = .ok ∧ Runs (.nodeSetGain q c) q (bodyNodeSetGain c) s r fun t =>
        { t with rdg := { t.rdg with cellWrites := [
            { engine := n.place, addr := n.cellAddr c.param.toNat 0, part := q.part.val, node := n.id, gain := c.gain
              a := t.mcnt + 8, t := samplesOfMs t.fs (timeoutOf t q.part.val n), held := false }] } })
    ∧ (∀ node ms n, Accepts s q (bodyNodeSetTimeout node ms) → liveNode s q.part.val node.toNat = some n →
        0 < n.gainParams → ms.toNat ≤ 1000 →
      Runs (.nodeSetTimeout q node ms) q (bodyNodeSetTimeout node ms) s (Reply.ok []) fun t =>
        { t with rdg := { t.rdg with timeouts := (q.part.val, n.id, ms.toNat) ::
            (t.rdg.timeouts.filter fun x => !(x.1 == q.part.val && x.2.1 == n.id)) } })

/-- Ridge's own events complete (R101, R111, R112, R116, R154). -/
def Obligations.GraphEventsComplete : Prop :=
  ∀ (s : State), s.held = false →
    (∀ b parts corner total, s.rdg.build = some b → b.outcome = some (parts, corner, total) → b.programs = [] →
        b.inits = [] →
      exec .bankBuildComplete s = .next (giveResult b.part b.udp .graphVerify
        (Reply.ok (leBytes 2 0 ++ [BitVec.ofNat 8 (0x41 + s.rdg.shadow)] ++ leBytes 2 total))
        { keepPrograms b.part s.rdg.shadow s with
          rdg := { s.rdg.setBank s.rdg.shadow { state := .ready, parts := parts, corner := corner, rate := b.rate } with
            build := none, resPart := b.part, resRunning := true } }))
    ∧ (∀ b, s.rdg.build = some b → b.outcome = none → b.rejectNotOwner = false → b.rejectNoRes = false →
      ∃ t, exec .bankBuildComplete s = .next t ∧ t.rdg.build = none ∧ t.rdg.rejectCnt = s.rdg.rejectCnt + 1
        ∧ t.rdg.lastReject = b.reason ∧ t.rdg.lastRejectPart = b.part
        ∧ (t.rdg.bank s.rdg.shadow).state = .idle ∧ t.mem = s.mem)
    ∧ (exec .reservationExpiry s = .next { s with rdg := { s.rdg with resRunning := false } })
    ∧ (s.rdg.xfade.isSome = true → 0 ≤ serialDiff s.mcnt s.rdg.xfadeEnd →
      ∃ t, exec .crossfadeEnd s = .next t ∧ t.rdg.xfade = none
        ∧ ∀ b, s.rdg.live = some b → (t.rdg.bank b).parts = (s.rdg.bank b).parts.map BankPart.retire)
    ∧ (∀ h b, s.rdg.halt = some h → h.began = some (s.mcnt - BitVec.ofNat 32 h.n) → s.rdg.live = some b →
      ∃ t, exec .bankHaltEnd s = .next t ∧ t.rdg.live = none ∧ t.rdg.halt = none ∧ t.rdg.lastLive = some b
        ∧ (t.rdg.bank b).state = .idle)
    ∧ (∀ (e : Fin 24) (cell : Half), (s.engine e.val).pendValid cell.toNat = true →
        (s.engine e.val).ramping cell.toNat = false →
      exec (.gainZcTimeout e cell) s = .next (s.setEngine e.val ((s.engine e.val).putMem 3 (cell.toNat / 4 + 3)
        (((s.engine e.val).cellWord cell.toNat 3 &&& 0xFC000000#32) ||| 0x82))))

/-- The accumulator operations of the MAC-class slot issue (R139 to R141, R144, R159, R167, R168), whatever stands beside
them in the word. -/
def Obligations.CairnAccumulatorRowsComplete : Prop :=
  ∀ (s : State) (e : Fin 24),
    (∀ (rest : MacRest), Issues (.mnop e rest) e.val (rest.word .mnop) s)
    ∧ (∀ acc ty sa sb (rest : MacRest), Issues (.mpy e acc ty sa sb rest) e.val (rest.word (.mpy acc ty sa sb)) s)
    ∧ (∀ acc ty sa sb (rest : MacRest), Issues (.mac e acc ty sa sb rest) e.val (rest.word (.mac acc ty sa sb)) s)
    ∧ (∀ acc ty sa (rest : MacRest), Issues (.lda e acc ty sa rest) e.val (rest.word (.lda acc ty sa)) s)
    ∧ (∀ acc ty sa (rest : MacRest), Issues (.adda e acc ty sa rest) e.val (rest.word (.adda acc ty sa)) s)
    ∧ (∀ acc sh (rest : MacRest), Issues (.sha e acc sh rest) e.val (rest.word (.sha acc sh)) s)
    ∧ (∀ acc vd sh (rest : MacRest), Issues (.nrw e acc vd sh rest) e.val (rest.word (.nrw acc vd sh)) s)
    ∧ (∀ acc vd sh (rest : MacRest), Issues (.dnrw e acc vd sh rest) e.val (rest.word (.dnrw acc vd sh)) s)
    ∧ (∀ acc vd sh (rest : MacRest), Issues (.nrwc e acc vd sh rest) e.val (rest.word (.nrwc acc vd sh)) s)
    ∧ (∀ acc vd (rest : MacRest), Issues (.nrwe e acc vd rest) e.val (rest.word (.nrwe acc vd)) s)

/-- The lane operations of the MAC-class slot issue (R141, R163, R169, R170), whatever stands beside them in the word. -/
def Obligations.CairnLaneRowsComplete : Prop :=
  ∀ (s : State) (e : Fin 24),
    (∀ vd sa sb (rest : MacRest), Issues (.add e vd sa sb rest) e.val (rest.word (.add vd sa sb)) s)
    ∧ (∀ vd sa sb (rest : MacRest), Issues (.sub e vd sa sb rest) e.val (rest.word (.sub vd sa sb)) s)
    ∧ (∀ vd sa sb (rest : MacRest), Issues (.max e vd sa sb rest) e.val (rest.word (.max vd sa sb)) s)
    ∧ (∀ vd sa sb (rest : MacRest), Issues (.min e vd sa sb rest) e.val (rest.word (.min vd sa sb)) s)
    ∧ (∀ vd sa (rest : MacRest), Issues (.abs e vd sa rest) e.val (rest.word (.abs vd sa)) s)
    ∧ (∀ vd sa (rest : MacRest), Issues (.neg e vd sa rest) e.val (rest.word (.neg vd sa)) s)
    ∧ (∀ vd sa sb (rest : MacRest), Issues (.and e vd sa sb rest) e.val (rest.word (.and vd sa sb)) s)
    ∧ (∀ vd sa sb (rest : MacRest), Issues (.or e vd sa sb rest) e.val (rest.word (.or vd sa sb)) s)
    ∧ (∀ vd sa sb (rest : MacRest), Issues (.xor e vd sa sb rest) e.val (rest.word (.xor vd sa sb)) s)
    ∧ (∀ vd sa n (rest : MacRest), Issues (.shl e vd sa n rest) e.val (rest.word (.shl vd sa n)) s)
    ∧ (∀ vd sa n (rest : MacRest), Issues (.shr e vd sa n rest) e.val (rest.word (.shr vd sa n)) s)
    ∧ (∀ vd sa sb (rest : MacRest), Issues (.shv e vd sa sb rest) e.val (rest.word (.shv vd sa sb)) s)
    ∧ (∀ vd sa (rest : MacRest), Issues (.norm e vd sa rest) e.val (rest.word (.norm vd sa)) s)
    ∧ (∀ vd sa (rest : MacRest), Issues (.expn e vd sa rest) e.val (rest.word (.expn vd sa)) s)
    ∧ (∀ vd sa sb (rest : MacRest), Issues (.sel e vd sa sb rest) e.val (rest.word (.sel vd sa sb)) s)

/-- The short and the long moves issue, WAITF apart, and WAITF completes the transfers that it names (R147, R164 to R166,
R171, R172). -/
def Obligations.CairnMoveRowsComplete : Prop :=
  ∀ (s : State) (e : Fin 24),
    (∀ (rest : ShortRest), Issues (.snop e rest) e.val (rest.word .snop) s)
    ∧ (∀ vd (rest : ShortRest), Issues (.ldv e vd rest) e.val (rest.word (.ldv vd)) s)
    ∧ (∀ vs lane (rest : ShortRest), Issues (.st e vs lane rest) e.val (rest.word (.st vs lane)) s)
    ∧ (∀ (rest : ShortRest), Issues (.cpy e rest) e.val (rest.word .cpy) s)
    ∧ (∀ vd vs (rest : ShortRest), Issues (.movv e vd vs rest) e.val (rest.word (.movv vd vs)) s)
    ∧ (∀ sd vs lane (rest : ShortRest), Issues (.movsv e sd vs lane rest) e.val (rest.word (.movsv sd vs lane)) s)
    ∧ (∀ vd ss (rest : ShortRest), Issues (.bcst e vd ss rest) e.val (rest.word (.bcst vd ss)) s)
    ∧ (∀ dirs (rest : ShortRest), CanIssue s e.val (rest.word (.waitf dirs)) → (s.engine e.val).far = [] →
        ((s.engine e.val).after (rest.word (.waitf dirs))).pc < 2048 →
      exec (.waitf e dirs rest) s = .next (s.setEngine e.val ((s.engine e.val).after (rest.word (.waitf dirs)))))
    ∧ (∀ (rest : LongRest), Issues (.lnop e rest) e.val (rest.word .lnop) s)
    ∧ (∀ cond target (rest : LongRest), Issues (.br e cond target rest) e.val (rest.word (.br cond target)) s)
    ∧ (∀ sd target (rest : LongRest), Issues (.call e sd target rest) e.val (rest.word (.call sd target)) s)
    ∧ (∀ ss (rest : LongRest), Issues (.ret e ss rest) e.val (rest.word (.ret ss)) s)
    ∧ (∀ sd ss imm (rest : LongRest), Issues (.addsi e sd ss imm rest) e.val (rest.word (.addsi sd ss imm)) s)
    ∧ (∀ sd ss st op (rest : LongRest), Issues (.alus e sd ss st op rest) e.val (rest.word (.alus sd ss st op)) s)
    ∧ (∀ cls n sx dir (rest : LongRest), Issues (.mova e cls n sx dir rest) e.val (rest.word (.mova cls n sx dir)) s)
    ∧ (∀ sd src (rest : LongRest), Issues (.movc e sd src rest) e.val (rest.word (.movc sd src)) s)
    ∧ (∀ sd (rest : LongRest), Issues (.lds e sd rest) e.val (rest.word (.lds sd)) s)
    ∧ (∀ ss (rest : LongRest), Issues (.sts e ss rest) e.val (rest.word (.sts ss)) s)
    ∧ (∀ vd ss lane (rest : LongRest), Issues (.movvs e vd ss lane rest) e.val (rest.word (.movvs vd ss lane)) s)
    ∧ (∀ b (rest : LongRest), Issues (.setdw e b rest) e.val (rest.word (.setdw b)) s)

/-- The control operations issue, and the engine's own events take effect (R135, R144, R145, R147, R150, R151, R153, R161,
R173). -/
def Obligations.CairnControlRowsComplete : Prop :=
  ∀ (s : State) (n : Fin 24) (e : Engine), e = s.engine n.val → s.held = false →
    (∀ ss len, CanIssue s n.val (.c (.loop ss len)) → (e.sreg ss.toNat).toNat % 65536 ≠ 0 → e.loops.length < 3 →
        e.pc + (len.toNat + 1) ≤ 2047 →
      exec (.loop n ss len) s = .next (s.setEngine n.val (e.openLoop ((e.sreg ss.toNat).toNat % 65536) (len.toNat + 1))))
    ∧ (∀ count len, CanIssue s n.val (.c (.loopi count len)) → count.toNat ≠ 0 → e.loops.length < 3 →
        e.pc + (len.toNat + 1) ≤ 2047 →
      exec (.loopi n count len) s = .next (s.setEngine n.val (e.openLoop count.toNat (len.toNat + 1))))
    ∧ (∀ cls i value, CanIssue s n.val (.c (.seta cls i value)) → (e.advanceFrom e.pc).pc < 2048 →
      exec (.seta n cls i value) s = .next (s.setEngine n.val
        ((e.setAddr cls.toNat i.toNat (if cls = 1 then value.toInt else value.toNat)).advanceFrom e.pc)))
    ∧ (∀ sd imm, CanIssue s n.val (.c (.movi sd imm)) → (e.advanceFrom e.pc).pc < 2048 →
      exec (.movi n sd imm) s = .next (s.setEngine n.val ((e.setS sd.toNat imm).advanceFrom e.pc)))
    ∧ (∀ toY pn ss lines, CanIssue s n.val (.c (.far false toY pn ss lines)) → (e.advanceFrom e.pc).pc < 2048 → e.far = [] →
        farRangeOk (e.sreg ss.toNat).toNat (e.preg pn.toNat) (4 * (lines.toNat + 1)) = true →
        farDeny s n.val (e.sreg ss.toNat).toNat (4 * (lines.toNat + 1)) false = none →
        farRegionOk s n.val (e.sreg ss.toNat).toNat (4 * (lines.toNat + 1)) = true →
      exec (.far n false toY pn ss lines) s = .next (s.setEngine n.val { (e.advanceFrom e.pc) with
        far := [{ inbound := true, toY := toY, tarn := (e.sreg ss.toNat).toNat, loc := e.preg pn.toNat
                  words := 4 * (lines.toNat + 1) }] }))
    ∧ (∀ ss, CanIssue s n.val (.c (.seed ss)) → (e.advanceFrom e.pc).pc < 2048 →
      exec (.seed n ss) s = .next (s.setEngine n.val (({ e with
        nstate := Store.putAll 0 e.nstate 0 (lanes.map (seedLane (e.sreg ss.toNat) e.wave)) } : Engine).advanceFrom e.pc)))
    ∧ (CanIssue s n.val (.c .stop) → e.far = [] → e.pc < 2048 →
      exec (.endEntry n) s = .next (s.setEngine n.val { e with ended := true }))
    ∧ (∀ word, e.trapped = false → e.ended = false → CWord.decode word = none →
      exec (.illegalInstruction n word) s = .next (trap n.val .illegal s))
    ∧ (∀ x, e.far = [x] → x.inbound = true → s.mem.tarnBadIn x.tarn (4 * x.words) = false →
      exec (.farTransferComplete n true) s = .next (s.setEngine n.val { e.land s.mem x with far := [] }))
    ∧ (e.window = true → s.rdg.cells = [] → s.rdg.cellWrites = [] → exec (.paramWriteWindow n) s = .next s)
    ∧ (∀ (p : Fin 4) (i : Fin 4096) x, entryAt s p.val i.val = some x → entryReady s p.val i.val x = true →
        x.target = n.val → e.trapped = false → e.entry = none →
      exec (.entryDispatch p i) s = .next ((markDispatched s p.val i.val).setEngine n.val
        (e.dispatch n.val p.val i.val x (s.wave.running.getD 0) (liveHalf s) (fadeIndex s (s.wave.running.getD 0)) s.rdg.xfadeN)))
    ∧ (∀ (p : Fin 4) (i : Fin 4096) x, entryAt s p.val i.val = some x →
        s.wave.dispatched.contains (p.val, i.val) = true → s.entryDone p.val i.val = false → x.target = n.val →
        e.far = [] → e.trapped = false → e.ended = true →
      exec (.entryCompletion p i) s
        = .next (markDone (s.setEngine n.val (e.complete s.time x.last)) [(p.val, i.val)]))

/-- The Cairn commands complete (R152, R157, R158). -/
def Obligations.CairnCommandsComplete : Prop :=
  ∀ (s : State) (q : Sender),
    (∀ th, Accepts s q (bodyCrnSetTrapEscalation th) → 2 ≤ th.toNat → th.toNat ≤ 4800 →
      Runs (.crnSetTrapEscalation q th) q (bodyCrnSetTrapEscalation th) s (Reply.ok []) fun t =>
        { t with crn := { t.crn with trapStallTh := th.toNat } })
    ∧ (Accepts s q bodyCrnGetStatus → Reads (.crnGetStatus q) q bodyCrnGetStatus s)
    ∧ (∀ engine mem addr count, Accepts s q (bodyCrnReadMem engine mem addr count) → engine.toNat ≤ 23 → mem.toNat ≤ 2 →
        1 ≤ count.toNat → count.toNat ≤ 300 → addr.toNat + count.toNat ≤ 16384 →
      Runs (.crnReadMem q engine mem addr count) q (bodyCrnReadMem engine mem addr count) s
        (Reply.ok ((Store.slice 0 ((s.engine engine.toNat).mem (mem.toNat + 1)) addr.toNat count.toNat).flatMap le32)) id)

/-- What the accumulator and lane operations compute, lane by lane (R139 to R141, R167 to R170): the exact value narrows
to 80 bits in an accumulator and to 32 bits in a V register, saturating. -/
def Obligations.CairnLaneValues : Prop :=
  ∀ (e : Engine) (r0 r1 r2 : Lanes) (j : Nat), j < 4 →
    (∀ a t x y, (e.macSlot r0 r1 r2 (.mpy a t x y)).accReg a.toNat j
        = clampInt (-(2 ^ 79)) (2 ^ 79 - 1) (product t (e.operand r0 r1 r2 x j) (e.operand r0 r1 r2 y j)))
    ∧ (∀ a t x y, (e.macSlot r0 r1 r2 (.mac a t x y)).accReg a.toNat j
        = clampInt (-(2 ^ 79)) (2 ^ 79 - 1)
            (e.accReg a.toNat j + product t (e.operand r0 r1 r2 x j) (e.operand r0 r1 r2 y j)))
    ∧ (∀ a t x, (e.macSlot r0 r1 r2 (.adda a t x)).accReg a.toNat j
        = clampInt (-(2 ^ 79)) (2 ^ 79 - 1) (e.accReg a.toNat j + aligned t (e.operand r0 r1 r2 x j)))
    ∧ (∀ a d n, (e.macSlot r0 r1 r2 (.nrw a d n)).vreg d.toNat j
        = satS32 ((e.accReg a.toNat j * 2 ^ n.toNat).fdiv (2 ^ 31)))
    ∧ (∀ d x y, (e.macSlot r0 r1 r2 (.add d x y)).vreg d.toNat j
        = satS32 ((e.operand r0 r1 r2 x j).toInt + (e.operand r0 r1 r2 y j).toInt))
    ∧ (∀ d x y, (e.macSlot r0 r1 r2 (.sub d x y)).vreg d.toNat j
        = satS32 ((e.operand r0 r1 r2 x j).toInt - (e.operand r0 r1 r2 y j).toInt))
    ∧ (∀ d x y, (e.macSlot r0 r1 r2 (.and d x y)).vreg d.toNat j = e.operand r0 r1 r2 x j &&& e.operand r0 r1 r2 y j)
    ∧ (∀ d x, (e.macSlot r0 r1 r2 (.abs d x)).vreg d.toNat j = satS32 ((e.operand r0 r1 r2 x j).toInt.natAbs : Int))
    ∧ (∀ d x n, (e.macSlot r0 r1 r2 (.shl d x n)).vreg d.toNat j
        = satS32 ((e.operand r0 r1 r2 x j).toInt * 2 ^ n.toNat))
    ∧ (∀ d x y, (e.macSlot r0 r1 r2 (.sel d x y)).vreg d.toNat j
        = if 0 ≤ (e.operand r0 r1 r2 x j).toInt then e.operand r0 r1 r2 y j else e.vreg d.toNat j)

/-- Meridian's commands and events complete (R185 to R190, R198). -/
def Obligations.MatrixRowsComplete : Prop :=
  ∀ (s : State) (q : Sender),
    (∀ c a mode e, Accepts s q (bodyMtxSetGains c) → c.entries = [e] → c.reserved = 0 → c.reserved2 = 0 →
        mtxMode c.mode.toNat c.n.toNat = some mode → armedWave s c.a = some a →
        entryOk (meridianInputs s.pst.rate) e = true → s.mtx.chg (entryKey e) = false →
        slotsAfter s.mtx q.part.val [entryChange s q.part.val false a mode e] ≤ s.mtx.quota q.part.val →
      Runs (.mtxSetGains q c) q (bodyMtxSetGains c) s (Reply.ok (le32 a ++ leBytes 2 0)) fun t =>
        { t with mtx := t.mtx.accept (entryChange t q.part.val false a mode e) })
    ∧ (∀ c a mode, Accepts s q (bodyMtxBulkArm c) → mtxMode c.mode.toNat c.n.toNat = some mode →
        armedWave s c.a = some a → 1 ≤ c.count.toNat → c.count.toNat ≤ 4096 → c.reserved = 0 →
        s.mtx.arm q.part.val = none →
      Runs (.mtxBulkArm q c) q (bodyMtxBulkArm c) s { status := .pending, payload := [] } fun t =>
        { t with mtx := t.mtx.setArm q.part.val (some
            { a := a, mode := mode, count := c.count.toNat, checking := true, udp := q.via == .udp }) })
    ∧ (∀ (p : Fin 4) x, s.held = false → s.mtx.arm p.val = some x → x.checking = true →
        firstFailing s p.val x.count = none →
        slotsAfter s.mtx p.val ((List.range x.count).map fun i =>
          entryChange s p.val true x.a x.mode (stagedEntry s.mtx p.val i)) ≤ s.mtx.quota p.val →
      exec (.bulkArmCheckDone p) s = .next (giveResult p.val x.udp .bulkArm (Reply.ok (le32 x.a))
        { s with
          mtx := (((List.range x.count).map fun i =>
            entryChange s p.val true x.a x.mode (stagedEntry s.mtx p.val i)).foldl Mtx.accept s.mtx).setArm p.val
              (some { x with checking := false }) }))
    ∧ (∀ x, Accepts s q bodyMtxBulkCancel → s.mtx.arm q.part.val = some x → x.checking = false → 2 ≤ ahead s x.a →
      Runs (.mtxBulkCancel q) q bodyMtxBulkCancel s (Reply.ok []) fun t =>
        { t with mtx := ({ t.mtx with changes := t.mtx.changes.filter fun (c : Change) =>
            !(c.bulk && c.part == q.part.val && c.phase == .ahead) } : Mtx).setArm q.part.val none })
    ∧ (∀ col ms, Accepts s q (bodyMtxSetColumn col ms) → col.toNat < 512 → ms.toNat ≤ 1000 →
      Runs (.mtxSetColumn q col ms) q (bodyMtxSetColumn col ms) s (Reply.ok []) fun t =>
        { t with mtx := { t.mtx with zcTimeout := Store.put 10 t.mtx.zcTimeout col.toNat ms.toNat } })
    ∧ (∀ col first count, Accepts s q (bodyMtxGetGains col first count) → col.toNat < 512 → 1 ≤ count.toNat →
        count.toNat ≤ 350 → first.toNat + count.toNat ≤ meridianInputs s.pst.rate →
      Runs (.mtxGetGains q col first count) q (bodyMtxGetGains col first count) s
        (Reply.ok ((List.range count.toNat).flatMap fun i => le32 (s.mtx.word (2048 * col.toNat + first.toNat + i)))) id)
    ∧ (Accepts s q bodyMtxGetStatus → Reads (.mtxGetStatus q) q bodyMtxGetStatus s)
    ∧ (∀ a b c d : Half, Accepts s q (bodyMtxSetQuota [a, b, c, d]) → a.toNat + b.toNat + c.toNat + d.toNat ≤ 8192 →
        (∀ p, p < 4 → s.mtx.slotsOf p ≤ ([a.toNat, b.toNat, c.toNat, d.toNat].getD p 0)) →
      Runs (.mtxSetQuota q [a, b, c, d]) q (bodyMtxSetQuota [a, b, c, d]) s (Reply.ok []) fun t =>
        { t with mtx := { t.mtx with quotas := [a.toNat, b.toNat, c.toNat, d.toNat] } })
    ∧ (∀ (col : Fin 512) (input : Fin 2048) c, s.held = false → s.mtx.changes = [c] →
        c.key = 2048 * col.val + input.val → s.wave.running = none → c.expired s.mtx = true →
      exec (.mtxZcTimeout col input) s = .next { s with mtx := { s.mtx with
        zcCnt := s.mtx.zcCnt + 1
        changes := [{ c with
          phase := .ramping (c.a + BitVec.ofNat 32 c.timeout) 32 (s.mtx.inEffect c.key) }] } })
    ∧ (∀ (p : Fin 4) (offset : BitVec 15) bytes, s.held = false → s.mtx.arm p.val = none →
        offset.toNat + bytes.length ≤ 0x8000 →
      exec (.stagingWindowWrite p offset bytes) s = .next { s with mtx := { s.mtx with
        staging := Store.putAll 0 s.mtx.staging (0x8000 * p.val + offset.toNat) bytes } })

/-- The rows of Tarn and Col complete (R201, R202, R207, R210, R211, R230, R414). -/
def Obligations.MemoryRowsComplete : Prop :=
  ∀ (s : State), s.held = false →
    (∀ word, exec (.patrolScrub word .double) s = .next (tarnDbe (4 * word.toNat) { s with mem := s.mem.markBad word.toNat }))
    ∧ (∀ word, s.mem.tarnBad = [] → exec (.patrolScrub word .single) s
        = .next (reportOwn 0x060 { s with col := { s.col with corrCnt := s.col.corrCnt + 1 } }))
    ∧ (∀ word, s.mem.tarnBad = [] → exec (.patrolScrub word .none) s = .next s)
    ∧ (∀ port : Fin 20, s.wave.running = none → exec (.colPortGate true port) s
        = .next { s with col := { s.col with gatedTargets := setBit s.col.gatedTargets port.val true } })
    ∧ (∀ port : Fin 20, s.wave.running = none → exec (.colPortGate false port) s
        = .next { s with col := { s.col with gatedMasters := setBit s.col.gatedMasters port.val true } })
    ∧ (∀ (m : Fin 13) (t : Fin 20) addr write,
      ∃ u, exec (.colPathTimeout m t addr write) s
          = .next (masterError m.val t.val addr.toNat write (reportFault (if t.val < 16 ∨ t.val = 19 then 0x064 else 0x065)
              (BitVec.ofNat 16 t.val) u))
        ∧ u.col.timeoutCnt = s.col.timeoutCnt + 1 ∧ u.col.fenced = setBit s.col.fenced t.val true
        ∧ u.col.errTarget = t.val ∧ u.col.errMaster = m.val ∧ u.col.errKind = 3 ∧ u.col.errCnt = s.col.errCnt + 1)
    ∧ (∀ (p : Fin 4) addr n bs, present s (.pf p) = true → targetOf s addr.toNat < 16 →
        inHostRegion s p.val addr.toNat bs.length = true → s.col.gatedMasters = 0 → s.col.gatedTargets = 0 →
        s.col.fenced = 0 → s.mem.tarnBad = [] →
      exec (.pcieBar2Access p addr n (some bs)) s = .next { s with mem := s.mem.writeTarn addr.toNat bs })
    ∧ (∀ (p : Fin 4) addr (n : Half), present s (.pf p) = true → targetOf s addr.toNat < 16 →
        inHostRegion s p.val addr.toNat n.toNat = true → s.col.gatedMasters = 0 → s.col.gatedTargets = 0 →
        s.col.fenced = 0 → s.mem.tarnBad = [] →
      exec (.pcieBar2Access p addr n none) s = .next (onShadow (.pf p) (fun x => { x with
        rdata := busWords (((s.mem.readTarn addr.toNat n.toNat).length + 3) / 4) (s.mem.readTarn addr.toNat n.toNat) }) s))

/-- The rows of the DMA engine complete (R212 to R225). -/
def Obligations.DmaRowsComplete : Prop :=
  ∀ (s : State) (q : Requester) (ch : Fin 32) (c : DmaCh), c = s.dmaCh ch.val → s.held = false →
    (∀ ctrl, MayWrite s q (0x0800 + 0x40 * ch.val) → c.running = false →
      exec (.dmaRun q ch ctrl) s = .next ((s.setDmaCh ch.val { c with ctrl := ctrl &&& 0x0FFC#32 }).setDmaCh ch.val
        (({ c with ctrl := ctrl &&& 0x0FFC#32 } : DmaCh).start ch.val)))
    ∧ (∀ ctrl, MayWrite s q (0x0800 + 0x40 * ch.val) → c.running = true → c.linked = false →
      exec (.dmaStop q ch ctrl) s = .next ((s.setDmaCh ch.val { c with ctrl := ctrl &&& 0x0FFC#32 }).setDmaCh ch.val
        (({ c with ctrl := ctrl &&& 0x0FFC#32 } : DmaCh).halt 2)))
    ∧ (s.dma.stopped = false → c.phase = .fetch → dmaRangeOk s ch.val c.cur.toNat 32 false = true →
        targetOf s c.cur.toNat < 16 → s.mem.tarnBad = [] → s.col.fenced = 0 → s.col.gatedMasters = 0 →
        s.col.gatedTargets = 0 →
      exec (.dmaDescFetch ch) s = .next (takeDesc ch.val (s.mem.readTarn c.cur.toNat 32) s))
    ∧ (∀ u, burstReady s ch.val = true → c.badCode = none →
        dmaRangeOk s ch.val (c.mSrc + (c.mCount - c.remain.toNat)) (min c.burstBytes c.remain.toNat) false = true →
        dmaRangeOk s ch.val (c.mDst + (c.mCount - c.remain.toNat)) (min c.burstBytes c.remain.toNat) true = true →
        movePieces 4 (c.mSrc + (c.mCount - c.remain.toNat)) (c.mDst + (c.mCount - c.remain.toNat))
          (min c.burstBytes c.remain.toNat) (takeRequest c s) = (u, none) →
      exec (.dmaBurst ch) s = .next (u.setDmaCh ch.val { c with
        remain := c.remain - BitVec.ofNat 32 (min c.burstBytes c.remain.toNat)
        phase := if c.remain - BitVec.ofNat 32 (min c.burstBytes c.remain.toNat) = 0 then .complete else .move }))
    ∧ (∀ line : Fin 128,
      exec (.dmaRequest line) s = .next { s with dma := { s.dma with lines := setBit s.dma.lines line.val true } })
    ∧ (∀ line : Fin 128, s.dma.lines.getLsbD line.val = true → s.dma.ch = [] →
      exec (.dmaRequestWithdrawal line) s = .next { s with dma := { s.dma with lines := setBit s.dma.lines line.val false } })
    ∧ (c.evtKind = 0 → exec (.dmaTimerEvent ch) s = .next (s.setDmaCh ch.val c.event))
    ∧ (c.running = true → c.evtKind = 1 → c.tArmed = true → 0 ≤ serialDiff s.mcnt c.t →
      exec (.dmaMcntMatch ch) s = .next (s.setDmaCh ch.val { c.event with
        t := c.t + BitVec.ofNat 32 c.period, tArmed := decide (c.period ≠ 0) }))
    ∧ (s.dma.stopped = false → c.phase = .complete → c.mCount = 0 → c.linked = false →
      exec (.dmaCompletion ch) s = .next (signalDone ch.val (s.setDmaCh ch.val (c.halt 1))))
    ∧ (∀ addr write, exec (.dmaErrorResponse addr write) s = .next (reportOwn 0x068 { s with dma := { s.dma with
        stopped := true, errAddr := addr.toNat, errWrite := write, busErrCnt := s.dma.busErrCnt + 1
        ch := Store.mapAll DmaCh.init s.dma.ch fun _ x => if x.running then x.busStop else x } }))

/-- The memory commands complete (R202, R210, R223, R230). -/
def Obligations.MemoryCommandsComplete : Prop :=
  ∀ (s : State) (q : Sender),
    (Accepts s q bodyDmaResume → s.dma.stopped = true → s.dma.ch = [] →
      Runs (.dmaResume q) q bodyDmaResume s (Reply.ok (leBytes 4 0)) fun t => { t with dma := { t.dma with stopped := false } })
    ∧ (∀ period timeout, Accepts s q (bodyMemSetScrub period timeout) → 1 ≤ period.toNat → period.toNat ≤ 600 →
        2 ≤ timeout.toNat → timeout.toNat ≤ 1000 →
      Runs (.memSetScrub q period timeout) q (bodyMemSetScrub period timeout) s (Reply.ok []) fun t =>
        { t with col := { t.col with scrubPeriod := period.toNat, pathTimeout := timeout.toNat } })
    ∧ (Accepts s q bodyMemGetStatus → Reads (.memGetStatus q) q bodyMemGetStatus s)

/-- The TDM commands complete (R232 to R236, R241, R246 to R249, R258). -/
def Obligations.TdmCommandsComplete : Prop :=
  ∀ (s : State) (q : Sender),
    (∀ c, Accepts s q (bodyTdmSetGroup c) → c.group.toNat ≤ 7 → c.foreign = 0 → c.rate.toNat ≤ 4 →
        (∀ n, n ∈ portsOf c.group.toNat → (s.port n).state = .stopped) →
        asrcFits (fun h => if h = c.group.toNat then false else (s.group h).foreign) (masksDue s) = true →
      Runs (.tdmSetGroup q c) q (bodyTdmSetGroup c) s (Reply.ok []) fun t =>
        t.setGroup c.group.toNat { t.group c.group.toNat with
          foreign := false, frate := c.rate.toNat, asrcLock := false, fadeLeft := 0 })
    ∧ (∀ c, Accepts s q (bodyTdmSetPort c) → portParamsOk s c = true → masksWithin (s.port c.port.toNat) c.n.toNat = true →
        (s.port c.port.toNat).state = .stopped →
      Runs (.tdmSetPort q c) q (bodyTdmSetPort c) s (Reply.ok []) fun t =>
        t.setPort c.port.toNat (withParams (t.port c.port.toNat) c))
    ∧ (∀ c, Accepts s q (bodyTdmSetRing c) → c.port.toNat < 64 → c.ringSlots = 1 → c.depth = 2 → c.base.toNat % 16 = 0 →
        c.dmaReqEn = 0 → c.reqFrames = 1 → popcount (s.port c.port.toNat).rxMask ≤ 1 →
        popcount (s.port c.port.toNat).stageRx ≤ 1 → popcount (s.port c.port.toNat).due.1 ≤ 1 → c.base.toNat + 64 ≤ 0x0200_0000 →
        inOwnRegion s q.part.val c.base.toNat 64 = true → (s.port c.port.toNat).state = .stopped →
      Runs (.tdmSetRing q c) q (bodyTdmSetRing c) s (Reply.ok []) fun t =>
        t.setPort c.port.toNat { t.port c.port.toNat with
          ringSet := true, ringBase := c.base.toNat, ringSlots := 1, depth := 2, dmaReqEn := false, reqFrames := 1
          reqCount := 0 })
    ∧ (∀ c, Accepts s q (bodyTdmStageMask c) → c.port.toNat ≤ 63 → maskOver c.rx (s.port c.port.toNat).n = false →
        maskOver c.tx (s.port c.port.toNat).n = false → popcount c.rx ≤ maxSlots (portRate s c.port.toNat) →
        popcount c.tx ≤ maxSlots (portRate s c.port.toNat) →
        ((s.port c.port.toNat).ringSet = true → popcount c.rx ≤ (s.port c.port.toNat).ringSlots) →
      Runs (.tdmStageMask q c) q (bodyTdmStageMask c) s (Reply.ok []) fun t =>
        t.setPort c.port.toNat { t.port c.port.toNat with stageRx := c.rx, stageTx := c.tx })
    ∧ (∀ mask, Accepts s q (bodyTdmCommit mask) → (∀ n, n ∈ bitsOf mask → (s.port n).busy = false) →
        asrcFits (fun g => (s.group g).foreign) (fun n =>
          if (bitsOf mask).contains n then ((s.port n).stageRx, (s.port n).stageTx) else masksDue s n) = true →
      Runs (.tdmCommit q mask) q (bodyTdmCommit mask) s (Reply.ok []) fun t => (bitsOf mask).foldl commitPort t)
    ∧ (∀ mask, Accepts s q (bodyTdmStart mask) →
        (∀ n, n ∈ bitsOf mask → (s.port n).busy = false ∧ startOk s n = true) →
      Runs (.tdmStart q mask) q (bodyTdmStart mask) s (Reply.ok []) fun t => (bitsOf mask).foldl startPort t)
    ∧ (∀ mask, Accepts s q (bodyTdmStop mask) → (∀ n, n ∈ bitsOf mask → (s.port n).busy = false) →
      Runs (.tdmStop q mask) q (bodyTdmStop mask) s (Reply.ok []) fun t => (bitsOf mask).foldl stopPort t)
    ∧ (∀ port, Accepts s q (bodyTdmGetStatus port) → port.toNat ≤ 63 →
      Reads (.tdmGetStatus q port) q (bodyTdmGetStatus port) s)

/-- The TDM ports' own events complete (R240, R242, R246 to R249, R253, R254). -/
def Obligations.TdmEventsComplete : Prop :=
  ∀ (s : State) (n : Fin 64) (p : Port), p = s.port n.val → s.held = false →
    (∀ f, p.state = .running → isSlave s n.val = false →
      exec (.tdmFrameReceived n f) s = .next (passFrame n.val f s))
    ∧ (∀ f, p.state = .running → isSlave s n.val = true → p.locked = true → f.bitClocks.toNat = p.l →
        inPhase s n.val f.phase = false →
      exec (.tdmFrameReceived n f) s = .next (frameError n.val f.k true s))
    ∧ (isSlave s n.val = true → p.state = .running → p.locked = true →
      exec (.fsyncTimeout n) s = .next (frameError n.val (s.mcnt - 1) false s))
    ∧ (isSlave s n.val = true → p.state = .starting → p.locked = false → 4 ≤ p.goodRun →
        (s.group (groupOfPort n.val)).foreign = false →
      exec (.tdmSlaveLock n) s = .next (s.setPort n.val
        (({ p with locked := true, errRun := 0, searchCount := 32, txHold := false } : Port).openGates)))
    ∧ (isSlave s n.val = true → p.locked = true → 4 ≤ p.errRun → (s.group (groupOfPort n.val)).foreign = false →
      exec (.tdmSyncLost n) s = .next (reportFault (0x080 + groupOfPort n.val) (BitVec.ofNat 16 n.val)
        (s.setPort n.val { p.shutGates with
          locked := false, goodRun := 0, searchCount := 0, txHold := false, syncLost := satInc p.syncLost
          commit := p.commit.map fun c => (c.1, c.2.1, MaskWhen.relock) })))
    ∧ (∀ slot : Fin 32, (p.txSlot slot.val).gate = .opening →
      exec (.tdmGateTimeout n .tx slot) s = .next ((s.setPort n.val { p with
          tx := Store.put Slot.init p.tx slot.val { p.txSlot slot.val with gate := .fadeIn 0 } }).setGroup (groupOfPort n.val)
        { s.group (groupOfPort n.val) with zcCnt := (s.group (groupOfPort n.val)).zcCnt + 1 }))
    ∧ (∀ slot : Fin 32, (p.rxSlot slot.val).gate = .fadeOut 32 →
      ∃ t, exec (.tdmFadeEnd n .rx slot) s = .next t ∧ ((t.port n.val).rxSlot slot.val).gate = .closed
        ∧ ((t.port n.val).rxSlot slot.val).last = (p.rxSlot slot.val).last
        ∧ ∀ m, m ≠ n.val → t.port m = s.port m)
    ∧ (∀ rx tx, p.commit = some (rx, tx, .silencing) → allClosed p.rx (p.rxMask &&& ~~~rx) = true →
        allClosed p.tx (p.txMask &&& ~~~tx) = true →
      ∃ t, exec (.maskEpochChange n) s = .next t ∧ t = s.setPort n.val (p.takeMasks rx tx)
        ∧ (t.port n.val).rxMask = rx ∧ (t.port n.val).txMask = tx ∧ (t.port n.val).epoch = p.epoch + 1
        ∧ (t.port n.val).commit = none)
    ∧ (p.state = .starting → inSearch s n.val = false → allOpen p.rx p.rxMask = true → allOpen p.tx p.txMask = true →
      exec (.tdmPortRunning n) s = .next (s.setPort n.val { p with state := .running }))
    ∧ (p.state = .stopping → allClosed p.rx p.rxMask = true → allClosed p.tx p.txMask = true →
      exec (.tdmPortStopped n) s = .next (s.setPort n.val { p with
        state := .stopped, locked := false, goodRun := 0, errRun := 0, txHold := false
        commit := p.commit.map fun c => (c.1, c.2.1, MaskWhen.atStart) }))
    ∧ (∀ g : Fin 8, (s.group g.val).foreign = true → (s.group g.val).asrcLock = false → timingPort s g.val = some n.val →
        p.locked = true →
      exec (.asrcLock g) s = .next ((portsOf g.val).foldl
        (fun t m => if (t.port m).locked then t.setPort m (t.port m).openGates else t)
        (s.setGroup g.val { s.group g.val with asrcLock := true, fadeLeft := 0 })))
    ∧ (∀ (g : Fin 8) ofs, (s.group g.val).foreign = false →
      exec (.asrcRateMeasure g ofs) s = .next (s.setGroup g.val { s.group g.val with ofs := ofs }))

/-- The power-stage commands complete (R271 to R273, R279, R283). -/
def Obligations.PowerCommandsComplete : Prop :=
  ∀ (s : State) (q : Sender),
    (∀ c, Accepts s q (bodyPwsSetStage c) → 350 ≤ c.f0.toNat → c.f0.toNat ≤ 600 → 100 ≤ c.uv.toNat → c.uv.toNat ≤ 1400 →
        200 ≤ c.ov.toNat → c.ov.toNat ≤ 1600 → c.uv.toNat + 100 ≤ c.ov.toNat →
        (∀ n, n < 16 → (s.pwsCh n).state = .off ∨ (s.pwsCh n).state = .latched) →
      Runs (.pwsSetStage q c) q (bodyPwsSetStage c) s (Reply.ok []) fun t =>
        { t with pws := { t.pws with
          idleKhz := c.f0.toNat, divider := c.divider.toNat, uv := c.uv.toNat, ov := c.ov.toNat } })
    ∧ (∀ c x, x = s.pwsCh c.channel.toNat → Accepts s q (bodyPwsSetChannel c) → c.channel.toNat < 16 → c.retries.toNat < 16 →
        1000 ≤ c.d.toNat → c.d.toNat ≤ 17000 → 50 ≤ c.limit.toNat → c.limit.toNat ≤ 780 → 50 ≤ c.dcTh.toNat →
        c.dcTh.toNat ≤ 2000 → 50 ≤ c.dcTime.toNat → c.dcTime.toNat ≤ 2000 → c.dcTime.toNat % 10 = 0 →
        100 ≤ c.retryDelay.toNat → c.retryDelay.toNat ≤ 10000 → (x.state = .off ∨ x.state = .latched) →
      Runs (.pwsSetChannel q c) q (bodyPwsSetChannel c) s (Reply.ok []) fun t =>
        t.setPwsCh c.channel.toNat { x with
          maxRetries := c.retries.toNat, d := c.d.toNat, limit := c.limit.toNat, dcTh := c.dcTh.toNat
          dcTime := c.dcTime.toNat, retryDelay := c.retryDelay.toNat })
    ∧ (∀ mask, Accepts s q (bodyPwsStart mask) → (∀ n, n ∈ bitsOf mask → (s.pwsCh n).state = .off) →
      Runs (.pwsStart q mask) q (bodyPwsStart mask) s { status := .pending, payload := [] } fun t =>
        (bitsOf mask).foldl beginStart t)
    ∧ (∀ mask, Accepts s q (bodyPwsStop mask) →
      Runs (.pwsStop q mask) q (bodyPwsStop mask) s (Reply.ok []) fun t => (bitsOf mask).foldl stopChannel t)
    ∧ (∀ mask m, Accepts s q (bodyPwsMute mask m) → m.toNat ≤ 1 →
      Runs (.pwsMute q mask m) q (bodyPwsMute mask m) s (Reply.ok []) fun t =>
        (bitsOf mask).foldl (fun u c => u.setPwsCh c { u.pwsCh c with hostMute := m == 1 }) t)
    ∧ (∀ mask, Accepts s q (bodyPwsClear mask) → (∀ n, n ∈ bitsOf mask → (s.pwsCh n).state = .latched) →
      Runs (.pwsClear q mask) q (bodyPwsClear mask) s (Reply.ok []) fun t =>
        (bitsOf mask).foldl (fun u c => u.setPwsCh c { (u.pwsCh c).gatesLow .off with retries := 0, latchCause := 0 }) t)
    ∧ (∀ c, Accepts s q (bodyPwsGetStatus c) → c.toNat < 16 →
      Reads (.pwsGetStatus q c) q (bodyPwsGetStatus c) s)

/-- The power stage's own events complete (R268, R269, R272 to R275, R277, R278). -/
def Obligations.PowerEventsComplete : Prop :=
  ∀ (s : State) (c : Fin 16) (x : PwsCh), x = s.pwsCh c.val → s.held = false →
    (∀ fb isense : Word, x.state = .starting → x.stage = .check → fb.toInt.natAbs ≤ 50 → (isense.toInt - 900).natAbs ≤ 50 →
      ∃ t, exec (.pwsPreReleaseCheck c fb isense) s = .next t ∧ t.pws.staggerRef = true
        ∧ t.pwsCh c.val = { x with stage := .hold, released := true, dcOver := 0 })
    ∧ (∀ fb isense : Word, x.state = .starting → x.stage = .check → 50 < fb.toInt.natAbs →
      exec (.pwsPreReleaseCheck c fb isense) s = .next (s.setPwsCh c.val { x.gatesLow .off with startFailed := true }))
    ∧ (x.state = .starting → x.stage = .hold →
      exec (.pwsUnmuteStart c) s = .next (s.setPwsCh c.val { x with stage := .unmute }))
    ∧ (x.released = true → x.state = .playing → muteHeldOn s c.val = true → 0 < x.gain →
      exec (.muteStep c) s = .next (s.setPwsCh c.val { x with gain := x.gain - 1 }))
    ∧ (x.released = true → x.state = .starting → x.stage = .unmute → muteHeldOn s c.val = false → x.gain = 31 →
      exec (.muteStep c) s = .next (s.setPwsCh c.val { x with gain := 32, state := .playing }))
    ∧ (x.state = .stopping → x.gain = 0 → x.stopTo = .off →
      exec (.pwsGatesOff c) s = .next (s.setPwsCh c.val (x.gatesLow .off)))
    ∧ (x.state = .stopping → x.gain = 0 → x.stopTo = .latchedDc →
      exec (.pwsGatesOff c) s = .next (latch c.val 2 s))
    ∧ (x.released = true →
      exec (.currentLimit c) s = .next (s.setPwsCh c.val { x with halfOff := true, limiting := true }))
    ∧ (x.released = true → x.state = .playing → x.retries < x.maxRetries →
      ∃ t, exec (.limitShutdown c) s = .next t ∧ (t.pwsCh c.val).state = .retryWait
        ∧ (t.pwsCh c.val).limitShutCnt = x.limitShutCnt + 1 ∧ (t.pwsCh c.val).released = false
        ∧ (t.pwsCh c.val).gain = 0)
    ∧ (x.released = true → x.state = .playing → x.maxRetries ≤ x.retries →
      ∃ t, exec (.limitShutdown c) s = .next t ∧ (t.pwsCh c.val).state = .latched ∧ (t.pwsCh c.val).latchCause = 1)
    ∧ (x.state = .retryWait → busBad s = false →
      ∃ t, exec (.retryDelayExpiry c) s = .next t ∧ (t.pwsCh c.val).state = .starting
        ∧ (t.pwsCh c.val).retries = x.retries + 1 ∧ ∀ d, d ≠ c.val → t.pwsCh d = s.pwsCh d)
    ∧ (x.state = .playing → exec (.retriesReset c) s = .next (s.setPwsCh c.val { x with retries := 0 }))
    ∧ (∀ (mv : Word) limited, x.released = true → mv.toInt.natAbs ≤ 10 * x.dcTh → 0 < x.dcTime →
      exec (.dcWindow c mv limited) s = .next (s.setPwsCh c.val
        { x with dc := mv, dcOver := 0, limiting := limited, halfOff := false }))
    ∧ (∀ lock, x.released = true →
      exec (.staggerLock c lock) s = .next (s.setPwsCh c.val { x with staggerLock := lock }))

/-- The bus conditions complete (R271, R278). -/
def Obligations.PowerBusEventsComplete : Prop :=
  ∀ (s : State) (v : Half), s.held = false →
    (∃ t, exec (.busUndervoltage v) s = .next t ∧ t.pws.busUv = true ∧ t.pws.vbus = v
      ∧ ∀ c, (s.pwsCh c).state = .off → t.pwsCh c = s.pwsCh c)
    ∧ (∃ t, exec (.busOvervoltage v) s = .next t ∧ t.pws.busOv = true ∧ t.pws.vbus = v
      ∧ ∀ c, c < 16 → (s.pwsCh c).state = .playing → (t.pwsCh c).state = .busWait ∧ (t.pwsCh c).released = false)
    ∧ (∃ t, exec (.busRecovery v) s = .next t ∧ t.pws.busUv = false ∧ t.pws.busOv = false ∧ t.pws.vbus = v
      ∧ ∀ c, c < 16 → (s.pwsCh c).state = .busWait → (s.pwsCh c).wasStopping = false →
        (t.pwsCh c).state = .starting)

/-- The network commands complete (R284, R291, R292, R299, R302, R306, R308, R313). -/
def Obligations.NetworkCommandsComplete : Prop :=
  ∀ (s : State) (q : Sender),
    (∀ c, Accepts s q (bodyNetSetPort c) → netPortOk c = true → (s.netPort c.port.toNat).linkUp = false →
      Runs (.netSetPort q c) q (bodyNetSetPort c) s (Reply.ok []) fun t =>
        pauseCheck (t.setNetPort c.port.toNat { t.netPort c.port.toNat with
          enabled := c.enable.toNat == 1, speed := c.speed.toNat, fec := c.fec.toNat, maxFrame := c.maxFrame.toNat
          preempt := c.preempt.toNat == 1
          preemptActive := (t.netPort c.port.toNat).preemptActive && c.preempt.toNat == 1, addFrag := c.addFrag.toNat
          pauseMode := c.pauseMode.toNat
          paused := (t.netPort c.port.toNat).paused && decide (c.pauseMode.toNat ≠ 0), domain := c.domain.toNat
          pvid := c.pvid.toNat, holdDown := c.holdDown.toNat, watchdog := c.watchdog.toNat
          release := c.release.toNat }))
    ∧ (∀ c, Accepts s q (bodyNetSetSwitch c) → c.express = 176000 → c.share = 131072 → c.high = 75 → c.low = 25 →
        c.causes.toNat ≤ 7 → c.unknown.toNat ≤ 1 → 10 ≤ c.ageing.toNat → c.ageing.toNat ≤ 3600 →
        memoryFits 176000 131072 (s.net.rx.map Ring.queueKiB) = true →
      Runs (.netSetSwitch q c) q (bodyNetSetSwitch c) s (Reply.ok []) fun t =>
        pauseCheck { t with net := { t.net with
          expressLimit := 176000, share := 131072, high := 75, low := 25, causes := c.causes.setWidth 3
          dropUnknown := c.unknown == 1, ageing := c.ageing.toNat } })
    ∧ (∀ c, Accepts s q (bodyNetFdbWrite c) → c.vlan.toNat ≤ 4094 → c.domain.toNat ≤ 1 → c.mask.toNat ≤ 63 →
        c.flags.toNat ≤ 1 → s.net.fdb.length < 4096 →
      Runs (.netFdbWrite q c) q (bodyNetFdbWrite c) s (Reply.ok []) fun t =>
        { t with net := { t.net with
          fdb := Store.put none t.net.fdb (fdbKey c.addr.toNat c.vlan.toNat c.domain.toNat)
            (some { mask := c.mask.setWidth 6, isStatic := c.flags.getLsbD 0 }) } })
    ∧ (∀ vid mem tag, Accepts s q (bodyNetVlanWrite vid mem tag) → vid.toNat ≤ 4094 → mem.toNat ≤ 63 → tag.toNat ≤ 63 →
        s.net.vlans.length < 64 →
      Runs (.netVlanWrite q vid mem tag) q (bodyNetVlanWrite vid mem tag) s (Reply.ok []) fun t =>
        { t with net := { t.net with
          vlans := Store.put none t.net.vlans vid.toNat (some { members := mem.setWidth 6, tagged := tag.setWidth 6 }) } })
    ∧ (∀ c, Accepts s q (bodyNetSetFilter c) → c.index.toNat ≤ 31 → c.enable = 1 → c.ring.toNat ≤ 7 → c.kind.toNat ≤ 3 →
        c.vlan = 0xFFFF →
      Runs (.netSetFilter q c) q (bodyNetSetFilter c) s (Reply.ok []) fun t =>
        { t with net := { t.net with
          filters := Store.put Filter.init t.net.filters c.index.toNat
            { enable := true, ring := c.ring.toNat, kind := c.kind.toNat, etherType := c.etherType, proto := c.proto
              dstPort := c.dstPort, vlan := 0xFFFF } } })
    ∧ (∀ c, Accepts s q (bodyNetSetRing c) → netRingOk c s = true → c.dir = 0 → (s.rxRing c.ring.toNat).enable = false →
      Runs (.netSetRing q c) q (bodyNetSetRing c) s (Reply.ok []) fun t =>
        t.setRxRing c.ring.toNat { (t.rxRing c.ring.toNat).configured c with queue := [] })
    ∧ (∀ port mode, Accepts s q (bodyNetTest port mode) → port.toNat ≤ 3 → mode.toNat ≤ 1 →
      Runs (.netTest q port mode) q (bodyNetTest port mode) s (Reply.ok []) fun t =>
        pauseCheck (t.setNetPort port.toNat { t.netPort port.toNat with test := mode.toNat }))
    ∧ (∀ port, Accepts s q (bodyNetGetStatus port) → port.toNat ≤ 3 →
      Reads (.netGetStatus q port) q (bodyNetGetStatus port) s)

/-- The ports' own events complete (R285, R286, R290, R292, R296 to R298, R300). -/
def Obligations.NetworkEventsComplete : Prop :=
  ∀ (s : State) (n : Fin 4) (p : NetPort), p = s.netPort n.val → s.held = false →
    (∀ remote, p.enabled = true →
      exec (.linkUp n remote) s = .next (pauseCheck (s.setNetPort n.val { p with
        localFault := false, remoteFault := remote, linkUp := true })))
    ∧ (∀ fault, p.linkUp = true →
      exec (.linkLoss n fault) s = .next (pauseCheck (dropLink n.val (s.setNetPort n.val { p with localFault := fault }))))
    ∧ (∀ frame st, p.linkUp = true →
      exec (.frameReceived n frame false st) s = .next (s.setNetPort n.val { p with errFcs := satInc p.errFcs }))
    ∧ (∀ frame st, p.linkUp = true → 60 ≤ frame.length → p.maxFrame < frame.length + 4 →
      exec (.frameReceived n frame true st) s = .next (s.setNetPort n.val { p with errOver := satInc p.errOver }))
    ∧ (∀ frame st, p.linkUp = true → 60 ≤ frame.length → frame.length + 4 ≤ p.maxFrame → etherType frame ≠ 0x8808 →
      exec (.frameReceived n frame true st) s
        = .next (pauseCheck (forwardFrame n.val frame (corrected (quartersOf st) p.tsIn) (s.setNetPort n.val { p with
            rxFrames := p.rxFrames + 1, rxBytes := p.rxBytes + BitVec.ofNat 64 (frame.length + 4) }))))
    ∧ (∀ st frags f fs, p.linkUp = true → p.paused = false → p.express = f :: fs → f.cls = .media → f.tsDesc = none →
      exec (.frameTransmit n false st frags) s = .next (pauseCheck (s.setNetPort n.val { p with
        express := fs, sent := f.bytes, txFrames := p.txFrames + 1
        txBytes := p.txBytes + BitVec.ofNat 64 (f.bytes.length + 4) })))
    ∧ (p.linkUp = true → p.preempt = true →
      exec (.preemptVerify n .passed) s = .next (s.setNetPort n.val { p with preemptActive := true }))
    ∧ (∀ quanta, p.linkUp = true → p.pauseMode ≠ 0 → p.pauseBlocked = false → quanta ≠ 0 →
      exec (.pauseReceived n 1 quanta) s = .next (s.setNetPort n.val { p with
        rxFrames := p.rxFrames + 1, rxBytes := p.rxBytes + 64, rxPause := p.rxPause + 1, paused := true
        quanta := quanta }))
    ∧ (exec (.pauseExpiry n) s = .next (s.setNetPort n.val { p with paused := false }))
    ∧ (p.paused = true →
      exec (.pauseWatchdog n) s = .next (reportOwn (0x0B4 + n.val) (s.setNetPort n.val { p with
        paused := false, pauseBlocked := true, wdogCnt := p.wdogCnt + 1 })))
    ∧ (exec (.pauseReleaseEnd n) s = .next (s.setNetPort n.val { p with pauseBlocked := false }))
    ∧ (p.linkUp = true → p.pauseTxOn = true → pauseWindow s = true →
        s.net.share * s.net.low < 100 * occupancy s n.val →
      exec (.pauseTxRepeat n) s = .next (s.setNetPort n.val { p with
        txPause := p.txPause + 1, txFrames := p.txFrames + 1, txBytes := p.txBytes + 64
        sent := pauseFrame ((s.own.station.toNat + 1 + n.val) % 2 ^ 48) 65535 }))
    ∧ (∀ addr vlan domain e, fdbFind s addr.toNat vlan.toNat (if domain then 1 else 0) = some e → e.isStatic = false →
      ∃ t, exec (.fdbAgeOut addr vlan domain) s = .next t
        ∧ fdbFind t addr.toNat vlan.toNat (if domain then 1 else 0) = none
        ∧ ∀ k, k ≠ fdbKey addr.toNat vlan.toNat (if domain then 1 else 0) →
          Store.look none t.net.fdb k = Store.look none s.net.fdb k)

/-- The host rings' rows complete (R301, R303 to R307). -/
def Obligations.RingEventsComplete : Prop :=
  ∀ (s : State) (r : Fin 8) (x : Ring), s.held = false →
    (∀ f rest s1 done, x = s.rxRing r.val → x.enable = true → x.regionStop = false → x.queue = f :: rest →
        fillRx (ownerOf s (.rxRing r.val)) x x.count x.head f.bytes [] s = (s1, .whole, done) →
      exec (.rxRingDelivery r) s = .next (ringDone (ownerOf s (.rxRing r.val)) x.irqEn
        ((backAllRx x f false done s1).setRxRing r.val { s1.rxRing r.val with
          queue := rest, frames := (s1.rxRing r.val).frames + 1, head := (x.head + done.length) % x.count })))
    ∧ (∀ s1 t, x = s.txRing r.val → x.enable = true → x.regionStop = false →
        walkTx (ownerOf s (.txRing r.val)) x x.count { count := 0, data := [], ctrl := 0, mask := 0 } s = (s1, .whole, t) →
      exec (.txRingFrame r) s = .next (sendTx r.val x t s1))
    ∧ (∀ q tx, MayWrite s q ((if tx then 0x5A0C else 0x590C) + 0x20 * r.val) →
      exec (.netRingDoorbell q tx r) s = .next (ringDoorbell tx r.val s))

/-- The network-time commands complete (R316, R320, R321, R326, R329, R332, R335). -/
def Obligations.TimeCommandsComplete : Prop :=
  ∀ (s : State) (q : Sender),
    (∀ c, Accepts s q (bodyPtpSetInstance c) → ptpInstanceOk c = true →
      ∃ t, exec (.ptpSetInstance q c) s = .next (closed q (bodyPtpSetInstance c) (Reply.ok []) s t)
        ∧ t.inst c.inst.toNat = { s.inst c.inst.toNat with
            enable := c.enable == 1, profile := c.profile.toNat, domain := c.domain, logSync := c.logSync
            logAnnounce := c.logAnnounce, logDelay := c.logDelay, timeout := c.timeout, unicast := c.unicast == 1
            capable := c.master == 1, jump := c.jump.toNat, outlier := c.outlier.toNat
            state := if c.enable = 1 then .initializing else .disabled
            jumpRefused := false, foreign := [], chosen := none, sync := none, request := none, rawOffsets := []
            rawDelays := [], measured := 0, accepted := [], acceptedGm := none, granted := c.logDelay })
    ∧ (∀ c, Accepts s q (bodyPtpSetPortTs c) → c.port.toNat ≤ 3 → c.ingress.toInt.natAbs ≤ 100000 →
        c.egress.toInt.natAbs ≤ 100000 → c.asym.toInt.natAbs ≤ 100000 →
      Runs (.ptpSetPortTs q c) q (bodyPtpSetPortTs c) s (Reply.ok []) fun t =>
        t.setNetPort c.port.toNat { t.netPort c.port.toNat with
          tsIn := c.ingress.toInt, tsOut := c.egress.toInt, asym := c.asym.toInt })
    ∧ (∀ c, Accepts s q (bodyPtpSetMaster c) → c.inst.toNat ≤ 1 → c.flags.toNat ≤ 1 →
      ∃ t, exec (.ptpSetMaster q c) s = .next (closed q (bodyPtpSetMaster c) (Reply.ok []) s t)
        ∧ (t.inst c.inst.toNat).priority1 = c.priority1 ∧ (t.inst c.inst.toNat).priority2 = c.priority2
        ∧ (t.inst c.inst.toNat).accuracy = c.accuracy ∧ (t.inst c.inst.toNat).variance = c.variance
        ∧ (t.inst c.inst.toNat).utcOfs = c.utcOfs ∧ (t.inst c.inst.toNat).utcFlag = c.flags.getLsbD 0
        ∧ (t.inst c.inst.toNat).timeSource = c.timeSource)
    ∧ (∀ inst gm x, x = s.inst inst.toNat → Accepts s q (bodyPtpAcceptJump inst gm) → inst.toNat ≤ 1 →
        x.chosen.map Announce.gmId = some gm →
      ∃ t, exec (.ptpAcceptJump q inst gm) s
          = .next (closed q (bodyPtpAcceptJump inst gm) (Reply.ok (le32 (nsWord x.ofs 4))) s t)
        ∧ (t.inst inst.toNat).state = .slave ∧ (t.inst inst.toNat).jumpRefused = false
        ∧ (t.inst inst.toNat).accepted = [{ time := s.time, offset := x.ofs, moved := movedQuarters s }])
    ∧ (∀ sec, Accepts s q (bodyPtpSetTime sec) → sec.toNat < 2 ^ 48 → ptpSelected s = false → bankBusy s = false →
      Runs (.ptpSetTime q sec) q (bodyPtpSetTime sec) s (Reply.ok (le32 (mcntAt s (sec.setWidth 48)))) fun t =>
        { t with ptp := { t.ptp with setTime := some (sec.setWidth 48) } })
    ∧ (∀ c, Accepts s q (bodyPtpSetAlarm c) → c.alarm.toNat ≤ 7 → c.unit.toNat ≤ 1 → c.period.toNat < 2 ^ 31 →
        1 ≤ serialDiff c.target (alarmNow s (c.unit.toNat == 1)) →
      Runs (.ptpSetAlarm q c) q (bodyPtpSetAlarm c) s (Reply.ok []) fun t =>
        t.setAlarm c.alarm.toNat { t.alarm c.alarm.toNat with
          armed := true, ptp := c.unit.toNat == 1, target := c.target, period := c.period })
    ∧ (∀ a, Accepts s q (bodyPtpCancelAlarm a) → a.toNat ≤ 7 →
      Runs (.ptpCancelAlarm q a) q (bodyPtpCancelAlarm a) s (Reply.ok []) fun t =>
        t.setAlarm a.toNat { t.alarm a.toNat with armed := false })
    ∧ (∀ inst, Accepts s q (bodyPtpGetStatus inst) → inst.toNat ≤ 1 →
      Reads (.ptpGetStatus q inst) q (bodyPtpGetStatus inst) s)

/-- The messages and timeouts of the PTP instances complete (R36, R317 to R321), each shown where the instance's reference is
not valid, so that nothing is lost with it. -/
def Obligations.TimeMessagesComplete : Prop :=
  ∀ (s : State) (i : Fin 2) (x : PtpInst), x = s.inst i.val → s.held = false → s.net.ports.length = 4 →
      (s.pst.ref i.val).valid = false →
    (∀ a, x.enable = true → a.domain = x.domain → x.foreign = [] → x.lastGm = none → (mayMaster s i.val) = false →
      exec (.announceReceived i a) s = .next (s.setInst i.val
        { ({ x with foreign := [a] } : PtpInst).follow a with lastGm := some a.gmId }))
    ∧ (∀ m, fromMaster x m.domain m.source = true → m.twoStep = false → x.sync = none →
      exec (.syncReceived i m) s = .next (s.setInst i.val { x with
        twoStepGm := false, syncCnt := x.syncCnt + 1
        sync := some { seq := m.seq, t1 := some (quartersOf m.origin + m.correction.toInt)
                       t2 := corrected (quartersOf m.ingress) (s.netPort i.val).tsIn - rounded (s.netPort i.val).asym 250 } }))
    ∧ (∀ m w, x.sync = some w → fromMaster x m.domain m.source = true → w.t1 = none → w.seq = m.seq →
      exec (.followUpReceived i m) s = .next (s.setInst i.val { x with
        sync := some { w with t1 := some (quartersOf m.origin + m.correction.toInt) }, syncCnt := x.syncCnt + 1 }))
    ∧ (∀ w, x.sync = some w → w.t1 = none →
      exec (.followUpTimeout i) s = .next (s.setInst i.val { x with sync := none, syncLostCnt := x.syncLostCnt + 1 }))
    ∧ (∀ st, x.enable = true → x.state = .slave →
      ∃ t, exec (.delayReqSend i st) s = .next t ∧ (t.inst i.val).nextSeq = x.nextSeq + 1
        ∧ (t.inst i.val).request = some (x.nextSeq, corrected (quartersOf st) (s.netPort i.val).tsOut))
    ∧ (∀ m w t1 t3 raw, x.request = some (m.seq, t3) → x.sync = some w → w.t1 = some t1 →
        fromMaster x m.domain m.source = true →
        raw = rounded (w.t2 - t1 + (quartersOf m.receive - m.correction.toInt - t3 + rounded (s.netPort i.val).asym 250)) 2 →
        x.rawDelays ≠ [] → 4 * (x.outlier : Int) < raw - meanOf x.rawDelays →
      ∃ t, exec (.delayRespReceived i m) s = .next t ∧ (t.inst i.val).outlierCnt = x.outlierCnt + 1
        ∧ (t.inst i.val).ofs = x.ofs ∧ (t.inst i.val).request = none ∧ t.pst = s.pst)
    ∧ (∀ m w t1 t3, x.request = some (m.seq, t3) → x.sync = some w → w.t1 = some t1 →
        fromMaster x m.domain m.source = true → x.rawDelays = [] → x.rawOffsets = [] → x.measured = 0 →
        x.acceptedGm = none → x.chosen ≠ none →
      ∃ t, exec (.delayRespReceived i m) s = .next t ∧ (t.inst i.val).outlierCnt = x.outlierCnt
        ∧ (t.inst i.val).measured = 1
        ∧ (t.inst i.val).rawDelays
            = [rounded (w.t2 - t1 + (quartersOf m.receive - m.correction.toInt - t3 + rounded (s.netPort i.val).asym 250)) 2])
    ∧ (x.request ≠ none →
      exec (.delayRespTimeout i) s = .next (s.setInst i.val { x with request := none, drespCnt := x.drespCnt + 1 }))
    ∧ (∃ t, exec (.syncTimeout i) s = .next t ∧ (t.pst.ref i.val).valid = false ∧ t.ptp = s.ptp)
    ∧ (x.enable = true → x.chosen = none → x.foreign = [] → mayMaster s i.val = false →
      ∃ t, exec (.announceTimeout i) s = .next t ∧ (t.inst i.val).state = .listening ∧ (t.pst.ref i.val).valid = false)
    ∧ (∀ st, isMaster s i.val = true →
      ∃ t, exec (.masterSyncSend i st) s = .next t ∧ (t.inst i.val).masterSeq = x.masterSeq + 1
        ∧ (t.inst i.val).state = .master ∧ (t.netPort i.val).txFrames = (s.netPort i.val).txFrames + 1)
    ∧ (x.foreign = [] → x.chosen = none → isMaster s i.val = true →
      ∃ t, exec (.masterAnnounceSend i) s = .next t ∧ (t.inst i.val).masterSeq = x.masterSeq + 1
        ∧ (t.inst i.val).state = .master ∧ (t.netPort i.val).txFrames = (s.netPort i.val).txFrames + 1)
    ∧ (∀ source seq corr st, isMaster s i.val = true →
      ∃ t, exec (.masterDelayReqReceived i x.domain source seq corr st) s = .next t
        ∧ (t.inst i.val).masterSeq = x.masterSeq ∧ (t.netPort i.val).txFrames = (s.netPort i.val).txFrames + 1)

/-- The application of PTP_SET_TIME, the PPS capture and the alarms complete (R326 to R329). -/
def Obligations.TimeEventsComplete : Prop :=
  ∀ s : State, s.held = false →
    (∀ sec, s.ptp.setTime = some sec →
      ∃ t, exec .ptpSetTimeApply s = .next t ∧ t.pst.ptpSec = sec ∧ t.ptp.setTime = none ∧ t.mcnt = mcntAt s sec)
    ∧ (∀ after, exec (.ppsEdge after) s = .next { s with ptp := { s.ptp with
        ppsNs := (s.pst.addPtp (after.toNat * slewUnit : Nat)).ptpNs
        ppsSec := (s.pst.addPtp (after.toNat * slewUnit : Nat)).ptpSec } })
    ∧ (∀ (a : Fin 8) x, x = s.alarm a.val → x.armed = true → x.period = 0 → 0 ≤ serialDiff (alarmNow s x.ptp) x.target →
      exec (.alarmFire a) s = .next ((s.setPart (ownerOf s (.alarm a.val))
          { s.part (ownerOf s (.alarm a.val)) with alarmEvent := true }).setAlarm a.val
        { x with armed := false, fireMcnt := s.mcnt }))
    ∧ (∀ (a : Fin 8) x, x = s.alarm a.val → x.armed = true → serialDiff (alarmNow s x.ptp) x.target = 0 → x.period ≠ 0 →
      exec (.alarmFire a) s = .next ((s.setPart (ownerOf s (.alarm a.val))
          { s.part (ownerOf s (.alarm a.val)) with alarmEvent := true }).setAlarm a.val
        { x with target := x.target + x.period, fireMcnt := s.mcnt }))

/-- The stream and tap commands complete (R337, R343, R345, R348, R349, R357, R362 to R364, R366, R368). -/
def Obligations.StreamCommandsComplete : Prop :=
  ∀ (s : State) (q : Sender),
    (∀ ctx c, Accepts s q (bodyStreamSetTx ctx c) → txCfgOk s c = true → (s.txCtx ctx.toNat).state = .stopped →
      Runs (.streamSetTx q ctx c) q (bodyStreamSetTx ctx c) s (Reply.ok []) fun t =>
        t.setTxCtx ctx.toNat { t.txCtx ctx.toNat with cfg := some c })
    ∧ (∀ ctx c, Accepts s q (bodyStreamSetRx ctx c) → rxCfgOk s c = true → (s.rxCtx ctx.toNat).state = .stopped →
      Runs (.streamSetRx q ctx c) q (bodyStreamSetRx ctx c) s (Reply.ok []) fun t =>
        t.setRxCtx ctx.toNat { t.rxCtx ctx.toNat with cfg := some c })
    ∧ (∀ ctx block, Accepts s q (bodyStreamSetCs ctx block) → block.length = 24 → (s.txCtx ctx.toNat).state = .stopped →
      Runs (.streamSetCs q ctx block) q (bodyStreamSetCs ctx block) s (Reply.ok []) fun t =>
        t.setTxCtx ctx.toNat { t.txCtx ctx.toNat with cs := block })
    ∧ (∀ ctx q0 w c, Accepts s q (bodyStreamStart 0 ctx q0 w) → (s.txCtx ctx.toNat).cfg = some c →
        (s.txCtx ctx.toNat).state = .stopped → payloadOk s c = true → startWaveOk s w = true →
        txLoad s + c.channels.toNat ≤ channelBudget s.pst.rate →
      Runs (.streamStart q 0 ctx q0 w) q (bodyStreamStart 0 ctx q0 w) s (Reply.ok (le32 (startWave s w))) fun t =>
        t.setTxCtx ctx.toNat { t.txCtx ctx.toNat with
          state := .armed, start := startWave s w, first := startWave s w, seq := q0, stop := none, gathered := []
          live := true })
    ∧ (∀ ctx w c, Accepts s q (bodyStreamStart 1 ctx 0 w) → (s.rxCtx ctx.toNat).cfg = some c →
        (s.rxCtx ctx.toNat).state = .stopped → rxStartOk s ctx.toNat c = true → startWaveOk s w = true →
        rxLoad s + c.channels.toNat ≤ channelBudget s.pst.rate →
      ∃ t, exec (.streamStart q 1 ctx 0 w) s
          = .next (closed q (bodyStreamStart 1 ctx 0 w) (Reply.ok (le32 (startWave s w))) s t)
        ∧ (t.rxCtx ctx.toNat).state = .armed ∧ (t.rxCtx ctx.toNat).start = startWave s w
        ∧ (t.rxCtx ctx.toNat).conceal = .muted ∧ (t.rxCtx ctx.toNat).stop = none)
    ∧ (∀ ctx w, Accepts s q (bodyStreamStop 0 ctx w) → (s.txCtx ctx.toNat).state = .running →
      Runs (.streamStop q 0 ctx w) q (bodyStreamStop 0 ctx w) s (Reply.ok []) fun t =>
        t.setTxCtx ctx.toNat { t.txCtx ctx.toNat with stop := some (stopWave s (s.txCtx ctx.toNat).stop w) })
    ∧ (∀ ctx w, Accepts s q (bodyStreamStop 1 ctx w) → (s.rxCtx ctx.toNat).state = .running →
      Runs (.streamStop q 1 ctx w) q (bodyStreamStop 1 ctx w) s (Reply.ok []) fun t =>
        t.setRxCtx ctx.toNat { t.rxCtx ctx.toNat with stop := some (stopWave s (s.rxCtx ctx.toNat).stop w) })
    ∧ (∀ g p, Accepts s q (bodyStreamSetGroup g p) → g.toNat ≤ 31 → 4 ≤ p.toNat → p.toNat ≤ 4096 →
        groupBusy s g.toNat = false →
      Runs (.streamSetGroup q g p) q (bodyStreamSetGroup g p) s (Reply.ok []) fun t =>
        { t with stm := { t.stm with groups := Store.put none t.stm.groups g.toNat (some p.toNat) } })
    ∧ (∀ dir ctx, Accepts s q (bodyStreamGetContext dir ctx) → dir.toNat ≤ 1 →
      Reads (.streamGetContext q dir ctx) q (bodyStreamGetContext dir ctx) s)
    ∧ (∀ ctx, Accepts s q (bodyStreamClear 0 ctx) →
      Runs (.streamClear q 0 ctx) q (bodyStreamClear 0 ctx) s (Reply.ok []) fun t =>
        t.setTxCtx ctx.toNat { t.txCtx ctx.toNat with pkts := 0, stepDrop := 0 })
    ∧ (∀ c, Accepts s q (bodyTapSet c) → c.tap.toNat ≤ 15 → c.flags = 0 → c.kind = 2 → c.unit.toNat ≤ 255 →
        c.channel.toNat ≤ 63 → c.n ≠ 0 → ownerOf s (.rxCtx c.unit.toNat) = ownerOf s (.tap c.tap.toNat) →
      ∃ t, exec (.tapSet q c) s = .next (closed q (bodyTapSet c) (Reply.ok []) s t)
        ∧ t.tap c.tap.toNat = { Tap.init with
            armed := true, kind := 2, unit := c.unit.toNat, channel := c.channel.toNat, n := c.n.toNat, m := c.m
            result := (s.tap c.tap.toNat).result, startOf := (s.tap c.tap.toNat).startOf
            doneCnt := (s.tap c.tap.toNat).doneCnt })
    ∧ (∀ tap, Accepts s q (bodyTapGet tap) → tap.toNat ≤ 15 → Reads (.tapGet q tap) q (bodyTapGet tap) s)

/-- The stream events complete (R345 to R347, R350, R360, R364, R395). -/
def Obligations.StreamEventsComplete : Prop :=
  ∀ s : State, s.held = false →
    (∀ (n : Fin 16) x start crc, x = s.tap n.val → x.ended = some (start, crc, false) → x.expected = none →
      exec (.tapWindowEnd n) s = .next (s.setTap n.val { x with
        ended := none, done := true, incomplete := false, result := crc, startOf := start, doneCnt := x.doneCnt + 1
        mismatch := false }))
    ∧ (∀ (n : Fin 16) x start crc e, x = s.tap n.val → x.ended = some (start, crc, false) → x.expected = some e → e ≠ crc →
      ∃ t, exec (.tapWindowEnd n) s = .next t ∧ (t.tap n.val).mismatch = true ∧ (t.tap n.val).result = crc)
    ∧ (∀ (c : Fin 256) x cfg k rest, x = s.txCtx c.val → x.cfg = some cfg → x.closed = k :: rest → launchDue s cfg k = true →
        s.lkt.failSilent = false → k.allLive = true →
        launchOf s k.closing c.val (cfg.launch.toNat == 1) (crc32c k.payload) = .send →
      exec (.packetLaunch c) s = .next (sendPacket c.val cfg k (s.setTxCtx c.val ({ x with closed := rest } : TxCtx).atStop)))
    ∧ (∀ (c : Fin 256) x cfg k rest, x = s.txCtx c.val → x.cfg = some cfg → x.closed = k :: rest → launchDue s cfg k = true →
        k.allLive = false →
      exec (.packetLaunch c) s = .next (s.setTxCtx c.val ({ x with closed := rest } : TxCtx).atStop))
    ∧ (∀ (n : Fin 4) frame st c x cfg, (s.netPort n.val).linkUp = true → s.stm.rx = [(c, x)] → x.cfg = some cfg →
        x.takes (s.netPort n.val).domain frame = true → checkPacket s cfg frame = none →
      exec (.mediaPacketReceived n frame st) s = .next (s.setRxCtx c { x with fmtErr := satInc x.fmtErr }))
    ∧ (∀ (n : Fin 4) frame st, (s.netPort n.val).linkUp = true →
      exec (.mediaPacketReceived n frame st) s
        = .next (((s.stm.rx.filter fun e => e.2.takes (s.netPort n.val).domain frame).map Prod.fst).foldl
            (saddle ((s.netPort n.val).domain == 1) frame ((corrected (quartersOf st) (s.netPort n.val).tsIn).toNat / 4)) s))
    ∧ (∀ (c : Fin 256) x, x = s.rxCtx c.val → x.state = .running → x.stopping = true → x.gain = 0 →
      exec (.streamRxStopped c) s = .next (s.setRxCtx c.val { x with
        state := .stopped, stopping := false, stop := none }))

/-- The pair's commands complete (R373, R375, R378, R384, R391, R402). -/
def Obligations.PairCommandsComplete : Prop :=
  ∀ (s : State) (q : Sender),
    (∀ c, Accepts s q (bodyRedSetPair c) → redPairOk s c = true → s.rdg.busyForRate = false → s.red.state ≠ .failSilent →
      ∃ t, exec (.redSetPair q c) s = .next (closed q (bodyRedSetPair c) (Reply.ok []) s t)
        ∧ t.red.pairId = c.pair ∧ t.red.nodeId = c.node.toNat ∧ t.red.preferred = (c.preferred == 1)
        ∧ t.red.claimMs = c.claim.toNat ∧ t.red.hbAddr = c.addr ∧ t.red.hbVlan = c.vlan
        ∧ t.red.state = (if c.pair = 0 then .unpaired else .claiming) ∧ t.red.epoch = s.red.epoch)
    ∧ (∀ first es, Accepts s q (bodyRedSetShared first es) → 1 ≤ es.length → es.length ≤ 480 → es.all sharedOk = true →
        first.toNat + es.length ≤ sharedLimit s.pst.rate →
      Runs (.redSetShared q first es) q (bodyRedSetShared first es) s (Reply.ok []) fun t =>
        { t with red := { t.red with shared := Store.putAll none t.red.shared first.toNat (es.map some) } })
    ∧ (∀ n, Accepts s q (bodySadSetPathdown n) → 2 ≤ n.toNat → n.toNat ≤ 1000 →
      Runs (.sadSetPathdown q n) q (bodySadSetPathdown n) s (Reply.ok []) fun t =>
        { t with stm := { t.stm with pathDown := n.toNat } })
    ∧ (∀ w, Accepts s q (bodyRedHandover w) → w ≠ 0 → 8 ≤ ahead s w → s.red.state = .active → s.red.peerState = 3 →
        handoverBusy s = false →
      Runs (.redHandover q w) q (bodyRedHandover w) s (Reply.ok (le32 w)) fun t =>
        { t with red := { t.red with handover := some w } })
    ∧ (∀ e, e = BitVec.ofNat 32 (1 + max s.red.epoch.toNat s.red.heardEpoch.toNat) →
        Accepts s q (bodyRedForceActive s.red.epoch) → s.red.state = .observer → s.red.nrlOk = false → s.red.netOk = false →
      Runs (.redForceActive q s.red.epoch) q (bodyRedForceActive s.red.epoch) s (Reply.ok (le32 e)) (claim e))
    ∧ (Accepts s q bodyRedResync → s.red.state = .observer →
      Runs (.redResync q) q bodyRedResync s (Reply.ok []) startJoin)
    ∧ (Accepts s q bodyRedResync → s.red.state = .standby →
      Runs (.redResync q) q bodyRedResync s (Reply.ok []) fun t => startJoin (leaveStep 7 t))
    ∧ (Accepts s q bodyRedGetStatus → Reads (.redGetStatus q) q bodyRedGetStatus s)

/-- The events of a pair's roles complete (R373, R378, R379, R385 to R387, R395, R396). -/
def Obligations.PairRoleEventsComplete : Prop :=
  ∀ s : State, s.held = false →
    (∀ (c : Fin 256) x, x = s.rxCtx c.val → x.state = .running → x.b.up = true →
      exec (.sadPathDown c true) s = .next (reportFault 0x0E5 (BitVec.ofNat 16 c.val)
        (s.setRxCtx c.val { x with b := { x.b with up := false } })))
    ∧ (s.red.state = .claiming → s.red.heard = false → exec .claimWindowExpiry s = .next (claim 1 s))
    ∧ (s.red.state = .claiming → s.red.heard = true → s.red.preferred = false → s.red.peerPreferred = true →
      exec .claimWindowExpiry s = .next { s with red := { s.red with lostTie := true } })
    ∧ (paired s = true →
      exec .heartbeatSend s = .next (
        let f : QFrame := { bytes := hbFrame s (ownHeartbeat s), ingress := 6, cls := .heartbeat, stamp := none, tsDesc := none }
        (enqueue s.red.hbB f (enqueue s.red.hbA f { s with red := { s.red with hseq := s.red.hseq + 1 } }).1).1))
    ∧ (∀ path h, paired s = true → hbValid s path h = false →
      exec (.heartbeatReceived path h) s
        = .next { s with red := { s.red with nrl := { s.red.nrl with hbBad := s.red.nrl.hbBad + 1 } } })
    ∧ (∀ path h, paired s = true → hbValid s path h = true → s.red.state = .standby →
      exec (.heartbeatReceived path h) s = .next (hearPeer path h s))
    ∧ (∀ path h, paired s = true → hbValid s path h = true → s.red.state = .active → h.state = 4 →
        s.red.epoch.toNat < h.epoch.toNat →
      exec (.heartbeatReceived path h) s = .next (demote (hearPeer path h s)))
    ∧ (∀ path h, paired s = true → hbValid s path h = true → s.red.state = .claiming → h.epoch ≠ 0 →
      ∃ t, exec (.heartbeatReceived path h) s = .next t ∧ t.red.state = .observer ∧ t.red.heard = true)
    ∧ (paired s = true → s.red.state = .standby → s.red.nrlOk = true → s.red.netOk = false →
      exec (.silenceTimeout .noril) s = .next (reportOwn 0x0E0 (toActive (s.red.epoch + 1) { s with red := { s.red with
        nrlOk := false, failover := s.red.failover + 1, lastFailover := s.mcnt } })))
    ∧ (paired s = true → s.red.nrlOk = true → s.red.netOk = true →
      exec (.silenceTimeout .network) s = .next (reportOwn 0x0E7 { s with red := { s.red with netOk := false } }))

/-- The Noril link's events complete (R380, R382 to R384, R389 to R391, R393, R394). -/
def Obligations.LinkEventsComplete : Prop :=
  ∀ s : State, s.held = false →
    (s.red.state = .active →
      exec .norilLinkUp s = .next { s with red := { s.red with nrl := { s.red.nrl with up := true } } })
    ∧ (∃ t, exec .norilLinkDown s = .next t ∧ t.red.nrl.up = false)
    ∧ (paired s = true → s.red.nrl.up = true →
      ∃ t f, exec .norilWaveSend s = .next t ∧ t.red.nrl.sentWave = some f ∧ f.p = s.mcnt
        ∧ f.state = BitVec.ofNat 8 s.red.state.code ∧ t = { s with red := t.red })
    ∧ (∀ f : WaveFrame, paired s = true → s.red.nrl.up = true → f.p = s.mcnt → f.state = 3 →
      ∃ t, exec (.norilWaveReceived f) s = .next t ∧ t = { s with red := t.red } ∧ t.red.skewFree = s.red.skewFree + 1
        ∧ t.red.waveSeen = some f.p ∧ t.red.missing = none ∧ t.red.state = s.red.state)
    ∧ (paired s = true → s.red.state ≠ .standby →
      exec .norilWaveMissing s = .next { s with red := { s.red with
        missing := some (s.red.missing.getD false), nrl := { s.red.nrl with waveMiss := s.red.nrl.waveMiss + 1 } } })
    ∧ (∀ (i : Fin 512) x, x = s.sharedCh i.val → x.gate = .isOpen → holdLimit s.pst.rate ≤ x.missing →
      exec (.sharedChannelFade i) s = .next (s.setSharedCh i.val { x with gate := .fadeOut 0 }))
    ∧ (∀ m, paired s = true → s.red.nrl.up = true → follows s = true →
        (∀ w snap, s.red.join ≠ .adopting w snap) →
      exec (.mirrorCmdReceived m) s = .next (applyForwarded m (tookFrame s)))
    ∧ (∀ m w snap, paired s = true → s.red.nrl.up = true → follows s = true → s.red.join = .adopting w snap →
      ∃ t, exec (.mirrorCmdReceived m) s = .next t ∧ t.red.recorded = s.red.recorded ++ [m] ∧ t.sys = s.sys)
    ∧ (∀ q : Sender, exec (.mirrorReplyTimeout q) s = .next (onSlot q.part.val (q.via == .udp)
        (fun c => { c with held := false }) s))
    ∧ (∀ q : Sender, exec (.peerOutcomeReport q) s = .next (onSlot q.part.val (q.via == .udp)
        (fun c => { c with held := false }) s))
    ∧ (∀ k : Nat, k * mirrorPeriod s.pst.rate < 2 ^ 31 →
        s.mcnt = s.red.mirrorFrom + BitVec.ofNat 32 (k * mirrorPeriod s.pst.rate) → s.own.regions = [] →
        s.red.state = .standby →
      exec .mirrorPeriodBoundary s = .next { s with red := { s.red with mirrorNo := BitVec.ofNat 32 k } })
    ∧ (∀ (m : MirrorRec) i o, paired s = true → s.red.nrl.up = true → regionOf s .mirrorInbox m.part.val = some i →
        regionOf s .mirrorOutbox m.part.val = some o → m.offset.toNat + m.bytes.length ≤ i.size →
        s.mem.readTarn (o.base + m.offset.toNat) m.bytes.length = m.bytes →
      exec (.mirrorRecReceived m) s
        = .next { tookFrame s with mem := s.mem.writeTarn (i.base + m.offset.toNat) m.bytes })
    ∧ (exec .norilAckSend s = .next { s with red := { s.red with nrl := { s.red.nrl with sinceAck := 0 } } })
    ∧ (∀ seq, s.red.nrl.up = false →
      exec (.norilAckReceived seq) s = .next { s with red := { s.red with nrl := { s.red.nrl with
        unacked := s.red.nrl.unacked.filter fun f => decide (0 < serialDiff f.seq seq) } } })
    ∧ (exec .norilRetransmit s = .next { s with red := { s.red with nrl := { s.red.nrl with
        retx := s.red.nrl.retx + BitVec.ofNat 32 s.red.nrl.unacked.length } } })
    ∧ (s.red.state = .active → paired s = true → s.red.nrl.snapshot = false →
      exec .joinReceived s = .next { s with red := { s.red with
        peerJoined := false, recorded := [], adoption := none, nrl := { s.red.nrl with snapshot := true } } })
    ∧ (∀ w snap, s.red.state = .observer → s.red.join = .asked → 8 ≤ ahead s w →
      exec (.snapshotComplete w snap) s = .next { s with red := { s.red with
        join := .adopting w snap, nrl := { s.red.nrl with snapshot := false }, recorded := [], mirrorFrom := w } })

/-- The system commands complete (R410, R424, R428, R430). -/
def Obligations.SystemCommandsComplete : Prop :=
  ∀ (s : State) (q : Sender),
    (Accepts s q (bodySysHello false) →
      Runs (.sysHello q false) q (bodySysHello false) s
        (Reply.ok (le32 (s.part q.part.val).session ++ le64 (s.part q.part.val).lastCtr)) id)
    ∧ (Accepts s q (bodySysHello true) → s.sec.drbgStopped = false → s.cmds.length = 4 →
      ∃ t w, exec (.sysHello q true) s = .next (closed q (bodySysHello true) (Reply.ok (le32 w ++ le64 0)) s t)
        ∧ (t.part q.part.val).session = w ∧ (t.part q.part.val).lastCtr = 0 ∧ w ≠ (s.part q.part.val).session)
    ∧ (Accepts s q bodySysGetInfo → Reads (.sysGetInfo q) q bodySysGetInfo s)
    ∧ (Accepts s q bodySysGetOwnership → Reads (.sysGetOwnership q) q bodySysGetOwnership s)
    ∧ (∀ c, Accepts s q (bodySysProfileLoad c) → loadSlot s c ≤ 7 → c.flags.toNat ≤ 7 → s.boot.teardown = none →
        (runningJobs (opened q (bodySysProfileLoad c) s)).any Job.editsProfile = false → paired s = false →
      Runs (.sysProfileLoad q c) q (bodySysProfileLoad c) s (Reply.code .pending) id)
    ∧ (∀ c, Accepts s q (bodySysProfileErase c) → c.slot.toNat ≤ 7 → c.flags &&& 0xFD = 0 →
        eraseGuarded s c.slot.toNat = false →
      Runs (.sysProfileErase q c) q (bodySysProfileErase c) s (Reply.code .pending) id)
    ∧ (∀ c, Accepts s q (bodySysProfileWrite c) → c.unit.toNat ≤ 7 → c.data.length = c.length.toNat →
        isSealed s c.unit.toNat = false → flashWriteOk s (slotBase c.unit.toNat) c = true →
      Runs (.sysProfileWrite q c) q (bodySysProfileWrite c) s (Reply.ok [])
        (flashWrite (slotBase c.unit.toNat + c.offset.toNat) c.data))
    ∧ (∀ n, Accepts s q (bodySysProfileSeal n) → n.toNat ≤ 7 → isSealed s n.toNat = false →
      Runs (.sysProfileSeal q n) q (bodySysProfileSeal n) s (Reply.code .pending) id)
    ∧ (Accepts s q bodySysProfileList → Reads (.sysProfileList q) q bodySysProfileList s)

/-- The ends of commands, of datagrams and of a teardown complete (R411, R413, R416, R417, R428, R430, R520). -/
def Obligations.SystemEventsComplete : Prop :=
  ∀ s : State,
    (∀ sel, s.boot.teardown = some .deepOff →
      ∃ t, exec (.teardownReset sel) s = .next t ∧ t.ka.deepOff = true ∧ t.ka.pwrEn = false)
    ∧ (∀ sel n, s.boot.teardown = some (.load n) →
      exec (.teardownReset sel) s = .next (beginBoot 3 sel (resetDomains s)))
    ∧ (∀ (n : Fin 4) frame, s.held = false → isIpv4 frame = true → ipProto frame = 17 → ipDst frame = s.own.hostIp.toNat →
        s.lkt.coresRun = true → s.boot.halted = false → isFragment frame = true →
      ∃ t, exec (.udpCommandReceived n frame) s = .next t ∧ t.own.udpDrop = s.own.udpDrop + 1 ∧ t.cmds = s.cmds)
    ∧ (∀ q : Sender, ∀ r, s.held = false → (slotOf q s).executing = true → (slotOf q s).held = false →
        (slotOf q s).result = some r → serves s q.part.val (q.via == .udp) (slotOf q s).hdr.opcode.toNat = true →
      exec (.commandExecutionEnd q) s = .next (answer q.part.val (q.via == .udp) r s))
    ∧ (∀ q : Sender, ∀ n, s.held = false → (slotOf q s).executing = true → (slotOf q s).held = false →
        (slotOf q s).result = none → (slotOf q s).job = some (.profileErase n) →
        serves s q.part.val (q.via == .udp) (slotOf q s).hdr.opcode.toNat = true →
      ∃ t, exec (.commandExecutionEnd q) s = .next t ∧ isSealed t n = false ∧ flashBlank t (slotBase n) slotBytes = true)

/-- The mailbox rows complete (R412, R413, R415, R422): the doorbell, CMD_RSTAT, CMD_ACK, the packet area and SPI frames. -/
def Obligations.MailboxRowsComplete : Prop :=
  ∀ (s : State) (q : Requester) (m : Fin 4),
    (MayWrite s q (0x1FE0 + 0x1000 * m.val) → exec (.cmdDoorbell q m) s = .next (doorbell m.val s))
    ∧ (MayRead s q → q.part = m →
      exec (.cmdRstatRead q m) s = .next (given q (rstat (s.part m.val)) (markRead m.val s)))
    ∧ (MayWrite s q (0x1FE8 + 0x1000 * m.val) → (s.part m.val).mbox.state = .ready →
      exec (.cmdAckReply q m) s = .next (s.setPart m.val { s.part m.val with mbox := CmdSlot.init, area := [] }))
    ∧ (MayWrite s q (0x1FE8 + 0x1000 * m.val) →
      exec (.cmdAckRing q m) s = .next (s.setPart m.val { s.part m.val with ringEvent := false }))
    ∧ (MayWrite s q (0x1FE8 + 0x1000 * m.val) →
      exec (.cmdAckAlarm q m) s = .next (s.setPart m.val { s.part m.val with alarmEvent := false }))
    ∧ (∀ (word : Fin 1016) w, MayWrite s q (0x1000 + 0x1000 * m.val + 4 * word.val) → (s.part m.val).mbox.state = .empty →
      exec (.mailboxPacketWrite q m word w) s = .next (s.setPart m.val { s.part m.val with
        area := Store.putAll 0 (s.part m.val).area (4 * word.val) (le32 w) }))
    ∧ (∀ (p : Fin 4) hi lo b0 b1 b2 b3, s.held = false →
      exec (.spiFrame [0x02, BitVec.ofNat 8 p.val, hi, lo, b0, b1, b2, b3]) s
        = .next (busWrite (.spi p) (beNat [hi, lo] / 4 * 4) (BitVec.ofNat 32 (leNat [b0, b1, b2, b3])) true s))

/-- Writes of the direct window complete (R7, R433, R437, R441, R442, R445, R446): an accepted write of a whole word has
its register's effect; any other is ignored, counted and recorded. -/
def Obligations.RegisterWritesComplete : Prop :=
  ∀ (s : State) (q : Requester),
    (∀ addr w, MayWrite s q (addr.toNat / 4 * 4) → isReg (addr.toNat / 4 * 4) = true →
      exec (.registerWrite q addr w true) s = .next (
        if isRingBase (addr.toNat / 4 * 4) then configDirty (regStore q (addr.toNat / 4 * 4) w s)
        else regStore q (addr.toNat / 4 * 4) w s))
    ∧ (∀ addr w whole, s.held = false → present s q = true → isReg (addr.toNat / 4 * 4) = true →
        regAllowed s q (addr.toNat / 4 * 4) = false →
      exec (.registerWrite q addr w whole) s = .next (ignoreWrite q (addr.toNat / 4 * 4) 0 s))
    ∧ (∀ addr w, s.held = false → present s q = true → isReg (addr.toNat / 4 * 4) = true →
        regAllowed s q (addr.toNat / 4 * 4) = true →
      exec (.registerWrite q addr w false) s = .next (ignoreWrite q (addr.toNat / 4 * 4) 1 s))
    ∧ (∀ bits, MayWrite s q 0x0010 →
      exec (.sysLock q bits) s = .next { s with sys := { s.sys with lock := s.sys.lock ||| (bits &&& 0x1FF#32) } })
    ∧ (MayWrite s q 0x0020 →
      exec (.cfgCrcCommit q) s = .next { s with sys := { s.sys with crcWait := true, crcWaitLate := true } })
    ∧ (MayWrite s q 0x0020 → s.sys.crcEnable = true →
      exec (.cfgCrcEnable q false) s = .next { s with sys := { s.sys with
        crcEnable := false, crcRefValid := false, crcDirty := false } })
    ∧ (MayWrite s q 0x0020 → s.sys.crcEnable = false →
      exec (.cfgCrcEnable q true) s = .next { s with sys := { s.sys with
        crcEnable := true, crcDirty := false, crcWaitLate := false, crcDiffered := false } })
    ∧ (∀ r, s.held = false → s.sys.crcEnable = true → s.sys.crcDirty = true →
      exec (.cfgCrcPass r) s = .next { s with sys := { s.sys with crcDirty := false, crcWaitLate := false } })
    ∧ (∀ r, s.held = false → s.sys.crcEnable = true → s.sys.crcDirty = false → s.sys.crcWait = true →
        s.sys.crcWaitLate = false →
      exec (.cfgCrcPass r) s = .next { s with sys := { s.sys with
        crcLast := r, crcPassCnt := s.sys.crcPassCnt + 1, crcRef := r, crcRefValid := true, crcWait := false
        crcDiffered := false, crcMismatch := false, crcDirty := false, crcWaitLate := false } })
    ∧ (∀ (n : Fin 4) w, s.held = false → present s q = true →
      exec (.wideCounterLoWrite q (BitVec.ofNat 16 (0x5C08 + 0x80 * n.val)) w) s
        = .next (onShadow q (fun y => { y with stagedAddr := some (0x5C08 + 0x80 * n.val), stagedLo := w }) s))
    ∧ (∀ (n : Fin 4) w, s.held = false → present s q = true →
        (s.shadow q.ix).stagedAddr = some (0x5C08 + 0x80 * n.val) →
      exec (.wideCounterHiWrite q (BitVec.ofNat 16 (0x5C0C + 0x80 * n.val)) w) s
        = .next (onShadow q (fun y => { y with stagedAddr := none }) (s.setNetPort n.val { s.netPort n.val with
            rxBytes := loadBoth w (s.shadow q.ix).stagedLo })))

/-- Reads of the direct window that latch complete (R55, R71, R327, R366, R436, R448): the word that the requester
receives, and what it latches for itself. -/
def Obligations.LatchingReadsComplete : Prop :=
  ∀ (s : State) (q : Requester), MayRead s q →
    (exec (.pstPtpNsRead q) s = .next (given q s.pst.ptpNs
      (onShadow q (fun x => { x with ptpSec := s.pst.ptpSec, mcntLatch := s.mcnt }) s)))
    ∧ (exec (.histLatchRead q) s = .next (given q (Store.look 0 s.fab.hist 0)
      (onShadow q (fun x => { x with hist := Store.slice 0 s.fab.hist 0 32 }) s)))
    ∧ (exec (.ppsCaptureRead q) s = .next (given q (regRead s q 0x5FC0)
      (onShadow q (fun x => { x with ppsSec := s.ptp.ppsSec }) s)))
    ∧ (∃ w, exec (.stmCtxStatRead q) s = .next (given q w (onShadow q (fun x => { x with ctx := selectedWindow s }) s)))
    ∧ (∀ addr : Half, isWideLo (addr.toNat / 4 * 4) = true →
      exec (.wideLoRead q addr) s = .next (given q (readWord s (latchRead q (addr.toNat / 4 * 4) s) q (addr.toNat / 4 * 4))
        (onShadow q (fun x => { x with wideAddr := some (addr.toNat / 4 * 4), wideHi := regRead s q (addr.toNat / 4 * 4 + 4) }) s)))
    ∧ (∀ w t, q.part = 0 → indRead (s.shadow q.ix).indAddr.toNat s = some (w, t) →
      exec (.indDataRead q) s = .next (given q w (onShadow q Shadow.advance t)))
    ∧ (∀ w t, q.part = 0 → indWrite (s.shadow q.ix).indAddr.toNat w s = some t →
      exec (.indDataWrite q w) s = .next (onShadow q Shadow.advance t))

/-- Lookout's own events complete (R20, R451, R453 to R455, R514). -/
def Obligations.LookoutEventsComplete : Prop :=
  ∀ s : State, s.held = false →
    (∀ b xo : Half, b = 320 → xo = 491 → s.lkt.oscB = false → s.lkt.xoBad = false →
      exec (.oscComparison b xo) s = .next { s with lkt := { s.lkt with now := s.lkt.now + 10 } })
    ∧ (∀ b xo : Half, b = 320 → xo = 0 → s.lkt.oscB = false → s.lkt.xoBad = false →
      exec (.oscComparison b xo) s
        = .next (reportOwn 0x001 { s with lkt := { s.lkt with now := s.lkt.now + 10, xoBad := true } }))
    ∧ (s.pst.state ≠ .acquire →
      exec .sampleEdgeTimeout s = .next (reportOwn 0x001 { s with lkt := { s.lkt with edgeLoss := true } }))
    ∧ (s.lkt.supKicked = true → exec .supWatchdog s = .next { s with lkt := { s.lkt with supKicked := false } })
    ∧ (s.lkt.supKicked = false → exec .supWatchdog s = .next (reportOwn 0x003 s))
    ∧ (exec .supLockstep s = .next (reportOwn 0x002 s))
    ∧ (s.lkt.coresRun = true →
      exec (.summitCoreStop false) s = .next (reportOwn 0x005 { s with lkt := { s.lkt with core0Stop := true } }))
    ∧ (exec (.coreWatchdogKick false) s = .next { s with lkt := { s.lkt with core0Stop := false } })
    ∧ (∀ src : Byte, ∀ a t, s.lkt.srcMask.getLsbD src.toNat = false → classOf s src.toNat = some (.service, a) →
        t = reportFault 0x000 (BitVec.ofNat 16 src.toNat) s →
      exec (.signalPath src) s = .next { t with lkt := { t.lkt with
        sigpathLast := src, srcMask := setBit t.lkt.srcMask src.toNat true } })
    ∧ (∀ src : Byte, exec (.sourceUnmask src) s = .next { s with lkt := { s.lkt with
        srcMask := setBit s.lkt.srcMask src.toNat false } })
    ∧ (∀ failing, (∀ n, n ∈ bitsOf failing → s.lkt.srcMask.getLsbD n = true) →
      exec (.pairPulseTest failing) s = .next s)
    ∧ (s.lkt.coresRun = false → s.boot.profileApplied = false →
      exec (.coreRestartComplete true) s = .next (pauseCheck { s with lkt := { s.lkt with coresRun := true } }))

/-- A fault report, the records' timers, claims and clears complete (R456 to R464, R468). -/
def Obligations.RecordEventsComplete : Prop :=
  ∀ s : State, s.held = false →
    (∀ (src : Byte) inst a, s.lkt.srcMask.getLsbD src.toNat = false → classOf s src.toNat = some (.notice, a) →
        (s.record (src.toNat / 32)).state = .idle →
      exec (.faultReport src inst) s = .next (countFault src.toNat
        (s.setRecord (src.toNat / 32) (openRecord s src.toNat inst .notice .noted))))
    ∧ (∀ (src : Byte) inst, s.lkt.srcMask.getLsbD src.toNat = true → exec (.faultReport src inst) s = .next s)
    ∧ (∀ g : Fin 8, (s.record g.val).state = .raised → exec (.escalationExpiry g) s = .next (escalate g.val s))
    ∧ (∀ (g : Fin 8) r, r = s.record g.val → r.state = .claimed → r.serviceSinceClaim = false →
      exec (.claimTimeExpiry g) s = .next (s.setRecord g.val { r with claimExpired := true }))
    ∧ (∀ g : Fin 8, (s.record g.val).state = .noted → clearBlock s g.val = none →
      exec (.notedExpiry g) s = .next (s.setRecord g.val Record.init))
    ∧ (∀ q w, MayWrite s q 0x0410 → exec (.lktSupKick q w) s = .next { s with lkt := { s.lkt with
        supKicked := true, supPeriod := s.lkt.supWdog } })
    ∧ (∀ q (g : Fin 8) r, r = s.record g.val → MayWrite s q 0x0414 → r.state = .raised →
      exec (.lktClaim q g) s = .next (s.setRecord g.val { r with
        claimedBy := 4, irq := false, state := .claimed, claimEnd := s.time + 1000 * s.lkt.claimTime
        claimExpired := false, serviceSinceClaim := false }))
    ∧ (∀ q (g : Fin 8), MayWrite s q 0x0418 → clearBlock s g.val = none →
      exec (.lktClear q g) s = .next (clearRecord g.val { s with lkt := { s.lkt with
        clearRefused := false, clearSource := 0 } }))
    ∧ (∀ q (g : Fin 8) src, MayWrite s q 0x0418 → clearBlock s g.val = some src →
      exec (.lktClear q g) s = .next { s with lkt := { s.lkt with clearRefused := true, clearSource := src } })

/-- The fault commands complete (R453, R456, R459, R462, R464, R470). -/
def Obligations.FaultCommandsComplete : Prop :=
  ∀ (s : State) (q : Sender),
    (Accepts s q bodyFltGetStatus → Reads (.fltGetStatus q) q bodyFltGetStatus s)
    ∧ (∀ g, Accepts s q (bodyFltClaim g) → g.toNat ≤ 7 → (s.record g.toNat).state ≠ .idle →
        (s.record g.toNat).route.getLsbD q.part.val = true →
      Runs (.fltClaim q g) q (bodyFltClaim g) s (Reply.ok []) (claimRecord g.toNat q.part.val))
    ∧ (∀ g, Accepts s q (bodyFltClear g) → g.toNat ≤ 7 → (s.record g.toNat).route.getLsbD q.part.val = true →
        clearBlock s g.toNat = none →
      Runs (.fltClear q g) q (bodyFltClear g) s (Reply.ok []) (clearRecord g.toNat))
    ∧ (∀ src cls act c a c0 a0, Accepts s q (bodyFltSetClass src cls act) →
        sourceInfo src.toNat = some (c0, a0, false) → clsOf cls.toNat = some c → actOf act.toNat = some a → a ≠ .chMute →
      Runs (.fltSetClass q src cls act) q (bodyFltSetClass src cls act) s (Reply.ok []) fun t =>
        { t with lkt := { t.lkt with
          classes := Store.put none t.lkt.classes src.toNat (if c = c0 ∧ a = a0 then none else some (c, a)) } })
    ∧ (∀ esc claim sup, Accepts s q (bodyFltSetTimers esc claim sup) → 100 ≤ esc.toNat → esc.toNat ≤ 100000 →
        10 ≤ claim.toNat → claim.toNat ≤ 60000 → 100 ≤ sup.toNat → sup.toNat ≤ 100000 →
      Runs (.fltSetTimers q esc claim sup) q (bodyFltSetTimers esc claim sup) s (Reply.ok []) fun t =>
        { t with lkt := { t.lkt with escTime := esc.toNat, claimTime := claim.toNat, supWdog := sup.toNat } })
    ∧ (∀ first count, Accepts s q (bodyFltGetCounts first count) → 1 ≤ count.toNat → first.toNat + count.toNat ≤ 256 →
      Reads (.fltGetCounts q first count) q (bodyFltGetCounts first count) s)

/-- The security commands complete (R473, R474, R476, R479, R481, R484, R490, R491). -/
def Obligations.SecurityCommandsComplete : Prop :=
  ∀ (s : State) (q : Sender),
    (Accepts s q bodySecGetStatus → Reads (.secGetStatus q) q bodySecGetStatus s)
    ∧ (∀ c, Accepts s q (bodySecKeyProgram c) → q.via = .mailbox → s.sec.lock.getLsbD 1 = false →
        keySlotOk c.kind.toNat c.index.toNat c.slot.toNat = true → (c.kind.toNat < 2 → c.value >>> 256 = 0) →
        keySlotUsed s.sec.otp c.kind.toNat c.index.toNat c.slot.toNat = false →
      Runs (.secKeyProgram q c) q (bodySecKeyProgram c) s (Reply.ok []) fun t =>
        { t with sec := { t.sec with otp := t.sec.otp.program c } })
    ∧ (∀ c, Accepts s q (bodySecKeyRevoke c) → s.sec.lock.getLsbD 1 = false →
        keySlotOk c.kind.toNat c.index.toNat c.slot.toNat = true → revokeRefused s c = false →
      Runs (.secKeyRevoke q c) q (bodySecKeyRevoke c) s (Reply.ok []) fun t =>
        { t with sec := { t.sec with otp := t.sec.otp.revoke c.kind.toNat c.index.toNat c.slot.toNat } })
    ∧ (∀ c, Accepts s q (bodySecArbAdvance c) → s.sec.lock.getLsbD 2 = false → c.flags = 0 → arbCounter s ≤ c.value.toNat →
        c.value.toNat ≤ min s.sec.fwRollback.toNat s.boot.profileRollback.toNat →
        arbBusy (opened q (bodySecArbAdvance c) s) = false →
      ∃ t, exec (.secArbAdvance q c) s = .next (closed q (bodySecArbAdvance c)
          (Reply.ok (le32 c.value ++ le32 (BitVec.ofNat 32 s.sec.otp.floor))) s t)
        ∧ t.ka.arbCount = c.value ∧ t.sec = s.sec)
    ∧ (∀ copy, Accepts s q (bodySecFwErase copy) → s.sec.lock.getLsbD 0 = false → copy.toNat ≤ 1 →
        copyRuns s copy.toNat = false → fwVerifying (opened q (bodySecFwErase copy) s) copy.toNat = false →
      Runs (.secFwErase q copy) q (bodySecFwErase copy) s (Reply.code .pending) id)
    ∧ (∀ c, Accepts s q (bodySecFwWrite c) → s.sec.lock.getLsbD 0 = false → c.unit.toNat ≤ 1 →
        copyRuns s c.unit.toNat = false → c.data.length = c.length.toNat → flashWriteOk s (copyBase c.unit.toNat) c = true →
        fwVerifying (opened q (bodySecFwWrite c) s) c.unit.toNat = false →
      Runs (.secFwWrite q c) q (bodySecFwWrite c) s (Reply.ok []) (flashWrite (copyBase c.unit.toNat + c.offset.toNat) c.data))
    ∧ (∀ copy, Accepts s q (bodySecFwVerify copy) → copy.toNat ≤ 1 →
      Runs (.secFwVerify q copy) q (bodySecFwVerify copy) s (Reply.code .pending) id)
    ∧ (Accepts s q bodySecDebugChallenge → s.sec.drbgStopped = false →
      ∃ t n, exec (.secDebugChallenge q) s = .next (closed q bodySecDebugChallenge
          (Reply.ok (leBytes 32 n.toNat ++ le64 s.sec.otp.deviceId)) s t)
        ∧ t.sec = { s.sec with nonce := some n, nonceAt := s.time } ∧ t.fresh = s.fresh + 8)
    ∧ (∀ block, Accepts s q (bodySecDebugUnlock block) → block.length = 256 → unlockOk s block = true → evalExpect s = false →
      Runs (.secDebugUnlock q block) q (bodySecDebugUnlock block) s (Reply.ok []) fun t =>
        { t with sec := { t.sec with nonce := none, debugOpen := true } })
    ∧ (∀ bits, Accepts s q (bodySecSetLock bits) →
      Runs (.secSetLock q bits) q (bodySecSetLock bits) s
        (Reply.ok (le32 ((s.sec.lock ||| bits.setWidth 4).setWidth 32))) fun t =>
          { t with sec := { t.sec with lock := t.sec.lock ||| bits.setWidth 4 } })

/-- The security events complete, and a private JTAG instruction while debug is OPEN stops by name, since the spec does not
say what it does there (R482 to R485). -/
def Obligations.SecurityEventsComplete : Prop :=
  ∀ s : State,
    (s.held = false → exec .debugNonceExpiry s = .next { s with sec := { s.sec with nonce := none } })
    ∧ (s.held = false →
      exec .drbgHealthFail s = .next (reportOwn 0x0FB { s with sec := { s.sec with drbgStopped := true } }))
    ∧ (s.held = false → debugCode s ≠ 2 →
      exec .privateJtagInstruction s = .next (reportOwn 0x0FA { s with sec := { s.sec with
        debugAttempts := s.sec.debugAttempts + 1 } }))
    ∧ (s.held = false → debugCode s = 2 → exec .privateJtagInstruction s = .refused .debugUnit)
    ∧ (s.held = false → s.pins.porstN = true → s.ka.deepOff = false →
      ∃ t, exec .boundaryTestSelect s = .next t ∧ t.pins.boundary = true ∧ t.lkt.failSilent = true)

/-- The two-wire controllers' rows complete (R495 to R503, R507). -/
def Obligations.TwoWireRowsComplete : Prop :=
  ∀ (s : State) (n : Fin 4) (c : TwCtl), c = s.twc n.val → s.held = false →
    (∀ q, MayWrite s q (0x6008 + 0xC0 * n.val) → c.state = .idle → c.wcount ≤ 32 → c.rcount ≤ 32 → c.busStuck = false →
      exec (.twGo q n) s = .next (s.setTwc n.val { c with
        doneBytes := 0, addrTries := 0, arbTries := 0, aborting := false, state := .queued, result := 0 }))
    ∧ (∀ q, MayWrite s q (0x6008 + 0xC0 * n.val) → c.state = .active →
      exec (.twAbort q n) s = .next (s.setTwc n.val { c with aborting := true }))
    ∧ (c.bus = .free → c.alert = false → c.state = .queued → c.busStuck = false → (n.val = 0 → s.fab.xfer = none) →
      exec (.twTransactionStart n) s = .next (s.setTwc n.val { c with bus := .host, state := .active, cfgInUse := c.cfg }))
    ∧ (∀ k rd, c.bus = .host → c.aborting = false → c.block = false →
      exec (.twTransactionEnd n { outcome := .done, doneBytes := k, read := rd, recovery := none }) s
        = .next (s.setTwc n.val { c with
            bus := .free, doneBytes := k, rx := (rd ++ c.rx.drop rd.length).take 32, state := .idle, result := 1
            aborting := false, addrTries := 0, arbTries := 0, xferCnt := c.xferCnt + 1 }))
    ∧ (∀ k rd, c.bus = .host → c.aborting = false → c.addrTries < c.addrRetry →
      exec (.twTransactionEnd n { outcome := .addrNack, doneBytes := k, read := rd, recovery := none }) s
        = .next (s.setTwc n.val { c with
            bus := .free, doneBytes := k, state := .retryWait, addrTries := c.addrTries + 1 }))
    ∧ (c.state = .retryWait → c.bus = .free → c.alert = false → c.busStuck = false → (n.val = 0 → s.fab.xfer = none) →
        s.tw.ctl.length = 4 →
      ∃ t, exec (.twRetryDelay n) s = .next t ∧ (t.twc n.val).state = .active ∧ (t.twc n.val).bus = .host
        ∧ (t.twc n.val).retryCnt = c.retryCnt + 1)
    ∧ (∀ k, c.bus = .host → c.stretchMs n.val ≠ 0 → s.tw.ctl.length = 4 →
      ∃ t, exec (.twStretchTimeout n k true) s = .next t ∧ (t.twc n.val).state = .idle ∧ (t.twc n.val).result = 5
        ∧ (t.twc n.val).doneBytes = k ∧ (t.twc n.val).stretchCnt = c.stretchCnt + 1
        ∧ (t.twc n.val).recoverCnt = c.recoverCnt + 1 ∧ (t.twc n.val).bus = .free)
    ∧ (c.bus ≠ .governor → c.busStuck = false →
      exec (.twSclStuckTimeout n) s = .next (reportOwn (0x0F0 + n.val) (s.setTwc n.val c.stick)))
    ∧ (c.busStuck = true →
      exec (.twStuckRecoveryRepeat n true) s = .next (s.setTwc n.val { c with recoverCnt := c.recoverCnt + 1 }))
    ∧ (exec (.busStuckClear n) s = .next (s.setTwc n.val { c with busStuck := false }))
    ∧ (c.alert = false →
      exec (.twAlertAssert n) s = .next (s.setTwc n.val { c with alert := true, reads := 0, alertStuck := false }))
    ∧ (exec (.twAlertRelease n) s = .next (s.setTwc n.val { c with alert := false, alertStuck := false }))
    ∧ (∀ b, c.bus = .alert → c.busStuck = false → c.wantsAlert = true →
      exec (.twAlertResponseRead n (some b)) s = .next (s.setTwc n.val { c with
        bus := .free, reads := c.reads + 1, log := (b :: c.log).take 8, alertCnt := c.alertCnt + 1 }))
    ∧ (c.bus = .alert → c.busStuck = false → c.wantsAlert = true →
      exec (.twAlertResponseRead n none) s = .next (s.setTwc n.val { c with
        bus := .free, reads := c.reads + 1, alertStuck := true }))

/-- The target port's rows complete (R504 to R506, R508). -/
def Obligations.TargetPortRowsComplete : Prop :=
  ∀ (s : State) (t : Twt), t = s.tw.twt → s.held = false →
    (∀ n : Byte, t.en = true →
      exec (.twtRead n) s = .next (s.setTwt { t with
        sent := (List.range n.toNat).map fun i => (twtPage s).getD ((t.pointer.toNat + i) % 128) 0
        pointer := t.pointer + BitVec.ofNat 7 n.toNat }))
    ∧ (∀ p : Byte, t.en = true →
      exec (.twtWrite [p]) s = .next (s.setTwt { t with pointer := p.setWidth 7 }))
    ∧ (∀ p b : Byte, t.en = true → 0x40 ≤ p.toNat % 128 → p.toNat % 128 < 0x60 →
      exec (.twtWrite [p, b]) s = .next (s.setTwt { t with
        inb := Store.put 0 t.inb (p.toNat % 128 - 0x40) b, pointer := BitVec.ofNat 7 (p.toNat % 128 + 1)
        wrCnt := t.wrCnt + 1 }))
    ∧ (t.en = true → t.faultAt = some s.time →
      exec .twtProtocolError s = .next (s.setTwt { t with protoErr := t.protoErr + 1 }))
    ∧ (t.en = true → t.faultAt = some s.time →
      exec .twtSclTimeout s = .next (s.setTwt { t with pointer := 0, protoErr := t.protoErr + 1 }))
    ∧ (∀ q, MayWrite s q 0x6304 → exec (.twtAlert q) s = .next (s.setTwt { t with alertReq := true }))
    ∧ (t.en = true → t.alertReq = true →
      exec .twtAlertResponse s = .next (s.setTwt { t with
        alertReq := false, sent := [BitVec.ofNat 8 (2 * t.addr.toNat)] }))

/-- The rows of reset, deep-off and wake complete (R513, R515, R520, R521, R523 to R525, R541, R542): in every state. -/
def Obligations.ResetRowsComplete : Prop :=
  ∀ s : State,
    (s.ka.deepOff = false →
      ∃ t, exec .porstAssert s = .next t ∧ t.pins.porstN = false ∧ t.pst = Pst.init ∧ t.sys.lock = 0
        ∧ t.boot.otpSensed = false ∧ t.mem = Mem.init ∧ t.sec.otp = s.sec.otp ∧ t.pending = s.pending)
    ∧ (∀ sel iox, s.pins.porstN = false → s.ka.deepOff = false → s.pins.sysrstN = true → s.pins.testEn = false →
      ∃ t, exec (.porstRelease sel iox true) s = .next t ∧ t.pins.porstN = true ∧ t.pins.ioxSense = iox
        ∧ t.pins.profileSampled = sel ∧ t.ka.vkaNew = false ∧ t.ka.lastStart = (if s.ka.vkaNew then 0 else 1))
    ∧ (s.ka.deepOff = false →
      ∃ t, exec .sysrstAssert s = .next t ∧ t.pins.sysrstN = false ∧ t.pst = Pst.init ∧ t.sys.lock = 0)
    ∧ (∀ sel, s.pins.sysrstN = false → s.ka.deepOff = false → s.pins.porstN = true → s.pins.testEn = false →
      ∃ t, exec (.sysrstRelease sel) s = .next t ∧ t.pins.sysrstN = true ∧ t.pins.profileSampled = sel
        ∧ t.ka.lastStart = (if s.ka.vkaNew then 0 else 3))
    ∧ (∀ q, s.held = false → present s q = true → q.part = 0 → s.sys.lock.getLsbD 7 = false →
        s.sys.lock.getLsbD 8 = false → s.boot.teardown = none →
      exec (.kaDeepOff q) s = .next (kaRequest .deepOff s))
    ∧ (∀ q, s.held = false → present s q = true → q.part = 0 → s.sys.lock.getLsbD 7 = false →
        s.sys.lock.getLsbD 8 = false → s.boot.teardown = none →
      exec (.kaRestart q) s = .next (kaRequest .restart s))
    ∧ (s.ka.deepOff = true → s.ka.pwrEn = false → s.ka.reassert = false →
      exec (.wake true) s = .next { s with
        pins := { s.pins with wakeN := false }, ka := { s.ka with pwrEn := true, wakeCnt := s.ka.wakeCnt + 1 } })
    ∧ (exec (.wake false) s = .next { s with pins := { s.pins with wakeN := true } })
    ∧ (s.ka.deepOff = true → s.ka.reassert = true →
      exec .pwrEnReassert s = .next { s with ka := { s.ka with
        pwrEn := true, reassert := false, wakeCnt := s.ka.wakeCnt + 1 } })
    ∧ (∃ t, exec .vkaPowerOn s = .next t ∧ t.ka = { Ka.init with vkaNew := true } ∧ t.pins.porstN = false
        ∧ t.pst = Pst.init)
    ∧ (∀ sel, s.ka.deepOff = false →
      ∃ t, exec (.testEn true sel) s = .next t ∧ t.pins.testEn = true ∧ t.pst = Pst.init)
    ∧ (∀ high, exec (.pciePerst high) s = .next { s with pins := { s.pins with perstN := high } })

/-- The steps of the boot complete (R427, R477, R478, R516, R517, R557). -/
def Obligations.BootRowsComplete : Prop :=
  ∀ s : State, s.held = false →
    (exec .bootOtpSensed s = .next { s with boot := { s.boot with otpSensed := true } })
    ∧ (s.boot.otpSensed = true → s.boot.tarnFilled = false →
      exec .tarnZeroFillDone s = .next { s with
        mem := { s.mem with tarn := [], tarnBad := [] }, boot := { s.boot with tarnFilled := true } })
    ∧ (∀ bytes rate, s.boot.tarnFilled = true → s.boot.dramTrained = false → s.boot.dramFailed = false →
      exec (.dramTrainingDone true bytes rate) s = .next { s with boot := { s.boot with
        dramTrained := true, dramRate := rate.toNat } })
    ∧ (∀ bytes rate, s.boot.tarnFilled = true → s.boot.dramTrained = false → s.boot.dramFailed = false →
      exec (.dramTrainingDone false bytes rate) s = .next { s with boot := { s.boot with
        dramFailed := true, dramByte := bytes } })
    ∧ (s.boot.dramTrained = true → exec .dramEccInitDone s = .next { s with boot := { s.boot with eccDone := true } })
    ∧ (s.boot.dramTrained = true →
      exec .dramRetrain s = .next { s with boot := { s.boot with retrainCnt := s.boot.retrainCnt + 1 } })
    ∧ (s.boot.fwRunning = false → s.boot.halted = false → s.boot.tarnFilled = true → chosenCopy s = none →
      exec .bootFwVerified s = .next (reportOwn 0x0FB { s with
        boot := { s.boot with halted := true }, sec := { s.sec with bootCopy := 3 } }))
    ∧ (∀ c h, s.boot.fwRunning = false → s.boot.halted = false → s.boot.tarnFilled = true →
        chosenCopy s = some (c, h, false) →
      ∃ t, exec .bootFwVerified s = .next t ∧ t.boot.fwRunning = true ∧ t.sec.bootCopy = c ∧ t.sys.fwVersion = h.version)
    ∧ (∀ b h, s.boot.fwRunning = true → s.boot.profileApplied = false → s.boot.failCode = 0 → s.boot.teardown = none →
        isSealed s (bootSlot s) = true → profCheck s (bootSlot s) = .ok h → bundleOk h.parts b = true →
      exec (.bootProfileApplied b) s = .next (noteEval s (applyBundle h b s)))
    ∧ (∀ b, s.boot.fwRunning = true → s.boot.profileApplied = false → s.boot.failCode = 0 → s.boot.teardown = none →
        isSealed s (bootSlot s) = false →
      exec (.bootProfileApplied b) s = .next (profileFail 1 0 0 0 s))
    ∧ (∀ c, s.boot.profileApplied = true → s.boot.bootDone = false → s.lkt.coresRun = true → s.boot.job = none →
        s.boot.commands[s.boot.index]? = some c → c.opcode.toNat < 0x0320 →
      exec .bootCommandNext s = .next (bootStart c { s with boot := { s.boot with acquireWait := false } }))
    ∧ (∀ c, s.boot.profileApplied = true → s.boot.bootDone = false → s.lkt.coresRun = true → s.boot.job = none →
        s.boot.commands[s.boot.index]? = some c → 0x0320 ≤ c.opcode.toNat → s.boot.acquireWaited = false →
        s.pst.state = .acquire →
      exec .bootCommandNext s = .next { s with boot := { s.boot with acquireWait := true } })
    ∧ (s.boot.profileApplied = true → s.boot.bootDone = false → s.lkt.coresRun = true →
        s.boot.commands[s.boot.index]? = none →
      exec .bootCommandNext s = .next (bootFinish s))
    ∧ (s.boot.acquireWait = true → s.pst.state ≠ .acquire →
      exec .bootAcquireWaitEnd s = .next (bootNext s))

/-- A step takes the command at the front of the queue and runs it with the rest of the queue in its state; with no command
waiting the block idles. The queue and the idling are the model's choice (log 2). -/
def Obligations.StepRunsTheFront : Prop :=
  (∀ (c : Instr) (rest : List Instr) (s : State), s.pending = c :: rest → step s = exec c { s with pending := rest })
    ∧ ∀ s : State, s.pending = [] → step s = .next s

/-- The invariant holds right after reset. -/
def Obligations.InvariantAtReset : Prop := Inv State.reset

/-- What reset leaves (R21, R177, R187, R270, R375, R379, R408, R416, R441): the registers' values, partition 0 alone
enabled, no pair, every channel muted by the host, empty slots and non-zero sessions. That the state is the one of the
instant 0 of R516 is the model's choice (log 1). -/
def Obligations.ResetValues : Prop :=
  (∀ q, regRead State.reset q 0x0008 = 0x10#32 ∧ regRead State.reset q 0x0010 = 0#32 ∧ regRead State.reset q 0x0014 = 0#32
      ∧ regRead State.reset q 0x0020 = 1#32 ∧ regRead State.reset q 0x0024 = 0#32 ∧ regRead State.reset q 0x5008 = 0#32
      ∧ regRead State.reset q 0x6804 = 0#32)
    ∧ State.reset.lkt.failSilent = false ∧ State.reset.red.state = .unpaired ∧ State.reset.own.udpPort = 6590
    ∧ (∀ c, c < 16 → (State.reset.pwsCh c).hostMute = true)
    ∧ (∀ p, p < 4 → (State.reset.part p).mbox.state = .empty ∧ (State.reset.part p).lastCtr = 0
        ∧ (State.reset.part p).session ≠ 0)
    ∧ (∀ k, State.reset.mtx.word k = 0#32) ∧ State.reset.mtx.quotas = [2048, 2048, 2048, 2048]
    ∧ State.reset.mem.tarn = [] ∧ State.reset.mem.dram = [] ∧ State.reset.pending = []

namespace Sys2Proof.Machine

/-- A command of `q` reaches steps 7 and 8 of R411: its slot is free for it, its partition is enabled and reached, and no
accepted load keeps it (R428). -/
def Reaches (s : State) (q : Sender) (b : Body) : Prop :=
  s.held = false ∧ startable s q.part.val (q.via == .udp) b.opcode = true ∧ partReach s q.part.val (q.via == .udp) = true
    ∧ loadBusy s b.opcode = false

/-- The state after a command that is refused: its slot holds the refusal. -/
def turnedAway (q : Sender) (b : Body) (st : Status) (s : State) : State :=
  slotRan q.part.val (q.via == .udp) b (Reply.code st) (opened q b s) (opened q b s)

/-- The row is refused where its sender does not own a unit that it names. -/
def Unowned (s : State) (q : Sender) (i : Instr) (b : Body) : Prop :=
  Reaches s q b → ownsAll s q.part.val b.units = false → exec i s = .next (turnedAway q b .notOwner s)

/-- Bit `n` of SYS_LOCK covers the row: while it is set, a sender that owns what the command names is refused. -/
def Covered (s : State) (q : Sender) (n : Nat) (i : Instr) (b : Body) : Prop :=
  s.sys.lock.getLsbD n = true → Reaches s q b → (b.only0 = true → q.part = 0) → ownsAll s q.part.val b.units = true →
    exec i s = .next (turnedAway q b .locked s)

end Sys2Proof.Machine

/-- A command that names a unit of another partition returns NOT_OWNER, 0x13, and changes its slot alone (R23, R411). -/
def Obligations.NotOwnerChangesNothing : Prop :=
  Status.byte .notOwner = 0x13#8
    ∧ (∀ (s : State) (q : Sender) (b : Body), turnedAway q b .notOwner s = { s with cmds := (turnedAway q b .notOwner s).cmds })
    ∧ ∀ (s : State) (q : Sender),
    (∀ c, Unowned s q (.netSetRing q c) (bodyNetSetRing c))
    ∧ (∀ c, Unowned s q (.ptpSetAlarm q c) (bodyPtpSetAlarm c))
    ∧ (∀ alarm, Unowned s q (.ptpCancelAlarm q alarm) (bodyPtpCancelAlarm alarm))
    ∧ (∀ ctx c, Unowned s q (.streamSetTx q ctx c) (bodyStreamSetTx ctx c))
    ∧ (∀ ctx c, Unowned s q (.streamSetRx q ctx c) (bodyStreamSetRx ctx c))
    ∧ (∀ ctx block, Unowned s q (.streamSetCs q ctx block) (bodyStreamSetCs ctx block))
    ∧ (∀ dir ctx q0 wave, Unowned s q (.streamStart q dir ctx q0 wave) (bodyStreamStart dir ctx q0 wave))
    ∧ (∀ dir ctx wave, Unowned s q (.streamStop q dir ctx wave) (bodyStreamStop dir ctx wave))
    ∧ (∀ dir ctx, Unowned s q (.streamGetContext q dir ctx) (bodyStreamGetContext dir ctx))
    ∧ (∀ dir ctx, Unowned s q (.streamClear q dir ctx) (bodyStreamClear dir ctx))
    ∧ (∀ c, Unowned s q (.tapSet q c) (bodyTapSet c))
    ∧ (∀ tap, Unowned s q (.tapGet q tap) (bodyTapGet tap))
    ∧ (∀ c, Unowned s q (.tdmSetGroup q c) (bodyTdmSetGroup c))
    ∧ (∀ c, Unowned s q (.tdmSetPort q c) (bodyTdmSetPort c))
    ∧ (∀ c, Unowned s q (.tdmSetRing q c) (bodyTdmSetRing c))
    ∧ (∀ c, Unowned s q (.tdmStageMask q c) (bodyTdmStageMask c))
    ∧ (∀ mask, Unowned s q (.tdmCommit q mask) (bodyTdmCommit mask))
    ∧ (∀ mask, Unowned s q (.tdmStart q mask) (bodyTdmStart mask))
    ∧ (∀ mask, Unowned s q (.tdmStop q mask) (bodyTdmStop mask))
    ∧ (∀ port, Unowned s q (.tdmGetStatus q port) (bodyTdmGetStatus port))
    ∧ (∀ c, Unowned s q (.mtxSetGains q c) (bodyMtxSetGains c))
    ∧ (∀ col ms, Unowned s q (.mtxSetColumn q col ms) (bodyMtxSetColumn col ms))
    ∧ (∀ col first count, Unowned s q (.mtxGetGains q col first count) (bodyMtxGetGains col first count))
    ∧ (∀ c, Unowned s q (.pwsSetChannel q c) (bodyPwsSetChannel c))
    ∧ (∀ mask, Unowned s q (.pwsStart q mask) (bodyPwsStart mask))
    ∧ (∀ mask, Unowned s q (.pwsStop q mask) (bodyPwsStop mask))
    ∧ (∀ mask mute, Unowned s q (.pwsMute q mask mute) (bodyPwsMute mask mute))
    ∧ (∀ mask, Unowned s q (.pwsClear q mask) (bodyPwsClear mask))
    ∧ (∀ channel, Unowned s q (.pwsGetStatus q channel) (bodyPwsGetStatus channel))
    ∧ (∀ engine mem addr count,
        Unowned s q (.crnReadMem q engine mem addr count) (bodyCrnReadMem engine mem addr count))

/-- SYS_LOCK (R442): the commands that each bit covers are refused with LOCKED, 0x14, and change their slot alone; the
register writes that a bit covers are ignored with reason 2; indirect reads continue; writing 0 to a bit has no effect. -/
def Obligations.LocksRefuse : Prop :=
  Status.byte .locked = 0x14#8
    ∧ (∀ (s : State) (q : Sender) (b : Body), turnedAway q b .locked s = { s with cmds := (turnedAway q b .locked s).cmds })
    ∧ (∀ (s : State) (q : Sender),
    (∀ c, Covered s q 0 (.sysProfileLoad q c) (bodySysProfileLoad c))
    ∧ (∀ c, Covered s q 0 (.sysProfileErase q c) (bodySysProfileErase c))
    ∧ (∀ c, Covered s q 0 (.sysProfileWrite q c) (bodySysProfileWrite c))
    ∧ (∀ n, Covered s q 0 (.sysProfileSeal q n) (bodySysProfileSeal n))
    ∧ (∀ code, Covered s q 1 (.clkSetRate q code) (bodyClkSetRate code))
    ∧ (∀ c, Covered s q 1 (.clkRefConfig q c) (bodyClkRefConfig c))
    ∧ (∀ c, Covered s q 1 (.clkSelect q c) (bodyClkSelect c))
    ∧ (∀ c, Covered s q 1 (.clkSetTimers q c) (bodyClkSetTimers c))
    ∧ (∀ c, Covered s q 1 (.clkSetHoldover q c) (bodyClkSetHoldover c))
    ∧ (∀ ppt, Covered s q 1 (.clkSetTrim q ppt) (bodyClkSetTrim ppt))
    ∧ (∀ ns, Covered s q 1 (.clkPhaseStep q ns) (bodyClkPhaseStep ns))
    ∧ (∀ c, Covered s q 1 (.clkRealign q c) (bodyClkRealign c))
    ∧ (∀ c, Covered s q 2 (.netSetPort q c) (bodyNetSetPort c))
    ∧ (∀ c, Covered s q 2 (.netSetSwitch q c) (bodyNetSetSwitch c))
    ∧ (∀ c, Covered s q 2 (.netFdbWrite q c) (bodyNetFdbWrite c))
    ∧ (∀ vid members taggedPorts,
        Covered s q 2 (.netVlanWrite q vid members taggedPorts) (bodyNetVlanWrite vid members taggedPorts))
    ∧ (∀ c, Covered s q 2 (.netSetFilter q c) (bodyNetSetFilter c))
    ∧ (∀ c, Covered s q 2 (.netSetRing q c) (bodyNetSetRing c))
    ∧ (∀ port mode, Covered s q 2 (.netTest q port mode) (bodyNetTest port mode))
    ∧ (∀ c, Covered s q 2 (.ptpSetInstance q c) (bodyPtpSetInstance c))
    ∧ (∀ c, Covered s q 2 (.ptpSetPortTs q c) (bodyPtpSetPortTs c))
    ∧ (∀ c, Covered s q 2 (.ptpSetMaster q c) (bodyPtpSetMaster c))
    ∧ (∀ sec, Covered s q 2 (.ptpSetTime q sec) (bodyPtpSetTime sec))
    ∧ (∀ c, Covered s q 3 (.tdmSetGroup q c) (bodyTdmSetGroup c))
    ∧ (∀ c, Covered s q 3 (.tdmSetPort q c) (bodyTdmSetPort c))
    ∧ (∀ c, Covered s q 3 (.tdmSetRing q c) (bodyTdmSetRing c))
    ∧ (∀ c, Covered s q 4 (.pwsSetStage q c) (bodyPwsSetStage c))
    ∧ (∀ c, Covered s q 4 (.pwsSetChannel q c) (bodyPwsSetChannel c))
    ∧ (∀ c, Covered s q 5 (.redSetPair q c) (bodyRedSetPair c))
    ∧ (∀ first es, Covered s q 5 (.redSetShared q first es) (bodyRedSetShared first es))
    ∧ (∀ n, Covered s q 5 (.sadSetPathdown q n) (bodySadSetPathdown n))
    ∧ (∀ c, Covered s q 6 (.fabSetGovernor q c) (bodyFabSetGovernor c))
    ∧ (∀ burst stall, Covered s q 6 (.fabSetEscalation q burst stall) (bodyFabSetEscalation burst stall))
    ∧ (∀ th, Covered s q 6 (.crnSetTrapEscalation q th) (bodyCrnSetTrapEscalation th))
    ∧ (∀ period timeout, Covered s q 6 (.memSetScrub q period timeout) (bodyMemSetScrub period timeout))
    ∧ (∀ c, Covered s q 8 (.fabSetGovernor q c) (bodyFabSetGovernor c))
    ∧ (∀ burst stall, Covered s q 8 (.fabSetEscalation q burst stall) (bodyFabSetEscalation burst stall))
    ∧ (∀ th, Covered s q 8 (.crnSetTrapEscalation q th) (bodyCrnSetTrapEscalation th))
    ∧ (∀ period timeout, Covered s q 8 (.memSetScrub q period timeout) (bodyMemSetScrub period timeout))
    ∧ (∀ code, Covered s q 8 (.clkSetRate q code) (bodyClkSetRate code))
    ∧ (∀ c, Covered s q 8 (.clkRefConfig q c) (bodyClkRefConfig c))
    ∧ (∀ c, Covered s q 8 (.clkSelect q c) (bodyClkSelect c))
    ∧ (∀ c, Covered s q 8 (.clkSetTimers q c) (bodyClkSetTimers c))
    ∧ (∀ c, Covered s q 8 (.clkSetHoldover q c) (bodyClkSetHoldover c))
    ∧ (∀ c, Covered s q 8 (.netSetPort q c) (bodyNetSetPort c))
    ∧ (∀ c, Covered s q 8 (.netSetSwitch q c) (bodyNetSetSwitch c))
    ∧ (∀ c, Covered s q 8 (.netFdbWrite q c) (bodyNetFdbWrite c))
    ∧ (∀ vid members taggedPorts,
        Covered s q 8 (.netVlanWrite q vid members taggedPorts) (bodyNetVlanWrite vid members taggedPorts))
    ∧ (∀ c, Covered s q 8 (.netSetFilter q c) (bodyNetSetFilter c))
    ∧ (∀ c, Covered s q 8 (.netSetRing q c) (bodyNetSetRing c))
    ∧ (∀ c, Covered s q 8 (.ptpSetInstance q c) (bodyPtpSetInstance c))
    ∧ (∀ c, Covered s q 8 (.ptpSetPortTs q c) (bodyPtpSetPortTs c))
    ∧ (∀ c, Covered s q 8 (.ptpSetMaster q c) (bodyPtpSetMaster c))
    ∧ (∀ ctx c, Covered s q 8 (.streamSetTx q ctx c) (bodyStreamSetTx ctx c))
    ∧ (∀ ctx c, Covered s q 8 (.streamSetRx q ctx c) (bodyStreamSetRx ctx c))
    ∧ (∀ ctx block, Covered s q 8 (.streamSetCs q ctx block) (bodyStreamSetCs ctx block))
    ∧ (∀ group delay, Covered s q 8 (.streamSetGroup q group delay) (bodyStreamSetGroup group delay))
    ∧ (∀ c, Covered s q 8 (.tdmSetGroup q c) (bodyTdmSetGroup c))
    ∧ (∀ c, Covered s q 8 (.tdmSetPort q c) (bodyTdmSetPort c))
    ∧ (∀ c, Covered s q 8 (.tdmSetRing q c) (bodyTdmSetRing c))
    ∧ (∀ col ms, Covered s q 8 (.mtxSetColumn q col ms) (bodyMtxSetColumn col ms))
    ∧ (∀ qs, Covered s q 8 (.mtxSetQuota q qs) (bodyMtxSetQuota qs))
    ∧ (∀ c, Covered s q 8 (.pwsSetStage q c) (bodyPwsSetStage c))
    ∧ (∀ c, Covered s q 8 (.pwsSetChannel q c) (bodyPwsSetChannel c))
    ∧ (∀ c, Covered s q 8 (.redSetPair q c) (bodyRedSetPair c))
    ∧ (∀ first es, Covered s q 8 (.redSetShared q first es) (bodyRedSetShared first es))
    ∧ (∀ n, Covered s q 8 (.sadSetPathdown q n) (bodySadSetPathdown n))
    ∧ (∀ src cls act, Covered s q 8 (.fltSetClass q src cls act) (bodyFltSetClass src cls act))
    ∧ (∀ esc claim sup, Covered s q 8 (.fltSetTimers q esc claim sup) (bodyFltSetTimers esc claim sup)))
    ∧ ∀ (s : State) (q : Requester), s.held = false → present s q = true → q.part = 0 →
      (∀ w, s.sys.lock.getLsbD 7 = true →
        exec (.indDataWrite q w) s = .next (onShadow q Shadow.advance (ignoreWrite q 0x0044 2 (indRefused s)))
        ∧ exec (.registerWrite q 0x0044 w true) s
            = .next (onShadow q Shadow.advance (ignoreWrite q 0x0044 2 (indRefused s))))
      ∧ (∀ w, s.sys.lock.getLsbD 8 = true → indCovered (s.shadow q.ix).indAddr.toNat = true →
        exec (.indDataWrite q w) s = .next (onShadow q Shadow.advance (ignoreWrite q 0x0044 2 (indRefused s))))
      ∧ (∀ w t, indRead (s.shadow q.ix).indAddr.toNat s = some (w, t) →
        exec (.indDataRead q) s = .next (given q w (onShadow q Shadow.advance t)))
      ∧ (s.sys.lock.getLsbD 8 = true → (∀ w, exec (.registerWrite q 0x0020 w true) s = .next (ignoreWrite q 0x0020 2 s))
        ∧ exec (.cfgCrcCommit q) s = .next (ignoreWrite q 0x0020 2 s)
        ∧ ∀ on, exec (.cfgCrcEnable q on) s = .next (ignoreWrite q 0x0020 2 s))
      ∧ (∀ bits n, ∃ t, exec (.sysLock q bits) s = .next t
        ∧ t.sys.lock.getLsbD n = (s.sys.lock.getLsbD n || (bits.getLsbD n && decide (n < 9))))

/-- A fault that arrives while its group's record is open merges into it, and every fault is counted (R461). -/
def Obligations.FaultMerges : Prop :=
  ∀ (s : State) (src : Byte) (inst : Half) (c : Cls) (a : Act), s.held = false →
    s.lkt.srcMask.getLsbD src.toNat = false → classOf s src.toNat = some (c, a) →
    ∃ t, exec (.faultReport src inst) s = .next t
      ∧ t.lkt.faultCnt = s.lkt.faultCnt + 1
      ∧ (∀ n, Store.look 0 t.lkt.srcCnt n = if n = src.toNat then satInc (Store.look 0 s.lkt.srcCnt n)
          else Store.look 0 s.lkt.srcCnt n)
      ∧ ((s.record (src.toNat / 32)).state ≠ .idle →
        (∀ b, (t.record (src.toNat / 32)).merged.getLsbD b
            = ((s.record (src.toNat / 32)).merged.getLsbD b || b == src.toNat % 32))
        ∧ (t.record (src.toNat / 32)).count = (if (s.record (src.toNat / 32)).count = 0xFFFF_FFFF#32 then 0xFFFF_FFFF#32
            else (s.record (src.toNat / 32)).count + 1)
        ∧ (t.record (src.toNat / 32)).route = (s.record (src.toNat / 32)).route ||| routeOf s src.toNat inst
        ∧ (t.record (src.toNat / 32)).cls = (if (s.record (src.toNat / 32)).cls.rank < c.rank then c
            else (s.record (src.toNat / 32)).cls)
        ∧ (t.record (src.toNat / 32)).first = (s.record (src.toNat / 32)).first
        ∧ (t.record (src.toNat / 32)).inst = (s.record (src.toNat / 32)).inst)

/-- The PPS capture (R327): a rising edge latches the counter at that instant, in every state of the clock; a read of
PTP_PPS_NS latches the two seconds registers, which later edges then leave alone. -/
def Obligations.PpsCapture : Prop :=
  ∀ s : State, s.held = false →
    (∀ after, ∃ t, exec (.ppsEdge after) s = .next t ∧ ∀ q,
      regRead t q 0x5FC0 = (s.pst.addPtp (after.toNat * slewUnit : Nat)).ptpNs
      ∧ (MayRead t q → ∃ u, exec (.ppsCaptureRead q) t = .next u
        ∧ regRead u q 0x5FC4 = (s.pst.addPtp (after.toNat * slewUnit : Nat)).ptpSec.setWidth 32
        ∧ regRead u q 0x5FC8 = ((s.pst.addPtp (after.toNat * slewUnit : Nat)).ptpSec >>> 32).setWidth 32))
    ∧ (∀ q, MayRead s q → ∃ t, exec (.ppsCaptureRead q) s = .next t ∧ (t.shadow q.ix).rdata = [s.ptp.ppsNs]
      ∧ ∀ after, ∃ u, exec (.ppsEdge after) t = .next u
        ∧ regRead u q 0x5FC4 = s.ptp.ppsSec.setWidth 32 ∧ regRead u q 0x5FC8 = (s.ptp.ppsSec >>> 32).setWidth 32)

/-- Writes of wide values (R437): the _LO word of a 64-bit counter waits in the requester's shadow and changes nothing; the
_HI word after it loads both halves, and alone the high half; the words of a 40-bit address are fields of their own. -/
def Obligations.WideWrites : Prop :=
  ∀ (s : State) (q : Requester), s.held = false → present s q = true →
    (∀ (n : Fin 4) lo w, lo = 0x5C08 + 0x80 * n.val ∨ lo = 0x5C14 + 0x80 * n.val →
      exec (.wideCounterLoWrite q (BitVec.ofNat 16 lo) w) s
        = .next (onShadow q (fun x => { x with stagedAddr := some lo, stagedLo := w }) s))
    ∧ (∀ (n : Fin 4) w, n.val < s.net.ports.length →
      ∃ t u, exec (.wideCounterHiWrite q (BitVec.ofNat 16 (0x5C0C + 0x80 * n.val)) w) s = .next t
        ∧ exec (.wideCounterHiWrite q (BitVec.ofNat 16 (0x5C18 + 0x80 * n.val)) w) s = .next u
        ∧ t.netPort n.val = { s.netPort n.val with rxBytes := (t.netPort n.val).rxBytes }
        ∧ (t.netPort n.val).rxBytes = (w.setWidth 64 <<< 32) |||
            (if (s.shadow q.ix).stagedAddr = some (0x5C08 + 0x80 * n.val) then (s.shadow q.ix).stagedLo.setWidth 64
             else (s.netPort n.val).rxBytes &&& 0xFFFF_FFFF#64)
        ∧ u.netPort n.val = { s.netPort n.val with txBytes := (u.netPort n.val).txBytes }
        ∧ (u.netPort n.val).txBytes = (w.setWidth 64 <<< 32) |||
            (if (s.shadow q.ix).stagedAddr = some (0x5C14 + 0x80 * n.val) then (s.shadow q.ix).stagedLo.setWidth 64
             else (s.netPort n.val).txBytes &&& 0xFFFF_FFFF#64))
    ∧ (∀ (ch : Fin 32) w, ownerOf s (.dmaCh ch.val) = q.part.val →
      ∃ t u, exec (.registerWrite q (BitVec.ofNat 16 (0x0808 + 0x40 * ch.val)) w true) s = .next t
        ∧ exec (.registerWrite q (BitVec.ofNat 16 (0x080C + 0x40 * ch.val)) w true) s = .next u
        ∧ (t.dmaCh ch.val).src.setWidth 32 = w ∧ (t.dmaCh ch.val).src >>> 32 = (s.dmaCh ch.val).src >>> 32
        ∧ (u.dmaCh ch.val).src.setWidth 32 = (s.dmaCh ch.val).src.setWidth 32
        ∧ (u.dmaCh ch.val).src >>> 32 = (w.setWidth 8).setWidth 40)

namespace Sys2Proof.Machine

/-- The parts that raising a fault may change (Lookout's records, and what mute, domain reset, fail-silent and the alert act
on: R457, R460 to R462, R506), and others. -/
def faultsAnd (l : List Part) : List Part := [.lkt, .cmds, .boot, .tdm, .net, .red, .tw] ++ l

/-- The parts of the state that a row may change. -/
def touches : Instr → List Part
  | .sampleEdge
    => faultsAnd [.pst, .sys, .sec, .flash, .ka, .pws, .fab, .wave, .rdg, .crn, .mtx, .col, .dma, .ptp, .stm, .mem, .fresh]
  | .completionToken .. => faultsAnd [.fab, .wave, .rdg, .crn, .mtx, .col, .stm]
  | .outputGuard .. => faultsAnd [.pws, .fab, .wave, .stm]
  | .missBurst | .fabricStall | .trapStall | .tdmSyncLost .. | .asrcRateMeasure .. | .linkLoss .. | .frameReceived ..
  | .preemptVerify .. | .pauseWatchdog .. | .heartbeatSend | .silenceTimeout .. | .norilLinkUp
  | .norilWaveReceived .. | .norilWaveMissing | .oscComparison .. | .sampleEdgeTimeout | .supWatchdog | .supLockstep
  | .summitCoreStop .. | .signalPath .. | .pairPulseTest .. | .faultReport .. | .escalationExpiry ..
  | .twTransactionEnd .. | .twStuckRecoveryRepeat .. | .twtWrite .. | .twtProtocolError | .twtSclTimeout => faultsAnd []
  | .referenceValid .. | .holdoverHistorySecond .. => [.pst]
  | .referenceQualified .. | .referenceLost .. | .acquireWindowExpiry | .waitToRestoreExpiry .. | .holdoverSpecExpiry
  | .disagreeWindow .. | .syncTimeout .. => faultsAnd [.pst]
  | .slewComplete | .announceReceived .. | .delayRespReceived .. | .announceTimeout .. | .masterAnnounceSend ..
    => faultsAnd [.pst, .ptp]
  | .pstPtpNsRead .. | .histLatchRead .. | .ppsCaptureRead .. | .stmCtxStatRead .. | .cmdRstatRead ..
  | .wideLoRead .. | .indDataRead .. => [.sys, .cmds, .fresh]
  | .clkGetStatus .. | .clkGetRef .. | .graphStatus .. | .graphGetLayout .. | .crnGetStatus .. | .crnReadMem ..
  | .mtxGetGains .. | .mtxGetStatus .. | .memGetStatus .. | .tdmSetGroup .. | .tdmSetPort .. | .tdmSetRing ..
  | .tdmStageMask .. | .tdmCommit .. | .tdmStart .. | .tdmStop .. | .tdmGetStatus .. | .pwsGetStatus ..
  | .netSetPort .. | .netSetSwitch .. | .netVlanWrite .. | .netSetFilter .. | .netGetStatus .. | .ptpSetPortTs ..
  | .ptpGetStatus .. | .streamGetContext .. | .tapGet .. | .redSetPair .. | .redSetShared .. | .redHandover ..
  | .redForceActive .. | .redResync .. | .redGetStatus .. | .sysGetInfo .. | .sysGetOwnership .. | .sysProfileLoad ..
  | .sysProfileErase .. | .sysProfileSeal .. | .sysProfileList .. | .fltGetStatus .. | .fltClaim .. | .fltClear ..
  | .fltSetClass .. | .fltSetTimers .. | .fltGetCounts .. | .secGetStatus .. | .secKeyProgram .. | .secKeyRevoke ..
  | .secFwErase .. | .secFwVerify .. | .secDebugUnlock .. | .secSetLock .. | .bootFwVerified => faultsAnd [.sys, .sec]
  | .clkSetRate .. => faultsAnd [.pst, .sys, .sec, .mtx, .ptp, .stm]
  | .clkRefConfig .. | .clkSelect .. | .clkSetTimers .. | .clkSetHoldover .. | .clkSetTrim .. | .clkPhaseStep ..
  | .clkRealign .. | .ptpSetInstance .. | .ptpSetMaster .. | .ptpAcceptJump .. => faultsAnd [.pst, .sys, .sec, .ptp]
  | .governorUpdate => [.fab]
  | .governorPoll .. | .governorWriteDone .. | .coreUv | .twTransactionStart .. | .twRetryDelay ..
  | .twStretchTimeout .. | .twSclStuckTimeout .. => faultsAnd [.fab]
  | .fabSetGovernor .. | .fabSetEscalation .. | .fabSetTelemetry .. | .fabClearTelemetry ..
    => faultsAnd [.sys, .sec, .fab]
  | .graphLoadChunk .. => faultsAnd [.sys, .sec, .rdg, .mem]
  | .graphVerify .. | .graphCommit .. | .graphCancel .. | .graphSetReservation .. | .graphHalt .. | .nodeSetGain ..
  | .nodeSetTimeout .. => faultsAnd [.sys, .sec, .rdg]
  | .bankBuildComplete => [.cmds, .boot, .rdg, .crn, .mem]
  | .reservationExpiry | .crossfadeEnd | .bankHaltEnd => [.rdg]
  | .gainZcTimeout .. => [.crn]
  | .entryDispatch .. => faultsAnd [.wave, .crn, .mtx, .col, .mem]
  | .entryCompletion .. | .farTransferComplete .. | .mnop .. | .mpy .. | .mac .. | .lda .. | .adda .. | .sha ..
  | .nrw .. | .dnrw .. | .nrwc .. | .nrwe .. | .add .. | .sub .. | .max .. | .min .. | .abs .. | .neg .. | .and ..
  | .or .. | .xor .. | .shl .. | .shr .. | .shv .. | .norm .. | .expn .. | .sel .. | .snop .. | .ldv .. | .st ..
  | .cpy .. | .movv .. | .movsv .. | .bcst .. | .waitf .. | .lnop .. | .br .. | .call .. | .ret .. | .addsi ..
  | .alus .. | .mova .. | .movc .. | .lds .. | .sts .. | .movvs .. | .setdw .. | .loop .. | .loopi .. | .seta ..
  | .movi .. | .seed .. | .endEntry .. => faultsAnd [.wave, .crn, .col]
  | .paramWriteWindow .. => [.rdg, .crn]
  | .far .. | .illegalInstruction .. => faultsAnd [.wave, .crn, .col, .mem]
  | .crnSetTrapEscalation .. => faultsAnd [.sys, .sec, .crn]
  | .mtxSetGains .. | .mtxBulkArm .. | .mtxBulkCancel .. | .mtxSetColumn .. | .mtxSetQuota ..
    => faultsAnd [.sys, .sec, .mtx]
  | .bulkArmCheckDone .. => [.cmds, .boot, .mtx]
  | .mtxZcTimeout .. | .stagingWindowWrite .. => [.mtx]
  | .colPathTimeout .. => faultsAnd [.wave, .crn, .col, .dma]
  | .patrolScrub .. => faultsAnd [.col, .mem]
  | .colPortGate .. => [.col]
  | .dmaRun .. | .dmaStop .. | .netRingDoorbell .. | .cmdDoorbell .. | .cmdAckReply .. | .cmdAckRing ..
  | .cmdAckAlarm .. | .mailboxPacketWrite .. | .registerWrite .. | .wideCounterLoWrite .. | .wideCounterHiWrite ..
  | .sysLock .. | .cfgCrcCommit .. | .cfgCrcEnable .. | .indDataWrite .. | .lktSupKick .. | .lktClaim ..
  | .lktClear .. | .twGo .. | .twAbort .. | .twtAlert ..
    => faultsAnd [.pst, .sys, .sec, .ka, .pws, .fab, .rdg, .crn, .mtx, .col, .dma, .ptp, .stm, .mem]
  | .dmaDescFetch .. => faultsAnd [.col, .dma]
  | .dmaBurst .. | .dmaCompletion .. => faultsAnd [.mtx, .col, .dma, .mem]
  | .dmaRequest .. | .dmaTimerEvent .. | .dmaMcntMatch .. | .dmaRequestWithdrawal .. => [.dma]
  | .dmaErrorResponse .. => faultsAnd [.dma]
  | .dmaResume .. => faultsAnd [.sys, .sec, .dma]
  | .memSetScrub .. => faultsAnd [.sys, .sec, .col]
  | .tdmFrameReceived .. | .fsyncTimeout .. => faultsAnd [.dma, .stm, .mem]
  | .tdmSlaveLock .. | .tdmGateTimeout .. | .tdmFadeEnd .. | .maskEpochChange .. | .tdmPortRunning ..
  | .tdmPortStopped .. | .asrcLock .. => [.tdm]
  | .pwsSetStage .. | .pwsSetChannel .. | .pwsStart .. | .pwsStop .. | .pwsMute .. | .pwsClear ..
    => faultsAnd [.sys, .sec, .pws]
  | .pwsPreReleaseCheck .. | .pwsUnmuteStart .. | .muteStep .. | .currentLimit .. | .retryDelayExpiry ..
  | .retriesReset .. | .busRecovery .. | .staggerLock .. => [.pws]
  | .pwsGatesOff .. | .limitShutdown .. | .dcWindow .. | .busUndervoltage .. | .busOvervoltage .. => faultsAnd [.pws]
  | .netFdbWrite .. | .netTest .. | .sysHello .. | .secDebugChallenge .. => faultsAnd [.sys, .sec, .fresh]
  | .netSetRing .. => faultsAnd [.sys, .sec, .mtx, .col, .mem]
  | .linkUp .. | .fdbAgeOut .. | .pauseReceived .. | .pauseExpiry .. | .pauseReleaseEnd .. | .pauseTxRepeat .. => [.net]
  | .frameTransmit .. | .rxRingDelivery .. | .txRingFrame .. => faultsAnd [.mtx, .col, .mem]
  | .ptpSetTime .. | .ptpSetAlarm .. | .ptpCancelAlarm .. => faultsAnd [.sys, .sec, .ptp]
  | .ptpSetTimeApply => [.pst, .ptp, .stm]
  | .syncReceived .. | .followUpReceived .. | .followUpTimeout .. | .delayRespTimeout .. | .ppsEdge .. => [.ptp]
  | .delayReqSend .. | .masterSyncSend .. | .masterDelayReqReceived .. => [.net, .ptp]
  | .alarmFire .. => faultsAnd [.ptp]
  | .streamSetTx .. | .streamSetRx .. | .streamSetCs .. | .streamStop .. | .streamSetGroup .. | .streamClear ..
  | .tapSet .. | .sadSetPathdown .. => faultsAnd [.sys, .sec, .stm]
  | .streamStart .. => faultsAnd [.sys, .sec, .stm, .mem]
  | .tapWindowEnd .. | .packetLaunch .. | .sadPathDown .. => faultsAnd [.stm]
  | .mediaPacketReceived .. => faultsAnd [.stm, .mem]
  | .streamRxStopped .. => [.stm]
  | .claimWindowExpiry => [.red, .fresh]
  | .heartbeatReceived .. => faultsAnd [.fresh]
  | .norilLinkDown | .norilWaveSend | .sharedChannelFade .. | .norilAckSend | .norilAckReceived .. | .norilRetransmit
  | .joinReceived | .snapshotComplete .. => [.red]
  | .mirrorCmdReceived .. | .commandExecutionEnd ..
    => faultsAnd [.pst, .sys, .sec, .flash, .ka, .pws, .fab, .rdg, .crn, .mtx, .col, .dma, .ptp, .stm, .mem, .fresh]
  | .mirrorReplyTimeout .. | .peerOutcomeReport .. => [.cmds]
  | .mirrorPeriodBoundary => faultsAnd [.mem]
  | .mirrorRecReceived .. => [.red, .mem]
  | .sysProfileWrite .. | .secFwWrite .. => faultsAnd [.sys, .sec, .flash]
  | .teardownReset .. | .porstAssert | .sysrstAssert | .vkaPowerOn | .testEn ..
    => faultsAnd [.pst, .sys, .own, .sec, .flash, .ka, .pins, .pws, .fab, .wave, .rdg, .crn, .mtx, .col, .dma, .ptp, .stm, .mem, .fresh]
  | .udpCommandReceived .. => faultsAnd [.own, .sec]
  | .spiFrame .. | .pcieBar2Access ..
    => faultsAnd [.pst, .sys, .sec, .ka, .pws, .fab, .rdg, .crn, .mtx, .col, .dma, .ptp, .stm, .mem, .fresh]
  | .cfgCrcPass .. => faultsAnd [.sys]
  | .sourceUnmask .. | .notedExpiry .. | .coreWatchdogKick .. => [.lkt]
  | .claimTimeExpiry .. => [.lkt, .tw]
  | .coreRestartComplete .. | .bootProfileApplied ..
    => faultsAnd [.pst, .own, .sec, .ka, .pws, .fab, .wave, .rdg, .crn, .mtx, .ptp, .stm]
  | .secArbAdvance .. => faultsAnd [.sys, .sec, .ka]
  | .debugNonceExpiry => [.sec]
  | .drbgHealthFail | .privateJtagInstruction => faultsAnd [.sec]
  | .boundaryTestSelect => [.lkt, .pins, .net, .red]
  | .twAlertAssert .. | .twAlertRelease .. | .twAlertResponseRead .. | .twtRead .. | .twtAlertResponse
  | .busStuckClear .. => [.tw]
  | .porstRelease .. | .sysrstRelease .. | .wake .. => [.ka, .pins]
  | .bootOtpSensed | .dramTrainingDone .. | .dramEccInitDone | .dramRetrain => [.boot]
  | .tarnZeroFillDone => [.boot, .mem]
  | .bootCommandNext | .bootAcquireWaitEnd
    => faultsAnd [.pst, .sys, .own, .sec, .flash, .ka, .pws, .fab, .wave, .rdg, .crn, .mtx, .col, .dma, .ptp, .stm, .mem, .fresh]
  | .kaDeepOff .. | .kaRestart .. => faultsAnd [.sys, .ka, .pws, .stm]
  | .pwrEnReassert => [.ka]
  | .pciePerst .. => [.pins]

/-- The rows that reset the block (R512, R513, R523). -/
def resets : Instr → Bool
  | .porstAssert | .porstRelease .. | .sysrstAssert | .sysrstRelease .. | .vkaPowerOn | .testEn .. | .teardownReset .. => true
  | _ => false

/-- A byte of Tarn or of DRAM reads the same in two states. -/
def sameTarn (a : Nat) (s t : State) : Prop := t.mem.readTarn a 1 = s.mem.readTarn a 1
def sameDram (a : Nat) (s t : State) : Prop := t.mem.readDram a 1 = s.mem.readDram a 1

end Sys2Proof.Machine

/-- The frame of every row: where it answers a next state, each part of the state that `touches` does not name for it is the
same, the bytes of memory included; and the queue, which is the model's own (log 2), is the same. -/
def Obligations.RowsTouchOnly : Prop :=
  ∀ (i : Instr) (s t : State), exec i s = .next t → t.pending = s.pending ∧ ∀ p, p ∉ touches i → p.same s t

/-- The one-time-programmable store only grows, through every row, a reset too (R471, R481, R483): a programmed key, hash or
image keeps its value, a revoked one stays revoked, the rollback floor never falls, and the device identity never changes. -/
def Obligations.FusesStayBlown : Prop := ∀ (i : Instr) (s t : State), exec i s = .next t → Otp.Grown s.sec.otp t.sec.otp

/-- What only a reset undoes: no other row clears a bit of SYS_LOCK (R442), and a fail-silent node leaves that state by no
other row (R21). -/
def Obligations.OnlyResetsUndo : Prop :=
  ∀ (i : Instr) (s t : State), resets i = false → exec i s = .next t →
    s.sys.lock ||| t.sys.lock = t.sys.lock ∧ (s.lkt.failSilent = true → t.lkt.failSilent = true)

/-- Stores change the bytes that they name and no other: FAR of an engine (R145), a write through BAR2 into Tarn or DRAM
(R201, R204, R414), and a record from the peer (R390). FAR inbound and a read through BAR2 change no byte. -/
def Obligations.StoresStayInside : Prop :=
  ∀ s t : State,
    (∀ (e : Fin 24) out toY (p r : BitVec 3) (lines : Byte) a, exec (.far e out toY p r lines) s = .next t →
      (out = false ∨ a < ((s.engine e.val).sreg r.toNat).toNat
          ∨ ((s.engine e.val).sreg r.toNat).toNat + 16 * (lines.toNat + 1) ≤ a → sameTarn a s t) ∧ sameDram a s t)
    ∧ (∀ (p : Fin 4) addr n bs a, exec (.pcieBar2Access p addr n (some bs)) s = .next t →
      (targetOf s addr.toNat < 16 → (a < addr.toNat ∨ addr.toNat + bs.length ≤ a → sameTarn a s t) ∧ sameDram a s t)
      ∧ (targetOf s addr.toNat = 16 →
        (dramBase + a < addr.toNat ∨ addr.toNat + bs.length ≤ dramBase + a → sameDram a s t) ∧ sameTarn a s t))
    ∧ (∀ (p : Fin 4) addr n a, exec (.pcieBar2Access p addr n none) s = .next t → targetOf s addr.toNat ≤ 16 →
      sameTarn a s t ∧ sameDram a s t)
    ∧ (∀ (m : MirrorRec) r a, exec (.mirrorRecReceived m) s = .next t →
      regionOf s .mirrorInbox m.part.val = some r →
      (a < r.base + m.offset.toNat ∨ r.base + m.offset.toNat + m.bytes.length ≤ a → sameTarn a s t) ∧ sameDram a s t)

/-- The invariant is kept by every step, from every state that meets it. -/
def Obligations.InvariantKept : Prop := ∀ s t : State, Inv s → step s = .next t → Inv t

namespace Sys2Proof.Machine

/-- Every address-generator field of the word that names no access has FORM 0 (R162). -/
def formsOk : CWord → Bool
  | .a _ x y z _ => x.ok && y.ok && z.ok
  | .b _ x y _ => x.ok && y.ok
  | .c _ => true

end Sys2Proof.Machine

/-- Cairn's instruction words (R159 to R173): each instruction is read back from its word, with every operand at every
value; and a word that is read as an instruction is that instruction's word, so that no two words spell one instruction. -/
def Obligations.CairnWordsRoundTrip : Prop :=
  (∀ c : CWord, formsOk c = true → CWord.decode c.encode = some c)
    ∧ ∀ (w : Long) (c : CWord), CWord.decode w = some c → c.encode = w ∧ formsOk c = true
end

