-- ==== Sys2Proof/Laws/Store.lean ====
section
/-! SUPPORT. The laws of sparse tables: reading after writing, and the canonical form. -/

namespace Sys2Proof.Machine

variable {α : Type}

theorem Store.look_drop_same (d : α) (st : Store α) (i : Nat) : Store.look d (Store.drop st i) i = d := by
  induction st with
  | nil => rfl
  | cons e t ih =>
    obtain ⟨k, x⟩ := e
    by_cases h : k = i
    · simpa [Store.drop, h] using ih
    · have h2 : ¬ i = k := fun hh => h hh.symm
      simpa [Store.drop, h, Store.look, h2] using ih

theorem Store.look_drop_other (d : α) (st : Store α) (i j : Nat) (hj : j ≠ i) :
    Store.look d (Store.drop st i) j = Store.look d st j := by
  induction st with
  | nil => rfl
  | cons e t ih =>
    obtain ⟨k, x⟩ := e
    by_cases h : k = i
    · subst h
      simpa [Store.drop, Store.look, hj] using ih
    · by_cases hk : j = k
      · simp [Store.drop, h, Store.look, hk]
      · simpa [Store.drop, h, Store.look, hk] using ih

variable [DecidableEq α]

/-- A read of the key that was written gives the value written. -/
@[simp] theorem Store.look_put_same (d : α) (st : Store α) (i : Nat) (v : α) :
    Store.look d (Store.put d st i v) i = v := by
  induction st with
  | nil =>
    unfold Store.put
    split
    · rename_i h; simp [Store.look, h]
    · simp [Store.look]
  | cons e t ih =>
    obtain ⟨k, x⟩ := e
    simp only [Store.put]
    split
    · split
      · rename_i h1 h2
        rw [Store.look, if_neg (by omega), Store.look_drop_same, h2]
      · simp [Store.look]
    · split
      · split
        · rename_i h; rw [Store.look_drop_same, h]
        · simp [Store.look]
      · rename_i h; rw [Store.look, if_neg h, ih]

/-- A write leaves every other key alone. -/
theorem Store.look_put_other (d : α) (st : Store α) (i j : Nat) (v : α) (hj : j ≠ i) :
    Store.look d (Store.put d st i v) j = Store.look d st j := by
  induction st with
  | nil =>
    unfold Store.put
    split
    · rfl
    · simp [Store.look, hj]
  | cons e t ih =>
    obtain ⟨k, x⟩ := e
    simp only [Store.put]
    split
    · split
      · simp only [Store.look]
        split
        · rfl
        · exact Store.look_drop_other d t i j hj
      · simp [Store.look, hj]
    · split
      · rename_i h; subst h
        split
        · rw [Store.look_drop_other d t i j hj]; simp [Store.look, hj]
        · simp [Store.look, hj]
      · simp only [Store.look]
        split
        · rfl
        · exact ih

theorem Store.look_put (d : α) (st : Store α) (i j : Nat) (v : α) :
    Store.look d (Store.put d st i v) j = if j = i then v else Store.look d st j := by
  split
  · rename_i h; subst h; exact Store.look_put_same d st j v
  · rename_i h; exact Store.look_put_other d st i j v h

theorem Store.drop_of_below (d : α) (st : Store α) (lo i : Nat) (h : Store.wfFrom d lo st = true) (hi : i < lo) :
    Store.drop st i = st := by
  induction st generalizing lo with
  | nil => rfl
  | cons e t ih =>
    obtain ⟨k, x⟩ := e
    simp only [Store.wfFrom, Bool.and_eq_true, decide_eq_true_eq] at h
    have hk : k ≠ i := by omega
    have := ih (k + 1) h.2 (by omega)
    simp only [Store.drop] at this ⊢
    simp [hk, this]

theorem Store.wfFrom_mono (d : α) (st : Store α) (lo hi : Nat) (h : Store.wfFrom d hi st = true) (hl : lo ≤ hi) :
    Store.wfFrom d lo st = true := by
  cases st with
  | nil => rfl
  | cons e t =>
    obtain ⟨k, x⟩ := e
    simp only [Store.wfFrom, Bool.and_eq_true, decide_eq_true_eq] at h ⊢
    exact ⟨⟨by omega, h.1.2⟩, h.2⟩

theorem Store.wfFrom_put (d : α) (st : Store α) (lo i : Nat) (v : α) (h : Store.wfFrom d lo st = true) (hi : lo ≤ i) :
    Store.wfFrom d lo (Store.put d st i v) = true := by
  induction st generalizing lo with
  | nil =>
    unfold Store.put
    split
    · rfl
    · rename_i hv; simp [Store.wfFrom, hi, hv]
  | cons e t ih =>
    obtain ⟨k, x⟩ := e
    have hh := h
    simp only [Store.wfFrom, Bool.and_eq_true, decide_eq_true_eq] at h
    simp only [Store.put]
    split
    · rename_i hik
      split
      · rw [Store.drop_of_below d t (k + 1) i h.2 (by omega)]; exact hh
      · rename_i hv
        have : Store.wfFrom d (i + 1) ((k, x) :: t) = true := by
          simp only [Store.wfFrom, Bool.and_eq_true, decide_eq_true_eq]
          exact ⟨⟨by omega, h.1.2⟩, h.2⟩
        simp only [Store.wfFrom, Bool.and_eq_true, decide_eq_true_eq] at this ⊢
        exact ⟨⟨hi, by simpa using hv⟩, this⟩
    · split
      · rename_i hik; subst hik
        split
        · rw [Store.drop_of_below d t (i + 1) i h.2 (by omega)]
          exact Store.wfFrom_mono d t lo (i + 1) h.2 (by omega)
        · rename_i hv
          simp only [Store.wfFrom, Bool.and_eq_true, decide_eq_true_eq]
          exact ⟨⟨hi, by simpa using hv⟩, h.2⟩
      · simp only [Store.wfFrom, Bool.and_eq_true, decide_eq_true_eq]
        exact ⟨⟨h.1.1, h.1.2⟩, ih (k + 1) h.2 (by omega)⟩

/-- A write keeps the canonical form. -/
theorem Store.wf_put (d : α) (st : Store α) (i : Nat) (v : α) (h : Store.wf d st = true) :
    Store.wf d (Store.put d st i v) = true := Store.wfFrom_put d st 0 i v h (by omega)

theorem Store.wf_upd (d : α) (st : Store α) (i : Nat) (f : α → α) (h : Store.wf d st = true) :
    Store.wf d (Store.upd d st i f) = true := Store.wf_put d st i _ h

theorem Store.wf_putAll (d : α) (vs : List α) (st : Store α) (i : Nat) (h : Store.wf d st = true) :
    Store.wf d (Store.putAll d st i vs) = true := by
  induction vs generalizing st i with
  | nil => exact h
  | cons v t ih => exact ih _ _ (Store.wf_put d st i v h)

/-- A write of bytes keeps the canonical form of memory. -/
theorem Memory.wf_write (m : Memory) (a : Nat) (b : Byte) (h : Memory.wf m = true) : Memory.wf (Memory.write m a b) = true :=
  Store.wf_put _ _ _ _ h

theorem Memory.wf_writeBytes (m : Memory) (a : Nat) (bs : List Byte) (h : Memory.wf m = true) :
    Memory.wf (Memory.writeBytes m a bs) = true := Store.wf_putAll _ _ _ _ h

/-- A read of a byte after it is written gives it; a write leaves every other byte alone. -/
theorem Memory.read_write (m : Memory) (a c : Nat) (b : Byte) :
    Memory.read (Memory.write m a b) c = if c = a then b else Memory.read m c := Store.look_put _ _ _ _ _

end Sys2Proof.Machine
end

