-- ==== Sys2Proof/Laws/State.lean ====
section
/-! SUPPORT. Reading the state after one of its named updates: every other part is the same, and the unit that was written
reads as written. -/

namespace Sys2Proof.Machine

variable (s : State) (n m : Nat)

@[simp] theorem State.setPart_lkt (x : PartCmd) : (s.setPart n x).lkt = s.lkt := rfl
@[simp] theorem State.setPart_pst (x : PartCmd) : (s.setPart n x).pst = s.pst := rfl
@[simp] theorem State.setPart_sys (x : PartCmd) : (s.setPart n x).sys = s.sys := rfl
@[simp] theorem State.setPart_own (x : PartCmd) : (s.setPart n x).own = s.own := rfl
@[simp] theorem State.setPart_sec (x : PartCmd) : (s.setPart n x).sec = s.sec := rfl
@[simp] theorem State.setPart_flash (x : PartCmd) : (s.setPart n x).flash = s.flash := rfl
@[simp] theorem State.setPart_boot (x : PartCmd) : (s.setPart n x).boot = s.boot := rfl
@[simp] theorem State.setPart_ka (x : PartCmd) : (s.setPart n x).ka = s.ka := rfl
@[simp] theorem State.setPart_pins (x : PartCmd) : (s.setPart n x).pins = s.pins := rfl
@[simp] theorem State.setPart_pws (x : PartCmd) : (s.setPart n x).pws = s.pws := rfl
@[simp] theorem State.setPart_tdm (x : PartCmd) : (s.setPart n x).tdm = s.tdm := rfl
@[simp] theorem State.setPart_fab (x : PartCmd) : (s.setPart n x).fab = s.fab := rfl
@[simp] theorem State.setPart_wave (x : PartCmd) : (s.setPart n x).wave = s.wave := rfl
@[simp] theorem State.setPart_rdg (x : PartCmd) : (s.setPart n x).rdg = s.rdg := rfl
@[simp] theorem State.setPart_crn (x : PartCmd) : (s.setPart n x).crn = s.crn := rfl
@[simp] theorem State.setPart_mtx (x : PartCmd) : (s.setPart n x).mtx = s.mtx := rfl
@[simp] theorem State.setPart_col (x : PartCmd) : (s.setPart n x).col = s.col := rfl
@[simp] theorem State.setPart_dma (x : PartCmd) : (s.setPart n x).dma = s.dma := rfl
@[simp] theorem State.setPart_net (x : PartCmd) : (s.setPart n x).net = s.net := rfl
@[simp] theorem State.setPart_ptp (x : PartCmd) : (s.setPart n x).ptp = s.ptp := rfl
@[simp] theorem State.setPart_stm (x : PartCmd) : (s.setPart n x).stm = s.stm := rfl
@[simp] theorem State.setPart_red (x : PartCmd) : (s.setPart n x).red = s.red := rfl
@[simp] theorem State.setPart_tw (x : PartCmd) : (s.setPart n x).tw = s.tw := rfl
@[simp] theorem State.setPart_mem (x : PartCmd) : (s.setPart n x).mem = s.mem := rfl
@[simp] theorem State.setPart_fresh (x : PartCmd) : (s.setPart n x).fresh = s.fresh := rfl
@[simp] theorem State.setPart_pending (x : PartCmd) : (s.setPart n x).pending = s.pending := rfl
theorem State.part_setPart (x : PartCmd) (h : n < s.cmds.length) : (s.setPart n x).part n = x := by
  simp [State.part, State.setPart, h]
theorem State.part_setPart_other (x : PartCmd) (h : m ≠ n) : (s.setPart n x).part m = s.part m := by
  have h : n ≠ m := fun e => h e.symm
  simp [State.part, State.setPart, h]

@[simp] theorem State.setRecord_pst (x : Record) : (s.setRecord n x).pst = s.pst := rfl
@[simp] theorem State.setRecord_sys (x : Record) : (s.setRecord n x).sys = s.sys := rfl
@[simp] theorem State.setRecord_cmds (x : Record) : (s.setRecord n x).cmds = s.cmds := rfl
@[simp] theorem State.setRecord_own (x : Record) : (s.setRecord n x).own = s.own := rfl
@[simp] theorem State.setRecord_sec (x : Record) : (s.setRecord n x).sec = s.sec := rfl
@[simp] theorem State.setRecord_flash (x : Record) : (s.setRecord n x).flash = s.flash := rfl
@[simp] theorem State.setRecord_boot (x : Record) : (s.setRecord n x).boot = s.boot := rfl
@[simp] theorem State.setRecord_ka (x : Record) : (s.setRecord n x).ka = s.ka := rfl
@[simp] theorem State.setRecord_pins (x : Record) : (s.setRecord n x).pins = s.pins := rfl
@[simp] theorem State.setRecord_pws (x : Record) : (s.setRecord n x).pws = s.pws := rfl
@[simp] theorem State.setRecord_tdm (x : Record) : (s.setRecord n x).tdm = s.tdm := rfl
@[simp] theorem State.setRecord_fab (x : Record) : (s.setRecord n x).fab = s.fab := rfl
@[simp] theorem State.setRecord_wave (x : Record) : (s.setRecord n x).wave = s.wave := rfl
@[simp] theorem State.setRecord_rdg (x : Record) : (s.setRecord n x).rdg = s.rdg := rfl
@[simp] theorem State.setRecord_crn (x : Record) : (s.setRecord n x).crn = s.crn := rfl
@[simp] theorem State.setRecord_mtx (x : Record) : (s.setRecord n x).mtx = s.mtx := rfl
@[simp] theorem State.setRecord_col (x : Record) : (s.setRecord n x).col = s.col := rfl
@[simp] theorem State.setRecord_dma (x : Record) : (s.setRecord n x).dma = s.dma := rfl
@[simp] theorem State.setRecord_net (x : Record) : (s.setRecord n x).net = s.net := rfl
@[simp] theorem State.setRecord_ptp (x : Record) : (s.setRecord n x).ptp = s.ptp := rfl
@[simp] theorem State.setRecord_stm (x : Record) : (s.setRecord n x).stm = s.stm := rfl
@[simp] theorem State.setRecord_red (x : Record) : (s.setRecord n x).red = s.red := rfl
@[simp] theorem State.setRecord_tw (x : Record) : (s.setRecord n x).tw = s.tw := rfl
@[simp] theorem State.setRecord_mem (x : Record) : (s.setRecord n x).mem = s.mem := rfl
@[simp] theorem State.setRecord_fresh (x : Record) : (s.setRecord n x).fresh = s.fresh := rfl
@[simp] theorem State.setRecord_pending (x : Record) : (s.setRecord n x).pending = s.pending := rfl
@[simp] theorem State.record_setRecord (x : Record) : (s.setRecord n x).record n = x := by simp [State.record, State.setRecord]
theorem State.record_setRecord_other (x : Record) (h : m ≠ n) : (s.setRecord n x).record m = s.record m := by
  simp [State.record, State.setRecord, Store.look_put_other, h]

@[simp] theorem State.setPort_lkt (x : Port) : (s.setPort n x).lkt = s.lkt := rfl
@[simp] theorem State.setPort_pst (x : Port) : (s.setPort n x).pst = s.pst := rfl
@[simp] theorem State.setPort_sys (x : Port) : (s.setPort n x).sys = s.sys := rfl
@[simp] theorem State.setPort_cmds (x : Port) : (s.setPort n x).cmds = s.cmds := rfl
@[simp] theorem State.setPort_own (x : Port) : (s.setPort n x).own = s.own := rfl
@[simp] theorem State.setPort_sec (x : Port) : (s.setPort n x).sec = s.sec := rfl
@[simp] theorem State.setPort_flash (x : Port) : (s.setPort n x).flash = s.flash := rfl
@[simp] theorem State.setPort_boot (x : Port) : (s.setPort n x).boot = s.boot := rfl
@[simp] theorem State.setPort_ka (x : Port) : (s.setPort n x).ka = s.ka := rfl
@[simp] theorem State.setPort_pins (x : Port) : (s.setPort n x).pins = s.pins := rfl
@[simp] theorem State.setPort_pws (x : Port) : (s.setPort n x).pws = s.pws := rfl
@[simp] theorem State.setPort_fab (x : Port) : (s.setPort n x).fab = s.fab := rfl
@[simp] theorem State.setPort_wave (x : Port) : (s.setPort n x).wave = s.wave := rfl
@[simp] theorem State.setPort_rdg (x : Port) : (s.setPort n x).rdg = s.rdg := rfl
@[simp] theorem State.setPort_crn (x : Port) : (s.setPort n x).crn = s.crn := rfl
@[simp] theorem State.setPort_mtx (x : Port) : (s.setPort n x).mtx = s.mtx := rfl
@[simp] theorem State.setPort_col (x : Port) : (s.setPort n x).col = s.col := rfl
@[simp] theorem State.setPort_dma (x : Port) : (s.setPort n x).dma = s.dma := rfl
@[simp] theorem State.setPort_net (x : Port) : (s.setPort n x).net = s.net := rfl
@[simp] theorem State.setPort_ptp (x : Port) : (s.setPort n x).ptp = s.ptp := rfl
@[simp] theorem State.setPort_stm (x : Port) : (s.setPort n x).stm = s.stm := rfl
@[simp] theorem State.setPort_red (x : Port) : (s.setPort n x).red = s.red := rfl
@[simp] theorem State.setPort_tw (x : Port) : (s.setPort n x).tw = s.tw := rfl
@[simp] theorem State.setPort_mem (x : Port) : (s.setPort n x).mem = s.mem := rfl
@[simp] theorem State.setPort_fresh (x : Port) : (s.setPort n x).fresh = s.fresh := rfl
@[simp] theorem State.setPort_pending (x : Port) : (s.setPort n x).pending = s.pending := rfl
@[simp] theorem State.port_setPort (x : Port) : (s.setPort n x).port n = x := by simp [State.port, State.setPort]
theorem State.port_setPort_other (x : Port) (h : m ≠ n) : (s.setPort n x).port m = s.port m := by
  simp [State.port, State.setPort, Store.look_put_other, h]

@[simp] theorem State.setGroup_lkt (x : Group) : (s.setGroup n x).lkt = s.lkt := rfl
@[simp] theorem State.setGroup_pst (x : Group) : (s.setGroup n x).pst = s.pst := rfl
@[simp] theorem State.setGroup_sys (x : Group) : (s.setGroup n x).sys = s.sys := rfl
@[simp] theorem State.setGroup_cmds (x : Group) : (s.setGroup n x).cmds = s.cmds := rfl
@[simp] theorem State.setGroup_own (x : Group) : (s.setGroup n x).own = s.own := rfl
@[simp] theorem State.setGroup_sec (x : Group) : (s.setGroup n x).sec = s.sec := rfl
@[simp] theorem State.setGroup_flash (x : Group) : (s.setGroup n x).flash = s.flash := rfl
@[simp] theorem State.setGroup_boot (x : Group) : (s.setGroup n x).boot = s.boot := rfl
@[simp] theorem State.setGroup_ka (x : Group) : (s.setGroup n x).ka = s.ka := rfl
@[simp] theorem State.setGroup_pins (x : Group) : (s.setGroup n x).pins = s.pins := rfl
@[simp] theorem State.setGroup_pws (x : Group) : (s.setGroup n x).pws = s.pws := rfl
@[simp] theorem State.setGroup_fab (x : Group) : (s.setGroup n x).fab = s.fab := rfl
@[simp] theorem State.setGroup_wave (x : Group) : (s.setGroup n x).wave = s.wave := rfl
@[simp] theorem State.setGroup_rdg (x : Group) : (s.setGroup n x).rdg = s.rdg := rfl
@[simp] theorem State.setGroup_crn (x : Group) : (s.setGroup n x).crn = s.crn := rfl
@[simp] theorem State.setGroup_mtx (x : Group) : (s.setGroup n x).mtx = s.mtx := rfl
@[simp] theorem State.setGroup_col (x : Group) : (s.setGroup n x).col = s.col := rfl
@[simp] theorem State.setGroup_dma (x : Group) : (s.setGroup n x).dma = s.dma := rfl
@[simp] theorem State.setGroup_net (x : Group) : (s.setGroup n x).net = s.net := rfl
@[simp] theorem State.setGroup_ptp (x : Group) : (s.setGroup n x).ptp = s.ptp := rfl
@[simp] theorem State.setGroup_stm (x : Group) : (s.setGroup n x).stm = s.stm := rfl
@[simp] theorem State.setGroup_red (x : Group) : (s.setGroup n x).red = s.red := rfl
@[simp] theorem State.setGroup_tw (x : Group) : (s.setGroup n x).tw = s.tw := rfl
@[simp] theorem State.setGroup_mem (x : Group) : (s.setGroup n x).mem = s.mem := rfl
@[simp] theorem State.setGroup_fresh (x : Group) : (s.setGroup n x).fresh = s.fresh := rfl
@[simp] theorem State.setGroup_pending (x : Group) : (s.setGroup n x).pending = s.pending := rfl
@[simp] theorem State.group_setGroup (x : Group) : (s.setGroup n x).group n = x := by simp [State.group, State.setGroup]
theorem State.group_setGroup_other (x : Group) (h : m ≠ n) : (s.setGroup n x).group m = s.group m := by
  simp [State.group, State.setGroup, Store.look_put_other, h]

@[simp] theorem State.setPwsCh_lkt (x : PwsCh) : (s.setPwsCh n x).lkt = s.lkt := rfl
@[simp] theorem State.setPwsCh_pst (x : PwsCh) : (s.setPwsCh n x).pst = s.pst := rfl
@[simp] theorem State.setPwsCh_sys (x : PwsCh) : (s.setPwsCh n x).sys = s.sys := rfl
@[simp] theorem State.setPwsCh_cmds (x : PwsCh) : (s.setPwsCh n x).cmds = s.cmds := rfl
@[simp] theorem State.setPwsCh_own (x : PwsCh) : (s.setPwsCh n x).own = s.own := rfl
@[simp] theorem State.setPwsCh_sec (x : PwsCh) : (s.setPwsCh n x).sec = s.sec := rfl
@[simp] theorem State.setPwsCh_flash (x : PwsCh) : (s.setPwsCh n x).flash = s.flash := rfl
@[simp] theorem State.setPwsCh_boot (x : PwsCh) : (s.setPwsCh n x).boot = s.boot := rfl
@[simp] theorem State.setPwsCh_ka (x : PwsCh) : (s.setPwsCh n x).ka = s.ka := rfl
@[simp] theorem State.setPwsCh_pins (x : PwsCh) : (s.setPwsCh n x).pins = s.pins := rfl
@[simp] theorem State.setPwsCh_tdm (x : PwsCh) : (s.setPwsCh n x).tdm = s.tdm := rfl
@[simp] theorem State.setPwsCh_fab (x : PwsCh) : (s.setPwsCh n x).fab = s.fab := rfl
@[simp] theorem State.setPwsCh_wave (x : PwsCh) : (s.setPwsCh n x).wave = s.wave := rfl
@[simp] theorem State.setPwsCh_rdg (x : PwsCh) : (s.setPwsCh n x).rdg = s.rdg := rfl
@[simp] theorem State.setPwsCh_crn (x : PwsCh) : (s.setPwsCh n x).crn = s.crn := rfl
@[simp] theorem State.setPwsCh_mtx (x : PwsCh) : (s.setPwsCh n x).mtx = s.mtx := rfl
@[simp] theorem State.setPwsCh_col (x : PwsCh) : (s.setPwsCh n x).col = s.col := rfl
@[simp] theorem State.setPwsCh_dma (x : PwsCh) : (s.setPwsCh n x).dma = s.dma := rfl
@[simp] theorem State.setPwsCh_net (x : PwsCh) : (s.setPwsCh n x).net = s.net := rfl
@[simp] theorem State.setPwsCh_ptp (x : PwsCh) : (s.setPwsCh n x).ptp = s.ptp := rfl
@[simp] theorem State.setPwsCh_stm (x : PwsCh) : (s.setPwsCh n x).stm = s.stm := rfl
@[simp] theorem State.setPwsCh_red (x : PwsCh) : (s.setPwsCh n x).red = s.red := rfl
@[simp] theorem State.setPwsCh_tw (x : PwsCh) : (s.setPwsCh n x).tw = s.tw := rfl
@[simp] theorem State.setPwsCh_mem (x : PwsCh) : (s.setPwsCh n x).mem = s.mem := rfl
@[simp] theorem State.setPwsCh_fresh (x : PwsCh) : (s.setPwsCh n x).fresh = s.fresh := rfl
@[simp] theorem State.setPwsCh_pending (x : PwsCh) : (s.setPwsCh n x).pending = s.pending := rfl
@[simp] theorem State.pwsCh_setPwsCh (x : PwsCh) : (s.setPwsCh n x).pwsCh n = x := by simp [State.pwsCh, State.setPwsCh]
theorem State.pwsCh_setPwsCh_other (x : PwsCh) (h : m ≠ n) : (s.setPwsCh n x).pwsCh m = s.pwsCh m := by
  simp [State.pwsCh, State.setPwsCh, Store.look_put_other, h]

@[simp] theorem State.setShadow_lkt (x : Shadow) : (s.setShadow n x).lkt = s.lkt := rfl
@[simp] theorem State.setShadow_pst (x : Shadow) : (s.setShadow n x).pst = s.pst := rfl
@[simp] theorem State.setShadow_cmds (x : Shadow) : (s.setShadow n x).cmds = s.cmds := rfl
@[simp] theorem State.setShadow_own (x : Shadow) : (s.setShadow n x).own = s.own := rfl
@[simp] theorem State.setShadow_sec (x : Shadow) : (s.setShadow n x).sec = s.sec := rfl
@[simp] theorem State.setShadow_flash (x : Shadow) : (s.setShadow n x).flash = s.flash := rfl
@[simp] theorem State.setShadow_boot (x : Shadow) : (s.setShadow n x).boot = s.boot := rfl
@[simp] theorem State.setShadow_ka (x : Shadow) : (s.setShadow n x).ka = s.ka := rfl
@[simp] theorem State.setShadow_pins (x : Shadow) : (s.setShadow n x).pins = s.pins := rfl
@[simp] theorem State.setShadow_pws (x : Shadow) : (s.setShadow n x).pws = s.pws := rfl
@[simp] theorem State.setShadow_tdm (x : Shadow) : (s.setShadow n x).tdm = s.tdm := rfl
@[simp] theorem State.setShadow_fab (x : Shadow) : (s.setShadow n x).fab = s.fab := rfl
@[simp] theorem State.setShadow_wave (x : Shadow) : (s.setShadow n x).wave = s.wave := rfl
@[simp] theorem State.setShadow_rdg (x : Shadow) : (s.setShadow n x).rdg = s.rdg := rfl
@[simp] theorem State.setShadow_crn (x : Shadow) : (s.setShadow n x).crn = s.crn := rfl
@[simp] theorem State.setShadow_mtx (x : Shadow) : (s.setShadow n x).mtx = s.mtx := rfl
@[simp] theorem State.setShadow_col (x : Shadow) : (s.setShadow n x).col = s.col := rfl
@[simp] theorem State.setShadow_dma (x : Shadow) : (s.setShadow n x).dma = s.dma := rfl
@[simp] theorem State.setShadow_net (x : Shadow) : (s.setShadow n x).net = s.net := rfl
@[simp] theorem State.setShadow_ptp (x : Shadow) : (s.setShadow n x).ptp = s.ptp := rfl
@[simp] theorem State.setShadow_stm (x : Shadow) : (s.setShadow n x).stm = s.stm := rfl
@[simp] theorem State.setShadow_red (x : Shadow) : (s.setShadow n x).red = s.red := rfl
@[simp] theorem State.setShadow_tw (x : Shadow) : (s.setShadow n x).tw = s.tw := rfl
@[simp] theorem State.setShadow_mem (x : Shadow) : (s.setShadow n x).mem = s.mem := rfl
@[simp] theorem State.setShadow_fresh (x : Shadow) : (s.setShadow n x).fresh = s.fresh := rfl
@[simp] theorem State.setShadow_pending (x : Shadow) : (s.setShadow n x).pending = s.pending := rfl
@[simp] theorem State.shadow_setShadow (x : Shadow) : (s.setShadow n x).shadow n = x := by simp [State.shadow, State.setShadow]
theorem State.shadow_setShadow_other (x : Shadow) (h : m ≠ n) : (s.setShadow n x).shadow m = s.shadow m := by
  simp [State.shadow, State.setShadow, Store.look_put_other, h]

@[simp] theorem State.setDmaCh_lkt (x : DmaCh) : (s.setDmaCh n x).lkt = s.lkt := rfl
@[simp] theorem State.setDmaCh_pst (x : DmaCh) : (s.setDmaCh n x).pst = s.pst := rfl
@[simp] theorem State.setDmaCh_sys (x : DmaCh) : (s.setDmaCh n x).sys = s.sys := rfl
@[simp] theorem State.setDmaCh_cmds (x : DmaCh) : (s.setDmaCh n x).cmds = s.cmds := rfl
@[simp] theorem State.setDmaCh_own (x : DmaCh) : (s.setDmaCh n x).own = s.own := rfl
@[simp] theorem State.setDmaCh_sec (x : DmaCh) : (s.setDmaCh n x).sec = s.sec := rfl
@[simp] theorem State.setDmaCh_flash (x : DmaCh) : (s.setDmaCh n x).flash = s.flash := rfl
@[simp] theorem State.setDmaCh_boot (x : DmaCh) : (s.setDmaCh n x).boot = s.boot := rfl
@[simp] theorem State.setDmaCh_ka (x : DmaCh) : (s.setDmaCh n x).ka = s.ka := rfl
@[simp] theorem State.setDmaCh_pins (x : DmaCh) : (s.setDmaCh n x).pins = s.pins := rfl
@[simp] theorem State.setDmaCh_pws (x : DmaCh) : (s.setDmaCh n x).pws = s.pws := rfl
@[simp] theorem State.setDmaCh_tdm (x : DmaCh) : (s.setDmaCh n x).tdm = s.tdm := rfl
@[simp] theorem State.setDmaCh_fab (x : DmaCh) : (s.setDmaCh n x).fab = s.fab := rfl
@[simp] theorem State.setDmaCh_wave (x : DmaCh) : (s.setDmaCh n x).wave = s.wave := rfl
@[simp] theorem State.setDmaCh_rdg (x : DmaCh) : (s.setDmaCh n x).rdg = s.rdg := rfl
@[simp] theorem State.setDmaCh_crn (x : DmaCh) : (s.setDmaCh n x).crn = s.crn := rfl
@[simp] theorem State.setDmaCh_mtx (x : DmaCh) : (s.setDmaCh n x).mtx = s.mtx := rfl
@[simp] theorem State.setDmaCh_col (x : DmaCh) : (s.setDmaCh n x).col = s.col := rfl
@[simp] theorem State.setDmaCh_net (x : DmaCh) : (s.setDmaCh n x).net = s.net := rfl
@[simp] theorem State.setDmaCh_ptp (x : DmaCh) : (s.setDmaCh n x).ptp = s.ptp := rfl
@[simp] theorem State.setDmaCh_stm (x : DmaCh) : (s.setDmaCh n x).stm = s.stm := rfl
@[simp] theorem State.setDmaCh_red (x : DmaCh) : (s.setDmaCh n x).red = s.red := rfl
@[simp] theorem State.setDmaCh_tw (x : DmaCh) : (s.setDmaCh n x).tw = s.tw := rfl
@[simp] theorem State.setDmaCh_mem (x : DmaCh) : (s.setDmaCh n x).mem = s.mem := rfl
@[simp] theorem State.setDmaCh_fresh (x : DmaCh) : (s.setDmaCh n x).fresh = s.fresh := rfl
@[simp] theorem State.setDmaCh_pending (x : DmaCh) : (s.setDmaCh n x).pending = s.pending := rfl
@[simp] theorem State.dmaCh_setDmaCh (x : DmaCh) : (s.setDmaCh n x).dmaCh n = x := by simp [State.dmaCh, State.setDmaCh]
theorem State.dmaCh_setDmaCh_other (x : DmaCh) (h : m ≠ n) : (s.setDmaCh n x).dmaCh m = s.dmaCh m := by
  simp [State.dmaCh, State.setDmaCh, Store.look_put_other, h]

@[simp] theorem State.setSharedCh_lkt (x : SharedCh) : (s.setSharedCh n x).lkt = s.lkt := rfl
@[simp] theorem State.setSharedCh_pst (x : SharedCh) : (s.setSharedCh n x).pst = s.pst := rfl
@[simp] theorem State.setSharedCh_sys (x : SharedCh) : (s.setSharedCh n x).sys = s.sys := rfl
@[simp] theorem State.setSharedCh_cmds (x : SharedCh) : (s.setSharedCh n x).cmds = s.cmds := rfl
@[simp] theorem State.setSharedCh_own (x : SharedCh) : (s.setSharedCh n x).own = s.own := rfl
@[simp] theorem State.setSharedCh_sec (x : SharedCh) : (s.setSharedCh n x).sec = s.sec := rfl
@[simp] theorem State.setSharedCh_flash (x : SharedCh) : (s.setSharedCh n x).flash = s.flash := rfl
@[simp] theorem State.setSharedCh_boot (x : SharedCh) : (s.setSharedCh n x).boot = s.boot := rfl
@[simp] theorem State.setSharedCh_ka (x : SharedCh) : (s.setSharedCh n x).ka = s.ka := rfl
@[simp] theorem State.setSharedCh_pins (x : SharedCh) : (s.setSharedCh n x).pins = s.pins := rfl
@[simp] theorem State.setSharedCh_pws (x : SharedCh) : (s.setSharedCh n x).pws = s.pws := rfl
@[simp] theorem State.setSharedCh_tdm (x : SharedCh) : (s.setSharedCh n x).tdm = s.tdm := rfl
@[simp] theorem State.setSharedCh_fab (x : SharedCh) : (s.setSharedCh n x).fab = s.fab := rfl
@[simp] theorem State.setSharedCh_wave (x : SharedCh) : (s.setSharedCh n x).wave = s.wave := rfl
@[simp] theorem State.setSharedCh_rdg (x : SharedCh) : (s.setSharedCh n x).rdg = s.rdg := rfl
@[simp] theorem State.setSharedCh_crn (x : SharedCh) : (s.setSharedCh n x).crn = s.crn := rfl
@[simp] theorem State.setSharedCh_mtx (x : SharedCh) : (s.setSharedCh n x).mtx = s.mtx := rfl
@[simp] theorem State.setSharedCh_col (x : SharedCh) : (s.setSharedCh n x).col = s.col := rfl
@[simp] theorem State.setSharedCh_dma (x : SharedCh) : (s.setSharedCh n x).dma = s.dma := rfl
@[simp] theorem State.setSharedCh_net (x : SharedCh) : (s.setSharedCh n x).net = s.net := rfl
@[simp] theorem State.setSharedCh_ptp (x : SharedCh) : (s.setSharedCh n x).ptp = s.ptp := rfl
@[simp] theorem State.setSharedCh_stm (x : SharedCh) : (s.setSharedCh n x).stm = s.stm := rfl
@[simp] theorem State.setSharedCh_tw (x : SharedCh) : (s.setSharedCh n x).tw = s.tw := rfl
@[simp] theorem State.setSharedCh_mem (x : SharedCh) : (s.setSharedCh n x).mem = s.mem := rfl
@[simp] theorem State.setSharedCh_fresh (x : SharedCh) : (s.setSharedCh n x).fresh = s.fresh := rfl
@[simp] theorem State.setSharedCh_pending (x : SharedCh) : (s.setSharedCh n x).pending = s.pending := rfl
@[simp] theorem State.sharedCh_setSharedCh (x : SharedCh) : (s.setSharedCh n x).sharedCh n = x := by simp [State.sharedCh, State.setSharedCh]
theorem State.sharedCh_setSharedCh_other (x : SharedCh) (h : m ≠ n) : (s.setSharedCh n x).sharedCh m = s.sharedCh m := by
  simp [State.sharedCh, State.setSharedCh, Store.look_put_other, h]

@[simp] theorem State.setInst_lkt (x : PtpInst) : (s.setInst n x).lkt = s.lkt := by unfold State.setInst; split <;> rfl
@[simp] theorem State.setInst_pst (x : PtpInst) : (s.setInst n x).pst = s.pst := by unfold State.setInst; split <;> rfl
@[simp] theorem State.setInst_sys (x : PtpInst) : (s.setInst n x).sys = s.sys := by unfold State.setInst; split <;> rfl
@[simp] theorem State.setInst_cmds (x : PtpInst) : (s.setInst n x).cmds = s.cmds := by unfold State.setInst; split <;> rfl
@[simp] theorem State.setInst_own (x : PtpInst) : (s.setInst n x).own = s.own := by unfold State.setInst; split <;> rfl
@[simp] theorem State.setInst_sec (x : PtpInst) : (s.setInst n x).sec = s.sec := by unfold State.setInst; split <;> rfl
@[simp] theorem State.setInst_flash (x : PtpInst) : (s.setInst n x).flash = s.flash := by unfold State.setInst; split <;> rfl
@[simp] theorem State.setInst_boot (x : PtpInst) : (s.setInst n x).boot = s.boot := by unfold State.setInst; split <;> rfl
@[simp] theorem State.setInst_ka (x : PtpInst) : (s.setInst n x).ka = s.ka := by unfold State.setInst; split <;> rfl
@[simp] theorem State.setInst_pins (x : PtpInst) : (s.setInst n x).pins = s.pins := by unfold State.setInst; split <;> rfl
@[simp] theorem State.setInst_pws (x : PtpInst) : (s.setInst n x).pws = s.pws := by unfold State.setInst; split <;> rfl
@[simp] theorem State.setInst_tdm (x : PtpInst) : (s.setInst n x).tdm = s.tdm := by unfold State.setInst; split <;> rfl
@[simp] theorem State.setInst_fab (x : PtpInst) : (s.setInst n x).fab = s.fab := by unfold State.setInst; split <;> rfl
@[simp] theorem State.setInst_wave (x : PtpInst) : (s.setInst n x).wave = s.wave := by unfold State.setInst; split <;> rfl
@[simp] theorem State.setInst_rdg (x : PtpInst) : (s.setInst n x).rdg = s.rdg := by unfold State.setInst; split <;> rfl
@[simp] theorem State.setInst_crn (x : PtpInst) : (s.setInst n x).crn = s.crn := by unfold State.setInst; split <;> rfl
@[simp] theorem State.setInst_mtx (x : PtpInst) : (s.setInst n x).mtx = s.mtx := by unfold State.setInst; split <;> rfl
@[simp] theorem State.setInst_col (x : PtpInst) : (s.setInst n x).col = s.col := by unfold State.setInst; split <;> rfl
@[simp] theorem State.setInst_dma (x : PtpInst) : (s.setInst n x).dma = s.dma := by unfold State.setInst; split <;> rfl
@[simp] theorem State.setInst_net (x : PtpInst) : (s.setInst n x).net = s.net := by unfold State.setInst; split <;> rfl
@[simp] theorem State.setInst_stm (x : PtpInst) : (s.setInst n x).stm = s.stm := by unfold State.setInst; split <;> rfl
@[simp] theorem State.setInst_red (x : PtpInst) : (s.setInst n x).red = s.red := by unfold State.setInst; split <;> rfl
@[simp] theorem State.setInst_tw (x : PtpInst) : (s.setInst n x).tw = s.tw := by unfold State.setInst; split <;> rfl
@[simp] theorem State.setInst_mem (x : PtpInst) : (s.setInst n x).mem = s.mem := by unfold State.setInst; split <;> rfl
@[simp] theorem State.setInst_fresh (x : PtpInst) : (s.setInst n x).fresh = s.fresh := by unfold State.setInst; split <;> rfl
@[simp] theorem State.setInst_pending (x : PtpInst) : (s.setInst n x).pending = s.pending := by unfold State.setInst; split <;> rfl
@[simp] theorem State.inst_setInst (x : PtpInst) : (s.setInst n x).inst n = x := by
  unfold State.inst State.setInst; split <;> rfl

@[simp] theorem State.setAlarm_lkt (x : Alarm) : (s.setAlarm n x).lkt = s.lkt := rfl
@[simp] theorem State.setAlarm_pst (x : Alarm) : (s.setAlarm n x).pst = s.pst := rfl
@[simp] theorem State.setAlarm_sys (x : Alarm) : (s.setAlarm n x).sys = s.sys := rfl
@[simp] theorem State.setAlarm_cmds (x : Alarm) : (s.setAlarm n x).cmds = s.cmds := rfl
@[simp] theorem State.setAlarm_own (x : Alarm) : (s.setAlarm n x).own = s.own := rfl
@[simp] theorem State.setAlarm_sec (x : Alarm) : (s.setAlarm n x).sec = s.sec := rfl
@[simp] theorem State.setAlarm_flash (x : Alarm) : (s.setAlarm n x).flash = s.flash := rfl
@[simp] theorem State.setAlarm_boot (x : Alarm) : (s.setAlarm n x).boot = s.boot := rfl
@[simp] theorem State.setAlarm_ka (x : Alarm) : (s.setAlarm n x).ka = s.ka := rfl
@[simp] theorem State.setAlarm_pins (x : Alarm) : (s.setAlarm n x).pins = s.pins := rfl
@[simp] theorem State.setAlarm_pws (x : Alarm) : (s.setAlarm n x).pws = s.pws := rfl
@[simp] theorem State.setAlarm_tdm (x : Alarm) : (s.setAlarm n x).tdm = s.tdm := rfl
@[simp] theorem State.setAlarm_fab (x : Alarm) : (s.setAlarm n x).fab = s.fab := rfl
@[simp] theorem State.setAlarm_wave (x : Alarm) : (s.setAlarm n x).wave = s.wave := rfl
@[simp] theorem State.setAlarm_rdg (x : Alarm) : (s.setAlarm n x).rdg = s.rdg := rfl
@[simp] theorem State.setAlarm_crn (x : Alarm) : (s.setAlarm n x).crn = s.crn := rfl
@[simp] theorem State.setAlarm_mtx (x : Alarm) : (s.setAlarm n x).mtx = s.mtx := rfl
@[simp] theorem State.setAlarm_col (x : Alarm) : (s.setAlarm n x).col = s.col := rfl
@[simp] theorem State.setAlarm_dma (x : Alarm) : (s.setAlarm n x).dma = s.dma := rfl
@[simp] theorem State.setAlarm_net (x : Alarm) : (s.setAlarm n x).net = s.net := rfl
@[simp] theorem State.setAlarm_stm (x : Alarm) : (s.setAlarm n x).stm = s.stm := rfl
@[simp] theorem State.setAlarm_red (x : Alarm) : (s.setAlarm n x).red = s.red := rfl
@[simp] theorem State.setAlarm_tw (x : Alarm) : (s.setAlarm n x).tw = s.tw := rfl
@[simp] theorem State.setAlarm_mem (x : Alarm) : (s.setAlarm n x).mem = s.mem := rfl
@[simp] theorem State.setAlarm_fresh (x : Alarm) : (s.setAlarm n x).fresh = s.fresh := rfl
@[simp] theorem State.setAlarm_pending (x : Alarm) : (s.setAlarm n x).pending = s.pending := rfl
@[simp] theorem State.alarm_setAlarm (x : Alarm) : (s.setAlarm n x).alarm n = x := by simp [State.alarm, State.setAlarm]
theorem State.alarm_setAlarm_other (x : Alarm) (h : m ≠ n) : (s.setAlarm n x).alarm m = s.alarm m := by
  simp [State.alarm, State.setAlarm, Store.look_put_other, h]

@[simp] theorem State.setEngine_lkt (x : Engine) : (s.setEngine n x).lkt = s.lkt := rfl
@[simp] theorem State.setEngine_pst (x : Engine) : (s.setEngine n x).pst = s.pst := rfl
@[simp] theorem State.setEngine_sys (x : Engine) : (s.setEngine n x).sys = s.sys := rfl
@[simp] theorem State.setEngine_cmds (x : Engine) : (s.setEngine n x).cmds = s.cmds := rfl
@[simp] theorem State.setEngine_own (x : Engine) : (s.setEngine n x).own = s.own := rfl
@[simp] theorem State.setEngine_sec (x : Engine) : (s.setEngine n x).sec = s.sec := rfl
@[simp] theorem State.setEngine_flash (x : Engine) : (s.setEngine n x).flash = s.flash := rfl
@[simp] theorem State.setEngine_boot (x : Engine) : (s.setEngine n x).boot = s.boot := rfl
@[simp] theorem State.setEngine_ka (x : Engine) : (s.setEngine n x).ka = s.ka := rfl
@[simp] theorem State.setEngine_pins (x : Engine) : (s.setEngine n x).pins = s.pins := rfl
@[simp] theorem State.setEngine_pws (x : Engine) : (s.setEngine n x).pws = s.pws := rfl
@[simp] theorem State.setEngine_tdm (x : Engine) : (s.setEngine n x).tdm = s.tdm := rfl
@[simp] theorem State.setEngine_fab (x : Engine) : (s.setEngine n x).fab = s.fab := rfl
@[simp] theorem State.setEngine_wave (x : Engine) : (s.setEngine n x).wave = s.wave := rfl
@[simp] theorem State.setEngine_rdg (x : Engine) : (s.setEngine n x).rdg = s.rdg := rfl
@[simp] theorem State.setEngine_mtx (x : Engine) : (s.setEngine n x).mtx = s.mtx := rfl
@[simp] theorem State.setEngine_col (x : Engine) : (s.setEngine n x).col = s.col := rfl
@[simp] theorem State.setEngine_dma (x : Engine) : (s.setEngine n x).dma = s.dma := rfl
@[simp] theorem State.setEngine_net (x : Engine) : (s.setEngine n x).net = s.net := rfl
@[simp] theorem State.setEngine_ptp (x : Engine) : (s.setEngine n x).ptp = s.ptp := rfl
@[simp] theorem State.setEngine_stm (x : Engine) : (s.setEngine n x).stm = s.stm := rfl
@[simp] theorem State.setEngine_red (x : Engine) : (s.setEngine n x).red = s.red := rfl
@[simp] theorem State.setEngine_tw (x : Engine) : (s.setEngine n x).tw = s.tw := rfl
@[simp] theorem State.setEngine_mem (x : Engine) : (s.setEngine n x).mem = s.mem := rfl
@[simp] theorem State.setEngine_fresh (x : Engine) : (s.setEngine n x).fresh = s.fresh := rfl
@[simp] theorem State.setEngine_pending (x : Engine) : (s.setEngine n x).pending = s.pending := rfl
@[simp] theorem State.engine_setEngine (x : Engine) : (s.setEngine n x).engine n = x := by simp [State.engine, State.setEngine]
theorem State.engine_setEngine_other (x : Engine) (h : m ≠ n) : (s.setEngine n x).engine m = s.engine m := by
  simp [State.engine, State.setEngine, Store.look_put_other, h]

@[simp] theorem State.setRxCtx_lkt (x : RxCtx) : (s.setRxCtx n x).lkt = s.lkt := rfl
@[simp] theorem State.setRxCtx_pst (x : RxCtx) : (s.setRxCtx n x).pst = s.pst := rfl
@[simp] theorem State.setRxCtx_sys (x : RxCtx) : (s.setRxCtx n x).sys = s.sys := rfl
@[simp] theorem State.setRxCtx_cmds (x : RxCtx) : (s.setRxCtx n x).cmds = s.cmds := rfl
@[simp] theorem State.setRxCtx_own (x : RxCtx) : (s.setRxCtx n x).own = s.own := rfl
@[simp] theorem State.setRxCtx_sec (x : RxCtx) : (s.setRxCtx n x).sec = s.sec := rfl
@[simp] theorem State.setRxCtx_flash (x : RxCtx) : (s.setRxCtx n x).flash = s.flash := rfl
@[simp] theorem State.setRxCtx_boot (x : RxCtx) : (s.setRxCtx n x).boot = s.boot := rfl
@[simp] theorem State.setRxCtx_ka (x : RxCtx) : (s.setRxCtx n x).ka = s.ka := rfl
@[simp] theorem State.setRxCtx_pins (x : RxCtx) : (s.setRxCtx n x).pins = s.pins := rfl
@[simp] theorem State.setRxCtx_pws (x : RxCtx) : (s.setRxCtx n x).pws = s.pws := rfl
@[simp] theorem State.setRxCtx_tdm (x : RxCtx) : (s.setRxCtx n x).tdm = s.tdm := rfl
@[simp] theorem State.setRxCtx_fab (x : RxCtx) : (s.setRxCtx n x).fab = s.fab := rfl
@[simp] theorem State.setRxCtx_wave (x : RxCtx) : (s.setRxCtx n x).wave = s.wave := rfl
@[simp] theorem State.setRxCtx_rdg (x : RxCtx) : (s.setRxCtx n x).rdg = s.rdg := rfl
@[simp] theorem State.setRxCtx_crn (x : RxCtx) : (s.setRxCtx n x).crn = s.crn := rfl
@[simp] theorem State.setRxCtx_mtx (x : RxCtx) : (s.setRxCtx n x).mtx = s.mtx := rfl
@[simp] theorem State.setRxCtx_col (x : RxCtx) : (s.setRxCtx n x).col = s.col := rfl
@[simp] theorem State.setRxCtx_dma (x : RxCtx) : (s.setRxCtx n x).dma = s.dma := rfl
@[simp] theorem State.setRxCtx_net (x : RxCtx) : (s.setRxCtx n x).net = s.net := rfl
@[simp] theorem State.setRxCtx_ptp (x : RxCtx) : (s.setRxCtx n x).ptp = s.ptp := rfl
@[simp] theorem State.setRxCtx_red (x : RxCtx) : (s.setRxCtx n x).red = s.red := rfl
@[simp] theorem State.setRxCtx_tw (x : RxCtx) : (s.setRxCtx n x).tw = s.tw := rfl
@[simp] theorem State.setRxCtx_mem (x : RxCtx) : (s.setRxCtx n x).mem = s.mem := rfl
@[simp] theorem State.setRxCtx_fresh (x : RxCtx) : (s.setRxCtx n x).fresh = s.fresh := rfl
@[simp] theorem State.setRxCtx_pending (x : RxCtx) : (s.setRxCtx n x).pending = s.pending := rfl
@[simp] theorem State.rxCtx_setRxCtx (x : RxCtx) : (s.setRxCtx n x).rxCtx n = x := by simp [State.rxCtx, State.setRxCtx]
theorem State.rxCtx_setRxCtx_other (x : RxCtx) (h : m ≠ n) : (s.setRxCtx n x).rxCtx m = s.rxCtx m := by
  simp [State.rxCtx, State.setRxCtx, Store.look_put_other, h]

@[simp] theorem State.setTxCtx_lkt (x : TxCtx) : (s.setTxCtx n x).lkt = s.lkt := rfl
@[simp] theorem State.setTxCtx_pst (x : TxCtx) : (s.setTxCtx n x).pst = s.pst := rfl
@[simp] theorem State.setTxCtx_sys (x : TxCtx) : (s.setTxCtx n x).sys = s.sys := rfl
@[simp] theorem State.setTxCtx_cmds (x : TxCtx) : (s.setTxCtx n x).cmds = s.cmds := rfl
@[simp] theorem State.setTxCtx_own (x : TxCtx) : (s.setTxCtx n x).own = s.own := rfl
@[simp] theorem State.setTxCtx_sec (x : TxCtx) : (s.setTxCtx n x).sec = s.sec := rfl
@[simp] theorem State.setTxCtx_flash (x : TxCtx) : (s.setTxCtx n x).flash = s.flash := rfl
@[simp] theorem State.setTxCtx_boot (x : TxCtx) : (s.setTxCtx n x).boot = s.boot := rfl
@[simp] theorem State.setTxCtx_ka (x : TxCtx) : (s.setTxCtx n x).ka = s.ka := rfl
@[simp] theorem State.setTxCtx_pins (x : TxCtx) : (s.setTxCtx n x).pins = s.pins := rfl
@[simp] theorem State.setTxCtx_pws (x : TxCtx) : (s.setTxCtx n x).pws = s.pws := rfl
@[simp] theorem State.setTxCtx_tdm (x : TxCtx) : (s.setTxCtx n x).tdm = s.tdm := rfl
@[simp] theorem State.setTxCtx_fab (x : TxCtx) : (s.setTxCtx n x).fab = s.fab := rfl
@[simp] theorem State.setTxCtx_wave (x : TxCtx) : (s.setTxCtx n x).wave = s.wave := rfl
@[simp] theorem State.setTxCtx_rdg (x : TxCtx) : (s.setTxCtx n x).rdg = s.rdg := rfl
@[simp] theorem State.setTxCtx_crn (x : TxCtx) : (s.setTxCtx n x).crn = s.crn := rfl
@[simp] theorem State.setTxCtx_mtx (x : TxCtx) : (s.setTxCtx n x).mtx = s.mtx := rfl
@[simp] theorem State.setTxCtx_col (x : TxCtx) : (s.setTxCtx n x).col = s.col := rfl
@[simp] theorem State.setTxCtx_dma (x : TxCtx) : (s.setTxCtx n x).dma = s.dma := rfl
@[simp] theorem State.setTxCtx_net (x : TxCtx) : (s.setTxCtx n x).net = s.net := rfl
@[simp] theorem State.setTxCtx_ptp (x : TxCtx) : (s.setTxCtx n x).ptp = s.ptp := rfl
@[simp] theorem State.setTxCtx_red (x : TxCtx) : (s.setTxCtx n x).red = s.red := rfl
@[simp] theorem State.setTxCtx_tw (x : TxCtx) : (s.setTxCtx n x).tw = s.tw := rfl
@[simp] theorem State.setTxCtx_mem (x : TxCtx) : (s.setTxCtx n x).mem = s.mem := rfl
@[simp] theorem State.setTxCtx_fresh (x : TxCtx) : (s.setTxCtx n x).fresh = s.fresh := rfl
@[simp] theorem State.setTxCtx_pending (x : TxCtx) : (s.setTxCtx n x).pending = s.pending := rfl
@[simp] theorem State.txCtx_setTxCtx (x : TxCtx) : (s.setTxCtx n x).txCtx n = x := by simp [State.txCtx, State.setTxCtx]
theorem State.txCtx_setTxCtx_other (x : TxCtx) (h : m ≠ n) : (s.setTxCtx n x).txCtx m = s.txCtx m := by
  simp [State.txCtx, State.setTxCtx, Store.look_put_other, h]

@[simp] theorem State.setNetPort_lkt (x : NetPort) : (s.setNetPort n x).lkt = s.lkt := rfl
@[simp] theorem State.setNetPort_pst (x : NetPort) : (s.setNetPort n x).pst = s.pst := rfl
@[simp] theorem State.setNetPort_sys (x : NetPort) : (s.setNetPort n x).sys = s.sys := rfl
@[simp] theorem State.setNetPort_cmds (x : NetPort) : (s.setNetPort n x).cmds = s.cmds := rfl
@[simp] theorem State.setNetPort_own (x : NetPort) : (s.setNetPort n x).own = s.own := rfl
@[simp] theorem State.setNetPort_sec (x : NetPort) : (s.setNetPort n x).sec = s.sec := rfl
@[simp] theorem State.setNetPort_flash (x : NetPort) : (s.setNetPort n x).flash = s.flash := rfl
@[simp] theorem State.setNetPort_boot (x : NetPort) : (s.setNetPort n x).boot = s.boot := rfl
@[simp] theorem State.setNetPort_ka (x : NetPort) : (s.setNetPort n x).ka = s.ka := rfl
@[simp] theorem State.setNetPort_pins (x : NetPort) : (s.setNetPort n x).pins = s.pins := rfl
@[simp] theorem State.setNetPort_pws (x : NetPort) : (s.setNetPort n x).pws = s.pws := rfl
@[simp] theorem State.setNetPort_tdm (x : NetPort) : (s.setNetPort n x).tdm = s.tdm := rfl
@[simp] theorem State.setNetPort_fab (x : NetPort) : (s.setNetPort n x).fab = s.fab := rfl
@[simp] theorem State.setNetPort_wave (x : NetPort) : (s.setNetPort n x).wave = s.wave := rfl
@[simp] theorem State.setNetPort_rdg (x : NetPort) : (s.setNetPort n x).rdg = s.rdg := rfl
@[simp] theorem State.setNetPort_crn (x : NetPort) : (s.setNetPort n x).crn = s.crn := rfl
@[simp] theorem State.setNetPort_mtx (x : NetPort) : (s.setNetPort n x).mtx = s.mtx := rfl
@[simp] theorem State.setNetPort_col (x : NetPort) : (s.setNetPort n x).col = s.col := rfl
@[simp] theorem State.setNetPort_dma (x : NetPort) : (s.setNetPort n x).dma = s.dma := rfl
@[simp] theorem State.setNetPort_ptp (x : NetPort) : (s.setNetPort n x).ptp = s.ptp := rfl
@[simp] theorem State.setNetPort_stm (x : NetPort) : (s.setNetPort n x).stm = s.stm := rfl
@[simp] theorem State.setNetPort_red (x : NetPort) : (s.setNetPort n x).red = s.red := rfl
@[simp] theorem State.setNetPort_tw (x : NetPort) : (s.setNetPort n x).tw = s.tw := rfl
@[simp] theorem State.setNetPort_mem (x : NetPort) : (s.setNetPort n x).mem = s.mem := rfl
@[simp] theorem State.setNetPort_fresh (x : NetPort) : (s.setNetPort n x).fresh = s.fresh := rfl
@[simp] theorem State.setNetPort_pending (x : NetPort) : (s.setNetPort n x).pending = s.pending := rfl
theorem State.netPort_setNetPort (x : NetPort) (h : n < s.net.ports.length) : (s.setNetPort n x).netPort n = x := by
  simp [State.netPort, State.setNetPort, h]
theorem State.netPort_setNetPort_other (x : NetPort) (h : m ≠ n) : (s.setNetPort n x).netPort m = s.netPort m := by
  have h : n ≠ m := fun e => h e.symm
  simp [State.netPort, State.setNetPort, h]

@[simp] theorem State.setRxRing_lkt (x : Ring) : (s.setRxRing n x).lkt = s.lkt := rfl
@[simp] theorem State.setRxRing_pst (x : Ring) : (s.setRxRing n x).pst = s.pst := rfl
@[simp] theorem State.setRxRing_sys (x : Ring) : (s.setRxRing n x).sys = s.sys := rfl
@[simp] theorem State.setRxRing_cmds (x : Ring) : (s.setRxRing n x).cmds = s.cmds := rfl
@[simp] theorem State.setRxRing_own (x : Ring) : (s.setRxRing n x).own = s.own := rfl
@[simp] theorem State.setRxRing_sec (x : Ring) : (s.setRxRing n x).sec = s.sec := rfl
@[simp] theorem State.setRxRing_flash (x : Ring) : (s.setRxRing n x).flash = s.flash := rfl
@[simp] theorem State.setRxRing_boot (x : Ring) : (s.setRxRing n x).boot = s.boot := rfl
@[simp] theorem State.setRxRing_ka (x : Ring) : (s.setRxRing n x).ka = s.ka := rfl
@[simp] theorem State.setRxRing_pins (x : Ring) : (s.setRxRing n x).pins = s.pins := rfl
@[simp] theorem State.setRxRing_pws (x : Ring) : (s.setRxRing n x).pws = s.pws := rfl
@[simp] theorem State.setRxRing_tdm (x : Ring) : (s.setRxRing n x).tdm = s.tdm := rfl
@[simp] theorem State.setRxRing_fab (x : Ring) : (s.setRxRing n x).fab = s.fab := rfl
@[simp] theorem State.setRxRing_wave (x : Ring) : (s.setRxRing n x).wave = s.wave := rfl
@[simp] theorem State.setRxRing_rdg (x : Ring) : (s.setRxRing n x).rdg = s.rdg := rfl
@[simp] theorem State.setRxRing_crn (x : Ring) : (s.setRxRing n x).crn = s.crn := rfl
@[simp] theorem State.setRxRing_mtx (x : Ring) : (s.setRxRing n x).mtx = s.mtx := rfl
@[simp] theorem State.setRxRing_col (x : Ring) : (s.setRxRing n x).col = s.col := rfl
@[simp] theorem State.setRxRing_dma (x : Ring) : (s.setRxRing n x).dma = s.dma := rfl
@[simp] theorem State.setRxRing_ptp (x : Ring) : (s.setRxRing n x).ptp = s.ptp := rfl
@[simp] theorem State.setRxRing_stm (x : Ring) : (s.setRxRing n x).stm = s.stm := rfl
@[simp] theorem State.setRxRing_red (x : Ring) : (s.setRxRing n x).red = s.red := rfl
@[simp] theorem State.setRxRing_tw (x : Ring) : (s.setRxRing n x).tw = s.tw := rfl
@[simp] theorem State.setRxRing_mem (x : Ring) : (s.setRxRing n x).mem = s.mem := rfl
@[simp] theorem State.setRxRing_fresh (x : Ring) : (s.setRxRing n x).fresh = s.fresh := rfl
@[simp] theorem State.setRxRing_pending (x : Ring) : (s.setRxRing n x).pending = s.pending := rfl
theorem State.rxRing_setRxRing (x : Ring) (h : n < s.net.rx.length) : (s.setRxRing n x).rxRing n = x := by
  simp [State.rxRing, State.setRxRing, h]
theorem State.rxRing_setRxRing_other (x : Ring) (h : m ≠ n) : (s.setRxRing n x).rxRing m = s.rxRing m := by
  have h : n ≠ m := fun e => h e.symm
  simp [State.rxRing, State.setRxRing, h]

@[simp] theorem State.setTxRing_lkt (x : Ring) : (s.setTxRing n x).lkt = s.lkt := rfl
@[simp] theorem State.setTxRing_pst (x : Ring) : (s.setTxRing n x).pst = s.pst := rfl
@[simp] theorem State.setTxRing_sys (x : Ring) : (s.setTxRing n x).sys = s.sys := rfl
@[simp] theorem State.setTxRing_cmds (x : Ring) : (s.setTxRing n x).cmds = s.cmds := rfl
@[simp] theorem State.setTxRing_own (x : Ring) : (s.setTxRing n x).own = s.own := rfl
@[simp] theorem State.setTxRing_sec (x : Ring) : (s.setTxRing n x).sec = s.sec := rfl
@[simp] theorem State.setTxRing_flash (x : Ring) : (s.setTxRing n x).flash = s.flash := rfl
@[simp] theorem State.setTxRing_boot (x : Ring) : (s.setTxRing n x).boot = s.boot := rfl
@[simp] theorem State.setTxRing_ka (x : Ring) : (s.setTxRing n x).ka = s.ka := rfl
@[simp] theorem State.setTxRing_pins (x : Ring) : (s.setTxRing n x).pins = s.pins := rfl
@[simp] theorem State.setTxRing_pws (x : Ring) : (s.setTxRing n x).pws = s.pws := rfl
@[simp] theorem State.setTxRing_tdm (x : Ring) : (s.setTxRing n x).tdm = s.tdm := rfl
@[simp] theorem State.setTxRing_fab (x : Ring) : (s.setTxRing n x).fab = s.fab := rfl
@[simp] theorem State.setTxRing_wave (x : Ring) : (s.setTxRing n x).wave = s.wave := rfl
@[simp] theorem State.setTxRing_rdg (x : Ring) : (s.setTxRing n x).rdg = s.rdg := rfl
@[simp] theorem State.setTxRing_crn (x : Ring) : (s.setTxRing n x).crn = s.crn := rfl
@[simp] theorem State.setTxRing_mtx (x : Ring) : (s.setTxRing n x).mtx = s.mtx := rfl
@[simp] theorem State.setTxRing_col (x : Ring) : (s.setTxRing n x).col = s.col := rfl
@[simp] theorem State.setTxRing_dma (x : Ring) : (s.setTxRing n x).dma = s.dma := rfl
@[simp] theorem State.setTxRing_ptp (x : Ring) : (s.setTxRing n x).ptp = s.ptp := rfl
@[simp] theorem State.setTxRing_stm (x : Ring) : (s.setTxRing n x).stm = s.stm := rfl
@[simp] theorem State.setTxRing_red (x : Ring) : (s.setTxRing n x).red = s.red := rfl
@[simp] theorem State.setTxRing_tw (x : Ring) : (s.setTxRing n x).tw = s.tw := rfl
@[simp] theorem State.setTxRing_mem (x : Ring) : (s.setTxRing n x).mem = s.mem := rfl
@[simp] theorem State.setTxRing_fresh (x : Ring) : (s.setTxRing n x).fresh = s.fresh := rfl
@[simp] theorem State.setTxRing_pending (x : Ring) : (s.setTxRing n x).pending = s.pending := rfl
theorem State.txRing_setTxRing (x : Ring) (h : n < s.net.tx.length) : (s.setTxRing n x).txRing n = x := by
  simp [State.txRing, State.setTxRing, h]
theorem State.txRing_setTxRing_other (x : Ring) (h : m ≠ n) : (s.setTxRing n x).txRing m = s.txRing m := by
  have h : n ≠ m := fun e => h e.symm
  simp [State.txRing, State.setTxRing, h]

@[simp] theorem State.setTap_lkt (x : Tap) : (s.setTap n x).lkt = s.lkt := rfl
@[simp] theorem State.setTap_pst (x : Tap) : (s.setTap n x).pst = s.pst := rfl
@[simp] theorem State.setTap_sys (x : Tap) : (s.setTap n x).sys = s.sys := rfl
@[simp] theorem State.setTap_cmds (x : Tap) : (s.setTap n x).cmds = s.cmds := rfl
@[simp] theorem State.setTap_own (x : Tap) : (s.setTap n x).own = s.own := rfl
@[simp] theorem State.setTap_sec (x : Tap) : (s.setTap n x).sec = s.sec := rfl
@[simp] theorem State.setTap_flash (x : Tap) : (s.setTap n x).flash = s.flash := rfl
@[simp] theorem State.setTap_boot (x : Tap) : (s.setTap n x).boot = s.boot := rfl
@[simp] theorem State.setTap_ka (x : Tap) : (s.setTap n x).ka = s.ka := rfl
@[simp] theorem State.setTap_pins (x : Tap) : (s.setTap n x).pins = s.pins := rfl
@[simp] theorem State.setTap_pws (x : Tap) : (s.setTap n x).pws = s.pws := rfl
@[simp] theorem State.setTap_tdm (x : Tap) : (s.setTap n x).tdm = s.tdm := rfl
@[simp] theorem State.setTap_fab (x : Tap) : (s.setTap n x).fab = s.fab := rfl
@[simp] theorem State.setTap_wave (x : Tap) : (s.setTap n x).wave = s.wave := rfl
@[simp] theorem State.setTap_rdg (x : Tap) : (s.setTap n x).rdg = s.rdg := rfl
@[simp] theorem State.setTap_crn (x : Tap) : (s.setTap n x).crn = s.crn := rfl
@[simp] theorem State.setTap_mtx (x : Tap) : (s.setTap n x).mtx = s.mtx := rfl
@[simp] theorem State.setTap_col (x : Tap) : (s.setTap n x).col = s.col := rfl
@[simp] theorem State.setTap_dma (x : Tap) : (s.setTap n x).dma = s.dma := rfl
@[simp] theorem State.setTap_net (x : Tap) : (s.setTap n x).net = s.net := rfl
@[simp] theorem State.setTap_ptp (x : Tap) : (s.setTap n x).ptp = s.ptp := rfl
@[simp] theorem State.setTap_red (x : Tap) : (s.setTap n x).red = s.red := rfl
@[simp] theorem State.setTap_tw (x : Tap) : (s.setTap n x).tw = s.tw := rfl
@[simp] theorem State.setTap_mem (x : Tap) : (s.setTap n x).mem = s.mem := rfl
@[simp] theorem State.setTap_fresh (x : Tap) : (s.setTap n x).fresh = s.fresh := rfl
@[simp] theorem State.setTap_pending (x : Tap) : (s.setTap n x).pending = s.pending := rfl
@[simp] theorem State.tap_setTap (x : Tap) : (s.setTap n x).tap n = x := by simp [State.tap, State.setTap]
theorem State.tap_setTap_other (x : Tap) (h : m ≠ n) : (s.setTap n x).tap m = s.tap m := by
  simp [State.tap, State.setTap, Store.look_put_other, h]

@[simp] theorem State.setTwc_lkt (x : TwCtl) : (s.setTwc n x).lkt = s.lkt := rfl
@[simp] theorem State.setTwc_pst (x : TwCtl) : (s.setTwc n x).pst = s.pst := rfl
@[simp] theorem State.setTwc_sys (x : TwCtl) : (s.setTwc n x).sys = s.sys := rfl
@[simp] theorem State.setTwc_cmds (x : TwCtl) : (s.setTwc n x).cmds = s.cmds := rfl
@[simp] theorem State.setTwc_own (x : TwCtl) : (s.setTwc n x).own = s.own := rfl
@[simp] theorem State.setTwc_sec (x : TwCtl) : (s.setTwc n x).sec = s.sec := rfl
@[simp] theorem State.setTwc_flash (x : TwCtl) : (s.setTwc n x).flash = s.flash := rfl
@[simp] theorem State.setTwc_boot (x : TwCtl) : (s.setTwc n x).boot = s.boot := rfl
@[simp] theorem State.setTwc_ka (x : TwCtl) : (s.setTwc n x).ka = s.ka := rfl
@[simp] theorem State.setTwc_pins (x : TwCtl) : (s.setTwc n x).pins = s.pins := rfl
@[simp] theorem State.setTwc_pws (x : TwCtl) : (s.setTwc n x).pws = s.pws := rfl
@[simp] theorem State.setTwc_tdm (x : TwCtl) : (s.setTwc n x).tdm = s.tdm := rfl
@[simp] theorem State.setTwc_fab (x : TwCtl) : (s.setTwc n x).fab = s.fab := rfl
@[simp] theorem State.setTwc_wave (x : TwCtl) : (s.setTwc n x).wave = s.wave := rfl
@[simp] theorem State.setTwc_rdg (x : TwCtl) : (s.setTwc n x).rdg = s.rdg := rfl
@[simp] theorem State.setTwc_crn (x : TwCtl) : (s.setTwc n x).crn = s.crn := rfl
@[simp] theorem State.setTwc_mtx (x : TwCtl) : (s.setTwc n x).mtx = s.mtx := rfl
@[simp] theorem State.setTwc_col (x : TwCtl) : (s.setTwc n x).col = s.col := rfl
@[simp] theorem State.setTwc_dma (x : TwCtl) : (s.setTwc n x).dma = s.dma := rfl
@[simp] theorem State.setTwc_net (x : TwCtl) : (s.setTwc n x).net = s.net := rfl
@[simp] theorem State.setTwc_ptp (x : TwCtl) : (s.setTwc n x).ptp = s.ptp := rfl
@[simp] theorem State.setTwc_stm (x : TwCtl) : (s.setTwc n x).stm = s.stm := rfl
@[simp] theorem State.setTwc_red (x : TwCtl) : (s.setTwc n x).red = s.red := rfl
@[simp] theorem State.setTwc_mem (x : TwCtl) : (s.setTwc n x).mem = s.mem := rfl
@[simp] theorem State.setTwc_fresh (x : TwCtl) : (s.setTwc n x).fresh = s.fresh := rfl
@[simp] theorem State.setTwc_pending (x : TwCtl) : (s.setTwc n x).pending = s.pending := rfl
theorem State.twc_setTwc (x : TwCtl) (h : n < s.tw.ctl.length) : (s.setTwc n x).twc n = x := by
  simp [State.twc, State.setTwc, h]
theorem State.twc_setTwc_other (x : TwCtl) (h : m ≠ n) : (s.setTwc n x).twc m = s.twc m := by
  have h : n ≠ m := fun e => h e.symm
  simp [State.twc, State.setTwc, h]

@[simp] theorem State.setTwt_lkt (x : Twt) : (s.setTwt x).lkt = s.lkt := rfl
@[simp] theorem State.setTwt_pst (x : Twt) : (s.setTwt x).pst = s.pst := rfl
@[simp] theorem State.setTwt_sys (x : Twt) : (s.setTwt x).sys = s.sys := rfl
@[simp] theorem State.setTwt_cmds (x : Twt) : (s.setTwt x).cmds = s.cmds := rfl
@[simp] theorem State.setTwt_own (x : Twt) : (s.setTwt x).own = s.own := rfl
@[simp] theorem State.setTwt_sec (x : Twt) : (s.setTwt x).sec = s.sec := rfl
@[simp] theorem State.setTwt_flash (x : Twt) : (s.setTwt x).flash = s.flash := rfl
@[simp] theorem State.setTwt_boot (x : Twt) : (s.setTwt x).boot = s.boot := rfl
@[simp] theorem State.setTwt_ka (x : Twt) : (s.setTwt x).ka = s.ka := rfl
@[simp] theorem State.setTwt_pins (x : Twt) : (s.setTwt x).pins = s.pins := rfl
@[simp] theorem State.setTwt_pws (x : Twt) : (s.setTwt x).pws = s.pws := rfl
@[simp] theorem State.setTwt_tdm (x : Twt) : (s.setTwt x).tdm = s.tdm := rfl
@[simp] theorem State.setTwt_fab (x : Twt) : (s.setTwt x).fab = s.fab := rfl
@[simp] theorem State.setTwt_wave (x : Twt) : (s.setTwt x).wave = s.wave := rfl
@[simp] theorem State.setTwt_rdg (x : Twt) : (s.setTwt x).rdg = s.rdg := rfl
@[simp] theorem State.setTwt_crn (x : Twt) : (s.setTwt x).crn = s.crn := rfl
@[simp] theorem State.setTwt_mtx (x : Twt) : (s.setTwt x).mtx = s.mtx := rfl
@[simp] theorem State.setTwt_col (x : Twt) : (s.setTwt x).col = s.col := rfl
@[simp] theorem State.setTwt_dma (x : Twt) : (s.setTwt x).dma = s.dma := rfl
@[simp] theorem State.setTwt_net (x : Twt) : (s.setTwt x).net = s.net := rfl
@[simp] theorem State.setTwt_ptp (x : Twt) : (s.setTwt x).ptp = s.ptp := rfl
@[simp] theorem State.setTwt_stm (x : Twt) : (s.setTwt x).stm = s.stm := rfl
@[simp] theorem State.setTwt_red (x : Twt) : (s.setTwt x).red = s.red := rfl
@[simp] theorem State.setTwt_mem (x : Twt) : (s.setTwt x).mem = s.mem := rfl
@[simp] theorem State.setTwt_fresh (x : Twt) : (s.setTwt x).fresh = s.fresh := rfl
@[simp] theorem State.setTwt_pending (x : Twt) : (s.setTwt x).pending = s.pending := rfl

/-- The frame of a shadow's change. -/
@[simp] theorem shadow_onShadow (q : Requester) (f : Shadow → Shadow) : (onShadow q f s).shadow q.ix = f (s.shadow q.ix) := by
  simp [onShadow]

/-- A command that takes its slot changes the command slots alone. -/
theorem takeSlotFor_frame (p : Nat) (udp : Bool) (op : Nat) :
    takeSlotFor p udp op s = { s with cmds := (takeSlotFor p udp op s).cmds } := by
  simp only [takeSlotFor]
  split
  · rfl
  · split <;> rfl

/-- A command that steps 7 and 8 of R411 refuse has no effect. -/
theorem perform_refused {fwd : Bool} {p : Nat} {udp : Bool} {limit : Nat} {b : Body} {st : Status}
    (h : refusal s fwd p b = some st) : perform fwd p udp limit b s = (s, Reply.code st) := by
  simp [perform, h]

/-- A command that they accept, and whose reply fits, has its own effect and what follows from it. -/
theorem perform_ran {fwd : Bool} {p : Nat} {udp : Bool} {limit : Nat} {b : Body} {t : State} {r : Reply}
    (h : refusal s fwd p b = none) (hr : b.run p udp s = (t, r)) (hl : 40 + r.payload.length ≤ limit) :
    perform fwd p udp limit b s = (carriedOut fwd p b r s t, r) := by
  simp [perform, h, hr, Nat.not_lt.2 hl]

@[simp] theorem leBytes_length (k v : Nat) : (leBytes k v).length = k := by
  induction k generalizing v with
  | zero => rfl
  | succ k ih => simp [leBytes, ih]

end Sys2Proof.Machine
end

