-- ==== Sys2Proof/Laws/Faults.lean ====
section
/-! SUPPORT. What reporting a fault leaves alone (R456 to R463): one simp lemma per part of the state. -/

namespace Sys2Proof.Machine

@[simp] theorem fadeAllTx_lkt (s : State) : (fadeAllTx s).lkt = s.lkt := by rfl
@[simp] theorem fadeAllTx_pst (s : State) : (fadeAllTx s).pst = s.pst := by rfl
@[simp] theorem fadeAllTx_sys (s : State) : (fadeAllTx s).sys = s.sys := by rfl
@[simp] theorem fadeAllTx_cmds (s : State) : (fadeAllTx s).cmds = s.cmds := by rfl
@[simp] theorem fadeAllTx_own (s : State) : (fadeAllTx s).own = s.own := by rfl
@[simp] theorem fadeAllTx_sec (s : State) : (fadeAllTx s).sec = s.sec := by rfl
@[simp] theorem fadeAllTx_flash (s : State) : (fadeAllTx s).flash = s.flash := by rfl
@[simp] theorem fadeAllTx_boot (s : State) : (fadeAllTx s).boot = s.boot := by rfl
@[simp] theorem fadeAllTx_ka (s : State) : (fadeAllTx s).ka = s.ka := by rfl
@[simp] theorem fadeAllTx_pins (s : State) : (fadeAllTx s).pins = s.pins := by rfl
@[simp] theorem fadeAllTx_pws (s : State) : (fadeAllTx s).pws = s.pws := by rfl
@[simp] theorem fadeAllTx_fab (s : State) : (fadeAllTx s).fab = s.fab := by rfl
@[simp] theorem fadeAllTx_wave (s : State) : (fadeAllTx s).wave = s.wave := by rfl
@[simp] theorem fadeAllTx_rdg (s : State) : (fadeAllTx s).rdg = s.rdg := by rfl
@[simp] theorem fadeAllTx_crn (s : State) : (fadeAllTx s).crn = s.crn := by rfl
@[simp] theorem fadeAllTx_mtx (s : State) : (fadeAllTx s).mtx = s.mtx := by rfl
@[simp] theorem fadeAllTx_col (s : State) : (fadeAllTx s).col = s.col := by rfl
@[simp] theorem fadeAllTx_dma (s : State) : (fadeAllTx s).dma = s.dma := by rfl
@[simp] theorem fadeAllTx_net (s : State) : (fadeAllTx s).net = s.net := by rfl
@[simp] theorem fadeAllTx_ptp (s : State) : (fadeAllTx s).ptp = s.ptp := by rfl
@[simp] theorem fadeAllTx_stm (s : State) : (fadeAllTx s).stm = s.stm := by rfl
@[simp] theorem fadeAllTx_red (s : State) : (fadeAllTx s).red = s.red := by rfl
@[simp] theorem fadeAllTx_tw (s : State) : (fadeAllTx s).tw = s.tw := by rfl
@[simp] theorem fadeAllTx_mem (s : State) : (fadeAllTx s).mem = s.mem := by rfl
@[simp] theorem fadeAllTx_fresh (s : State) : (fadeAllTx s).fresh = s.fresh := by rfl
@[simp] theorem fadeAllTx_pending (s : State) : (fadeAllTx s).pending = s.pending := by rfl

@[simp] theorem openAllTx_lkt (s : State) : (openAllTx s).lkt = s.lkt := by rfl
@[simp] theorem openAllTx_pst (s : State) : (openAllTx s).pst = s.pst := by rfl
@[simp] theorem openAllTx_sys (s : State) : (openAllTx s).sys = s.sys := by rfl
@[simp] theorem openAllTx_cmds (s : State) : (openAllTx s).cmds = s.cmds := by rfl
@[simp] theorem openAllTx_own (s : State) : (openAllTx s).own = s.own := by rfl
@[simp] theorem openAllTx_sec (s : State) : (openAllTx s).sec = s.sec := by rfl
@[simp] theorem openAllTx_flash (s : State) : (openAllTx s).flash = s.flash := by rfl
@[simp] theorem openAllTx_boot (s : State) : (openAllTx s).boot = s.boot := by rfl
@[simp] theorem openAllTx_ka (s : State) : (openAllTx s).ka = s.ka := by rfl
@[simp] theorem openAllTx_pins (s : State) : (openAllTx s).pins = s.pins := by rfl
@[simp] theorem openAllTx_pws (s : State) : (openAllTx s).pws = s.pws := by rfl
@[simp] theorem openAllTx_fab (s : State) : (openAllTx s).fab = s.fab := by rfl
@[simp] theorem openAllTx_wave (s : State) : (openAllTx s).wave = s.wave := by rfl
@[simp] theorem openAllTx_rdg (s : State) : (openAllTx s).rdg = s.rdg := by rfl
@[simp] theorem openAllTx_crn (s : State) : (openAllTx s).crn = s.crn := by rfl
@[simp] theorem openAllTx_mtx (s : State) : (openAllTx s).mtx = s.mtx := by rfl
@[simp] theorem openAllTx_col (s : State) : (openAllTx s).col = s.col := by rfl
@[simp] theorem openAllTx_dma (s : State) : (openAllTx s).dma = s.dma := by rfl
@[simp] theorem openAllTx_net (s : State) : (openAllTx s).net = s.net := by rfl
@[simp] theorem openAllTx_ptp (s : State) : (openAllTx s).ptp = s.ptp := by rfl
@[simp] theorem openAllTx_stm (s : State) : (openAllTx s).stm = s.stm := by rfl
@[simp] theorem openAllTx_red (s : State) : (openAllTx s).red = s.red := by rfl
@[simp] theorem openAllTx_tw (s : State) : (openAllTx s).tw = s.tw := by rfl
@[simp] theorem openAllTx_mem (s : State) : (openAllTx s).mem = s.mem := by rfl
@[simp] theorem openAllTx_fresh (s : State) : (openAllTx s).fresh = s.fresh := by rfl
@[simp] theorem openAllTx_pending (s : State) : (openAllTx s).pending = s.pending := by rfl

@[simp] theorem domainReset_pst (s : State) : (domainReset s).pst = s.pst := by rfl
@[simp] theorem domainReset_sys (s : State) : (domainReset s).sys = s.sys := by rfl
@[simp] theorem domainReset_own (s : State) : (domainReset s).own = s.own := by rfl
@[simp] theorem domainReset_sec (s : State) : (domainReset s).sec = s.sec := by rfl
@[simp] theorem domainReset_flash (s : State) : (domainReset s).flash = s.flash := by rfl
@[simp] theorem domainReset_ka (s : State) : (domainReset s).ka = s.ka := by rfl
@[simp] theorem domainReset_pins (s : State) : (domainReset s).pins = s.pins := by rfl
@[simp] theorem domainReset_pws (s : State) : (domainReset s).pws = s.pws := by rfl
@[simp] theorem domainReset_tdm (s : State) : (domainReset s).tdm = s.tdm := by rfl
@[simp] theorem domainReset_fab (s : State) : (domainReset s).fab = s.fab := by rfl
@[simp] theorem domainReset_wave (s : State) : (domainReset s).wave = s.wave := by rfl
@[simp] theorem domainReset_rdg (s : State) : (domainReset s).rdg = s.rdg := by rfl
@[simp] theorem domainReset_crn (s : State) : (domainReset s).crn = s.crn := by rfl
@[simp] theorem domainReset_mtx (s : State) : (domainReset s).mtx = s.mtx := by rfl
@[simp] theorem domainReset_col (s : State) : (domainReset s).col = s.col := by rfl
@[simp] theorem domainReset_dma (s : State) : (domainReset s).dma = s.dma := by rfl
@[simp] theorem domainReset_ptp (s : State) : (domainReset s).ptp = s.ptp := by rfl
@[simp] theorem domainReset_stm (s : State) : (domainReset s).stm = s.stm := by rfl
@[simp] theorem domainReset_red (s : State) : (domainReset s).red = s.red := by rfl
@[simp] theorem domainReset_tw (s : State) : (domainReset s).tw = s.tw := by rfl
@[simp] theorem domainReset_mem (s : State) : (domainReset s).mem = s.mem := by rfl
@[simp] theorem domainReset_fresh (s : State) : (domainReset s).fresh = s.fresh := by rfl
@[simp] theorem domainReset_pending (s : State) : (domainReset s).pending = s.pending := by rfl

@[simp] theorem goFailSilent_pst (s : State) : (goFailSilent s).pst = s.pst := by rfl
@[simp] theorem goFailSilent_sys (s : State) : (goFailSilent s).sys = s.sys := by rfl
@[simp] theorem goFailSilent_cmds (s : State) : (goFailSilent s).cmds = s.cmds := by rfl
@[simp] theorem goFailSilent_own (s : State) : (goFailSilent s).own = s.own := by rfl
@[simp] theorem goFailSilent_sec (s : State) : (goFailSilent s).sec = s.sec := by rfl
@[simp] theorem goFailSilent_flash (s : State) : (goFailSilent s).flash = s.flash := by rfl
@[simp] theorem goFailSilent_boot (s : State) : (goFailSilent s).boot = s.boot := by rfl
@[simp] theorem goFailSilent_ka (s : State) : (goFailSilent s).ka = s.ka := by rfl
@[simp] theorem goFailSilent_pins (s : State) : (goFailSilent s).pins = s.pins := by rfl
@[simp] theorem goFailSilent_pws (s : State) : (goFailSilent s).pws = s.pws := by rfl
@[simp] theorem goFailSilent_tdm (s : State) : (goFailSilent s).tdm = s.tdm := by rfl
@[simp] theorem goFailSilent_fab (s : State) : (goFailSilent s).fab = s.fab := by rfl
@[simp] theorem goFailSilent_wave (s : State) : (goFailSilent s).wave = s.wave := by rfl
@[simp] theorem goFailSilent_rdg (s : State) : (goFailSilent s).rdg = s.rdg := by rfl
@[simp] theorem goFailSilent_crn (s : State) : (goFailSilent s).crn = s.crn := by rfl
@[simp] theorem goFailSilent_mtx (s : State) : (goFailSilent s).mtx = s.mtx := by rfl
@[simp] theorem goFailSilent_col (s : State) : (goFailSilent s).col = s.col := by rfl
@[simp] theorem goFailSilent_dma (s : State) : (goFailSilent s).dma = s.dma := by rfl
@[simp] theorem goFailSilent_ptp (s : State) : (goFailSilent s).ptp = s.ptp := by rfl
@[simp] theorem goFailSilent_stm (s : State) : (goFailSilent s).stm = s.stm := by rfl
@[simp] theorem goFailSilent_tw (s : State) : (goFailSilent s).tw = s.tw := by rfl
@[simp] theorem goFailSilent_mem (s : State) : (goFailSilent s).mem = s.mem := by rfl
@[simp] theorem goFailSilent_fresh (s : State) : (goFailSilent s).fresh = s.fresh := by rfl
@[simp] theorem goFailSilent_pending (s : State) : (goFailSilent s).pending = s.pending := by rfl

@[simp] theorem runAction_pst (a : Act) (g : Nat) (s : State) : (runAction a g s).pst = s.pst := by cases a <;> rfl
@[simp] theorem runAction_sys (a : Act) (g : Nat) (s : State) : (runAction a g s).sys = s.sys := by cases a <;> rfl
@[simp] theorem runAction_own (a : Act) (g : Nat) (s : State) : (runAction a g s).own = s.own := by cases a <;> rfl
@[simp] theorem runAction_sec (a : Act) (g : Nat) (s : State) : (runAction a g s).sec = s.sec := by cases a <;> rfl
@[simp] theorem runAction_flash (a : Act) (g : Nat) (s : State) : (runAction a g s).flash = s.flash := by cases a <;> rfl
@[simp] theorem runAction_ka (a : Act) (g : Nat) (s : State) : (runAction a g s).ka = s.ka := by cases a <;> rfl
@[simp] theorem runAction_pins (a : Act) (g : Nat) (s : State) : (runAction a g s).pins = s.pins := by cases a <;> rfl
@[simp] theorem runAction_pws (a : Act) (g : Nat) (s : State) : (runAction a g s).pws = s.pws := by cases a <;> rfl
@[simp] theorem runAction_fab (a : Act) (g : Nat) (s : State) : (runAction a g s).fab = s.fab := by cases a <;> rfl
@[simp] theorem runAction_wave (a : Act) (g : Nat) (s : State) : (runAction a g s).wave = s.wave := by cases a <;> rfl
@[simp] theorem runAction_rdg (a : Act) (g : Nat) (s : State) : (runAction a g s).rdg = s.rdg := by cases a <;> rfl
@[simp] theorem runAction_crn (a : Act) (g : Nat) (s : State) : (runAction a g s).crn = s.crn := by cases a <;> rfl
@[simp] theorem runAction_mtx (a : Act) (g : Nat) (s : State) : (runAction a g s).mtx = s.mtx := by cases a <;> rfl
@[simp] theorem runAction_col (a : Act) (g : Nat) (s : State) : (runAction a g s).col = s.col := by cases a <;> rfl
@[simp] theorem runAction_dma (a : Act) (g : Nat) (s : State) : (runAction a g s).dma = s.dma := by cases a <;> rfl
@[simp] theorem runAction_ptp (a : Act) (g : Nat) (s : State) : (runAction a g s).ptp = s.ptp := by cases a <;> rfl
@[simp] theorem runAction_stm (a : Act) (g : Nat) (s : State) : (runAction a g s).stm = s.stm := by cases a <;> rfl
@[simp] theorem runAction_tw (a : Act) (g : Nat) (s : State) : (runAction a g s).tw = s.tw := by cases a <;> rfl
@[simp] theorem runAction_mem (a : Act) (g : Nat) (s : State) : (runAction a g s).mem = s.mem := by cases a <;> rfl
@[simp] theorem runAction_fresh (a : Act) (g : Nat) (s : State) : (runAction a g s).fresh = s.fresh := by cases a <;> rfl
@[simp] theorem runAction_pending (a : Act) (g : Nat) (s : State) : (runAction a g s).pending = s.pending := by cases a <;> rfl

@[simp] theorem countFault_pst (src : Nat) (s : State) : (countFault src s).pst = s.pst := by rfl
@[simp] theorem countFault_sys (src : Nat) (s : State) : (countFault src s).sys = s.sys := by rfl
@[simp] theorem countFault_cmds (src : Nat) (s : State) : (countFault src s).cmds = s.cmds := by rfl
@[simp] theorem countFault_own (src : Nat) (s : State) : (countFault src s).own = s.own := by rfl
@[simp] theorem countFault_sec (src : Nat) (s : State) : (countFault src s).sec = s.sec := by rfl
@[simp] theorem countFault_flash (src : Nat) (s : State) : (countFault src s).flash = s.flash := by rfl
@[simp] theorem countFault_boot (src : Nat) (s : State) : (countFault src s).boot = s.boot := by rfl
@[simp] theorem countFault_ka (src : Nat) (s : State) : (countFault src s).ka = s.ka := by rfl
@[simp] theorem countFault_pins (src : Nat) (s : State) : (countFault src s).pins = s.pins := by rfl
@[simp] theorem countFault_pws (src : Nat) (s : State) : (countFault src s).pws = s.pws := by rfl
@[simp] theorem countFault_tdm (src : Nat) (s : State) : (countFault src s).tdm = s.tdm := by rfl
@[simp] theorem countFault_fab (src : Nat) (s : State) : (countFault src s).fab = s.fab := by rfl
@[simp] theorem countFault_wave (src : Nat) (s : State) : (countFault src s).wave = s.wave := by rfl
@[simp] theorem countFault_rdg (src : Nat) (s : State) : (countFault src s).rdg = s.rdg := by rfl
@[simp] theorem countFault_crn (src : Nat) (s : State) : (countFault src s).crn = s.crn := by rfl
@[simp] theorem countFault_mtx (src : Nat) (s : State) : (countFault src s).mtx = s.mtx := by rfl
@[simp] theorem countFault_col (src : Nat) (s : State) : (countFault src s).col = s.col := by rfl
@[simp] theorem countFault_dma (src : Nat) (s : State) : (countFault src s).dma = s.dma := by rfl
@[simp] theorem countFault_net (src : Nat) (s : State) : (countFault src s).net = s.net := by rfl
@[simp] theorem countFault_ptp (src : Nat) (s : State) : (countFault src s).ptp = s.ptp := by rfl
@[simp] theorem countFault_stm (src : Nat) (s : State) : (countFault src s).stm = s.stm := by rfl
@[simp] theorem countFault_red (src : Nat) (s : State) : (countFault src s).red = s.red := by rfl
@[simp] theorem countFault_tw (src : Nat) (s : State) : (countFault src s).tw = s.tw := by rfl
@[simp] theorem countFault_mem (src : Nat) (s : State) : (countFault src s).mem = s.mem := by rfl
@[simp] theorem countFault_fresh (src : Nat) (s : State) : (countFault src s).fresh = s.fresh := by rfl
@[simp] theorem countFault_pending (src : Nat) (s : State) : (countFault src s).pending = s.pending := by rfl

@[simp] theorem noteAlert_lkt (old new : RecState) (s : State) : (noteAlert old new s).lkt = s.lkt := by unfold noteAlert; split <;> rfl
@[simp] theorem noteAlert_pst (old new : RecState) (s : State) : (noteAlert old new s).pst = s.pst := by unfold noteAlert; split <;> rfl
@[simp] theorem noteAlert_sys (old new : RecState) (s : State) : (noteAlert old new s).sys = s.sys := by unfold noteAlert; split <;> rfl
@[simp] theorem noteAlert_cmds (old new : RecState) (s : State) : (noteAlert old new s).cmds = s.cmds := by unfold noteAlert; split <;> rfl
@[simp] theorem noteAlert_own (old new : RecState) (s : State) : (noteAlert old new s).own = s.own := by unfold noteAlert; split <;> rfl
@[simp] theorem noteAlert_sec (old new : RecState) (s : State) : (noteAlert old new s).sec = s.sec := by unfold noteAlert; split <;> rfl
@[simp] theorem noteAlert_flash (old new : RecState) (s : State) : (noteAlert old new s).flash = s.flash := by unfold noteAlert; split <;> rfl
@[simp] theorem noteAlert_boot (old new : RecState) (s : State) : (noteAlert old new s).boot = s.boot := by unfold noteAlert; split <;> rfl
@[simp] theorem noteAlert_ka (old new : RecState) (s : State) : (noteAlert old new s).ka = s.ka := by unfold noteAlert; split <;> rfl
@[simp] theorem noteAlert_pins (old new : RecState) (s : State) : (noteAlert old new s).pins = s.pins := by unfold noteAlert; split <;> rfl
@[simp] theorem noteAlert_pws (old new : RecState) (s : State) : (noteAlert old new s).pws = s.pws := by unfold noteAlert; split <;> rfl
@[simp] theorem noteAlert_tdm (old new : RecState) (s : State) : (noteAlert old new s).tdm = s.tdm := by unfold noteAlert; split <;> rfl
@[simp] theorem noteAlert_fab (old new : RecState) (s : State) : (noteAlert old new s).fab = s.fab := by unfold noteAlert; split <;> rfl
@[simp] theorem noteAlert_wave (old new : RecState) (s : State) : (noteAlert old new s).wave = s.wave := by unfold noteAlert; split <;> rfl
@[simp] theorem noteAlert_rdg (old new : RecState) (s : State) : (noteAlert old new s).rdg = s.rdg := by unfold noteAlert; split <;> rfl
@[simp] theorem noteAlert_crn (old new : RecState) (s : State) : (noteAlert old new s).crn = s.crn := by unfold noteAlert; split <;> rfl
@[simp] theorem noteAlert_mtx (old new : RecState) (s : State) : (noteAlert old new s).mtx = s.mtx := by unfold noteAlert; split <;> rfl
@[simp] theorem noteAlert_col (old new : RecState) (s : State) : (noteAlert old new s).col = s.col := by unfold noteAlert; split <;> rfl
@[simp] theorem noteAlert_dma (old new : RecState) (s : State) : (noteAlert old new s).dma = s.dma := by unfold noteAlert; split <;> rfl
@[simp] theorem noteAlert_net (old new : RecState) (s : State) : (noteAlert old new s).net = s.net := by unfold noteAlert; split <;> rfl
@[simp] theorem noteAlert_ptp (old new : RecState) (s : State) : (noteAlert old new s).ptp = s.ptp := by unfold noteAlert; split <;> rfl
@[simp] theorem noteAlert_stm (old new : RecState) (s : State) : (noteAlert old new s).stm = s.stm := by unfold noteAlert; split <;> rfl
@[simp] theorem noteAlert_red (old new : RecState) (s : State) : (noteAlert old new s).red = s.red := by unfold noteAlert; split <;> rfl
@[simp] theorem noteAlert_mem (old new : RecState) (s : State) : (noteAlert old new s).mem = s.mem := by unfold noteAlert; split <;> rfl
@[simp] theorem noteAlert_fresh (old new : RecState) (s : State) : (noteAlert old new s).fresh = s.fresh := by unfold noteAlert; split <;> rfl
@[simp] theorem noteAlert_pending (old new : RecState) (s : State) : (noteAlert old new s).pending = s.pending := by unfold noteAlert; split <;> rfl

@[simp] theorem recordFault_pst (src : Nat) (inst : Half) (s : State) : (recordFault src inst s).pst = s.pst := by simp only [recordFault]; split <;> simp [apply_ite]
@[simp] theorem recordFault_sys (src : Nat) (inst : Half) (s : State) : (recordFault src inst s).sys = s.sys := by simp only [recordFault]; split <;> simp [apply_ite]
@[simp] theorem recordFault_own (src : Nat) (inst : Half) (s : State) : (recordFault src inst s).own = s.own := by simp only [recordFault]; split <;> simp [apply_ite]
@[simp] theorem recordFault_sec (src : Nat) (inst : Half) (s : State) : (recordFault src inst s).sec = s.sec := by simp only [recordFault]; split <;> simp [apply_ite]
@[simp] theorem recordFault_flash (src : Nat) (inst : Half) (s : State) : (recordFault src inst s).flash = s.flash := by simp only [recordFault]; split <;> simp [apply_ite]
@[simp] theorem recordFault_ka (src : Nat) (inst : Half) (s : State) : (recordFault src inst s).ka = s.ka := by simp only [recordFault]; split <;> simp [apply_ite]
@[simp] theorem recordFault_pins (src : Nat) (inst : Half) (s : State) : (recordFault src inst s).pins = s.pins := by simp only [recordFault]; split <;> simp [apply_ite]
@[simp] theorem recordFault_pws (src : Nat) (inst : Half) (s : State) : (recordFault src inst s).pws = s.pws := by simp only [recordFault]; split <;> simp [apply_ite]
@[simp] theorem recordFault_fab (src : Nat) (inst : Half) (s : State) : (recordFault src inst s).fab = s.fab := by simp only [recordFault]; split <;> simp [apply_ite]
@[simp] theorem recordFault_wave (src : Nat) (inst : Half) (s : State) : (recordFault src inst s).wave = s.wave := by simp only [recordFault]; split <;> simp [apply_ite]
@[simp] theorem recordFault_rdg (src : Nat) (inst : Half) (s : State) : (recordFault src inst s).rdg = s.rdg := by simp only [recordFault]; split <;> simp [apply_ite]
@[simp] theorem recordFault_crn (src : Nat) (inst : Half) (s : State) : (recordFault src inst s).crn = s.crn := by simp only [recordFault]; split <;> simp [apply_ite]
@[simp] theorem recordFault_mtx (src : Nat) (inst : Half) (s : State) : (recordFault src inst s).mtx = s.mtx := by simp only [recordFault]; split <;> simp [apply_ite]
@[simp] theorem recordFault_col (src : Nat) (inst : Half) (s : State) : (recordFault src inst s).col = s.col := by simp only [recordFault]; split <;> simp [apply_ite]
@[simp] theorem recordFault_dma (src : Nat) (inst : Half) (s : State) : (recordFault src inst s).dma = s.dma := by simp only [recordFault]; split <;> simp [apply_ite]
@[simp] theorem recordFault_ptp (src : Nat) (inst : Half) (s : State) : (recordFault src inst s).ptp = s.ptp := by simp only [recordFault]; split <;> simp [apply_ite]
@[simp] theorem recordFault_stm (src : Nat) (inst : Half) (s : State) : (recordFault src inst s).stm = s.stm := by simp only [recordFault]; split <;> simp [apply_ite]
@[simp] theorem recordFault_mem (src : Nat) (inst : Half) (s : State) : (recordFault src inst s).mem = s.mem := by simp only [recordFault]; split <;> simp [apply_ite]
@[simp] theorem recordFault_fresh (src : Nat) (inst : Half) (s : State) : (recordFault src inst s).fresh = s.fresh := by simp only [recordFault]; split <;> simp [apply_ite]
@[simp] theorem recordFault_pending (src : Nat) (inst : Half) (s : State) : (recordFault src inst s).pending = s.pending := by simp only [recordFault]; split <;> simp [apply_ite]

@[simp] theorem reportFault_pst (src : Nat) (inst : Half) (s : State) : (reportFault src inst s).pst = s.pst := by simp only [reportFault]; split <;> simp
@[simp] theorem reportFault_sys (src : Nat) (inst : Half) (s : State) : (reportFault src inst s).sys = s.sys := by simp only [reportFault]; split <;> simp
@[simp] theorem reportFault_own (src : Nat) (inst : Half) (s : State) : (reportFault src inst s).own = s.own := by simp only [reportFault]; split <;> simp
@[simp] theorem reportFault_sec (src : Nat) (inst : Half) (s : State) : (reportFault src inst s).sec = s.sec := by simp only [reportFault]; split <;> simp
@[simp] theorem reportFault_flash (src : Nat) (inst : Half) (s : State) : (reportFault src inst s).flash = s.flash := by simp only [reportFault]; split <;> simp
@[simp] theorem reportFault_ka (src : Nat) (inst : Half) (s : State) : (reportFault src inst s).ka = s.ka := by simp only [reportFault]; split <;> simp
@[simp] theorem reportFault_pins (src : Nat) (inst : Half) (s : State) : (reportFault src inst s).pins = s.pins := by simp only [reportFault]; split <;> simp
@[simp] theorem reportFault_pws (src : Nat) (inst : Half) (s : State) : (reportFault src inst s).pws = s.pws := by simp only [reportFault]; split <;> simp
@[simp] theorem reportFault_fab (src : Nat) (inst : Half) (s : State) : (reportFault src inst s).fab = s.fab := by simp only [reportFault]; split <;> simp
@[simp] theorem reportFault_wave (src : Nat) (inst : Half) (s : State) : (reportFault src inst s).wave = s.wave := by simp only [reportFault]; split <;> simp
@[simp] theorem reportFault_rdg (src : Nat) (inst : Half) (s : State) : (reportFault src inst s).rdg = s.rdg := by simp only [reportFault]; split <;> simp
@[simp] theorem reportFault_crn (src : Nat) (inst : Half) (s : State) : (reportFault src inst s).crn = s.crn := by simp only [reportFault]; split <;> simp
@[simp] theorem reportFault_mtx (src : Nat) (inst : Half) (s : State) : (reportFault src inst s).mtx = s.mtx := by simp only [reportFault]; split <;> simp
@[simp] theorem reportFault_col (src : Nat) (inst : Half) (s : State) : (reportFault src inst s).col = s.col := by simp only [reportFault]; split <;> simp
@[simp] theorem reportFault_dma (src : Nat) (inst : Half) (s : State) : (reportFault src inst s).dma = s.dma := by simp only [reportFault]; split <;> simp
@[simp] theorem reportFault_ptp (src : Nat) (inst : Half) (s : State) : (reportFault src inst s).ptp = s.ptp := by simp only [reportFault]; split <;> simp
@[simp] theorem reportFault_stm (src : Nat) (inst : Half) (s : State) : (reportFault src inst s).stm = s.stm := by simp only [reportFault]; split <;> simp
@[simp] theorem reportFault_mem (src : Nat) (inst : Half) (s : State) : (reportFault src inst s).mem = s.mem := by simp only [reportFault]; split <;> simp
@[simp] theorem reportFault_fresh (src : Nat) (inst : Half) (s : State) : (reportFault src inst s).fresh = s.fresh := by simp only [reportFault]; split <;> simp
@[simp] theorem reportFault_pending (src : Nat) (inst : Half) (s : State) : (reportFault src inst s).pending = s.pending := by simp only [reportFault]; split <;> simp

@[simp] theorem reportOwn_pst (src : Nat) (s : State) : (reportOwn src s).pst = s.pst := by simp [reportOwn]
@[simp] theorem reportOwn_sys (src : Nat) (s : State) : (reportOwn src s).sys = s.sys := by simp [reportOwn]
@[simp] theorem reportOwn_own (src : Nat) (s : State) : (reportOwn src s).own = s.own := by simp [reportOwn]
@[simp] theorem reportOwn_sec (src : Nat) (s : State) : (reportOwn src s).sec = s.sec := by simp [reportOwn]
@[simp] theorem reportOwn_flash (src : Nat) (s : State) : (reportOwn src s).flash = s.flash := by simp [reportOwn]
@[simp] theorem reportOwn_ka (src : Nat) (s : State) : (reportOwn src s).ka = s.ka := by simp [reportOwn]
@[simp] theorem reportOwn_pins (src : Nat) (s : State) : (reportOwn src s).pins = s.pins := by simp [reportOwn]
@[simp] theorem reportOwn_pws (src : Nat) (s : State) : (reportOwn src s).pws = s.pws := by simp [reportOwn]
@[simp] theorem reportOwn_fab (src : Nat) (s : State) : (reportOwn src s).fab = s.fab := by simp [reportOwn]
@[simp] theorem reportOwn_wave (src : Nat) (s : State) : (reportOwn src s).wave = s.wave := by simp [reportOwn]
@[simp] theorem reportOwn_rdg (src : Nat) (s : State) : (reportOwn src s).rdg = s.rdg := by simp [reportOwn]
@[simp] theorem reportOwn_crn (src : Nat) (s : State) : (reportOwn src s).crn = s.crn := by simp [reportOwn]
@[simp] theorem reportOwn_mtx (src : Nat) (s : State) : (reportOwn src s).mtx = s.mtx := by simp [reportOwn]
@[simp] theorem reportOwn_col (src : Nat) (s : State) : (reportOwn src s).col = s.col := by simp [reportOwn]
@[simp] theorem reportOwn_dma (src : Nat) (s : State) : (reportOwn src s).dma = s.dma := by simp [reportOwn]
@[simp] theorem reportOwn_ptp (src : Nat) (s : State) : (reportOwn src s).ptp = s.ptp := by simp [reportOwn]
@[simp] theorem reportOwn_stm (src : Nat) (s : State) : (reportOwn src s).stm = s.stm := by simp [reportOwn]
@[simp] theorem reportOwn_mem (src : Nat) (s : State) : (reportOwn src s).mem = s.mem := by simp [reportOwn]
@[simp] theorem reportOwn_fresh (src : Nat) (s : State) : (reportOwn src s).fresh = s.fresh := by simp [reportOwn]
@[simp] theorem reportOwn_pending (src : Nat) (s : State) : (reportOwn src s).pending = s.pending := by simp [reportOwn]

@[simp] theorem reportAll_pst (srcs : List Nat) (s : State) : (reportAll srcs s).pst = s.pst := by
  unfold reportAll
  induction srcs generalizing s with
  | nil => rfl
  | cons a t ih => simp only [List.foldl_cons]; rw [ih]; simp

@[simp] theorem reportAll_sys (srcs : List Nat) (s : State) : (reportAll srcs s).sys = s.sys := by
  unfold reportAll
  induction srcs generalizing s with
  | nil => rfl
  | cons a t ih => simp only [List.foldl_cons]; rw [ih]; simp

@[simp] theorem reportAll_own (srcs : List Nat) (s : State) : (reportAll srcs s).own = s.own := by
  unfold reportAll
  induction srcs generalizing s with
  | nil => rfl
  | cons a t ih => simp only [List.foldl_cons]; rw [ih]; simp

@[simp] theorem reportAll_sec (srcs : List Nat) (s : State) : (reportAll srcs s).sec = s.sec := by
  unfold reportAll
  induction srcs generalizing s with
  | nil => rfl
  | cons a t ih => simp only [List.foldl_cons]; rw [ih]; simp

@[simp] theorem reportAll_flash (srcs : List Nat) (s : State) : (reportAll srcs s).flash = s.flash := by
  unfold reportAll
  induction srcs generalizing s with
  | nil => rfl
  | cons a t ih => simp only [List.foldl_cons]; rw [ih]; simp

@[simp] theorem reportAll_ka (srcs : List Nat) (s : State) : (reportAll srcs s).ka = s.ka := by
  unfold reportAll
  induction srcs generalizing s with
  | nil => rfl
  | cons a t ih => simp only [List.foldl_cons]; rw [ih]; simp

@[simp] theorem reportAll_pins (srcs : List Nat) (s : State) : (reportAll srcs s).pins = s.pins := by
  unfold reportAll
  induction srcs generalizing s with
  | nil => rfl
  | cons a t ih => simp only [List.foldl_cons]; rw [ih]; simp

@[simp] theorem reportAll_pws (srcs : List Nat) (s : State) : (reportAll srcs s).pws = s.pws := by
  unfold reportAll
  induction srcs generalizing s with
  | nil => rfl
  | cons a t ih => simp only [List.foldl_cons]; rw [ih]; simp

@[simp] theorem reportAll_fab (srcs : List Nat) (s : State) : (reportAll srcs s).fab = s.fab := by
  unfold reportAll
  induction srcs generalizing s with
  | nil => rfl
  | cons a t ih => simp only [List.foldl_cons]; rw [ih]; simp

@[simp] theorem reportAll_wave (srcs : List Nat) (s : State) : (reportAll srcs s).wave = s.wave := by
  unfold reportAll
  induction srcs generalizing s with
  | nil => rfl
  | cons a t ih => simp only [List.foldl_cons]; rw [ih]; simp

@[simp] theorem reportAll_rdg (srcs : List Nat) (s : State) : (reportAll srcs s).rdg = s.rdg := by
  unfold reportAll
  induction srcs generalizing s with
  | nil => rfl
  | cons a t ih => simp only [List.foldl_cons]; rw [ih]; simp

@[simp] theorem reportAll_crn (srcs : List Nat) (s : State) : (reportAll srcs s).crn = s.crn := by
  unfold reportAll
  induction srcs generalizing s with
  | nil => rfl
  | cons a t ih => simp only [List.foldl_cons]; rw [ih]; simp

@[simp] theorem reportAll_mtx (srcs : List Nat) (s : State) : (reportAll srcs s).mtx = s.mtx := by
  unfold reportAll
  induction srcs generalizing s with
  | nil => rfl
  | cons a t ih => simp only [List.foldl_cons]; rw [ih]; simp

@[simp] theorem reportAll_col (srcs : List Nat) (s : State) : (reportAll srcs s).col = s.col := by
  unfold reportAll
  induction srcs generalizing s with
  | nil => rfl
  | cons a t ih => simp only [List.foldl_cons]; rw [ih]; simp

@[simp] theorem reportAll_dma (srcs : List Nat) (s : State) : (reportAll srcs s).dma = s.dma := by
  unfold reportAll
  induction srcs generalizing s with
  | nil => rfl
  | cons a t ih => simp only [List.foldl_cons]; rw [ih]; simp

@[simp] theorem reportAll_ptp (srcs : List Nat) (s : State) : (reportAll srcs s).ptp = s.ptp := by
  unfold reportAll
  induction srcs generalizing s with
  | nil => rfl
  | cons a t ih => simp only [List.foldl_cons]; rw [ih]; simp

@[simp] theorem reportAll_stm (srcs : List Nat) (s : State) : (reportAll srcs s).stm = s.stm := by
  unfold reportAll
  induction srcs generalizing s with
  | nil => rfl
  | cons a t ih => simp only [List.foldl_cons]; rw [ih]; simp

@[simp] theorem reportAll_mem (srcs : List Nat) (s : State) : (reportAll srcs s).mem = s.mem := by
  unfold reportAll
  induction srcs generalizing s with
  | nil => rfl
  | cons a t ih => simp only [List.foldl_cons]; rw [ih]; simp

@[simp] theorem reportAll_fresh (srcs : List Nat) (s : State) : (reportAll srcs s).fresh = s.fresh := by
  unfold reportAll
  induction srcs generalizing s with
  | nil => rfl
  | cons a t ih => simp only [List.foldl_cons]; rw [ih]; simp

@[simp] theorem reportAll_pending (srcs : List Nat) (s : State) : (reportAll srcs s).pending = s.pending := by
  unfold reportAll
  induction srcs generalizing s with
  | nil => rfl
  | cons a t ih => simp only [List.foldl_cons]; rw [ih]; simp

end Sys2Proof.Machine
end

