-- ==== Sys2Proof/Laws/Kept.lean ====
section
/-! SUPPORT. What every operation of the model keeps: the queue, the invariant, and what the fuses and the lock bits hold. -/

namespace Sys2Proof.Machine

/-- `t` follows `s` in the model: the queue is the same, the invariant is kept, no fuse is undone, no lock bit is cleared and
the fail-silent state is not left but by a reset (`r`), and no part but those of `c` is another. -/
structure Kept (r : Bool) (c : List Part) (s t : State) : Prop where
  pending : t.pending = s.pending
  inv : Inv s → Inv t
  otp : Otp.Grown s.sec.otp t.sec.otp
  lock : r = false → s.sys.lock ||| t.sys.lock = t.sys.lock ∧ (s.lkt.failSilent = true → t.lkt.failSilent = true)
  parts : ∀ p, p ∈ c ∨ p.same s t

/-- The parts of `a` are among those of `c`. -/
def Sub (a c : List Part) : Prop := ∀ p ∈ a, p ∈ c

theorem Sub.of {a b c : List Part} (h : Sub b c) (e : (a.all fun p => b.contains p) = true) : Sub a c := fun p hp =>
  h p (by simpa using List.all_eq_true.1 e p hp)

theorem Part.same_refl (s : State) (p : Part) : p.same s s := by cases p <;> rfl

theorem Part.same_trans {s t u : State} {p : Part} (h : p.same s t) (k : p.same t u) : p.same s u := by
  cases p <;> exact Eq.trans k h

theorem Otp.Grown.refl (a : Otp) : Otp.Grown a a :=
  ⟨fun _ h => ⟨h, rfl⟩, fun _ h => ⟨h, rfl⟩, fun _ h => ⟨h, rfl⟩, fun _ h => h, fun _ h => h, fun _ h => h, Nat.le_refl _,
    id, rfl⟩

theorem Otp.Grown.trans {a b c : Otp} (h : Otp.Grown a b) (k : Otp.Grown b c) : Otp.Grown a c :=
  ⟨fun i x => ⟨(k.part i (h.part i x).1).1, ((k.part i (h.part i x).1).2).trans (h.part i x).2⟩,
    fun i x => ⟨(k.pair i (h.pair i x).1).1, ((k.pair i (h.pair i x).1).2).trans (h.pair i x).2⟩,
    fun i x => ⟨(k.img i (h.img i x).1).1, ((k.img i (h.img i x).1).2).trans (h.img i x).2⟩,
    fun i x => k.partRevoked i (h.partRevoked i x), fun i x => k.pairRevoked i (h.pairRevoked i x),
    fun i x => k.imgRevoked i (h.imgRevoked i x), Nat.le_trans h.floor k.floor, fun x => k.debug (h.debug x),
    k.device.trans h.device⟩

theorem Kept.refl (r : Bool) (c : List Part) (s : State) : Kept r c s s :=
  ⟨rfl, id, Otp.Grown.refl _, fun _ => ⟨BitVec.or_self, id⟩, fun p => .inr (p.same_refl s)⟩

theorem Kept.trans {r : Bool} {c : List Part} {s t u : State} (h : Kept r c s t) (k : Kept r c t u) : Kept r c s u :=
  ⟨k.pending.trans h.pending, fun i => k.inv (h.inv i), h.otp.trans k.otp, fun e =>
    ⟨by rw [← (k.lock e).1, ← (h.lock e).1, BitVec.or_assoc, ← BitVec.or_assoc, BitVec.or_self],
      fun x => (k.lock e).2 ((h.lock e).2 x)⟩, fun p =>
    (h.parts p).elim .inl fun hp => (k.parts p).imp_right (Part.same_trans hp)⟩

/-- The bytes of `n` have the canonical form where those of `m` do. -/
structure MemTo (m n : Mem) : Prop where
  tarn : Memory.wf m.tarn = true → Memory.wf n.tarn = true
  dram : Memory.wf m.dram = true → Memory.wf n.dram = true

theorem MemTo.refl (m : Mem) : MemTo m m := ⟨id, id⟩

theorem MemTo.same {l m : Mem} (h : MemTo l m) {bs cs : List Nat} : MemTo l (Mem.mk m.tarn m.dram bs cs) :=
  ⟨h.tarn, h.dram⟩

theorem MemTo.writeTarn {l m : Mem} (h : MemTo l m) {a : Nat} {bs : List Byte} : MemTo l (m.writeTarn a bs) :=
  ⟨fun e => Memory.wf_writeBytes _ _ _ (h.tarn e), h.dram⟩

theorem MemTo.writeDram {l m : Mem} (h : MemTo l m) {a : Nat} {bs : List Byte} : MemTo l (m.writeDram a bs) :=
  ⟨h.tarn, fun e => Memory.wf_writeBytes _ _ _ (h.dram e)⟩

theorem MemTo.putWord {l m : Mem} (h : MemTo l m) {a : Nat} {w : Word} : MemTo l (m.putWord a w) := h.writeTarn

theorem MemTo.markBad {l m : Mem} (h : MemTo l m) {w : Nat} : MemTo l (m.markBad w) := ⟨h.tarn, h.dram⟩

/-- A state that differs from `t` in the parts of `a` only, where the relation looks at more than the part. -/
theorem Kept.same {r : Bool} {a c : List Part} {s t u : State} (hw : Sub a c) (h : Kept r c s t)
    (hs : ∀ p, p ∈ a ∨ p.same t u) (hp : u.pending = t.pending) (hm : MemTo t.mem u.mem)
    (hc : u.cmds.map PartCmd.session = t.cmds.map PartCmd.session) (hr : u.pst.refs.length = t.pst.refs.length)
    (hn : u.net.ports.length = t.net.ports.length) (ht : u.tw.ctl.length = t.tw.ctl.length)
    (hl : (u.sys.lock, u.lkt.failSilent) = (t.sys.lock, t.lkt.failSilent)) (ho : Otp.Grown t.sec.otp u.sec.otp) :
    Kept r c s u := by
  obtain ⟨hl, hf⟩ := Prod.mk.inj hl
  refine h.trans ⟨hp, fun i => ?_, ho, fun _ => ⟨by rw [hl]; exact BitVec.or_self, fun x => hf.trans x⟩, fun p => (hs p).imp_left (hw p)⟩
  have hlen : u.cmds.length = t.cmds.length := by simpa using congrArg List.length hc
  refine ⟨hm.tarn i.tarn, hm.dram i.dram, hlen.trans i.parts, fun d hd e => ?_, hr.trans i.refs, hn.trans i.ports,
    ht.trans i.ctl, hl ▸ i.locks⟩
  have h0 : (0 : Word) ∈ t.cmds.map PartCmd.session := hc ▸ List.mem_map.2 ⟨d, hd, e⟩
  obtain ⟨x, hx, he⟩ := List.mem_map.1 h0
  exact i.sessions x hx he

/-- The state `u` with the parts that are not of `a` taken from `t`. -/
def State.over (a : List Part) (t u : State) : State where
  lkt := bif a.contains .lkt then u.lkt else t.lkt
  pst := bif a.contains .pst then u.pst else t.pst
  sys := bif a.contains .sys then u.sys else t.sys
  cmds := bif a.contains .cmds then u.cmds else t.cmds
  own := bif a.contains .own then u.own else t.own
  sec := bif a.contains .sec then u.sec else t.sec
  flash := bif a.contains .flash then u.flash else t.flash
  boot := bif a.contains .boot then u.boot else t.boot
  ka := bif a.contains .ka then u.ka else t.ka
  pins := bif a.contains .pins then u.pins else t.pins
  pws := bif a.contains .pws then u.pws else t.pws
  tdm := bif a.contains .tdm then u.tdm else t.tdm
  fab := bif a.contains .fab then u.fab else t.fab
  wave := bif a.contains .wave then u.wave else t.wave
  rdg := bif a.contains .rdg then u.rdg else t.rdg
  crn := bif a.contains .crn then u.crn else t.crn
  mtx := bif a.contains .mtx then u.mtx else t.mtx
  col := bif a.contains .col then u.col else t.col
  dma := bif a.contains .dma then u.dma else t.dma
  net := bif a.contains .net then u.net else t.net
  ptp := bif a.contains .ptp then u.ptp else t.ptp
  stm := bif a.contains .stm then u.stm else t.stm
  red := bif a.contains .red then u.red else t.red
  tw := bif a.contains .tw then u.tw else t.tw
  mem := bif a.contains .mem then u.mem else t.mem
  fresh := bif a.contains .fresh then u.fresh else t.fresh
  pending := t.pending

theorem Part.same_over {a : List Part} {t u : State} (e : t.over a u = u) (p : Part) : p ∈ a ∨ p.same t u := by
  by_cases h : p ∈ a
  · exact .inl h
  · refine .inr ?_
    rw [← e]
    cases p <;> simp [Part.same, State.over, h]

/-- The same where all that is the same by definition. -/
theorem Kept.view {r : Bool} {a c : List Part} {s t u : State} (hw : Sub a c) (h : Kept r c s t)
    (e : (t.over a u, u.mem.tarn, u.mem.dram, u.cmds.map PartCmd.session, u.pst.refs.length, u.net.ports.length,
      u.tw.ctl.length, (u.sys.lock, u.lkt.failSilent), u.sec.otp) =
      (u, t.mem.tarn, t.mem.dram, t.cmds.map PartCmd.session, t.pst.refs.length, t.net.ports.length,
      t.tw.ctl.length, (t.sys.lock, t.lkt.failSilent), t.sec.otp)) : Kept r c s u := by
  obtain ⟨e1, e⟩ := Prod.mk.inj e
  obtain ⟨e2, e⟩ := Prod.mk.inj e
  obtain ⟨e3, e⟩ := Prod.mk.inj e
  obtain ⟨e4, e⟩ := Prod.mk.inj e
  obtain ⟨e5, e⟩ := Prod.mk.inj e
  obtain ⟨e6, e⟩ := Prod.mk.inj e
  obtain ⟨e7, e⟩ := Prod.mk.inj e
  obtain ⟨e8, e9⟩ := Prod.mk.inj e
  exact h.same hw (Part.same_over e1) (e1 ▸ rfl) ⟨fun x => e2 ▸ x, fun x => e3 ▸ x⟩ e4 e5 e6 e7 e8
    (e9 ▸ Otp.Grown.refl _)

/-- The relation to a state that is written out part by part. -/
def KeptTo (r : Bool) (c : List Part) (s : State)
    (lkt : Lkt) (pst : Pst) (sys : Sys) (cmds : List PartCmd) (own : Own) (sec : Sec) (flash : Flash) (boot : Boot) (ka
    : Ka) (pins : Pins) (pws : Pws) (tdm : Tdm) (fab : Fab) (wave : Wave) (rdg : Rdg) (crn : Crn) (mtx : Mtx) (col :
    Col) (dma : Dma) (net : Net) (ptp : Ptp) (stm : Stm) (red : Red) (tw : Tw) (mem : Mem) (fresh : Nat) (pending :
    List Instr) : Prop :=
  Kept r c s (State.mk lkt pst sys cmds own sec flash boot ka pins pws tdm fab wave rdg crn mtx col dma net ptp stm red tw mem
    fresh pending)

theorem keptTo (r : Bool) (c : List Part) (s : State)
    (lkt : Lkt) (pst : Pst) (sys : Sys) (cmds : List PartCmd) (own : Own) (sec : Sec) (flash : Flash) (boot : Boot) (ka
    : Ka) (pins : Pins) (pws : Pws) (tdm : Tdm) (fab : Fab) (wave : Wave) (rdg : Rdg) (crn : Crn) (mtx : Mtx) (col :
    Col) (dma : Dma) (net : Net) (ptp : Ptp) (stm : Stm) (red : Red) (tw : Tw) (mem : Mem) (fresh : Nat) (pending :
    List Instr) :
    Kept r c s (State.mk lkt pst sys cmds own sec flash boot ka pins pws tdm fab wave rdg crn mtx col dma net ptp stm red tw mem
    fresh pending) =
      KeptTo r c s lkt pst sys cmds own sec flash boot ka pins pws tdm fab wave rdg crn mtx col dma net ptp stm red tw mem
        fresh pending := rfl

/-- `t` is the state whose queue the written-out state has. -/
theorem KeptTo.intro {r : Bool} {a c : List Part} {s t : State} {lkt pst sys cmds own sec flash boot ka pins pws tdm fab wave rdg crn mtx col dma net ptp stm red tw mem fresh} (hw : Sub a c) (h : Kept r c s t)
    (hs : ∀ p, p ∈ a ∨ p.same t (State.mk lkt pst sys cmds own sec flash boot ka pins pws tdm fab wave rdg crn mtx col dma net ptp stm red tw mem
    fresh t.pending))
    (hm : MemTo t.mem mem)
    (hc : cmds.map PartCmd.session = t.cmds.map PartCmd.session) (hr : pst.refs.length = t.pst.refs.length)
    (hn : net.ports.length = t.net.ports.length) (ht : tw.ctl.length = t.tw.ctl.length)
    (hl : (sys.lock, lkt.failSilent) = (t.sys.lock, t.lkt.failSilent)) (ho : Otp.Grown t.sec.otp sec.otp) :
    KeptTo r c s lkt pst sys cmds own sec flash boot ka pins pws tdm fab wave rdg crn mtx col dma net ptp stm red tw mem
    fresh t.pending :=
  h.same hw hs rfl hm hc hr hn ht hl ho

/-- The same where all that is the same by definition. -/
theorem KeptTo.view {r : Bool} {a c : List Part} {s t : State} {lkt pst sys cmds own sec flash boot ka pins pws tdm fab wave rdg
    crn mtx col dma net ptp stm red tw mem fresh} (hw : Sub a c) (h : Kept r c s t)
    (e : (t.over a (State.mk lkt pst sys cmds own sec flash boot ka pins pws tdm fab wave rdg crn mtx col dma net ptp stm red tw mem
      fresh t.pending), mem.tarn, mem.dram, cmds.map PartCmd.session, pst.refs.length, net.ports.length,
      tw.ctl.length, (sys.lock, lkt.failSilent), sec.otp) =
      (State.mk lkt pst sys cmds own sec flash boot ka pins pws tdm fab wave rdg crn mtx col dma net ptp stm red tw mem
      fresh t.pending, t.mem.tarn, t.mem.dram, t.cmds.map PartCmd.session, t.pst.refs.length,
      t.net.ports.length, t.tw.ctl.length, (t.sys.lock, t.lkt.failSilent), t.sec.otp)) :
    KeptTo r c s lkt pst sys cmds own sec flash boot ka pins pws tdm fab wave rdg crn mtx col dma net ptp stm red tw mem
      fresh t.pending :=
  Kept.view hw h e

theorem Kept.ite {r : Bool} {c : List Part} {s t u : State} {b : Prop} [Decidable b] (h : Kept r c s t) (k : Kept r c s u) :
    Kept r c s (if b then t else u) := by split <;> assumption

theorem Kept.ite_fst {r : Bool} {c : List Part} {s : State} {α : Type} {t u : State × α} {b : Prop} [Decidable b] (h : Kept r c s t.1)
    (k : Kept r c s u.1) : Kept r c s (if b then t else u).1 := by split <;> assumption

theorem Kept.foldl {r : Bool} {c : List Part} {s : State} {α : Type} (f : State → α → State) (l : List α)
    (hf : ∀ t a, Kept r c s t → Kept r c s (f t a)) {t : State} (h : Kept r c s t) : Kept r c s (l.foldl f t) := by
  induction l generalizing t with
  | nil => exact h
  | cons a l ih => exact ih (hf t a h)

theorem Kept.repeat {r : Bool} {c : List Part} {s : State} (f : State → State) (n : Nat) (hf : ∀ t, Kept r c s t → Kept r c s (f t))
    {t : State} (h : Kept r c s t) : Kept r c s (Nat.repeat f n t) := by
  induction n with
  | zero => exact h
  | succ n ih => exact hf _ ih

/-- The same for a fold that carries something else along. -/
theorem Kept.foldl_fst {r : Bool} {c : List Part} {s : State} {α β : Type} (f : State × β → α → State × β) (l : List α)
    (hf : ∀ t a, Kept r c s t.1 → Kept r c s (f t a).1) {t : State × β} (h : Kept r c s t.1) : Kept r c s (l.foldl f t).1 := by
  induction l generalizing t with
  | nil => exact h
  | cons a l ih => exact ih (hf t a h)

end Sys2Proof.Machine
end

