-- ==== Sys2Proof/Laws/Kept/Ops.lean ====
section
/-! SUPPORT. What the operations of Machine/Ops.lean keep. -/

namespace Sys2Proof.Machine

theorem whenUp_kept {r : Bool} {χ : List Part} {s0 s t : State} (h : Kept r χ s0 s) (k : Kept r χ s0 t) : Kept r χ s0 (whenUp s t) := by
  unfold whenUp; exact Kept.ite h k

theorem draw_kept {ρ : Bool} {χ : List Part} {σ s : State} (hw : Sub [.fresh] χ) (hk : Kept ρ χ σ s) :
    Kept ρ χ σ (draw s).2 := by
  exact .view hw hk rfl

theorem draw_kept_eq {ρ : Bool} {χ : List Part} {σ s : State} {tt : State} {aa : Word} (hw : Sub [.fresh] χ) (hk : Kept ρ χ σ s) (he : (draw s) = (aa, tt)) :
    Kept ρ χ σ tt := by
  have := draw_kept  hw hk; rw [he] at this; exact this

theorem drawN_kept {ρ : Bool} {χ : List Part} {σ s : State} {n : Nat} (hw : Sub [.fresh] χ) (hk : Kept ρ χ σ s) :
    Kept ρ χ σ (drawN s n).2 := by
  exact .view hw hk rfl

/-- A partition's command state keeps its session. -/
theorem State.setPart_kept {r : Bool} {χ : List Part} {s0 s : State} {p : Nat} {c : PartCmd} (hw : Sub [.cmds] χ) (h : Kept r χ s0 s)
    (hc : c.session = (s.part p).session) : Kept r χ s0 (s.setPart p c) := by
  refine h.same hw (fun p => by cases p <;> dsimp only [Part.same] <;> first | exact .inl (by decide) | exact .inr (by with_reducible rfl) | exact .inr rfl) rfl (MemTo.refl _) ?_ rfl rfl rfl rfl (Otp.Grown.refl _)
  apply List.ext_getElem
  · simp [State.setPart]
  · intro i h1 h2
    simp only [State.setPart, List.map_set, List.getElem_set, List.getElem_map]
    split
    · rename_i e; subst e
      have hi : p < s.cmds.length := by simpa using h2
      rw [hc]; simp [State.part, List.getD, List.getElem?_eq_getElem hi]
    · rfl

theorem State.setRecord_kept {ρ : Bool} {χ : List Part} {σ s : State} {g : Nat} {r : Record} (hw : Sub [.lkt] χ) (hk : Kept ρ χ σ s) :
    Kept ρ χ σ (State.setRecord s g r) := .view hw hk rfl

theorem State.setPort_kept {ρ : Bool} {χ : List Part} {σ s : State} {n : Nat} {p : Port} (hw : Sub [.tdm] χ) (hk : Kept ρ χ σ s) :
    Kept ρ χ σ (State.setPort s n p) := .view hw hk rfl

theorem State.setGroup_kept {ρ : Bool} {χ : List Part} {σ s : State} {g : Nat} {x : Group} (hw : Sub [.tdm] χ) (hk : Kept ρ χ σ s) :
    Kept ρ χ σ (State.setGroup s g x) := .view hw hk rfl

theorem State.setPwsCh_kept {ρ : Bool} {χ : List Part} {σ s : State} {c : Nat} {x : PwsCh} (hw : Sub [.pws] χ) (hk : Kept ρ χ σ s) :
    Kept ρ χ σ (State.setPwsCh s c x) := .view hw hk rfl

theorem State.setShadow_kept {ρ : Bool} {χ : List Part} {σ s : State} {q : Nat} {x : Shadow} (hw : Sub [.sys] χ) (hk : Kept ρ χ σ s) :
    Kept ρ χ σ (State.setShadow s q x) := .view hw hk rfl

theorem fadeAllTx_kept {ρ : Bool} {χ : List Part} {σ s : State} (hw : Sub [.tdm] χ) (hk : Kept ρ χ σ s) :
    Kept ρ χ σ (fadeAllTx s) := .view hw hk rfl

theorem openAllTx_kept {ρ : Bool} {χ : List Part} {σ s : State} (hw : Sub [.tdm] χ) (hk : Kept ρ χ σ s) :
    Kept ρ χ σ (openAllTx s) := .view hw hk rfl

end Sys2Proof.Machine
end

