-- ==== Sys2Proof/Laws/Kept/Faults.lean ====
section
/-! SUPPORT. What the operations of Machine/Faults.lean keep. -/

namespace Sys2Proof.Machine

theorem domainReset_kept {ρ : Bool} {χ : List Part} {σ s : State} (hw : Sub [.lkt, .cmds, .boot, .net] χ) (hk : Kept ρ χ σ s) :
    Kept ρ χ σ (domainReset s) := by
  unfold domainReset
  repeat' (first
    | with_reducible assumption | (simp only [keptTo]; with_reducible apply KeptTo.intro hw)
    | (show ∀ p : Part, _; intro p; cases p <;> dsimp only [Part.same] <;> first | exact .inl (by decide) | exact .inr (by with_reducible rfl) | exact .inr rfl)
    | with_reducible rfl | with_reducible exact MemTo.refl _ | with_reducible exact Otp.Grown.refl _
    | (show _ = _; first | (simp; done) | rfl))

theorem goFailSilent_kept {ρ : Bool} {χ : List Part} {σ s : State} (hw : Sub [.lkt, .net, .red] χ) (hk : Kept ρ χ σ s) : Kept ρ χ σ (goFailSilent s) :=
  hk.trans ⟨rfl, fun i => ⟨i.tarn, i.dram, i.parts, i.sessions, i.refs, by simpa [goFailSilent] using i.ports, i.ctl, i.locks⟩,
    Otp.Grown.refl _, fun _ => ⟨BitVec.or_self, fun _ => rfl⟩,
    fun p => by cases p <;> first | exact .inl (hw _ (by decide)) | exact .inr rfl⟩

theorem runAction_kept {ρ : Bool} {χ : List Part} {σ s : State} {a : Act} {g : Nat} (hw : Sub [.lkt, .cmds, .boot, .tdm, .net, .red] χ) (hk : Kept ρ χ σ s) :
    Kept ρ χ σ (runAction a g s) := by
  unfold runAction
  repeat' (first
    | with_reducible assumption | exact Sub.of hw rfl | with_reducible apply fadeAllTx_kept
    | with_reducible apply State.setRecord_kept | with_reducible apply domainReset_kept
    | with_reducible apply goFailSilent_kept | split)

theorem countFault_kept {ρ : Bool} {χ : List Part} {σ s : State} {src : Nat} (hw : Sub [.lkt] χ) (hk : Kept ρ χ σ s) :
    Kept ρ χ σ (countFault src s) := .view hw hk rfl

theorem noteAlert_kept {ρ : Bool} {χ : List Part} {σ s : State} {old new : RecState} (hw : Sub [.tw] χ) (hk : Kept ρ χ σ s) :
    Kept ρ χ σ (noteAlert old new s) := by
  unfold noteAlert
  repeat' (first
    | with_reducible assumption | (simp only [keptTo]; with_reducible apply KeptTo.intro hw)
    | (show ∀ p : Part, _; intro p; cases p <;> dsimp only [Part.same] <;> first | exact .inl (by decide) | exact .inr (by with_reducible rfl) | exact .inr rfl)
    | with_reducible rfl | with_reducible exact MemTo.refl _ | with_reducible exact Otp.Grown.refl _
    | with_reducible apply Kept.ite)

theorem recordFault_kept {ρ : Bool} {χ : List Part} {σ s : State} {src : Nat} {inst : Half} (hw : Sub [.lkt, .cmds, .boot, .tdm, .net, .red, .tw] χ) (hk : Kept ρ χ σ s) :
    Kept ρ χ σ (recordFault src inst s) := by
  unfold recordFault
  repeat' (first
    | with_reducible assumption | exact Sub.of hw rfl | with_reducible apply noteAlert_kept
    | with_reducible apply countFault_kept | with_reducible apply State.setRecord_kept
    | with_reducible apply runAction_kept | with_reducible apply Kept.ite | split)

theorem reportFault_kept {ρ : Bool} {χ : List Part} {σ s : State} {src : Nat} {inst : Half} (hw : Sub [.lkt, .cmds, .boot, .tdm, .net, .red, .tw] χ) (hk : Kept ρ χ σ s) :
    Kept ρ χ σ (reportFault src inst s) := by
  unfold reportFault
  repeat' (first | with_reducible assumption | with_reducible apply recordFault_kept | with_reducible apply Kept.ite)

theorem reportOwn_kept {ρ : Bool} {χ : List Part} {σ s : State} {src : Nat} (hw : Sub [.lkt, .cmds, .boot, .tdm, .net, .red, .tw] χ) (hk : Kept ρ χ σ s) :
    Kept ρ χ σ (reportOwn src s) := by
  unfold reportOwn
  repeat' (first | with_reducible assumption | with_reducible apply reportFault_kept)

theorem reportAll_kept {ρ : Bool} {χ : List Part} {σ s : State} {srcs : List Nat} (hw : Sub [.lkt, .cmds, .boot, .tdm, .net, .red, .tw] χ) (hk : Kept ρ χ σ s) :
    Kept ρ χ σ (reportAll srcs s) := by
  unfold reportAll
  repeat' (first
    | with_reducible assumption | with_reducible apply reportOwn_kept | (with_reducible apply Kept.foldl; intro _ _ _))

theorem escalate_kept {ρ : Bool} {χ : List Part} {σ s : State} {g : Nat} (hw : Sub [.lkt, .cmds, .boot, .tdm, .net, .red, .tw] χ) (hk : Kept ρ χ σ s) :
    Kept ρ χ σ (escalate g s) := by
  unfold escalate
  repeat' (first
    | with_reducible assumption | exact Sub.of hw rfl | with_reducible apply noteAlert_kept
    | with_reducible apply State.setRecord_kept | with_reducible apply runAction_kept
    | (with_reducible apply Kept.foldl; intro _ _ _))

end Sys2Proof.Machine
end

