-- ==== Sys2Proof/Laws/Kept/ColErrors.lean ====
section
/-! SUPPORT. What the operations of Machine/ColErrors.lean keep. -/

namespace Sys2Proof.Machine

theorem colError_kept {ρ : Bool} {χ : List Part} {σ s : State} {master target kind : Nat} {write : Bool} {a : Nat} (hw : Sub [.lkt, .cmds, .boot, .tdm, .col, .net, .red, .tw] χ) (hk : Kept ρ χ σ s) :
    Kept ρ χ σ (colError master target kind write a s) := by
  unfold colError
  repeat' (first
    | with_reducible assumption | exact Sub.of hw rfl | with_reducible apply reportOwn_kept
    | (simp only [keptTo]; refine KeptTo.view hw ?_ rfl))

theorem tarnDbe_kept {ρ : Bool} {χ : List Part} {σ s : State} {a : Nat} (hw : Sub [.lkt, .cmds, .boot, .tdm, .col, .net, .red, .tw] χ) (hk : Kept ρ χ σ s) :
    Kept ρ χ σ (tarnDbe a s) := by
  unfold tarnDbe
  repeat' (first
    | with_reducible assumption | exact Sub.of hw rfl | with_reducible apply reportOwn_kept
    | (simp only [keptTo]; refine KeptTo.view hw ?_ rfl))

theorem dramDbe_kept {ρ : Bool} {χ : List Part} {σ s : State} {a : Nat} (hw : Sub [.lkt, .cmds, .boot, .tdm, .col, .net, .red, .tw] χ) (hk : Kept ρ χ σ s) :
    Kept ρ χ σ (dramDbe a s) := by
  unfold dramDbe
  repeat' (first
    | with_reducible assumption | exact Sub.of hw rfl | with_reducible apply reportOwn_kept
    | (simp only [keptTo]; refine KeptTo.view hw ?_ rfl))

theorem wakePorts_kept {ρ : Bool} {χ : List Part} {σ s : State} {master target : Nat} (hw : Sub [.col] χ) (hk : Kept ρ χ σ s) :
    Kept ρ χ σ (wakePorts master target s) := by
  unfold wakePorts
  repeat' (first
    | with_reducible assumption | (simp only [keptTo]; with_reducible apply KeptTo.intro hw)
    | (show ∀ p : Part, _; intro p; cases p <;> dsimp only [Part.same] <;> first | exact .inl (by decide) | exact .inr (by with_reducible rfl) | exact .inr rfl)
    | with_reducible rfl | with_reducible exact MemTo.refl _ | with_reducible exact Otp.Grown.refl _
    | with_reducible apply Kept.ite)

end Sys2Proof.Machine
end

