-- ==== Sys2Proof/Laws/Kept/Images.lean ====
section
/-! SUPPORT. What the operations of Machine/Images.lean keep. -/

namespace Sys2Proof.Machine

theorem putInput_kept {ρ : Bool} {χ : List Part} {σ s : State} {w : Word} {i : Nat} {x : Word} (hw : Sub [.mem] χ) (hk : Kept ρ χ σ s) :
    Kept ρ χ σ (putInput s w i x) := by
  unfold putInput
  repeat' (first
    | with_reducible assumption | (simp only [keptTo]; with_reducible apply KeptTo.intro hw)
    | (show ∀ p : Part, _; intro p; cases p <;> dsimp only [Part.same] <;> first | exact .inl (by decide) | exact .inr (by with_reducible rfl) | exact .inr rfl)
    | with_reducible rfl | with_reducible exact MemTo.refl _ | with_reducible exact Otp.Grown.refl _
    | with_reducible apply MemTo.putWord)

end Sys2Proof.Machine
end

