-- ==== Sys2Proof/Laws/Kept/Ridge.lean ====
section
/-! SUPPORT. What the operations of Machine/Ridge.lean keep. -/

namespace Sys2Proof.Machine

theorem State.setEngine_kept {ρ : Bool} {χ : List Part} {σ s : State} {e : Nat} {x : Engine} (hw : Sub [.crn] χ) (hk : Kept ρ χ σ s) :
    Kept ρ χ σ (State.setEngine s e x) := .view hw hk rfl

theorem graphRefuse_kept {ρ : Bool} {χ : List Part} {σ s : State} {part : Nat} {st : Status} {reason : Nat} (hw : Sub [.rdg] χ) (hk : Kept ρ χ σ s) :
    Kept ρ χ σ (graphRefuse part st reason s).1 := by
  exact .view hw hk rfl

theorem graphLoadChunk_kept {ρ : Bool} {χ : List Part} {σ s : State} {part : Nat} {c : GraphChunk} (hw : Sub [.rdg, .mem] χ) (hk : Kept ρ χ σ s) :
    Kept ρ χ σ (graphLoadChunk part c s).1 := by
  unfold graphLoadChunk
  repeat' (first
    | with_reducible assumption | exact Sub.of hw rfl | with_reducible apply graphRefuse_kept
    | (simp only [keptTo]; with_reducible apply KeptTo.intro hw)
    | (show ∀ p : Part, _; intro p; cases p <;> dsimp only [Part.same] <;> first | exact .inl (by decide) | exact .inr (by with_reducible rfl) | exact .inr rfl)
    | with_reducible rfl | with_reducible exact MemTo.refl _ | with_reducible exact Otp.Grown.refl _
    | with_reducible apply MemTo.writeTarn | with_reducible apply Kept.ite_fst | split)

theorem graphVerify_kept {ρ : Bool} {χ : List Part} {σ s : State} {part : Nat} {udp : Bool} {length : Word} (hw : Sub [.rdg] χ) (hk : Kept ρ χ σ s) :
    Kept ρ χ σ (graphVerify part udp length s).1 := by
  unfold graphVerify
  repeat' (first
    | with_reducible assumption | with_reducible apply graphRefuse_kept
    | (simp only [keptTo]; refine KeptTo.view hw ?_ rfl) | with_reducible apply Kept.ite_fst)

theorem graphCommit_kept {ρ : Bool} {χ : List Part} {σ s : State} {part : Nat} {w : GraphWave} (hw : Sub [.rdg] χ) (hk : Kept ρ χ σ s) :
    Kept ρ χ σ (graphCommit part w s).1 := by
  unfold graphCommit
  repeat' (first
    | with_reducible assumption | with_reducible apply graphRefuse_kept
    | (simp only [keptTo]; refine KeptTo.view hw ?_ rfl) | with_reducible apply Kept.ite_fst)

theorem graphCancel_kept {ρ : Bool} {χ : List Part} {σ s : State} {part : Nat} (hw : Sub [.rdg] χ) (hk : Kept ρ χ σ s) :
    Kept ρ χ σ (graphCancel part s).1 := by
  unfold graphCancel
  repeat' (first
    | with_reducible assumption | with_reducible apply graphRefuse_kept
    | (simp only [keptTo]; refine KeptTo.view hw ?_ rfl) | with_reducible apply Kept.ite_fst | split)

theorem graphHalt_kept {ρ : Bool} {χ : List Part} {σ s : State} {part : Nat} {w : GraphWave} (hw : Sub [.rdg] χ) (hk : Kept ρ χ σ s) :
    Kept ρ χ σ (graphHalt part w s).1 := by
  unfold graphHalt
  repeat' (first
    | with_reducible assumption | with_reducible apply graphRefuse_kept
    | (simp only [keptTo]; refine KeptTo.view hw ?_ rfl) | with_reducible apply Kept.ite_fst)

theorem graphSetReservation_kept {ρ : Bool} {χ : List Part} {σ s : State} {ms : Half} (hw : Sub [.rdg] χ) (hk : Kept ρ χ σ s) :
    Kept ρ χ σ (graphSetReservation ms s).1 := by
  unfold graphSetReservation
  repeat' (first
    | with_reducible assumption | (simp only [keptTo]; refine KeptTo.view hw ?_ rfl)
    | with_reducible apply Kept.ite_fst)

theorem graphStatus_kept {ρ : Bool} {χ : List Part} {σ s : State} (hw : Sub [] χ) (hk : Kept ρ χ σ s) :
    Kept ρ χ σ (graphStatus s).1 := by
  unfold graphStatus
  repeat' (first | with_reducible assumption)

theorem graphGetLayout_kept {ρ : Bool} {χ : List Part} {σ s : State} {part : Nat} (hw : Sub [] χ) (hk : Kept ρ χ σ s) :
    Kept ρ χ σ (graphGetLayout part s).1 := by
  unfold graphGetLayout
  repeat' (first | with_reducible assumption)

theorem nodeSetGain_kept {ρ : Bool} {χ : List Part} {σ s : State} {part : Nat} {c : NodeSetGain} (hw : Sub [.rdg] χ) (hk : Kept ρ χ σ s) :
    Kept ρ χ σ (nodeSetGain part c s).1 := by
  unfold nodeSetGain
  repeat' (first
    | with_reducible assumption | with_reducible apply graphRefuse_kept
    | (simp only [keptTo]; refine KeptTo.view hw ?_ rfl) | with_reducible apply Kept.ite_fst | split)

theorem nodeSetTimeout_kept {ρ : Bool} {χ : List Part} {σ s : State} {part : Nat} {node ms : Half} (hw : Sub [.rdg] χ) (hk : Kept ρ χ σ s) :
    Kept ρ χ σ (nodeSetTimeout part node ms s).1 := by
  unfold nodeSetTimeout
  repeat' (first
    | with_reducible assumption | with_reducible apply graphRefuse_kept
    | (simp only [keptTo]; refine KeptTo.view hw ?_ rfl) | with_reducible apply Kept.ite_fst | split)

theorem reservationExpiry_kept {ρ : Bool} {χ : List Part} {σ s : State} (hw : Sub [.rdg] χ) (hk : Kept ρ χ σ s) :
    Kept ρ χ σ (reservationExpiry s) := by
  unfold reservationExpiry
  repeat' (first
    | with_reducible assumption | (simp only [keptTo]; with_reducible apply KeptTo.intro hw)
    | (show ∀ p : Part, _; intro p; cases p <;> dsimp only [Part.same] <;> first | exact .inl (by decide) | exact .inr (by with_reducible rfl) | exact .inr rfl)
    | with_reducible rfl | with_reducible exact MemTo.refl _ | with_reducible exact Otp.Grown.refl _
    | with_reducible apply Kept.ite)

theorem crossfadeEnd_kept {ρ : Bool} {χ : List Part} {σ s : State} (hw : Sub [.rdg] χ) (hk : Kept ρ χ σ s) :
    Kept ρ χ σ (crossfadeEnd s) := by
  unfold crossfadeEnd
  repeat' (first
    | with_reducible assumption | (simp only [keptTo]; refine KeptTo.view hw ?_ rfl) | with_reducible apply Kept.ite)

theorem bankHaltEnd_kept {ρ : Bool} {χ : List Part} {σ s : State} (hw : Sub [.rdg] χ) (hk : Kept ρ χ σ s) :
    Kept ρ χ σ (bankHaltEnd s) := by
  unfold bankHaltEnd
  repeat' (first
    | with_reducible assumption | (simp only [keptTo]; with_reducible apply KeptTo.intro hw)
    | (show ∀ p : Part, _; intro p; cases p <;> dsimp only [Part.same] <;> first | exact .inl (by decide) | exact .inr (by with_reducible rfl) | exact .inr rfl)
    | with_reducible rfl | with_reducible exact MemTo.refl _ | with_reducible exact Otp.Grown.refl _
    | with_reducible apply Kept.ite | split)

theorem applyCommit_kept {ρ : Bool} {χ : List Part} {σ s : State} {w : Word} (hw : Sub [.rdg] χ) (hk : Kept ρ χ σ s) :
    Kept ρ χ σ (applyCommit w s) := by
  unfold applyCommit
  repeat' (first
    | with_reducible assumption | (simp only [keptTo]; refine KeptTo.view hw ?_ rfl) | with_reducible apply Kept.ite
    | split)

theorem beginHalt_kept {ρ : Bool} {χ : List Part} {σ s : State} {w : Word} (hw : Sub [.rdg] χ) (hk : Kept ρ χ σ s) :
    Kept ρ χ σ (beginHalt w s) := by
  unfold beginHalt
  repeat' (first
    | with_reducible assumption | (simp only [keptTo]; refine KeptTo.view hw ?_ rfl) | with_reducible apply Kept.ite
    | split)

end Sys2Proof.Machine
end

