-- ==== Sys2Proof/Laws/Kept/Meridian.lean ====
section
/-! SUPPORT. What the operations of Machine/Meridian.lean keep. -/

namespace Sys2Proof.Machine

theorem mtxSetGains_kept {ρ : Bool} {χ : List Part} {σ s : State} {p : Nat} {c : MtxSetGains} (hw : Sub [.mtx] χ) (hk : Kept ρ χ σ s) :
    Kept ρ χ σ (mtxSetGains p c s).1 := by
  unfold mtxSetGains
  repeat' (first
    | with_reducible assumption | (simp only [keptTo]; refine KeptTo.view hw ?_ rfl)
    | with_reducible apply Kept.ite_fst | split)

theorem mtxBulkArm_kept {ρ : Bool} {χ : List Part} {σ s : State} {p : Nat} {udp : Bool} {c : MtxBulkArm} (hw : Sub [.mtx] χ) (hk : Kept ρ χ σ s) :
    Kept ρ χ σ (mtxBulkArm p udp c s).1 := by
  unfold mtxBulkArm
  repeat' (first
    | with_reducible assumption | (simp only [keptTo]; refine KeptTo.view hw ?_ rfl)
    | with_reducible apply Kept.ite_fst | split)

theorem bulkCheck_kept {ρ : Bool} {χ : List Part} {σ s : State} {p : Nat} (hw : Sub [.mtx] χ) (hk : Kept ρ χ σ s) :
    Kept ρ χ σ (bulkCheck p s).1 := by
  unfold bulkCheck
  repeat' (first
    | with_reducible assumption | (simp only [keptTo]; refine KeptTo.view hw ?_ rfl)
    | with_reducible apply Kept.ite_fst | split)

theorem bulkCheck_kept_eq {ρ : Bool} {χ : List Part} {σ s : State} {p : Nat} {tt : State} {aa : Option (Bool × Reply)} (hw : Sub [.mtx] χ) (hk : Kept ρ χ σ s) (he : (bulkCheck p s) = (tt, aa)) :
    Kept ρ χ σ tt := by
  have := bulkCheck_kept (p:=p) hw hk; rw [he] at this; exact this

theorem mtxBulkCancel_kept {ρ : Bool} {χ : List Part} {σ s : State} {p : Nat} (hw : Sub [.mtx] χ) (hk : Kept ρ χ σ s) :
    Kept ρ χ σ (mtxBulkCancel p s).1 := by
  unfold mtxBulkCancel
  repeat' (first
    | with_reducible assumption | (simp only [keptTo]; refine KeptTo.view hw ?_ rfl)
    | with_reducible apply Kept.ite_fst | split)

theorem mtxSetColumn_kept {ρ : Bool} {χ : List Part} {σ s : State} {col ms : Half} (hw : Sub [.mtx] χ) (hk : Kept ρ χ σ s) :
    Kept ρ χ σ (mtxSetColumn col ms s).1 := by
  unfold mtxSetColumn
  repeat' (first
    | with_reducible assumption | (simp only [keptTo]; refine KeptTo.view hw ?_ rfl)
    | with_reducible apply Kept.ite_fst)

theorem mtxGetGains_kept {ρ : Bool} {χ : List Part} {σ s : State} {col first count : Half} (hw : Sub [] χ) (hk : Kept ρ χ σ s) :
    Kept ρ χ σ (mtxGetGains col first count s).1 := by
  unfold mtxGetGains
  repeat' (first | with_reducible assumption | with_reducible apply Kept.ite_fst)

theorem mtxGetStatus_kept {ρ : Bool} {χ : List Part} {σ s : State} {p : Nat} (hw : Sub [] χ) (hk : Kept ρ χ σ s) :
    Kept ρ χ σ (mtxGetStatus p s).1 := by
  unfold mtxGetStatus
  repeat' (first | with_reducible assumption)

theorem mtxSetQuota_kept {ρ : Bool} {χ : List Part} {σ s : State} {qs : List Half} (hw : Sub [.mtx] χ) (hk : Kept ρ χ σ s) :
    Kept ρ χ σ (mtxSetQuota qs s).1 := by
  unfold mtxSetQuota
  repeat' (first
    | with_reducible assumption | (simp only [keptTo]; refine KeptTo.view hw ?_ rfl)
    | with_reducible apply Kept.ite_fst)

theorem gainStep_kept {ρ : Bool} {χ : List Part} {σ s : State} {k : Word} (hw : Sub [.mtx] χ) (hk : Kept ρ χ σ s) :
    Kept ρ χ σ (gainStep k s) := .view hw hk rfl

theorem noteColErr_kept {ρ : Bool} {χ : List Part} {σ s : State} {x : Slice} (hw : Sub [.lkt, .cmds, .boot, .tdm, .col, .net, .red, .tw] χ) (hk : Kept ρ χ σ s) :
    Kept ρ χ σ (noteColErr x s) := by
  unfold noteColErr
  repeat' (first
    | with_reducible assumption | exact Sub.of hw rfl | with_reducible apply tarnDbe_kept
    | with_reducible apply reportOwn_kept | with_reducible apply colError_kept | with_reducible apply Kept.ite | split)

theorem holdBad_kept {ρ : Bool} {χ : List Part} {σ s : State} {x : Slice} (hw : Sub [.lkt, .cmds, .boot, .tdm, .mtx, .net, .red, .tw] χ) (hk : Kept ρ χ σ s) :
    Kept ρ χ σ (holdBad x s) := by
  unfold holdBad
  repeat' (first
    | with_reducible assumption | exact Sub.of hw rfl | with_reducible apply reportOwn_kept
    | (simp only [keptTo]; with_reducible apply KeptTo.intro hw)
    | (show ∀ p : Part, _; intro p; cases p <;> dsimp only [Part.same] <;> first | exact .inl (by decide) | exact .inr (by with_reducible rfl) | exact .inr rfl)
    | with_reducible rfl | with_reducible exact MemTo.refl _ | with_reducible exact Otp.Grown.refl _
    | with_reducible apply Kept.ite)

theorem sliceColumn_kept {ρ : Bool} {χ : List Part} {σ s : State} {x : Slice} {c : Nat} (hw : Sub [.mtx, .mem] χ) (hk : Kept ρ χ σ s) :
    Kept ρ χ σ (sliceColumn x s c) := by
  unfold sliceColumn
  repeat' (first
    | with_reducible assumption | (simp only [keptTo]; with_reducible apply KeptTo.intro hw)
    | (show ∀ p : Part, _; intro p; cases p <;> dsimp only [Part.same] <;> first | exact .inl (by decide) | exact .inr (by with_reducible rfl) | exact .inr rfl)
    | with_reducible rfl | with_reducible exact MemTo.refl _ | with_reducible exact Otp.Grown.refl _
    | with_reducible apply MemTo.putWord | with_reducible apply Kept.ite)

theorem noteInputs_kept {ρ : Bool} {χ : List Part} {σ s : State} {x : Slice} (hw : Sub [.mtx] χ) (hk : Kept ρ χ σ s) :
    Kept ρ χ σ (noteInputs x s) := .view hw hk rfl

theorem runSlice_kept {ρ : Bool} {χ : List Part} {σ s : State} {x : Slice} (hw : Sub [.lkt, .cmds, .boot, .tdm, .mtx, .col, .net, .red, .tw, .mem] χ) (hk : Kept ρ χ σ s) :
    Kept ρ χ σ (runSlice x s) := by
  unfold runSlice
  repeat' (first
    | with_reducible assumption | exact Sub.of hw rfl | with_reducible apply sliceColumn_kept
    | with_reducible apply noteInputs_kept | with_reducible apply noteColErr_kept | with_reducible apply holdBad_kept
    | (with_reducible apply Kept.foldl; intro _ _ _))

theorem mtxRateChange_kept {ρ : Bool} {χ : List Part} {σ s : State} (hw : Sub [.mtx] χ) (hk : Kept ρ χ σ s) :
    Kept ρ χ σ (mtxRateChange s) := .view hw hk rfl

theorem zcExpire_kept {ρ : Bool} {χ : List Part} {σ s : State} {col input : Nat} (hw : Sub [.mtx] χ) (hk : Kept ρ χ σ s) :
    Kept ρ χ σ (zcExpire col input s) := by
  unfold zcExpire
  repeat' (first
    | with_reducible assumption | (simp only [keptTo]; with_reducible apply KeptTo.intro hw)
    | (show ∀ p : Part, _; intro p; cases p <;> dsimp only [Part.same] <;> first | exact .inl (by decide) | exact .inr (by with_reducible rfl) | exact .inr rfl)
    | with_reducible rfl | with_reducible exact MemTo.refl _ | with_reducible exact Otp.Grown.refl _
    | with_reducible apply Kept.ite)

theorem stagingWrite_kept {ρ : Bool} {χ : List Part} {σ s : State} {p offset : Nat} {bs : List Byte} (hw : Sub [.mtx] χ) (hk : Kept ρ χ σ s) :
    Kept ρ χ σ (stagingWrite p offset bs s) := by
  unfold stagingWrite
  repeat' (first
    | with_reducible assumption | (simp only [keptTo]; with_reducible apply KeptTo.intro hw)
    | (show ∀ p : Part, _; intro p; cases p <;> dsimp only [Part.same] <;> first | exact .inl (by decide) | exact .inr (by with_reducible rfl) | exact .inr rfl)
    | with_reducible rfl | with_reducible exact MemTo.refl _ | with_reducible exact Otp.Grown.refl _
    | with_reducible apply Kept.ite)

end Sys2Proof.Machine
end

