-- ==== Sys2Proof/Laws/Kept/Cairn.lean ====
section
/-! SUPPORT. What the operations of Machine/Cairn.lean keep. -/

namespace Sys2Proof.Machine

theorem markDone_kept {ρ : Bool} {χ : List Part} {σ s : State} {xs : List (Nat × Nat)} (hw : Sub [.wave] χ) (hk : Kept ρ χ σ s) :
    Kept ρ χ σ (markDone s xs) := .view hw hk rfl

theorem trap_kept {ρ : Bool} {χ : List Part} {σ s : State} {n : Nat} {c : Trap} (hw : Sub [.lkt, .cmds, .boot, .tdm, .wave, .crn, .net, .red, .tw] χ) (hk : Kept ρ χ σ s) :
    Kept ρ χ σ (trap n c s) := by
  unfold trap
  repeat' (first
    | with_reducible assumption | exact Sub.of hw rfl | with_reducible apply State.setEngine_kept
    | with_reducible apply markDone_kept | with_reducible apply reportOwn_kept
    | (simp only [keptTo]; refine KeptTo.view hw ?_ rfl))

theorem finishFar_kept {ρ : Bool} {χ : List Part} {σ s : State} {n : Nat} {inbound : Bool} (hw : Sub [.lkt, .cmds, .boot, .tdm, .wave, .crn, .col, .net, .red, .tw] χ) (hk : Kept ρ χ σ s) :
    Kept ρ χ σ (finishFar n inbound s) := by
  unfold finishFar
  repeat' (first
    | with_reducible assumption | exact Sub.of hw rfl | with_reducible apply trap_kept
    | with_reducible apply colError_kept | with_reducible apply tarnDbe_kept
    | with_reducible apply State.setEngine_kept | with_reducible apply Kept.ite | split | dsimp only)

theorem startFar_kept {ρ : Bool} {χ : List Part} {σ s : State} {n : Nat} {out toY : Bool} {loc tarn words : Nat} (hw : Sub [.lkt, .cmds, .boot, .tdm, .wave, .crn, .col, .net, .red, .tw, .mem] χ) (hk : Kept ρ χ σ s) :
    Kept ρ χ σ (startFar n out toY loc tarn words s) := by
  unfold startFar
  repeat' (first
    | with_reducible assumption | exact Sub.of hw rfl | with_reducible apply finishFar_kept
    | with_reducible apply trap_kept | with_reducible apply colError_kept | with_reducible apply State.setEngine_kept
    | (simp only [keptTo]; with_reducible apply KeptTo.intro hw)
    | (show ∀ p : Part, _; intro p; cases p <;> dsimp only [Part.same] <;> first | exact .inl (by decide) | exact .inr (by with_reducible rfl) | exact .inr rfl)
    | with_reducible rfl | with_reducible exact MemTo.refl _ | with_reducible exact Otp.Grown.refl _
    | with_reducible apply MemTo.writeTarn | with_reducible apply Kept.ite | split)

theorem checkPc_kept {ρ : Bool} {χ : List Part} {σ s : State} {n : Nat} (hw : Sub [.lkt, .cmds, .boot, .tdm, .wave, .crn, .net, .red, .tw] χ) (hk : Kept ρ χ σ s) :
    Kept ρ χ σ (checkPc n s) := by
  unfold checkPc
  repeat' (first | with_reducible assumption | with_reducible apply trap_kept | with_reducible apply Kept.ite)

theorem runLoop_kept {ρ : Bool} {χ : List Part} {σ s : State} {n count len : Nat} (hw : Sub [.lkt, .cmds, .boot, .tdm, .wave, .crn, .net, .red, .tw] χ) (hk : Kept ρ χ σ s) :
    Kept ρ χ σ (runLoop n count len s) := by
  unfold runLoop
  repeat' (first
    | with_reducible assumption | exact Sub.of hw rfl | with_reducible apply trap_kept
    | with_reducible apply State.setEngine_kept | with_reducible apply Kept.ite)

theorem runStop_kept {ρ : Bool} {χ : List Part} {σ s : State} {n : Nat} (hw : Sub [.lkt, .cmds, .boot, .tdm, .wave, .crn, .col, .net, .red, .tw] χ) (hk : Kept ρ χ σ s) :
    Kept ρ χ σ (runStop n s) := by
  unfold runStop
  repeat' (first
    | with_reducible assumption | exact Sub.of hw rfl | with_reducible apply finishFar_kept
    | with_reducible apply State.setEngine_kept | with_reducible apply Kept.ite)

theorem runC_kept {ρ : Bool} {χ : List Part} {σ s : State} {n : Nat} {o : Control} (hw : Sub [.lkt, .cmds, .boot, .tdm, .wave, .crn, .col, .net, .red, .tw, .mem] χ) (hk : Kept ρ χ σ s) :
    Kept ρ χ σ (runC n o s) := by
  unfold runC
  repeat' (first
    | with_reducible assumption | exact Sub.of hw rfl | with_reducible apply runLoop_kept
    | with_reducible apply State.setEngine_kept | with_reducible apply startFar_kept
    | with_reducible apply runStop_kept | split)

theorem runWait_kept {ρ : Bool} {χ : List Part} {σ s : State} {n : Nat} {v : ShortMove} (hw : Sub [.lkt, .cmds, .boot, .tdm, .wave, .crn, .col, .net, .red, .tw] χ) (hk : Kept ρ χ σ s) :
    Kept ρ χ σ (runWait n v s) := by
  unfold runWait
  repeat' (first
    | with_reducible assumption | with_reducible apply finishFar_kept | with_reducible apply Kept.ite | split)

theorem issue_kept {ρ : Bool} {χ : List Part} {σ s : State} {n : Nat} {w : CWord} (hw : Sub [.lkt, .cmds, .boot, .tdm, .wave, .crn, .col, .net, .red, .tw, .mem] χ) (hk : Kept ρ χ σ s) :
    Kept ρ χ σ (issue n w s) := by
  unfold issue
  repeat' (first
    | with_reducible assumption | exact Sub.of hw rfl | with_reducible apply trap_kept
    | with_reducible apply checkPc_kept | with_reducible apply runWait_kept | with_reducible apply State.setEngine_kept
    | with_reducible apply runC_kept | with_reducible apply Kept.ite | split)

theorem issueRaw_kept {ρ : Bool} {χ : List Part} {σ s : State} {n : Nat} {w : Long} (hw : Sub [.lkt, .cmds, .boot, .tdm, .wave, .crn, .col, .net, .red, .tw, .mem] χ) (hk : Kept ρ χ σ s) :
    Kept ρ χ σ (issueRaw n w s) := by
  unfold issueRaw
  repeat' (first
    | with_reducible assumption | exact Sub.of hw rfl | with_reducible apply issue_kept
    | with_reducible apply trap_kept | with_reducible apply Kept.ite | split)

theorem farComplete_kept {ρ : Bool} {χ : List Part} {σ s : State} {n : Nat} {inbound : Bool} (hw : Sub [.lkt, .cmds, .boot, .tdm, .wave, .crn, .col, .net, .red, .tw] χ) (hk : Kept ρ χ σ s) :
    Kept ρ χ σ (farComplete n inbound s) := by
  unfold farComplete
  repeat' (first | with_reducible assumption | with_reducible apply finishFar_kept)

theorem issueRow_kept {ρ : Bool} {χ : List Part} {σ s : State} {n : Fin 24} {w : CWord} (hw : Sub [.lkt, .cmds, .boot, .tdm, .wave, .crn, .col, .net, .red, .tw, .mem] χ) (hk : Kept ρ χ σ s) :
    Kept ρ χ σ (issueRow n w s) := by
  unfold issueRow
  repeat' (first | with_reducible assumption | with_reducible apply whenUp_kept | with_reducible apply issue_kept)

/-- A word that is no FAR leaves memory alone. -/
theorem issueRow_plain_kept {ρ : Bool} {χ : List Part} {σ s : State} {n : Fin 24} {w : CWord}
    (hw : Sub [.lkt, .cmds, .boot, .tdm, .wave, .crn, .col, .net, .red, .tw] χ)
    (hf : ∀ out y p r k, w ≠ .c (.far out y p r k)) (hk : Kept ρ χ σ s) : Kept ρ χ σ (issueRow n w s) := by
  unfold issueRow issue
  cases w with
  | c o =>
    cases o with
    | far out y p r k => exact absurd rfl (hf out y p r k)
    | _ =>
      unfold runC
      repeat' (first
        | with_reducible assumption | exact Sub.of hw rfl | with_reducible apply whenUp_kept | with_reducible apply trap_kept
        | with_reducible apply checkPc_kept | with_reducible apply runLoop_kept | with_reducible apply runStop_kept
        | with_reducible apply State.setEngine_kept | with_reducible apply Kept.ite | split | dsimp only)
  | _ =>
    repeat' (first
      | with_reducible assumption | exact Sub.of hw rfl | with_reducible apply whenUp_kept | with_reducible apply trap_kept
      | with_reducible apply checkPc_kept | with_reducible apply runWait_kept | with_reducible apply State.setEngine_kept
      | with_reducible apply Kept.ite | split)

end Sys2Proof.Machine
end

