-- ==== Sys2Proof/Laws/Kept/Col.lean ====
section
/-! SUPPORT. What the operations of Machine/Col.lean keep. -/

namespace Sys2Proof.Machine

theorem colRead_kept {ρ : Bool} {χ : List Part} {σ s : State} {master a n : Nat} (hw : Sub [.lkt, .cmds, .boot, .tdm, .col, .net, .red, .tw] χ) (hk : Kept ρ χ σ s) :
    Kept ρ χ σ (colRead master a n s).1 := by
  unfold colRead
  repeat' (first
    | with_reducible assumption | exact Sub.of hw rfl | with_reducible apply wakePorts_kept
    | with_reducible apply colError_kept | with_reducible apply tarnDbe_kept | with_reducible apply dramDbe_kept
    | with_reducible apply Kept.ite_fst | split | dsimp only)

theorem colRead_kept_eq {ρ : Bool} {χ : List Part} {σ s : State} {master a n : Nat} {tt : State} {aa : Option (List Byte)} (hw : Sub [.lkt, .cmds, .boot, .tdm, .col, .net, .red, .tw] χ) (hk : Kept ρ χ σ s) (he : (colRead master a n s) = (tt, aa)) :
    Kept ρ χ σ tt := by
  have := colRead_kept (master:=master) (a:=a) (n:=n) hw hk; rw [he] at this; exact this

theorem colWrite_kept {ρ : Bool} {χ : List Part} {σ s : State} {master a : Nat} {bs : List Byte} (hw : Sub [.lkt, .cmds, .boot, .tdm, .mtx, .col, .net, .red, .tw, .mem] χ) (hk : Kept ρ χ σ s) :
    Kept ρ χ σ (colWrite master a bs s).1 := by
  unfold colWrite
  repeat' (first
    | with_reducible assumption | exact Sub.of hw rfl | with_reducible apply wakePorts_kept
    | with_reducible apply colError_kept | with_reducible apply tarnDbe_kept | with_reducible apply dramDbe_kept
    | with_reducible apply stagingWrite_kept
    | (simp only [keptTo]; with_reducible apply KeptTo.intro hw)
    | (show ∀ p : Part, _; intro p; cases p <;> dsimp only [Part.same] <;> first | exact .inl (by decide) | exact .inr (by with_reducible rfl) | exact .inr rfl)
    | with_reducible rfl | with_reducible exact MemTo.refl _ | with_reducible exact Otp.Grown.refl _
    | with_reducible apply MemTo.writeTarn | with_reducible apply MemTo.writeDram | with_reducible apply Kept.ite_fst
    | split | dsimp only)

theorem colWrite_kept_eq {ρ : Bool} {χ : List Part} {σ s : State} {master a : Nat} {bs : List Byte} {tt : State} {aa : Bool} (hw : Sub [.lkt, .cmds, .boot, .tdm, .mtx, .col, .net, .red, .tw, .mem] χ) (hk : Kept ρ χ σ s) (he : (colWrite master a bs s) = (tt, aa)) :
    Kept ρ χ σ tt := by
  have := colWrite_kept (master:=master) (a:=a) (bs:=bs) hw hk; rw [he] at this; exact this

theorem scrubWord_kept {ρ : Bool} {χ : List Part} {σ s : State} {w : Nat} {e : WordErr} (hw : Sub [.lkt, .cmds, .boot, .tdm, .col, .net, .red, .tw, .mem] χ) (hk : Kept ρ χ σ s) :
    Kept ρ χ σ (scrubWord w e s) := by
  unfold scrubWord
  repeat' (first
    | with_reducible assumption | exact Sub.of hw rfl | with_reducible apply tarnDbe_kept
    | with_reducible apply reportOwn_kept | (simp only [keptTo]; with_reducible apply KeptTo.intro hw)
    | (show ∀ p : Part, _; intro p; cases p <;> dsimp only [Part.same] <;> first | exact .inl (by decide) | exact .inr (by with_reducible rfl) | exact .inr rfl)
    | with_reducible rfl | with_reducible exact MemTo.refl _ | with_reducible exact Otp.Grown.refl _
    | with_reducible apply MemTo.markBad | with_reducible apply Kept.ite | split)

theorem gatePort_kept {ρ : Bool} {χ : List Part} {σ s : State} {target : Bool} {id : Nat} (hw : Sub [.col] χ) (hk : Kept ρ χ σ s) :
    Kept ρ χ σ (gatePort target id s) := by
  unfold gatePort
  repeat' (first
    | with_reducible assumption | (simp only [keptTo]; with_reducible apply KeptTo.intro hw)
    | (show ∀ p : Part, _; intro p; cases p <;> dsimp only [Part.same] <;> first | exact .inl (by decide) | exact .inr (by with_reducible rfl) | exact .inr rfl)
    | with_reducible rfl | with_reducible exact MemTo.refl _ | with_reducible exact Otp.Grown.refl _
    | with_reducible apply Kept.ite)

theorem wakeFabric_kept {ρ : Bool} {χ : List Part} {σ s : State} (hw : Sub [.col] χ) (hk : Kept ρ χ σ s) :
    Kept ρ χ σ (wakeFabric s) := .view hw hk rfl

end Sys2Proof.Machine
end

