-- ==== Sys2Proof/Laws/Kept/Bundles.lean ====
section
/-! SUPPORT. What the operations of Machine/Bundles.lean keep. -/

namespace Sys2Proof.Machine

theorem flashErase_kept {ρ : Bool} {χ : List Part} {σ s : State} {base len : Nat} (hw : Sub [.flash] χ) (hk : Kept ρ χ σ s) :
    Kept ρ χ σ (flashErase base len s) := .view hw hk rfl

theorem flashWrite_kept {ρ : Bool} {χ : List Part} {σ s : State} {a : Nat} {bs : List Byte} (hw : Sub [.flash] χ) (hk : Kept ρ χ σ s) :
    Kept ρ χ σ (flashWrite a bs s) := .view hw hk rfl

end Sys2Proof.Machine
end

