-- ==== Sys2Proof/Laws/Kept/Security.lean ====
section
/-! SUPPORT. What the operations of Machine/Security.lean keep. -/

namespace Sys2Proof.Machine

theorem getLsbD_setBit_true {w : Nat} (x : BitVec w) (n i : Nat) (h : x.getLsbD i = true) :
    (setBit x n true).getLsbD i = true := by
  simp [setBit, h]

theorem getLsbD_ne {w : Nat} {x : BitVec w} {n i : Nat} (h : x.getLsbD i = true) (hn : x.getLsbD n = false) : i ≠ n := by
  rintro rfl; simp [h] at hn

/-- A key write leaves every programmed item as it was (R471, R473). -/
theorem Otp.Grown.program (o : Otp) (c : SecKeyProgram)
    (hu : keySlotUsed o c.kind.toNat c.index.toNat c.slot.toNat = false) : Otp.Grown o (o.program c) := by
  have hr := Otp.Grown.refl o
  unfold Otp.program
  unfold keySlotUsed at hu
  split <;> rename_i e <;> simp only [e, Bool.or_eq_false_iff] at hu
  · refine ⟨fun i h => ⟨getLsbD_setBit_true _ _ _ h, ?_⟩, hr.pair, hr.img, hr.partRevoked, hr.pairRevoked, hr.imgRevoked,
      hr.floor, hr.debug, hr.device⟩
    exact Store.look_put_other _ _ _ _ _ (getLsbD_ne h hu.1)
  · refine ⟨hr.part, fun i h => ⟨getLsbD_setBit_true _ _ _ h, ?_⟩, hr.img, hr.partRevoked, hr.pairRevoked, hr.imgRevoked,
      hr.floor, hr.debug, hr.device⟩
    exact Store.look_put_other _ _ _ _ _ (getLsbD_ne h hu.1)
  · refine ⟨hr.part, hr.pair, fun i h => ⟨getLsbD_setBit_true _ _ _ h, ?_⟩, hr.partRevoked, hr.pairRevoked, hr.imgRevoked,
      hr.floor, hr.debug, hr.device⟩
    exact Store.look_put_other _ _ _ _ _ (getLsbD_ne h hu.1)

/-- A revocation blows one fuse (R474). -/
theorem Otp.Grown.revoke (o : Otp) (k i n : Nat) : Otp.Grown o (o.revoke k i n) := by
  have hr := Otp.Grown.refl o
  unfold Otp.revoke
  split
  · exact ⟨hr.part, hr.pair, hr.img, fun _ h => getLsbD_setBit_true _ _ _ h, hr.pairRevoked, hr.imgRevoked, hr.floor,
      hr.debug, hr.device⟩
  · exact ⟨hr.part, hr.pair, hr.img, hr.partRevoked, fun _ h => getLsbD_setBit_true _ _ _ h, hr.imgRevoked, hr.floor,
      hr.debug, hr.device⟩
  · exact ⟨hr.part, hr.pair, hr.img, hr.partRevoked, hr.pairRevoked, fun _ h => getLsbD_setBit_true _ _ _ h, hr.floor,
      hr.debug, hr.device⟩

/-- The floor fuses only rise (R481). -/
theorem Otp.Grown.raise (o : Otp) (n : Nat) (h : o.floor ≤ n) : Otp.Grown o { o with floor := n } := by
  have hr := Otp.Grown.refl o
  exact ⟨hr.part, hr.pair, hr.img, hr.partRevoked, hr.pairRevoked, hr.imgRevoked, h, hr.debug, hr.device⟩

theorem noteEval_kept {ρ : Bool} {χ : List Part} {σ s t : State} (hw : Sub [.lkt, .cmds, .boot, .tdm, .net, .red, .tw] χ) (hk : Kept ρ χ σ t) : Kept ρ χ σ (noteEval s t) := by
  unfold noteEval; exact Kept.ite (reportOwn_kept (hw.of rfl) hk) hk

theorem secSetBits_kept {ρ : Bool} {χ : List Part} {σ s : State} {w : Word} (hw : Sub [.sec] χ) (hk : Kept ρ χ σ s) :
    Kept ρ χ σ (secSetBits w s) := .view hw hk rfl

theorem secGetStatus_kept {ρ : Bool} {χ : List Part} {σ s : State} (hw : Sub [] χ) (hk : Kept ρ χ σ s) :
    Kept ρ χ σ (secGetStatus s).1 := by
  unfold secGetStatus
  repeat' (first | with_reducible assumption)

theorem secKeyProgram_kept {ρ : Bool} {χ : List Part} {σ s : State} {udp : Bool} {c : SecKeyProgram} (hw : Sub [.sec] χ) (hk : Kept ρ χ σ s) :
    Kept ρ χ σ (secKeyProgram udp c s).1 := by
  unfold secKeyProgram
  split
  · exact hk
  · split
    · exact hk
    · rename_i h
      refine hk.same hw (fun p => by cases p <;> dsimp only [Part.same] <;> first | exact .inl (by decide) | exact .inr (by with_reducible rfl) | exact .inr rfl) rfl (MemTo.refl _) rfl rfl rfl rfl rfl (Otp.Grown.program _ _ ?_)
      simp only [not_or, Bool.not_eq_true] at h
      exact h.2.2

theorem secKeyRevoke_kept {ρ : Bool} {χ : List Part} {σ s : State} {c : SecKeyRevoke} (hw : Sub [.sec] χ) (hk : Kept ρ χ σ s) :
    Kept ρ χ σ (secKeyRevoke c s).1 := by
  unfold secKeyRevoke
  refine Kept.ite_fst hk (Kept.ite_fst hk ?_)
  exact hk.same hw (fun p => by cases p <;> dsimp only [Part.same] <;> first | exact .inl (by decide) | exact .inr (by with_reducible rfl) | exact .inr rfl) rfl (MemTo.refl _) rfl rfl rfl rfl rfl (Otp.Grown.revoke _ _ _ _)

theorem secArbAdvance_kept {ρ : Bool} {χ : List Part} {σ s : State} {c : SecArbAdvance} (hw : Sub [.sec, .ka] χ) (hk : Kept ρ χ σ s) :
    Kept ρ χ σ (secArbAdvance c s).1 := by
  unfold secArbAdvance
  refine Kept.ite_fst hk (Kept.ite_fst hk (Kept.ite_fst hk ?_))
  refine hk.same hw (fun p => by cases p <;> dsimp only [Part.same] <;> first | exact .inl (by decide) | exact .inr (by with_reducible rfl) | exact .inr rfl) rfl (MemTo.refl _) rfl rfl rfl rfl rfl (Otp.Grown.raise _ _ ?_)
  split <;> omega

theorem secFwErase_kept {ρ : Bool} {χ : List Part} {σ s : State} {copy : Byte} (hw : Sub [] χ) (hk : Kept ρ χ σ s) :
    Kept ρ χ σ (secFwErase copy s).1 := by
  unfold secFwErase
  repeat' (first | with_reducible assumption | with_reducible apply Kept.ite_fst)

theorem secFwWrite_kept {ρ : Bool} {χ : List Part} {σ s : State} {w : FlashWrite} (hw : Sub [.flash] χ) (hk : Kept ρ χ σ s) :
    Kept ρ χ σ (secFwWrite w s).1 := by
  unfold secFwWrite
  repeat' (first | with_reducible assumption | with_reducible apply flashWrite_kept | with_reducible apply Kept.ite_fst)

theorem secFwVerify_kept {ρ : Bool} {χ : List Part} {σ s : State} {copy : Byte} (hw : Sub [] χ) (hk : Kept ρ χ σ s) :
    Kept ρ χ σ (secFwVerify copy s).1 := by
  unfold secFwVerify
  repeat' (first | with_reducible assumption | with_reducible apply Kept.ite_fst)

theorem secDebugChallenge_kept {ρ : Bool} {χ : List Part} {σ s : State} (hw : Sub [.sec, .fresh] χ) (hk : Kept ρ χ σ s) :
    Kept ρ χ σ (secDebugChallenge s).1 := by
  unfold secDebugChallenge
  repeat' (first
    | with_reducible assumption | exact Sub.of hw rfl | with_reducible apply drawN_kept
    | (simp only [keptTo]; refine KeptTo.view hw ?_ rfl) | with_reducible apply Kept.ite_fst)

theorem secDebugUnlock_kept {ρ : Bool} {χ : List Part} {σ s : State} {block : List Byte} (hw : Sub [.lkt, .cmds, .sec, .boot, .tdm, .net, .red, .tw] χ) (hk : Kept ρ χ σ s) :
    Kept ρ χ σ (secDebugUnlock block s).1 := by
  unfold secDebugUnlock
  repeat' (first
    | with_reducible assumption | exact Sub.of hw rfl | with_reducible apply reportOwn_kept
    | (simp only [keptTo]; with_reducible apply KeptTo.intro hw)
    | (show ∀ p : Part, _; intro p; cases p <;> dsimp only [Part.same] <;> first | exact .inl (by decide) | exact .inr (by with_reducible rfl) | exact .inr rfl)
    | with_reducible rfl | with_reducible exact MemTo.refl _ | with_reducible exact Otp.Grown.refl _
    | with_reducible apply Kept.ite | with_reducible apply Kept.ite_fst)

theorem secSetLock_kept {ρ : Bool} {χ : List Part} {σ s : State} {bits : Word} (hw : Sub [.sec] χ) (hk : Kept ρ χ σ s) :
    Kept ρ χ σ (secSetLock bits s).1 := by
  unfold secSetLock
  repeat' (first | with_reducible assumption | with_reducible apply secSetBits_kept)

theorem nonceExpiry_kept {ρ : Bool} {χ : List Part} {σ s : State} (hw : Sub [.sec] χ) (hk : Kept ρ χ σ s) :
    Kept ρ χ σ (nonceExpiry s) := .view hw hk rfl

theorem drbgFail_kept {ρ : Bool} {χ : List Part} {σ s : State} (hw : Sub [.lkt, .cmds, .sec, .boot, .tdm, .net, .red, .tw] χ) (hk : Kept ρ χ σ s) :
    Kept ρ χ σ (drbgFail s) := by
  unfold drbgFail
  repeat' (first
    | with_reducible assumption | exact Sub.of hw rfl | with_reducible apply reportOwn_kept
    | (simp only [keptTo]; refine KeptTo.view hw ?_ rfl))

theorem privateJtag_kept {ρ : Bool} {χ : List Part} {σ s : State} (hw : Sub [.lkt, .cmds, .sec, .boot, .tdm, .net, .red, .tw] χ) (hk : Kept ρ χ σ s) :
    Kept ρ χ σ (privateJtag s) := by
  unfold privateJtag
  repeat' (first
    | with_reducible assumption | exact Sub.of hw rfl | with_reducible apply reportOwn_kept
    | (simp only [keptTo]; refine KeptTo.view hw ?_ rfl))

theorem boundarySelect_kept {ρ : Bool} {χ : List Part} {σ s : State} (hw : Sub [.lkt, .pins, .net, .red] χ) (hk : Kept ρ χ σ s) :
    Kept ρ χ σ (boundarySelect s) := by
  unfold boundarySelect
  repeat' (first
    | with_reducible assumption | exact Sub.of hw rfl | with_reducible apply goFailSilent_kept
    | (simp only [keptTo]; refine KeptTo.view hw ?_ rfl))

theorem authFailed_kept {ρ : Bool} {χ : List Part} {σ s : State} {p : Nat} (hw : Sub [.lkt, .cmds, .sec, .boot, .tdm, .net, .red, .tw] χ) (hk : Kept ρ χ σ s) :
    Kept ρ χ σ (authFailed p s) := by
  unfold authFailed
  repeat' (first
    | with_reducible assumption | exact Sub.of hw rfl | with_reducible apply State.setPart_kept
    | with_reducible apply reportFault_kept | (simp only [keptTo]; with_reducible apply KeptTo.intro hw)
    | (show ∀ p : Part, _; intro p; cases p <;> dsimp only [Part.same] <;> first | exact .inl (by decide) | exact .inr (by with_reducible rfl) | exact .inr rfl)
    | with_reducible rfl | with_reducible exact MemTo.refl _ | with_reducible apply Kept.ite
    | (show Otp.Grown _ _; exact Otp.Grown.refl _))

end Sys2Proof.Machine
end

