-- ==== Sys2Proof/Laws/Kept/Slots.lean ====
section
/-! SUPPORT. What the operations of Machine/Slots.lean keep. -/

namespace Sys2Proof.Machine

theorem onSlot_kept {ρ : Bool} {χ : List Part} {σ s : State} {p : Nat} {udp : Bool} {f : CmdSlot → CmdSlot} (hw : Sub [.cmds] χ) (hk : Kept ρ χ σ s) :
    Kept ρ χ σ (onSlot p udp f s) := by
  unfold onSlot
  repeat' (first | with_reducible assumption | with_reducible apply State.setPart_kept | with_reducible rfl | split)

theorem giveResult_kept {ρ : Bool} {χ : List Part} {σ s : State} {p : Nat} {udp : Bool} {j : Job} {r : Reply} (hw : Sub [.cmds, .boot] χ) (hk : Kept ρ χ σ s) :
    Kept ρ χ σ (giveResult p udp j r s) := by
  unfold giveResult
  repeat' (first
    | with_reducible assumption | exact Sub.of hw rfl | with_reducible apply onSlot_kept
    | (simp only [keptTo]; with_reducible apply KeptTo.intro hw)
    | (show ∀ p : Part, _; intro p; cases p <;> dsimp only [Part.same] <;> first | exact .inl (by decide) | exact .inr (by with_reducible rfl) | exact .inr rfl)
    | with_reducible rfl | with_reducible exact MemTo.refl _ | with_reducible exact Otp.Grown.refl _
    | with_reducible apply Kept.ite)

end Sys2Proof.Machine
end

