-- ==== Sys2Proof/Laws/Kept/Power.lean ====
section
/-! SUPPORT. What the operations of Machine/Power.lean keep. -/

namespace Sys2Proof.Machine

theorem beginStart_kept {ρ : Bool} {χ : List Part} {σ s : State} {c : Nat} (hw : Sub [.pws] χ) (hk : Kept ρ χ σ s) :
    Kept ρ χ σ (beginStart s c) := by
  unfold beginStart
  repeat' (first | with_reducible assumption | with_reducible apply State.setPwsCh_kept)

theorem latch_kept {ρ : Bool} {χ : List Part} {σ s : State} {c cause : Nat} (hw : Sub [.lkt, .cmds, .boot, .pws, .tdm, .net, .red, .tw] χ) (hk : Kept ρ χ σ s) :
    Kept ρ χ σ (latch c cause s) := by
  unfold latch
  repeat' (first
    | with_reducible assumption | exact Sub.of hw rfl | with_reducible apply reportFault_kept
    | with_reducible apply State.setPwsCh_kept)

theorem beginStop_kept {ρ : Bool} {χ : List Part} {σ s : State} {aim : StopTo} {c : Nat} (hw : Sub [.lkt, .cmds, .boot, .pws, .tdm, .net, .red, .tw] χ) (hk : Kept ρ χ σ s) :
    Kept ρ χ σ (beginStop aim s c) := by
  unfold beginStop
  repeat' (first
    | with_reducible assumption | exact Sub.of hw rfl | with_reducible apply State.setPwsCh_kept
    | with_reducible apply latch_kept | with_reducible apply Kept.ite | split)

theorem pwsSetStage_kept {ρ : Bool} {χ : List Part} {σ s : State} {c : PwsSetStage} (hw : Sub [.pws] χ) (hk : Kept ρ χ σ s) :
    Kept ρ χ σ (pwsSetStage c s).1 := by
  unfold pwsSetStage
  repeat' (first
    | with_reducible assumption | (simp only [keptTo]; refine KeptTo.view hw ?_ rfl)
    | with_reducible apply Kept.ite_fst)

theorem pwsSetChannel_kept {ρ : Bool} {χ : List Part} {σ s : State} {c : PwsSetChannel} (hw : Sub [.pws] χ) (hk : Kept ρ χ σ s) :
    Kept ρ χ σ (pwsSetChannel c s).1 := by
  unfold pwsSetChannel
  repeat' (first
    | with_reducible assumption | with_reducible apply State.setPwsCh_kept | with_reducible apply Kept.ite_fst)

theorem pwsStart_kept {ρ : Bool} {χ : List Part} {σ s : State} {mask : Half} (hw : Sub [.pws] χ) (hk : Kept ρ χ σ s) :
    Kept ρ χ σ (pwsStart mask s).1 := by
  unfold pwsStart
  repeat' (first
    | with_reducible assumption | with_reducible apply beginStart_kept | with_reducible apply Kept.ite_fst
    | (with_reducible apply Kept.foldl; intro _ _ _))

theorem stopChannel_kept {ρ : Bool} {χ : List Part} {σ s : State} {c : Nat} (hw : Sub [.lkt, .cmds, .boot, .pws, .tdm, .net, .red, .tw] χ) (hk : Kept ρ χ σ s) :
    Kept ρ χ σ (stopChannel s c) := by
  unfold stopChannel
  repeat' (first
    | with_reducible assumption | exact Sub.of hw rfl | with_reducible apply beginStop_kept
    | with_reducible apply State.setPwsCh_kept | split | dsimp only)

theorem pwsStop_kept {ρ : Bool} {χ : List Part} {σ s : State} {mask : Half} (hw : Sub [.lkt, .cmds, .boot, .pws, .tdm, .net, .red, .tw] χ) (hk : Kept ρ χ σ s) :
    Kept ρ χ σ (pwsStop mask s).1 := by
  unfold pwsStop
  repeat' (first
    | with_reducible assumption | with_reducible apply stopChannel_kept
    | (with_reducible apply Kept.foldl; intro _ _ _))

theorem pwsMute_kept {ρ : Bool} {χ : List Part} {σ s : State} {mask : Half} {mute : Byte} (hw : Sub [.pws] χ) (hk : Kept ρ χ σ s) :
    Kept ρ χ σ (pwsMute mask mute s).1 := by
  unfold pwsMute
  repeat' (first
    | with_reducible assumption | with_reducible apply State.setPwsCh_kept | with_reducible apply Kept.ite_fst
    | (with_reducible apply Kept.foldl; intro _ _ _))

theorem pwsClear_kept {ρ : Bool} {χ : List Part} {σ s : State} {mask : Half} (hw : Sub [.pws] χ) (hk : Kept ρ χ σ s) :
    Kept ρ χ σ (pwsClear mask s).1 := by
  unfold pwsClear
  repeat' (first
    | with_reducible assumption | with_reducible apply State.setPwsCh_kept | with_reducible apply Kept.ite_fst
    | (with_reducible apply Kept.foldl; intro _ _ _))

theorem pwsGetStatus_kept {ρ : Bool} {χ : List Part} {σ s : State} {c : Byte} (hw : Sub [] χ) (hk : Kept ρ χ σ s) :
    Kept ρ χ σ (pwsGetStatus c s).1 := by
  unfold pwsGetStatus
  repeat' (first | with_reducible assumption | with_reducible apply Kept.ite_fst)

theorem preRelease_kept {ρ : Bool} {χ : List Part} {σ s : State} {c : Nat} {fb isense : Int} (hw : Sub [.pws] χ) (hk : Kept ρ χ σ s) :
    Kept ρ χ σ (preRelease c fb isense s) := by
  unfold preRelease
  repeat' (first
    | with_reducible assumption | with_reducible apply State.setPwsCh_kept
    | (simp only [keptTo]; with_reducible apply KeptTo.intro hw)
    | (show ∀ p : Part, _; intro p; cases p <;> dsimp only [Part.same] <;> first | exact .inl (by decide) | exact .inr (by with_reducible rfl) | exact .inr rfl)
    | with_reducible rfl | with_reducible exact MemTo.refl _ | with_reducible exact Otp.Grown.refl _
    | with_reducible apply Kept.ite)

theorem unmuteStart_kept {ρ : Bool} {χ : List Part} {σ s : State} {c : Nat} (hw : Sub [.pws] χ) (hk : Kept ρ χ σ s) :
    Kept ρ χ σ (unmuteStart c s) := by
  unfold unmuteStart
  repeat' (first | with_reducible assumption | with_reducible apply State.setPwsCh_kept | with_reducible apply Kept.ite)

theorem muteStep_kept {ρ : Bool} {χ : List Part} {σ s : State} {c : Nat} (hw : Sub [.pws] χ) (hk : Kept ρ χ σ s) :
    Kept ρ χ σ (muteStep c s) := by
  unfold muteStep
  repeat' (first | with_reducible assumption | with_reducible apply State.setPwsCh_kept | with_reducible apply Kept.ite)

theorem gatesOff_kept {ρ : Bool} {χ : List Part} {σ s : State} {c : Nat} (hw : Sub [.lkt, .cmds, .boot, .pws, .tdm, .net, .red, .tw] χ) (hk : Kept ρ χ σ s) :
    Kept ρ χ σ (gatesOff c s) := by
  unfold gatesOff
  repeat' (first
    | with_reducible assumption | exact Sub.of hw rfl | with_reducible apply State.setPwsCh_kept
    | with_reducible apply latch_kept | with_reducible apply Kept.ite | split)

theorem currentLimit_kept {ρ : Bool} {χ : List Part} {σ s : State} {c : Nat} (hw : Sub [.pws] χ) (hk : Kept ρ χ σ s) :
    Kept ρ χ σ (currentLimit c s) := by
  unfold currentLimit
  repeat' (first | with_reducible assumption | with_reducible apply State.setPwsCh_kept | with_reducible apply Kept.ite)

theorem limitShutdown_kept {ρ : Bool} {χ : List Part} {σ s : State} {c : Nat} (hw : Sub [.lkt, .cmds, .boot, .pws, .tdm, .net, .red, .tw] χ) (hk : Kept ρ χ σ s) :
    Kept ρ χ σ (limitShutdown c s) := by
  unfold limitShutdown
  repeat' (first
    | with_reducible assumption | exact Sub.of hw rfl | with_reducible apply reportFault_kept
    | with_reducible apply State.setPwsCh_kept | with_reducible apply latch_kept | with_reducible apply Kept.ite)

theorem retryStart_kept {ρ : Bool} {χ : List Part} {σ s : State} {c : Nat} (hw : Sub [.pws] χ) (hk : Kept ρ χ σ s) :
    Kept ρ χ σ (retryStart s c) := by
  unfold retryStart
  repeat' (first
    | with_reducible assumption | with_reducible apply beginStart_kept | with_reducible apply State.setPwsCh_kept)

theorem retryExpiry_kept {ρ : Bool} {χ : List Part} {σ s : State} {c : Nat} (hw : Sub [.pws] χ) (hk : Kept ρ χ σ s) :
    Kept ρ χ σ (retryExpiry c s) := by
  unfold retryExpiry
  repeat' (first
    | with_reducible assumption | with_reducible apply State.setPwsCh_kept | with_reducible apply retryStart_kept
    | with_reducible apply Kept.ite)

theorem retriesReset_kept {ρ : Bool} {χ : List Part} {σ s : State} {c : Nat} (hw : Sub [.pws] χ) (hk : Kept ρ χ σ s) :
    Kept ρ χ σ (retriesReset c s) := by
  unfold retriesReset
  repeat' (first | with_reducible assumption | with_reducible apply State.setPwsCh_kept | with_reducible apply Kept.ite)

theorem dcWindow_kept {ρ : Bool} {χ : List Part} {σ s : State} {c : Nat} {mv : Word} {limited : Bool} (hw : Sub [.lkt, .cmds, .boot, .pws, .tdm, .net, .red, .tw] χ) (hk : Kept ρ χ σ s) :
    Kept ρ χ σ (dcWindow c mv limited s) := by
  unfold dcWindow
  repeat' (first
    | with_reducible assumption | exact Sub.of hw rfl | with_reducible apply State.setPwsCh_kept
    | with_reducible apply beginStop_kept | with_reducible apply reportFault_kept | with_reducible apply Kept.ite)

theorem uvChannel_kept {ρ : Bool} {χ : List Part} {σ s : State} {c : Nat} (hw : Sub [.lkt, .cmds, .boot, .pws, .tdm, .net, .red, .tw] χ) (hk : Kept ρ χ σ s) :
    Kept ρ χ σ (uvChannel s c) := by
  unfold uvChannel
  repeat' (first | with_reducible assumption | with_reducible apply beginStop_kept | with_reducible apply Kept.ite)

theorem ovChannel_kept {ρ : Bool} {χ : List Part} {σ s : State} {c : Nat} (hw : Sub [.lkt, .cmds, .boot, .pws, .tdm, .net, .red, .tw] χ) (hk : Kept ρ χ σ s) :
    Kept ρ χ σ (ovChannel s c) := by
  unfold ovChannel
  repeat' (first
    | with_reducible assumption | exact Sub.of hw rfl | with_reducible apply latch_kept
    | with_reducible apply State.setPwsCh_kept | with_reducible apply Kept.ite)

theorem busUnder_kept {ρ : Bool} {χ : List Part} {σ s : State} {vbus : Half} (hw : Sub [.lkt, .cmds, .boot, .pws, .tdm, .net, .red, .tw] χ) (hk : Kept ρ χ σ s) :
    Kept ρ χ σ (busUnder vbus s) := by
  unfold busUnder
  repeat' (first
    | with_reducible assumption | exact Sub.of hw rfl | with_reducible apply reportOwn_kept
    | with_reducible apply uvChannel_kept | (simp only [keptTo]; refine KeptTo.view hw ?_ rfl)
    | (with_reducible apply Kept.foldl; intro _ _ _))

theorem busOver_kept {ρ : Bool} {χ : List Part} {σ s : State} {vbus : Half} (hw : Sub [.lkt, .cmds, .boot, .pws, .tdm, .net, .red, .tw] χ) (hk : Kept ρ χ σ s) :
    Kept ρ χ σ (busOver vbus s) := by
  unfold busOver
  repeat' (first
    | with_reducible assumption | exact Sub.of hw rfl | with_reducible apply reportOwn_kept
    | with_reducible apply ovChannel_kept | (simp only [keptTo]; refine KeptTo.view hw ?_ rfl)
    | (with_reducible apply Kept.foldl; intro _ _ _))

theorem recoverChannel_kept {ρ : Bool} {χ : List Part} {σ s : State} {c : Nat} (hw : Sub [.pws] χ) (hk : Kept ρ χ σ s) :
    Kept ρ χ σ (recoverChannel s c) := by
  unfold recoverChannel
  repeat' (first
    | with_reducible assumption | with_reducible apply State.setPwsCh_kept | with_reducible apply beginStart_kept
    | with_reducible apply retryStart_kept | with_reducible apply Kept.ite)

theorem busRecovery_kept {ρ : Bool} {χ : List Part} {σ s : State} {vbus : Half} (hw : Sub [.pws] χ) (hk : Kept ρ χ σ s) :
    Kept ρ χ σ (busRecovery vbus s) := by
  unfold busRecovery
  repeat' (first
    | with_reducible assumption | with_reducible apply recoverChannel_kept
    | (simp only [keptTo]; with_reducible apply KeptTo.intro hw)
    | (show ∀ p : Part, _; intro p; cases p <;> dsimp only [Part.same] <;> first | exact .inl (by decide) | exact .inr (by with_reducible rfl) | exact .inr rfl)
    | with_reducible rfl | with_reducible exact MemTo.refl _ | with_reducible exact Otp.Grown.refl _
    | (with_reducible apply Kept.foldl; intro _ _ _))

theorem staggerLock_kept {ρ : Bool} {χ : List Part} {σ s : State} {c : Nat} {lock : Bool} (hw : Sub [.pws] χ) (hk : Kept ρ χ σ s) :
    Kept ρ χ σ (staggerLock c lock s) := by
  unfold staggerLock
  repeat' (first | with_reducible assumption | with_reducible apply State.setPwsCh_kept | with_reducible apply Kept.ite)

theorem guardPws_kept {ρ : Bool} {χ : List Part} {σ s : State} {c : Nat} {v : Word} (hw : Sub [.pws] χ) (hk : Kept ρ χ σ s) :
    Kept ρ χ σ (guardPws s c v) := by
  unfold guardPws
  repeat' (first | with_reducible assumption | with_reducible apply State.setPwsCh_kept | with_reducible apply Kept.ite)

theorem pwsStopAll_kept {ρ : Bool} {χ : List Part} {σ s : State} (hw : Sub [.lkt, .cmds, .boot, .pws, .tdm, .net, .red, .tw] χ) (hk : Kept ρ χ σ s) :
    Kept ρ χ σ (pwsStopAll s) := by
  unfold pwsStopAll
  repeat' (first
    | with_reducible assumption | with_reducible apply stopChannel_kept
    | (with_reducible apply Kept.foldl; intro _ _ _))

end Sys2Proof.Machine
end

