-- ==== Sys2Proof/Laws/Kept/PairOps.lean ====
section
/-! SUPPORT. What the operations of Machine/PairOps.lean keep. -/

namespace Sys2Proof.Machine

theorem leaveStep_kept {ρ : Bool} {χ : List Part} {σ s : State} {cause : Nat} (hw : Sub [.lkt, .cmds, .boot, .tdm, .net, .red, .tw] χ) (hk : Kept ρ χ σ s) :
    Kept ρ χ σ (leaveStep cause s) := by
  unfold leaveStep
  repeat' (first
    | with_reducible assumption | with_reducible apply reportOwn_kept
    | (simp only [keptTo]; with_reducible apply KeptTo.intro hw)
    | (show ∀ p : Part, _; intro p; cases p <;> dsimp only [Part.same] <;> first | exact .inl (by decide) | exact .inr (by with_reducible rfl) | exact .inr rfl)
    | with_reducible rfl | with_reducible exact MemTo.refl _ | with_reducible exact Otp.Grown.refl _
    | with_reducible apply Kept.ite)

theorem noteCrc_kept {ρ : Bool} {χ : List Part} {σ s : State} {c : Word} {ctx : Nat} {crc : Word} (hw : Sub [.red] χ) (hk : Kept ρ χ σ s) :
    Kept ρ χ σ (noteCrc c ctx crc s) := .view hw hk rfl

end Sys2Proof.Machine
end

