-- ==== Sys2Proof/Laws/Kept/WaveOps.lean ====
section
/-! SUPPORT. What the operations of Machine/WaveOps.lean keep. -/

namespace Sys2Proof.Machine

theorem writeInit_kept {ρ : Bool} {χ : List Part} {σ s : State} {d : InitData} (hw : Sub [.crn, .mem] χ) (hk : Kept ρ χ σ s) :
    Kept ρ χ σ (writeInit s d) := by
  unfold writeInit
  repeat' (first
    | with_reducible assumption | exact Sub.of hw rfl | with_reducible apply State.setEngine_kept
    | (simp only [keptTo]; with_reducible apply KeptTo.intro hw)
    | (show ∀ p : Part, _; intro p; cases p <;> dsimp only [Part.same] <;> first | exact .inl (by decide) | exact .inr (by with_reducible rfl) | exact .inr rfl)
    | with_reducible rfl | with_reducible exact MemTo.refl _ | with_reducible exact Otp.Grown.refl _
    | with_reducible apply MemTo.writeTarn | with_reducible apply MemTo.writeDram | with_reducible apply Kept.ite)

theorem loadProgram_kept {ρ : Bool} {χ : List Part} {σ s : State} {bank : Nat} {x : Nat × List Long} (hw : Sub [.crn] χ) (hk : Kept ρ χ σ s) :
    Kept ρ χ σ (loadProgram bank s x) := by
  unfold loadProgram
  repeat' (first | with_reducible assumption | with_reducible apply State.setEngine_kept)

theorem keepPrograms_kept {ρ : Bool} {χ : List Part} {σ s : State} {part half : Nat} (hw : Sub [.crn] χ) (hk : Kept ρ χ σ s) :
    Kept ρ χ σ (keepPrograms part half s) := by
  have step (t : State) (n : Nat) (ht : Kept ρ χ σ t) : Kept ρ χ σ (keepProgram half t n) := by
    unfold keepProgram
    exact State.setEngine_kept hw ht
  unfold keepPrograms
  split
  · exact hk
  · exact Kept.foldl _ _ step hk

theorem buildComplete_kept {ρ : Bool} {χ : List Part} {σ s : State} (hw : Sub [.cmds, .boot, .rdg, .crn, .mem] χ) (hk : Kept ρ χ σ s) :
    Kept ρ χ σ (buildComplete s) := by
  unfold buildComplete
  repeat' (first
    | with_reducible assumption | exact Sub.of hw rfl | with_reducible apply writeInit_kept
    | with_reducible apply loadProgram_kept | with_reducible apply keepPrograms_kept | with_reducible apply giveResult_kept
    | with_reducible apply graphRefuse_kept | (simp only [keptTo]; refine KeptTo.view hw ?_ rfl)
    | (with_reducible apply Kept.foldl; intro _ _ _) | split)

theorem markDispatched_kept {ρ : Bool} {χ : List Part} {σ s : State} {p i : Nat} (hw : Sub [.wave] χ) (hk : Kept ρ χ σ s) :
    Kept ρ χ σ (markDispatched s p i) := .view hw hk rfl

theorem entryDispatch_kept {ρ : Bool} {χ : List Part} {σ s : State} {p i : Nat} (hw : Sub [.lkt, .cmds, .boot, .tdm, .wave, .crn, .mtx, .col, .net, .red, .tw, .mem] χ) (hk : Kept ρ χ σ s) :
    Kept ρ χ σ (entryDispatch p i s) := by
  unfold entryDispatch
  repeat' (first
    | with_reducible assumption | exact Sub.of hw rfl | with_reducible apply markDispatched_kept
    | with_reducible apply runSlice_kept | with_reducible apply markDone_kept
    | with_reducible apply State.setEngine_kept | with_reducible apply Kept.ite | split)

theorem entryCompletion_kept {ρ : Bool} {χ : List Part} {σ s : State} {p i : Nat} (hw : Sub [.lkt, .cmds, .boot, .tdm, .wave, .crn, .col, .net, .red, .tw] χ) (hk : Kept ρ χ σ s) :
    Kept ρ χ σ (entryCompletion p i s) := by
  unfold entryCompletion
  repeat' (first
    | with_reducible assumption | exact Sub.of hw rfl | with_reducible apply markDone_kept
    | with_reducible apply finishFar_kept | with_reducible apply State.setEngine_kept | with_reducible apply Kept.ite
    | split)

theorem applyCell_kept {ρ : Bool} {χ : List Part} {σ s : State} {w : GainCell} (hw : Sub [.rdg, .crn] χ) (hk : Kept ρ χ σ s) :
    Kept ρ χ σ (applyCell s w) := by
  unfold applyCell
  repeat' (first
    | with_reducible assumption | exact Sub.of hw rfl | with_reducible apply State.setEngine_kept
    | (simp only [keptTo]; with_reducible apply KeptTo.intro hw)
    | (show ∀ p : Part, _; intro p; cases p <;> dsimp only [Part.same] <;> first | exact .inl (by decide) | exact .inr (by with_reducible rfl) | exact .inr rfl)
    | with_reducible rfl | with_reducible exact MemTo.refl _ | with_reducible exact Otp.Grown.refl _
    | with_reducible apply Kept.ite)

theorem readBack_kept {ρ : Bool} {χ : List Part} {σ s : State} {w : GainCell} (hw : Sub [.rdg, .crn] χ) (hk : Kept ρ χ σ s) :
    Kept ρ χ σ (readBack s w) := by
  unfold readBack
  repeat' (first
    | with_reducible assumption | exact Sub.of hw rfl | with_reducible apply State.setEngine_kept
    | (simp only [keptTo]; with_reducible apply KeptTo.intro hw)
    | (show ∀ p : Part, _; intro p; cases p <;> dsimp only [Part.same] <;> first | exact .inl (by decide) | exact .inr (by with_reducible rfl) | exact .inr rfl)
    | with_reducible rfl | with_reducible exact MemTo.refl _ | with_reducible exact Otp.Grown.refl _
    | with_reducible apply Kept.ite)

theorem paramWindow_kept {ρ : Bool} {χ : List Part} {σ s : State} {n : Nat} (hw : Sub [.rdg, .crn] χ) (hk : Kept ρ χ σ s) :
    Kept ρ χ σ (paramWindow n s) := by
  unfold paramWindow
  repeat' (first
    | with_reducible assumption | with_reducible apply readBack_kept | with_reducible apply applyCell_kept
    | with_reducible apply Kept.ite | (with_reducible apply Kept.foldl; intro _ _ _))

theorem gainTimeout_kept {ρ : Bool} {χ : List Part} {σ s : State} {n addr : Nat} (hw : Sub [.crn] χ) (hk : Kept ρ χ σ s) :
    Kept ρ χ σ (gainTimeout n addr s) := by
  unfold gainTimeout
  repeat' (first | with_reducible assumption | with_reducible apply State.setEngine_kept | with_reducible apply Kept.ite)

theorem launchWave_kept {ρ : Bool} {χ : List Part} {σ s : State} {k : Word} (hw : Sub [.wave, .rdg, .crn, .mtx, .col] χ) (hk : Kept ρ χ σ s) :
    Kept ρ χ σ (launchWave k s) := by
  unfold launchWave
  repeat' (first
    | with_reducible assumption | exact Sub.of hw rfl | with_reducible apply gainStep_kept
    | with_reducible apply beginHalt_kept | with_reducible apply applyCommit_kept
    | with_reducible apply wakeFabric_kept | (simp only [keptTo]; refine KeptTo.view hw ?_ rfl))

theorem endWave_kept {ρ : Bool} {χ : List Part} {σ s : State} (hw : Sub [.wave, .crn] χ) (hk : Kept ρ χ σ s) :
    Kept ρ χ σ (endWave s) := .view hw hk rfl

theorem keepImage_kept {ρ : Bool} {χ : List Part} {σ s : State} {late : Bool} (hw : Sub [.wave] χ) (hk : Kept ρ χ σ s) :
    Kept ρ χ σ (keepImage late s) := .view hw hk rfl

theorem tokenSlack_kept {ρ : Bool} {χ : List Part} {σ s : State} {slack : Word} (hw : Sub [.fab] χ) (hk : Kept ρ χ σ s) :
    Kept ρ χ σ (tokenSlack slack s) := .view hw hk rfl

theorem launchWaiting_kept {ρ : Bool} {χ : List Part} {σ s : State} (hw : Sub [.fab, .wave, .rdg, .crn, .mtx, .col] χ) (hk : Kept ρ χ σ s) :
    Kept ρ χ σ (launchWaiting s) := by
  unfold launchWaiting
  repeat' (first
    | with_reducible assumption | exact Sub.of hw rfl | with_reducible apply launchWave_kept
    | (simp only [keptTo]; refine KeptTo.view hw ?_ rfl) | split)

theorem completionToken_kept {ρ : Bool} {χ : List Part} {σ s : State} {slack : Word} (hw : Sub [.fab, .wave, .rdg, .crn, .mtx, .col] χ) (hk : Kept ρ χ σ s) :
    Kept ρ χ σ (completionToken slack s) := by
  unfold completionToken
  repeat' (first
    | with_reducible assumption | exact Sub.of hw rfl | with_reducible apply launchWaiting_kept
    | with_reducible apply endWave_kept | with_reducible apply keepImage_kept | with_reducible apply tokenSlack_kept
    | split)

theorem crnSetTrapEscalation_kept {ρ : Bool} {χ : List Part} {σ s : State} {th : Half} (hw : Sub [.crn] χ) (hk : Kept ρ χ σ s) :
    Kept ρ χ σ (crnSetTrapEscalation th s).1 := by
  unfold crnSetTrapEscalation
  repeat' (first
    | with_reducible assumption | (simp only [keptTo]; refine KeptTo.view hw ?_ rfl)
    | with_reducible apply Kept.ite_fst)

theorem crnGetStatus_kept {ρ : Bool} {χ : List Part} {σ s : State} (hw : Sub [] χ) (hk : Kept ρ χ σ s) :
    Kept ρ χ σ (crnGetStatus s).1 := by
  unfold crnGetStatus
  repeat' (first | with_reducible assumption)

theorem crnReadMem_kept {ρ : Bool} {χ : List Part} {σ s : State} {engine mem : Byte} {addr count : Half} (hw : Sub [] χ) (hk : Kept ρ χ σ s) :
    Kept ρ χ σ (crnReadMem engine mem addr count s).1 := by
  unfold crnReadMem
  repeat' (first | with_reducible assumption | with_reducible apply Kept.ite_fst)

end Sys2Proof.Machine
end

