-- ==== Sys2Proof/Laws/Kept/Taps.lean ====
section
/-! SUPPORT. What the operations of Machine/Taps.lean keep. -/

namespace Sys2Proof.Machine

theorem State.setTap_kept {ρ : Bool} {χ : List Part} {σ s : State} {t : Nat} {x : Tap} (hw : Sub [.stm] χ) (hk : Kept ρ χ σ s) :
    Kept ρ χ σ (State.setTap s t x) := .view hw hk rfl

theorem tapWindowEnd_kept {ρ : Bool} {χ : List Part} {σ s : State} {n : Nat} (hw : Sub [.lkt, .cmds, .boot, .tdm, .net, .stm, .red, .tw] χ) (hk : Kept ρ χ σ s) :
    Kept ρ χ σ (tapWindowEnd n s) := by
  unfold tapWindowEnd
  repeat' (first
    | with_reducible assumption | exact Sub.of hw rfl | with_reducible apply State.setTap_kept
    | with_reducible apply reportFault_kept | with_reducible apply Kept.ite)

theorem tapFeed_kept {ρ : Bool} {χ : List Part} {σ s : State} {kind unit ch : Nat} {idx : Word} {x : Option Word} (hw : Sub [.lkt, .cmds, .boot, .tdm, .net, .stm, .red, .tw] χ) (hk : Kept ρ χ σ s) :
    Kept ρ χ σ (tapFeed kind unit ch idx x s) := by
  unfold tapFeed
  repeat' (first
    | with_reducible assumption | exact Sub.of hw rfl | with_reducible apply tapWindowEnd_kept
    | with_reducible apply State.setTap_kept | with_reducible apply Kept.ite
    | (with_reducible apply Kept.foldl; intro _ _ _))

theorem tapSet_kept {ρ : Bool} {χ : List Part} {σ s : State} {c : TapSet} (hw : Sub [.stm] χ) (hk : Kept ρ χ σ s) :
    Kept ρ χ σ (tapSet c s).1 := by
  unfold tapSet
  repeat' (first | with_reducible assumption | with_reducible apply State.setTap_kept | with_reducible apply Kept.ite_fst)

theorem tapGet_kept {ρ : Bool} {χ : List Part} {σ s : State} {tap : Byte} (hw : Sub [] χ) (hk : Kept ρ χ σ s) :
    Kept ρ χ σ (tapGet tap s).1 := by
  unfold tapGet
  repeat' (first | with_reducible assumption | with_reducible apply Kept.ite_fst)

end Sys2Proof.Machine
end

