-- ==== Sys2Proof/Laws/Kept/Tdm.lean ====
section
/-! SUPPORT. What the operations of Machine/Tdm.lean keep. -/

namespace Sys2Proof.Machine

theorem tdmSetGroup_kept {ρ : Bool} {χ : List Part} {σ s : State} {c : TdmSetGroup} (hw : Sub [.tdm] χ) (hk : Kept ρ χ σ s) :
    Kept ρ χ σ (tdmSetGroup c s).1 := by
  unfold tdmSetGroup
  repeat' (first
    | with_reducible assumption | with_reducible apply State.setGroup_kept | with_reducible apply Kept.ite_fst)

theorem tdmSetPort_kept {ρ : Bool} {χ : List Part} {σ s : State} {c : TdmSetPort} (hw : Sub [.tdm] χ) (hk : Kept ρ χ σ s) :
    Kept ρ χ σ (tdmSetPort c s).1 := by
  unfold tdmSetPort
  repeat' (first
    | with_reducible assumption | with_reducible apply State.setPort_kept | with_reducible apply Kept.ite_fst)

theorem tdmSetRing_kept {ρ : Bool} {χ : List Part} {σ s : State} {part : Nat} {c : TdmSetRing} (hw : Sub [.tdm] χ) (hk : Kept ρ χ σ s) :
    Kept ρ χ σ (tdmSetRing part c s).1 := by
  unfold tdmSetRing
  repeat' (first
    | with_reducible assumption | with_reducible apply State.setPort_kept | with_reducible apply Kept.ite_fst)

theorem tdmStageMask_kept {ρ : Bool} {χ : List Part} {σ s : State} {c : TdmStageMask} (hw : Sub [.tdm] χ) (hk : Kept ρ χ σ s) :
    Kept ρ χ σ (tdmStageMask c s).1 := by
  unfold tdmStageMask
  repeat' (first
    | with_reducible assumption | with_reducible apply State.setPort_kept | with_reducible apply Kept.ite_fst)

theorem commitPort_kept {ρ : Bool} {χ : List Part} {σ s : State} {n : Nat} (hw : Sub [.tdm] χ) (hk : Kept ρ χ σ s) :
    Kept ρ χ σ (commitPort s n) := by
  unfold commitPort
  repeat' (first | with_reducible assumption | with_reducible apply State.setPort_kept | with_reducible apply Kept.ite)

theorem tdmCommit_kept {ρ : Bool} {χ : List Part} {σ s : State} {mask : Long} (hw : Sub [.tdm] χ) (hk : Kept ρ χ σ s) :
    Kept ρ χ σ (tdmCommit mask s).1 := by
  unfold tdmCommit
  repeat' (first
    | with_reducible assumption | with_reducible apply commitPort_kept | with_reducible apply Kept.ite_fst
    | (with_reducible apply Kept.foldl; intro _ _ _))

theorem startPort_kept {ρ : Bool} {χ : List Part} {σ s : State} {n : Nat} (hw : Sub [.tdm] χ) (hk : Kept ρ χ σ s) :
    Kept ρ χ σ (startPort s n) := by
  unfold startPort
  repeat' (first | with_reducible assumption | with_reducible apply State.setPort_kept | with_reducible apply Kept.ite)

theorem tdmStart_kept {ρ : Bool} {χ : List Part} {σ s : State} {mask : Long} (hw : Sub [.tdm] χ) (hk : Kept ρ χ σ s) :
    Kept ρ χ σ (tdmStart mask s).1 := by
  unfold tdmStart
  repeat' (first
    | with_reducible assumption | with_reducible apply startPort_kept | with_reducible apply Kept.ite_fst
    | (with_reducible apply Kept.foldl; intro _ _ _))

theorem stopPort_kept {ρ : Bool} {χ : List Part} {σ s : State} {n : Nat} (hw : Sub [.tdm] χ) (hk : Kept ρ χ σ s) :
    Kept ρ χ σ (stopPort s n) := by
  unfold stopPort
  repeat' (first | with_reducible assumption | with_reducible apply State.setPort_kept | with_reducible apply Kept.ite)

theorem tdmStop_kept {ρ : Bool} {χ : List Part} {σ s : State} {mask : Long} (hw : Sub [.tdm] χ) (hk : Kept ρ χ σ s) :
    Kept ρ χ σ (tdmStop mask s).1 := by
  unfold tdmStop
  repeat' (first
    | with_reducible assumption | with_reducible apply stopPort_kept | with_reducible apply Kept.ite_fst
    | (with_reducible apply Kept.foldl; intro _ _ _))

theorem tdmGetStatus_kept {ρ : Bool} {χ : List Part} {σ s : State} {port : Byte} (hw : Sub [] χ) (hk : Kept ρ χ σ s) :
    Kept ρ χ σ (tdmGetStatus port s).1 := by
  unfold tdmGetStatus
  repeat' (first | with_reducible assumption | with_reducible apply Kept.ite_fst)

theorem putEntry_kept {ρ : Bool} {χ : List Part} {σ s : State} {n : Nat} {k : Word} {par repeats gated : Bool} {words : List Word} (hw : Sub [.tdm, .dma, .mem] χ) (hk : Kept ρ χ σ s) :
    Kept ρ χ σ (putEntry n k par repeats gated words s) := by
  unfold putEntry
  repeat' (first
    | with_reducible assumption | exact Sub.of hw rfl | with_reducible apply State.setPort_kept
    | (simp only [keptTo]; with_reducible apply KeptTo.intro hw)
    | (show ∀ p : Part, _; intro p; cases p <;> dsimp only [Part.same] <;> first | exact .inl (by decide) | exact .inr (by with_reducible rfl) | exact .inr rfl)
    | with_reducible rfl | with_reducible exact MemTo.refl _ | with_reducible exact Otp.Grown.refl _
    | with_reducible apply MemTo.writeTarn | with_reducible apply Kept.ite)

theorem tapRx_kept {ρ : Bool} {χ : List Part} {σ s : State} {n : Nat} {k : Word} {xs : List (Nat × Word)} (hw : Sub [.lkt, .cmds, .boot, .tdm, .net, .stm, .red, .tw] χ) (hk : Kept ρ χ σ s) :
    Kept ρ χ σ (tapRx n k xs s) := by
  unfold tapRx
  repeat' (first
    | with_reducible assumption | with_reducible apply tapFeed_kept | (with_reducible apply Kept.foldl; intro _ _ _))

theorem passFrame_kept {ρ : Bool} {χ : List Part} {σ s : State} {n : Nat} {f : TdmFrame} (hw : Sub [.lkt, .cmds, .boot, .tdm, .dma, .net, .stm, .red, .tw, .mem] χ) (hk : Kept ρ χ σ s) :
    Kept ρ χ σ (passFrame n f s) := by
  unfold passFrame
  repeat' (first
    | with_reducible assumption | exact Sub.of hw rfl | with_reducible apply tapRx_kept
    | with_reducible apply putEntry_kept | with_reducible apply State.setPort_kept
    | with_reducible apply reportFault_kept | with_reducible apply Kept.ite)

theorem frameError_kept {ρ : Bool} {χ : List Part} {σ s : State} {n : Nat} {k : Word} {phase : Bool} (hw : Sub [.lkt, .cmds, .boot, .tdm, .dma, .net, .stm, .red, .tw, .mem] χ) (hk : Kept ρ χ σ s) :
    Kept ρ χ σ (frameError n k phase s) := by
  unfold frameError
  repeat' (first
    | with_reducible assumption | exact Sub.of hw rfl | with_reducible apply State.setPort_kept
    | with_reducible apply tapRx_kept | with_reducible apply putEntry_kept | with_reducible apply reportFault_kept
    | with_reducible apply Kept.ite)

theorem tdmFrame_kept {ρ : Bool} {χ : List Part} {σ s : State} {n : Nat} {f : TdmFrame} (hw : Sub [.lkt, .cmds, .boot, .tdm, .dma, .net, .stm, .red, .tw, .mem] χ) (hk : Kept ρ χ σ s) :
    Kept ρ χ σ (tdmFrame n f s) := by
  unfold tdmFrame
  repeat' (first
    | with_reducible assumption | exact Sub.of hw rfl | with_reducible apply passFrame_kept
    | with_reducible apply State.setPort_kept | with_reducible apply frameError_kept | with_reducible apply Kept.ite)

theorem fsyncTimeout_kept {ρ : Bool} {χ : List Part} {σ s : State} {n : Nat} (hw : Sub [.lkt, .cmds, .boot, .tdm, .dma, .net, .stm, .red, .tw, .mem] χ) (hk : Kept ρ χ σ s) :
    Kept ρ χ σ (fsyncTimeout n s) := by
  unfold fsyncTimeout
  repeat' (first
    | with_reducible assumption | exact Sub.of hw rfl | with_reducible apply frameError_kept
    | with_reducible apply State.setPort_kept | with_reducible apply Kept.ite)

theorem slaveLock_kept {ρ : Bool} {χ : List Part} {σ s : State} {n : Nat} (hw : Sub [.tdm] χ) (hk : Kept ρ χ σ s) :
    Kept ρ χ σ (slaveLock n s) := by
  unfold slaveLock
  repeat' (first | with_reducible assumption | with_reducible apply State.setPort_kept | with_reducible apply Kept.ite)

theorem asrcUnlock_kept {ρ : Bool} {χ : List Part} {σ s : State} {g : Nat} (hw : Sub [.lkt, .cmds, .boot, .tdm, .net, .red, .tw] χ) (hk : Kept ρ χ σ s) :
    Kept ρ χ σ (asrcUnlock g s) := by
  unfold asrcUnlock
  repeat' (first
    | with_reducible assumption | exact Sub.of hw rfl | with_reducible apply State.setGroup_kept
    | with_reducible apply State.setPort_kept | with_reducible apply reportOwn_kept | with_reducible apply Kept.ite
    | (with_reducible apply Kept.foldl; intro _ _ _))

theorem syncLost_kept {ρ : Bool} {χ : List Part} {σ s : State} {n : Nat} (hw : Sub [.lkt, .cmds, .boot, .tdm, .net, .red, .tw] χ) (hk : Kept ρ χ σ s) :
    Kept ρ χ σ (syncLost n s) := by
  unfold syncLost
  repeat' (first
    | with_reducible assumption | exact Sub.of hw rfl | with_reducible apply reportFault_kept
    | with_reducible apply State.setPort_kept | with_reducible apply asrcUnlock_kept | with_reducible apply Kept.ite)

theorem gateTimeout_kept {ρ : Bool} {χ : List Part} {σ s : State} {n : Nat} {dir : TdmDir} {j : Nat} (hw : Sub [.tdm] χ) (hk : Kept ρ χ σ s) :
    Kept ρ χ σ (gateTimeout n dir j s) := by
  unfold gateTimeout
  repeat' (first
    | with_reducible assumption | with_reducible apply State.setPort_kept | with_reducible apply State.setGroup_kept
    | split | dsimp only)

theorem fadeEnd_kept {ρ : Bool} {χ : List Part} {σ s : State} {n : Nat} {dir : TdmDir} {j : Nat} (hw : Sub [.tdm] χ) (hk : Kept ρ χ σ s) :
    Kept ρ χ σ (fadeEnd n dir j s) := by
  unfold fadeEnd
  repeat' (first | with_reducible assumption | with_reducible apply State.setPort_kept)

theorem maskChange_kept {ρ : Bool} {χ : List Part} {σ s : State} {n : Nat} (hw : Sub [.tdm] χ) (hk : Kept ρ χ σ s) :
    Kept ρ χ σ (maskChange n s) := by
  unfold maskChange
  repeat' (first
    | with_reducible assumption | with_reducible apply State.setPort_kept | with_reducible apply Kept.ite | split
    | dsimp only)

theorem portRunning_kept {ρ : Bool} {χ : List Part} {σ s : State} {n : Nat} (hw : Sub [.tdm] χ) (hk : Kept ρ χ σ s) :
    Kept ρ χ σ (portRunning n s) := by
  unfold portRunning
  repeat' (first | with_reducible assumption | with_reducible apply State.setPort_kept | with_reducible apply Kept.ite)

theorem portStopped_kept {ρ : Bool} {χ : List Part} {σ s : State} {n : Nat} (hw : Sub [.tdm] χ) (hk : Kept ρ χ σ s) :
    Kept ρ χ σ (portStopped n s) := by
  unfold portStopped
  repeat' (first | with_reducible assumption | with_reducible apply State.setPort_kept | with_reducible apply Kept.ite)

theorem asrcLock_kept {ρ : Bool} {χ : List Part} {σ s : State} {g : Nat} (hw : Sub [.tdm] χ) (hk : Kept ρ χ σ s) :
    Kept ρ χ σ (asrcLock g s) := by
  unfold asrcLock
  repeat' (first
    | with_reducible assumption | with_reducible apply State.setGroup_kept | with_reducible apply State.setPort_kept
    | with_reducible apply Kept.ite | (with_reducible apply Kept.foldl; intro _ _ _))

theorem asrcMeasure_kept {ρ : Bool} {χ : List Part} {σ s : State} {g : Nat} {ofs : Word} (hw : Sub [.lkt, .cmds, .boot, .tdm, .net, .red, .tw] χ) (hk : Kept ρ χ σ s) :
    Kept ρ χ σ (asrcMeasure g ofs s) := by
  unfold asrcMeasure
  repeat' (first
    | with_reducible assumption | exact Sub.of hw rfl | with_reducible apply State.setGroup_kept
    | with_reducible apply asrcUnlock_kept | with_reducible apply Kept.ite)

theorem searchEntry_kept {ρ : Bool} {χ : List Part} {σ s : State} {k : Word} {n : Nat} (hw : Sub [.tdm, .dma, .mem] χ) (hk : Kept ρ χ σ s) :
    Kept ρ χ σ (searchEntry k s n) := by
  unfold searchEntry
  repeat' (first
    | with_reducible assumption | exact Sub.of hw rfl | with_reducible apply putEntry_kept
    | with_reducible apply State.setPort_kept)

theorem foreignEntry_kept {ρ : Bool} {χ : List Part} {σ s : State} {k : Word} {n : Nat} (hw : Sub [.lkt, .cmds, .boot, .tdm, .dma, .net, .stm, .red, .tw, .mem, .fresh] χ) (hk : Kept ρ χ σ s) :
    Kept ρ χ σ (foreignEntry k s n) := by
  unfold foreignEntry
  repeat' (first
    | with_reducible assumption | exact Sub.of hw rfl | with_reducible apply drawN_kept
    | with_reducible apply tapRx_kept | with_reducible apply putEntry_kept | with_reducible apply State.setPort_kept
    | with_reducible apply Kept.ite)

theorem edgeEntries_kept {ρ : Bool} {χ : List Part} {σ s : State} {k : Word} (hw : Sub [.lkt, .cmds, .boot, .tdm, .dma, .net, .stm, .red, .tw, .mem, .fresh] χ) (hk : Kept ρ χ σ s) :
    Kept ρ χ σ (edgeEntries k s) := by
  unfold edgeEntries
  repeat' (first
    | with_reducible assumption | exact Sub.of hw rfl | with_reducible apply foreignEntry_kept
    | with_reducible apply searchEntry_kept | (simp only [keptTo]; refine KeptTo.view hw ?_ rfl)
    | with_reducible apply Kept.ite | (with_reducible apply Kept.foldl; intro _ _ _))

theorem ingressPort_kept {ρ : Bool} {χ : List Part} {σ s : State} {w k : Word} {n : Nat} (hw : Sub [.mem] χ) (hk : Kept ρ χ σ s) :
    Kept ρ χ σ (ingressPort w k s n) := by
  unfold ingressPort
  repeat' (first
    | with_reducible assumption | with_reducible apply putInput_kept | (with_reducible apply Kept.foldl; intro _ _ _))

theorem tdmIngress_kept {ρ : Bool} {χ : List Part} {σ s : State} {w : Word} (hw : Sub [.mem] χ) (hk : Kept ρ χ σ s) :
    Kept ρ χ σ (tdmIngress w s) := by
  unfold tdmIngress
  repeat' (first
    | with_reducible assumption | with_reducible apply ingressPort_kept
    | (with_reducible apply Kept.foldl; intro _ _ _))

theorem tapTx_kept {ρ : Bool} {χ : List Part} {σ s : State} {n : Nat} (hw : Sub [.lkt, .cmds, .boot, .tdm, .net, .stm, .red, .tw] χ) (hk : Kept ρ χ σ s) :
    Kept ρ χ σ (tapTx n s) := by
  unfold tapTx
  repeat' (first
    | with_reducible assumption | with_reducible apply tapFeed_kept | with_reducible apply Kept.ite
    | (with_reducible apply Kept.foldl; intro _ _ _))

theorem guardPort_kept {ρ : Bool} {χ : List Part} {σ s : State} {image : Option (Nat → Word)} {par : Word} {n : Nat} (hw : Sub [.lkt, .cmds, .boot, .tdm, .net, .red, .tw] χ) (hk : Kept ρ χ σ s) :
    Kept ρ χ σ (guardPort image par s n) := by
  unfold guardPort
  repeat' (first
    | with_reducible assumption | exact Sub.of hw rfl | with_reducible apply State.setPort_kept
    | with_reducible apply reportFault_kept | with_reducible apply Kept.ite)

theorem noteTx_kept {ρ : Bool} {χ : List Part} {σ s : State} {image : Option (Nat → Word)} {n : Nat} (hw : Sub [.tdm] χ) (hk : Kept ρ χ σ s) :
    Kept ρ χ σ (noteTx image n s) := by
  unfold noteTx
  repeat' (first | with_reducible assumption | with_reducible apply State.setPort_kept | with_reducible apply Kept.ite | split | dsimp only | exact Sub.of hw rfl)

theorem tdmGuard_kept {ρ : Bool} {χ : List Part} {σ s : State} {image : Option (Nat → Word)} {parity : List (Nat × Word)} (hw : Sub [.lkt, .cmds, .boot, .tdm, .net, .stm, .red, .tw] χ) (hk : Kept ρ χ σ s) :
    Kept ρ χ σ (tdmGuard image parity s) := by
  unfold tdmGuard
  repeat' (first
    | with_reducible assumption | exact Sub.of hw rfl | with_reducible apply tapTx_kept
    | with_reducible apply noteTx_kept
    | with_reducible apply guardPort_kept | (with_reducible apply Kept.foldl; intro _ _ _))

theorem tdmRateChange_kept {ρ : Bool} {χ : List Part} {σ s : State} (hw : Sub [.tdm] χ) (hk : Kept ρ χ σ s) :
    Kept ρ χ σ (tdmRateChange s) := .view hw hk rfl

end Sys2Proof.Machine
end

