-- ==== Sys2Proof/Laws/Kept/Switch.lean ====
section
/-! SUPPORT. What the operations of Machine/Switch.lean keep. -/

namespace Sys2Proof.Machine

theorem State.setNetPort_kept {ρ : Bool} {χ : List Part} {σ s : State} {n : Nat} {p : NetPort} (hw : Sub [.net] χ) (hk : Kept ρ χ σ s) :
    Kept ρ χ σ (State.setNetPort s n p) := by
  unfold State.setNetPort
  repeat' (first
    | with_reducible assumption | (simp only [keptTo]; with_reducible apply KeptTo.intro hw)
    | (show ∀ p : Part, _; intro p; cases p <;> dsimp only [Part.same] <;> first | exact .inl (by decide) | exact .inr (by with_reducible rfl) | exact .inr rfl)
    | with_reducible rfl | with_reducible exact MemTo.refl _ | with_reducible exact Otp.Grown.refl _
    | (show _ = _; first | (simp; done) | rfl))

theorem sendPause_kept {ρ : Bool} {χ : List Part} {σ s : State} {n quanta : Nat} (hw : Sub [.net] χ) (hk : Kept ρ χ σ s) :
    Kept ρ χ σ (sendPause n quanta s) := by
  unfold sendPause
  repeat' (first | with_reducible assumption | with_reducible apply State.setNetPort_kept)

theorem pauseCheckPort_kept {ρ : Bool} {χ : List Part} {σ s : State} {n : Nat} (hw : Sub [.net] χ) (hk : Kept ρ χ σ s) :
    Kept ρ χ σ (pauseCheckPort s n) := by
  unfold pauseCheckPort
  repeat' (first | with_reducible assumption | with_reducible apply sendPause_kept | with_reducible apply Kept.ite)

theorem pauseCheck_kept {ρ : Bool} {χ : List Part} {σ s : State} (hw : Sub [.net] χ) (hk : Kept ρ χ σ s) :
    Kept ρ χ σ (pauseCheck s) := by
  unfold pauseCheck
  repeat' (first
    | with_reducible assumption | with_reducible apply pauseCheckPort_kept
    | (with_reducible apply Kept.foldl; intro _ _ _))

theorem dropExpress_kept {ρ : Bool} {χ : List Part} {σ s : State} {n : Nat} (hw : Sub [.lkt, .cmds, .boot, .tdm, .net, .red, .tw] χ) (hk : Kept ρ χ σ s) :
    Kept ρ χ σ (dropExpress n s) := by
  unfold dropExpress
  repeat' (first
    | with_reducible assumption | exact Sub.of hw rfl | with_reducible apply State.setNetPort_kept
    | with_reducible apply reportOwn_kept | with_reducible apply Kept.ite)

theorem dropPre_kept {ρ : Bool} {χ : List Part} {σ s : State} {n : Nat} (hw : Sub [.net] χ) (hk : Kept ρ χ σ s) :
    Kept ρ χ σ (dropPre n s) := by
  unfold dropPre
  repeat' (first | with_reducible assumption | with_reducible apply State.setNetPort_kept)

theorem enqueue_kept {ρ : Bool} {χ : List Part} {σ s : State} {n : Nat} {f : QFrame} (hw : Sub [.lkt, .cmds, .boot, .tdm, .net, .red, .tw] χ) (hk : Kept ρ χ σ s) :
    Kept ρ χ σ (enqueue n f s).1 := by
  unfold enqueue
  repeat' (first
    | with_reducible assumption | exact Sub.of hw rfl | with_reducible apply dropExpress_kept
    | with_reducible apply State.setNetPort_kept | with_reducible apply dropPre_kept
    | with_reducible apply Kept.ite_fst)

theorem learn_kept {ρ : Bool} {χ : List Part} {σ s : State} {n domain vid : Nat} {bs : List Byte} (hw : Sub [.net] χ) (hk : Kept ρ χ σ s) :
    Kept ρ χ σ (learn n domain vid bs s) := by
  unfold learn
  repeat' (first
    | with_reducible assumption | (simp only [keptTo]; refine KeptTo.view hw ?_ rfl) | with_reducible apply Kept.ite
    | split | dsimp only)

theorem State.setRxRing_kept {ρ : Bool} {χ : List Part} {σ s : State} {r : Nat} {x : Ring} (hw : Sub [.net] χ) (hk : Kept ρ χ σ s) :
    Kept ρ χ σ (State.setRxRing s r x) := .view hw hk rfl

theorem State.setTxRing_kept {ρ : Bool} {χ : List Part} {σ s : State} {r : Nat} {x : Ring} (hw : Sub [.net] χ) (hk : Kept ρ χ σ s) :
    Kept ρ χ σ (State.setTxRing s r x) := .view hw hk rfl

theorem toHost_kept {ρ : Bool} {χ : List Part} {σ s : State} {bs : List Byte} {stamp : Option Int} {port : Nat} (hw : Sub [.net] χ) (hk : Kept ρ χ σ s) :
    Kept ρ χ σ (toHost bs stamp port s) := by
  unfold toHost
  repeat' (first | with_reducible assumption | with_reducible apply State.setRxRing_kept | with_reducible apply Kept.ite)

theorem toPort_kept {ρ : Bool} {χ : List Part} {σ s : State} {vid : Nat} {f : QFrame} {p : Nat} (hw : Sub [.lkt, .cmds, .boot, .tdm, .net, .red, .tw] χ) (hk : Kept ρ χ σ s) :
    Kept ρ χ σ (toPort vid f s p).1 := by
  unfold toPort
  repeat' (first
    | with_reducible assumption | exact Sub.of hw rfl | with_reducible apply enqueue_kept
    | with_reducible apply toHost_kept | with_reducible apply Kept.ite_fst)

theorem toPorts_kept {ρ : Bool} {χ : List Part} {σ s : State} {vid : Nat} {f : QFrame} {ps : List Nat} (hw : Sub [.lkt, .cmds, .boot, .tdm, .net, .red, .tw] χ) (hk : Kept ρ χ σ s) :
    Kept ρ χ σ (toPorts vid f ps s).1 := by
  unfold toPorts
  repeat' (first
    | with_reducible assumption | with_reducible apply toPort_kept | (with_reducible apply Kept.foldl_fst; intro _ _ _))

theorem obeyPause_kept {ρ : Bool} {χ : List Part} {σ s : State} {n : Nat} {opcode quanta : Half} (hw : Sub [.net] χ) (hk : Kept ρ χ σ s) :
    Kept ρ χ σ (obeyPause n opcode quanta s) := by
  unfold obeyPause
  repeat' (first | with_reducible assumption | with_reducible apply State.setNetPort_kept | with_reducible apply Kept.ite)

theorem countRx_kept {ρ : Bool} {χ : List Part} {σ s : State} {n len : Nat} (hw : Sub [.net] χ) (hk : Kept ρ χ σ s) :
    Kept ρ χ σ (countRx n len s) := by
  unfold countRx
  repeat' (first | with_reducible assumption | with_reducible apply State.setNetPort_kept)

theorem pauseReceived_kept {ρ : Bool} {χ : List Part} {σ s : State} {n : Nat} {opcode quanta : Half} (hw : Sub [.net] χ) (hk : Kept ρ χ σ s) :
    Kept ρ χ σ (pauseReceived n opcode quanta s) := by
  unfold pauseReceived
  repeat' (first
    | with_reducible assumption | with_reducible apply obeyPause_kept | with_reducible apply countRx_kept
    | with_reducible apply Kept.ite)

theorem forwardFrame_kept {ρ : Bool} {χ : List Part} {σ s : State} {n : Nat} {bs : List Byte} {stamp : Int} (hw : Sub [.lkt, .cmds, .boot, .tdm, .net, .red, .tw] χ) (hk : Kept ρ χ σ s) :
    Kept ρ χ σ (forwardFrame n bs stamp s) := by
  unfold forwardFrame
  repeat' (first
    | with_reducible assumption | exact Sub.of hw rfl | with_reducible apply learn_kept
    | with_reducible apply State.setNetPort_kept | with_reducible apply toHost_kept | with_reducible apply toPorts_kept
    | with_reducible apply Kept.ite)

theorem frameReceived_kept {ρ : Bool} {χ : List Part} {σ s : State} {n : Nat} {bs : List Byte} {fcsOk : Bool} {t : Stamp} (hw : Sub [.lkt, .cmds, .boot, .tdm, .net, .red, .tw] χ) (hk : Kept ρ χ σ s) :
    Kept ρ χ σ (frameReceived n bs fcsOk t s) := by
  unfold frameReceived
  repeat' (first
    | with_reducible assumption | exact Sub.of hw rfl | with_reducible apply State.setNetPort_kept
    | with_reducible apply obeyPause_kept | with_reducible apply countRx_kept | with_reducible apply pauseCheck_kept
    | with_reducible apply forwardFrame_kept | with_reducible apply Kept.ite)

theorem stampDesc_kept {ρ : Bool} {χ : List Part} {σ s : State} {a : Nat} {q : Int} (hw : Sub [.lkt, .cmds, .boot, .tdm, .mtx, .col, .net, .red, .tw, .mem] χ) (hk : Kept ρ χ σ s) :
    Kept ρ χ σ (stampDesc a q s) := by
  unfold stampDesc
  repeat' (first
    | with_reducible assumption | exact Sub.of hw rfl | (refine colRead_kept_eq ?_ ?_ (by assumption))
    | with_reducible apply colWrite_kept | with_reducible apply Kept.ite | split)

theorem frameTransmit_kept {ρ : Bool} {χ : List Part} {σ s : State} {n : Nat} {fcsBad : Bool} {t : Stamp} {frags : Nat} (hw : Sub [.lkt, .cmds, .boot, .tdm, .mtx, .col, .net, .red, .tw, .mem] χ) (hk : Kept ρ χ σ s) :
    Kept ρ χ σ (frameTransmit n fcsBad t frags s) := by
  unfold frameTransmit
  repeat' (first
    | with_reducible assumption | exact Sub.of hw rfl | with_reducible apply State.setNetPort_kept
    | with_reducible apply reportOwn_kept | with_reducible apply pauseCheck_kept | with_reducible apply stampDesc_kept
    | with_reducible apply Kept.ite | split)

theorem flushPort_kept {ρ : Bool} {χ : List Part} {σ s : State} {n : Nat} (hw : Sub [.lkt, .cmds, .boot, .tdm, .net, .red, .tw] χ) (hk : Kept ρ χ σ s) :
    Kept ρ χ σ (flushPort n s) := by
  unfold flushPort
  repeat' (first
    | with_reducible assumption | exact Sub.of hw rfl | with_reducible apply State.setNetPort_kept
    | with_reducible apply dropExpress_kept | (with_reducible apply Kept.foldl; intro _ _ _))

theorem dropLink_kept {ρ : Bool} {χ : List Part} {σ s : State} {n : Nat} (hw : Sub [.lkt, .cmds, .boot, .tdm, .net, .red, .tw] χ) (hk : Kept ρ χ σ s) :
    Kept ρ χ σ (dropLink n s) := by
  unfold dropLink
  repeat' (first
    | with_reducible assumption | exact Sub.of hw rfl | with_reducible apply flushPort_kept
    | with_reducible apply reportOwn_kept | with_reducible apply State.setNetPort_kept)

theorem linkUp_kept {ρ : Bool} {χ : List Part} {σ s : State} {n : Nat} {remote : Bool} (hw : Sub [.net] χ) (hk : Kept ρ χ σ s) :
    Kept ρ χ σ (linkUp n remote s) := by
  unfold linkUp
  repeat' (first | with_reducible assumption | with_reducible apply pauseCheck_kept | with_reducible apply State.setNetPort_kept)

theorem linkLoss_kept {ρ : Bool} {χ : List Part} {σ s : State} {n : Nat} {fault : Bool} (hw : Sub [.lkt, .cmds, .boot, .tdm, .net, .red, .tw] χ) (hk : Kept ρ χ σ s) :
    Kept ρ χ σ (linkLoss n fault s) := by
  unfold linkLoss
  repeat' (first
    | with_reducible assumption | exact Sub.of hw rfl | with_reducible apply State.setNetPort_kept
    | with_reducible apply dropLink_kept | with_reducible apply pauseCheck_kept | with_reducible apply Kept.ite)

theorem fdbAgeOut_kept {ρ : Bool} {χ : List Part} {σ s : State} {addr : BitVec 48} {vlan : Half} {domain : Bool} (hw : Sub [.net] χ) (hk : Kept ρ χ σ s) :
    Kept ρ χ σ (fdbAgeOut addr vlan domain s) := by
  unfold fdbAgeOut
  repeat' (first
    | with_reducible assumption | (simp only [keptTo]; refine KeptTo.view hw ?_ rfl) | with_reducible apply Kept.ite
    | split | dsimp only)

theorem preemptVerify_kept {ρ : Bool} {χ : List Part} {σ s : State} {n : Nat} {e : VerifyEnd} (hw : Sub [.lkt, .cmds, .boot, .tdm, .net, .red, .tw] χ) (hk : Kept ρ χ σ s) :
    Kept ρ χ σ (preemptVerify n e s) := by
  unfold preemptVerify
  repeat' (first
    | with_reducible assumption | exact Sub.of hw rfl | with_reducible apply State.setNetPort_kept
    | with_reducible apply reportOwn_kept | with_reducible apply Kept.ite | split)

theorem pauseExpiry_kept {ρ : Bool} {χ : List Part} {σ s : State} {n : Nat} (hw : Sub [.net] χ) (hk : Kept ρ χ σ s) :
    Kept ρ χ σ (pauseExpiry n s) := by
  unfold pauseExpiry
  repeat' (first | with_reducible assumption | with_reducible apply State.setNetPort_kept)

theorem pauseWatchdog_kept {ρ : Bool} {χ : List Part} {σ s : State} {n : Nat} (hw : Sub [.lkt, .cmds, .boot, .tdm, .net, .red, .tw] χ) (hk : Kept ρ χ σ s) :
    Kept ρ χ σ (pauseWatchdog n s) := by
  unfold pauseWatchdog
  repeat' (first
    | with_reducible assumption | exact Sub.of hw rfl | with_reducible apply reportOwn_kept
    | with_reducible apply State.setNetPort_kept | with_reducible apply Kept.ite)

theorem pauseReleaseEnd_kept {ρ : Bool} {χ : List Part} {σ s : State} {n : Nat} (hw : Sub [.net] χ) (hk : Kept ρ χ σ s) :
    Kept ρ χ σ (pauseReleaseEnd n s) := by
  unfold pauseReleaseEnd
  repeat' (first | with_reducible assumption | with_reducible apply State.setNetPort_kept)

theorem pauseTxRepeat_kept {ρ : Bool} {χ : List Part} {σ s : State} {n : Nat} (hw : Sub [.net] χ) (hk : Kept ρ χ σ s) :
    Kept ρ χ σ (pauseTxRepeat n s) := by
  unfold pauseTxRepeat
  repeat' (first
    | with_reducible assumption | with_reducible apply pauseCheckPort_kept | with_reducible apply sendPause_kept
    | with_reducible apply Kept.ite)

theorem netSetPort_kept {ρ : Bool} {χ : List Part} {σ s : State} {c : NetSetPort} (hw : Sub [.lkt, .cmds, .boot, .tdm, .net, .red, .tw] χ) (hk : Kept ρ χ σ s) :
    Kept ρ χ σ (netSetPort c s).1 := by
  unfold netSetPort
  repeat' (first
    | with_reducible assumption | exact Sub.of hw rfl | with_reducible apply dropLink_kept
    | with_reducible apply pauseCheck_kept | with_reducible apply State.setNetPort_kept | with_reducible apply Kept.ite
    | with_reducible apply Kept.ite_fst)

theorem netSetSwitch_kept {ρ : Bool} {χ : List Part} {σ s : State} {c : NetSetSwitch} (hw : Sub [.net] χ) (hk : Kept ρ χ σ s) :
    Kept ρ χ σ (netSetSwitch c s).1 := by
  unfold netSetSwitch
  repeat' (first
    | with_reducible assumption | with_reducible apply pauseCheck_kept
    | (simp only [keptTo]; refine KeptTo.view hw ?_ rfl) | with_reducible apply Kept.ite_fst)

theorem netFdbWrite_kept {ρ : Bool} {χ : List Part} {σ s : State} {c : NetFdbWrite} (hw : Sub [.net, .fresh] χ) (hk : Kept ρ χ σ s) :
    Kept ρ χ σ (netFdbWrite c s).1 := by
  unfold netFdbWrite
  repeat' (first
    | with_reducible assumption | exact Sub.of hw rfl | with_reducible apply draw_kept
    | (simp only [keptTo]; refine KeptTo.view hw ?_ rfl) | with_reducible apply Kept.ite_fst)

theorem netVlanWrite_kept {ρ : Bool} {χ : List Part} {σ s : State} {vid : Half} {members taggedPorts : Byte} (hw : Sub [.net] χ) (hk : Kept ρ χ σ s) :
    Kept ρ χ σ (netVlanWrite vid members taggedPorts s).1 := by
  unfold netVlanWrite
  repeat' (first
    | with_reducible assumption | (simp only [keptTo]; refine KeptTo.view hw ?_ rfl)
    | with_reducible apply Kept.ite_fst)

theorem netSetFilter_kept {ρ : Bool} {χ : List Part} {σ s : State} {c : NetSetFilter} (hw : Sub [.net] χ) (hk : Kept ρ χ σ s) :
    Kept ρ χ σ (netSetFilter c s).1 := by
  unfold netSetFilter
  repeat' (first
    | with_reducible assumption | (simp only [keptTo]; refine KeptTo.view hw ?_ rfl)
    | with_reducible apply Kept.ite_fst)

theorem netTest_kept {ρ : Bool} {χ : List Part} {σ s : State} {port mode : Byte} (hw : Sub [.net, .fresh] χ) (hk : Kept ρ χ σ s) :
    Kept ρ χ σ (netTest port mode s).1 := by
  unfold netTest
  repeat' (first
    | with_reducible assumption | exact Sub.of hw rfl | with_reducible apply pauseCheck_kept
    | with_reducible apply State.setNetPort_kept | with_reducible apply draw_kept | with_reducible apply Kept.ite_fst)

theorem netGetStatus_kept {ρ : Bool} {χ : List Part} {σ s : State} {port : Byte} (hw : Sub [] χ) (hk : Kept ρ χ σ s) :
    Kept ρ χ σ (netGetStatus port s).1 := by
  unfold netGetStatus
  repeat' (first | with_reducible assumption | with_reducible apply Kept.ite_fst)

end Sys2Proof.Machine
end

