-- ==== Sys2Proof/Laws/Kept/Pair.lean ====
section
/-! SUPPORT. What the operations of Machine/Pair.lean keep. -/

namespace Sys2Proof.Machine

theorem winsTie_kept {ρ : Bool} {χ : List Part} {σ s : State} (hw : Sub [.fresh] χ) (hk : Kept ρ χ σ s) :
    Kept ρ χ σ (winsTie s).2 := by
  unfold winsTie
  repeat' (first | with_reducible assumption | (refine draw_kept_eq ?_ ?_ (by assumption)) | split | dsimp only)

theorem toActive_kept {ρ : Bool} {χ : List Part} {σ s : State} {epoch : Word} (hw : Sub [.red] χ) (hk : Kept ρ χ σ s) :
    Kept ρ χ σ (toActive epoch s) := .view hw hk rfl

theorem claim_kept {ρ : Bool} {χ : List Part} {σ s : State} {epoch : Word} (hw : Sub [.red] χ) (hk : Kept ρ χ σ s) :
    Kept ρ χ σ (claim epoch s) := .view hw hk rfl

theorem startJoin_kept {ρ : Bool} {χ : List Part} {σ s : State} (hw : Sub [.red] χ) (hk : Kept ρ χ σ s) :
    Kept ρ χ σ (startJoin s) := .view hw hk rfl

theorem toObserver_kept {ρ : Bool} {χ : List Part} {σ s : State} (hw : Sub [.red] χ) (hk : Kept ρ χ σ s) :
    Kept ρ χ σ (toObserver s) := by
  unfold toObserver
  repeat' (first
    | with_reducible assumption | with_reducible apply startJoin_kept
    | (simp only [keptTo]; refine KeptTo.view hw ?_ rfl))

theorem redSetPair_kept {ρ : Bool} {χ : List Part} {σ s : State} {c : RedSetPair} (hw : Sub [.red] χ) (hk : Kept ρ χ σ s) :
    Kept ρ χ σ (redSetPair c s).1 := by
  unfold redSetPair
  repeat' (first
    | with_reducible assumption | (simp only [keptTo]; refine KeptTo.view hw ?_ rfl)
    | with_reducible apply Kept.ite_fst)

theorem redSetShared_kept {ρ : Bool} {χ : List Part} {σ s : State} {first : Half} {es : List SharedEntry} (hw : Sub [.red] χ) (hk : Kept ρ χ σ s) :
    Kept ρ χ σ (redSetShared first es s).1 := by
  unfold redSetShared
  repeat' (first
    | with_reducible assumption | (simp only [keptTo]; refine KeptTo.view hw ?_ rfl)
    | with_reducible apply Kept.ite_fst)

theorem redHandover_kept {ρ : Bool} {χ : List Part} {σ s : State} {h : Word} (hw : Sub [.red] χ) (hk : Kept ρ χ σ s) :
    Kept ρ χ σ (redHandover h s).1 := by
  unfold redHandover
  repeat' (first
    | with_reducible assumption | (simp only [keptTo]; refine KeptTo.view hw ?_ rfl)
    | with_reducible apply Kept.ite_fst)

theorem redForceActive_kept {ρ : Bool} {χ : List Part} {σ s : State} {confirm : Word} (hw : Sub [.red] χ) (hk : Kept ρ χ σ s) :
    Kept ρ χ σ (redForceActive confirm s).1 := by
  unfold redForceActive
  repeat' (first | with_reducible assumption | with_reducible apply claim_kept | with_reducible apply Kept.ite_fst)

theorem redResync_kept {ρ : Bool} {χ : List Part} {σ s : State} (hw : Sub [.lkt, .cmds, .boot, .tdm, .net, .red, .tw] χ) (hk : Kept ρ χ σ s) :
    Kept ρ χ σ (redResync s).1 := by
  unfold redResync
  repeat' (first
    | with_reducible assumption | exact Sub.of hw rfl | with_reducible apply startJoin_kept
    | with_reducible apply leaveStep_kept | split)

theorem claimExpiry_kept {ρ : Bool} {χ : List Part} {σ s : State} (hw : Sub [.red, .fresh] χ) (hk : Kept ρ χ σ s) :
    Kept ρ χ σ (claimExpiry s) := by
  unfold claimExpiry
  repeat' (first
    | with_reducible assumption | exact Sub.of hw rfl | with_reducible apply claim_kept
    | with_reducible apply winsTie_kept | (simp only [keptTo]; with_reducible apply KeptTo.intro hw)
    | (show ∀ p : Part, _; intro p; cases p <;> dsimp only [Part.same] <;> first | exact .inl (by decide) | exact .inr (by with_reducible rfl) | exact .inr rfl)
    | with_reducible rfl | with_reducible exact MemTo.refl _ | with_reducible exact Otp.Grown.refl _
    | with_reducible apply Kept.ite)

theorem heartbeatSend_kept {ρ : Bool} {χ : List Part} {σ s : State} (hw : Sub [.lkt, .cmds, .boot, .tdm, .net, .red, .tw] χ) (hk : Kept ρ χ σ s) :
    Kept ρ χ σ (heartbeatSend s) := by
  unfold heartbeatSend
  repeat' (first
    | with_reducible assumption | with_reducible apply enqueue_kept
    | (simp only [keptTo]; with_reducible apply KeptTo.intro hw)
    | (show ∀ p : Part, _; intro p; cases p <;> dsimp only [Part.same] <;> first | exact .inl (by decide) | exact .inr (by with_reducible rfl) | exact .inr rfl)
    | with_reducible rfl | with_reducible exact MemTo.refl _ | with_reducible exact Otp.Grown.refl _
    | with_reducible apply Kept.ite)

theorem hearPeer_kept {ρ : Bool} {χ : List Part} {σ s : State} {path : HbPath} {h : Heartbeat} (hw : Sub [.red] χ) (hk : Kept ρ χ σ s) :
    Kept ρ χ σ (hearPeer path h s) := .view hw hk rfl

theorem demote_kept {ρ : Bool} {χ : List Part} {σ s : State} (hw : Sub [.lkt, .cmds, .boot, .tdm, .net, .red, .tw] χ) (hk : Kept ρ χ σ s) :
    Kept ρ χ σ (demote s) := by
  unfold demote
  repeat' (first
    | with_reducible assumption | exact Sub.of hw rfl | with_reducible apply reportOwn_kept
    | with_reducible apply toObserver_kept | (simp only [keptTo]; refine KeptTo.view hw ?_ rfl))

theorem heartbeatReceived_kept {ρ : Bool} {χ : List Part} {σ s : State} {path : HbPath} {h : Heartbeat} (hw : Sub [.lkt, .cmds, .boot, .tdm, .net, .red, .tw, .fresh] χ) (hk : Kept ρ χ σ s) :
    Kept ρ χ σ (heartbeatReceived path h s) := by
  unfold heartbeatReceived
  repeat' (first
    | with_reducible assumption | exact Sub.of hw rfl | with_reducible apply hearPeer_kept
    | with_reducible apply toObserver_kept | with_reducible apply demote_kept | with_reducible apply winsTie_kept
    | (simp only [keptTo]; with_reducible apply KeptTo.intro hw)
    | (show ∀ p : Part, _; intro p; cases p <;> dsimp only [Part.same] <;> first | exact .inl (by decide) | exact .inr (by with_reducible rfl) | exact .inr rfl)
    | with_reducible rfl | with_reducible exact MemTo.refl _ | with_reducible exact Otp.Grown.refl _
    | with_reducible apply Kept.ite | split | dsimp only)

theorem peerFailed_kept {ρ : Bool} {χ : List Part} {σ s : State} (hw : Sub [.lkt, .cmds, .boot, .tdm, .net, .red, .tw] χ) (hk : Kept ρ χ σ s) :
    Kept ρ χ σ (peerFailed s) := by
  unfold peerFailed
  repeat' (first
    | with_reducible assumption | exact Sub.of hw rfl | with_reducible apply reportOwn_kept
    | with_reducible apply toActive_kept | (simp only [keptTo]; refine KeptTo.view hw ?_ rfl)
    | with_reducible apply Kept.ite | split | dsimp only)

theorem silenceTimeout_kept {ρ : Bool} {χ : List Part} {σ s : State} {path : HbPath} (hw : Sub [.lkt, .cmds, .boot, .tdm, .net, .red, .tw] χ) (hk : Kept ρ χ σ s) :
    Kept ρ χ σ (silenceTimeout path s) := by
  unfold silenceTimeout
  repeat' (first
    | with_reducible assumption | with_reducible apply peerFailed_kept | with_reducible apply leaveStep_kept
    | with_reducible apply reportOwn_kept | (simp only [keptTo]; with_reducible apply KeptTo.intro hw)
    | (show ∀ p : Part, _; intro p; cases p <;> dsimp only [Part.same] <;> first | exact .inl (by decide) | exact .inr (by with_reducible rfl) | exact .inr rfl)
    | with_reducible rfl | with_reducible exact MemTo.refl _ | with_reducible exact Otp.Grown.refl _
    | with_reducible apply Kept.ite)

theorem norilUp_kept {ρ : Bool} {χ : List Part} {σ s : State} (hw : Sub [.lkt, .cmds, .boot, .tdm, .net, .red, .tw] χ) (hk : Kept ρ χ σ s) :
    Kept ρ χ σ (norilUp s) := by
  unfold norilUp
  repeat' (first
    | with_reducible assumption | exact Sub.of hw rfl | with_reducible apply startJoin_kept
    | with_reducible apply leaveStep_kept | (simp only [keptTo]; refine KeptTo.view hw ?_ rfl) | split | dsimp only)

theorem norilDown_kept {ρ : Bool} {χ : List Part} {σ s : State} (hw : Sub [.red] χ) (hk : Kept ρ χ σ s) :
    Kept ρ χ σ (norilDown s) := .view hw hk rfl

theorem waveSend_kept {ρ : Bool} {χ : List Part} {σ s : State} (hw : Sub [.red] χ) (hk : Kept ρ χ σ s) :
    Kept ρ χ σ (waveSend s) := by
  unfold waveSend
  repeat' (first
    | with_reducible assumption | (simp only [keptTo]; with_reducible apply KeptTo.intro hw)
    | (show ∀ p : Part, _; intro p; cases p <;> dsimp only [Part.same] <;> first | exact .inl (by decide) | exact .inr (by with_reducible rfl) | exact .inr rfl)
    | with_reducible rfl | with_reducible exact MemTo.refl _ | with_reducible exact Otp.Grown.refl _
    | with_reducible apply Kept.ite)

theorem judgeEarly_kept {ρ : Bool} {χ : List Part} {σ s : State} {c : Word} (hw : Sub [.lkt, .cmds, .boot, .tdm, .net, .red, .tw] χ) (hk : Kept ρ χ σ s) :
    Kept ρ χ σ (judgeEarly c s) := by
  unfold judgeEarly
  repeat' (first
    | with_reducible assumption | with_reducible apply leaveStep_kept
    | (simp only [keptTo]; with_reducible apply KeptTo.intro hw)
    | (show ∀ p : Part, _; intro p; cases p <;> dsimp only [Part.same] <;> first | exact .inl (by decide) | exact .inr (by with_reducible rfl) | exact .inr rfl)
    | with_reducible rfl | with_reducible exact MemTo.refl _ | with_reducible exact Otp.Grown.refl _
    | with_reducible apply Kept.ite | (with_reducible apply Kept.foldl; intro _ _ _) | split)

theorem waveReceived_kept {ρ : Bool} {χ : List Part} {σ s : State} {f : WaveFrame} (hw : Sub [.lkt, .cmds, .boot, .tdm, .net, .red, .tw] χ) (hk : Kept ρ χ σ s) :
    Kept ρ χ σ (waveReceived f s) := by
  unfold waveReceived
  repeat' (first
    | with_reducible assumption | with_reducible apply judgeEarly_kept | with_reducible apply leaveStep_kept
    | with_reducible apply reportOwn_kept | (simp only [keptTo]; with_reducible apply KeptTo.intro hw)
    | (show ∀ p : Part, _; intro p; cases p <;> dsimp only [Part.same] <;> first | exact .inl (by decide) | exact .inr (by with_reducible rfl) | exact .inr rfl)
    | with_reducible rfl | with_reducible exact MemTo.refl _ | with_reducible exact Otp.Grown.refl _
    | with_reducible apply Kept.ite)

theorem waveMissing_kept {ρ : Bool} {χ : List Part} {σ s : State} (hw : Sub [.lkt, .cmds, .boot, .tdm, .net, .red, .tw] χ) (hk : Kept ρ χ σ s) :
    Kept ρ χ σ (waveMissing s) := by
  unfold waveMissing
  repeat' (first
    | with_reducible assumption | with_reducible apply judgeEarly_kept
    | (simp only [keptTo]; with_reducible apply KeptTo.intro hw)
    | (show ∀ p : Part, _; intro p; cases p <;> dsimp only [Part.same] <;> first | exact .inl (by decide) | exact .inr (by with_reducible rfl) | exact .inr rfl)
    | with_reducible rfl | with_reducible exact MemTo.refl _ | with_reducible exact Otp.Grown.refl _
    | with_reducible apply Kept.ite)

theorem State.setSharedCh_kept {ρ : Bool} {χ : List Part} {σ s : State} {i : Nat} {x : SharedCh} (hw : Sub [.red] χ) (hk : Kept ρ χ σ s) :
    Kept ρ χ σ (State.setSharedCh s i x) := .view hw hk rfl

theorem sharedFade_kept {ρ : Bool} {χ : List Part} {σ s : State} {i : Nat} (hw : Sub [.red] χ) (hk : Kept ρ χ σ s) :
    Kept ρ χ σ (sharedFade i s) := by
  unfold sharedFade
  repeat' (first
    | with_reducible assumption | with_reducible apply State.setSharedCh_kept | with_reducible apply Kept.ite)

theorem putShared_kept {ρ : Bool} {χ : List Part} {σ s : State} {w : Word} {peer : Option (List Word)} {e : Nat × SharedEntry} (hw : Sub [.red, .mem] χ) (hk : Kept ρ χ σ s) :
    Kept ρ χ σ (putShared w peer s e) := by
  unfold putShared
  repeat' (first
    | with_reducible assumption | exact Sub.of hw rfl | with_reducible apply putInput_kept
    | with_reducible apply State.setSharedCh_kept | with_reducible apply Kept.ite)

theorem sharedEdge_kept {ρ : Bool} {χ : List Part} {σ s : State} {q : Word} (hw : Sub [.red, .mem] χ) (hk : Kept ρ χ σ s) :
    Kept ρ χ σ (sharedEdge q s) := by
  unfold sharedEdge
  repeat' (first
    | with_reducible assumption | with_reducible apply putShared_kept
    | (simp only [keptTo]; refine KeptTo.view hw ?_ rfl) | (with_reducible apply Kept.foldl; intro _ _ _))

theorem handoverEdge_kept {ρ : Bool} {χ : List Part} {σ s : State} (hw : Sub [.red] χ) (hk : Kept ρ χ σ s) :
    Kept ρ χ σ (handoverEdge s) := by
  unfold handoverEdge
  repeat' (first
    | with_reducible assumption | with_reducible apply toActive_kept
    | (simp only [keptTo]; refine KeptTo.view hw ?_ rfl) | with_reducible apply Kept.ite | split)

theorem inStepEdge_kept {ρ : Bool} {χ : List Part} {σ s : State} (hw : Sub [.red] χ) (hk : Kept ρ χ σ s) :
    Kept ρ χ σ (inStepEdge s) := by
  unfold inStepEdge
  repeat' (first
    | with_reducible assumption | (simp only [keptTo]; with_reducible apply KeptTo.intro hw)
    | (show ∀ p : Part, _; intro p; cases p <;> dsimp only [Part.same] <;> first | exact .inl (by decide) | exact .inr (by with_reducible rfl) | exact .inr rfl)
    | with_reducible rfl | with_reducible exact MemTo.refl _ | with_reducible exact Otp.Grown.refl _
    | with_reducible apply Kept.ite)

theorem sendMirror_kept {ρ : Bool} {χ : List Part} {σ s : State} {kind : Byte} {bs : List Byte} (hw : Sub [.red] χ) (hk : Kept ρ χ σ s) :
    Kept ρ χ σ (sendMirror kind bs s) := .view hw hk rfl

theorem headBox_kept {ρ : Bool} {χ : List Part} {σ s : State} {n : Word} {r : Region} (hw : Sub [.mem] χ) (hk : Kept ρ χ σ s) :
    Kept ρ χ σ (headBox n s r) := by
  unfold headBox
  repeat' (first
    | with_reducible assumption | (simp only [keptTo]; with_reducible apply KeptTo.intro hw)
    | (show ∀ p : Part, _; intro p; cases p <;> dsimp only [Part.same] <;> first | exact .inl (by decide) | exact .inr (by with_reducible rfl) | exact .inr rfl)
    | with_reducible rfl | with_reducible exact MemTo.refl _ | with_reducible exact Otp.Grown.refl _
    | with_reducible apply MemTo.writeTarn)

theorem mirrorBoundary_kept {ρ : Bool} {χ : List Part} {σ s : State} (hw : Sub [.lkt, .cmds, .boot, .tdm, .net, .red, .tw, .mem] χ) (hk : Kept ρ χ σ s) :
    Kept ρ χ σ (mirrorBoundary s) := by
  unfold mirrorBoundary
  repeat' (first
    | with_reducible assumption | exact Sub.of hw rfl | with_reducible apply headBox_kept
    | with_reducible apply sendMirror_kept | with_reducible apply reportOwn_kept
    | (simp only [keptTo]; with_reducible apply KeptTo.intro hw)
    | (show ∀ p : Part, _; intro p; cases p <;> dsimp only [Part.same] <;> first | exact .inl (by decide) | exact .inr (by with_reducible rfl) | exact .inr rfl)
    | with_reducible rfl | with_reducible exact MemTo.refl _ | with_reducible exact Otp.Grown.refl _
    | with_reducible apply Kept.ite | (with_reducible apply Kept.foldl; intro _ _ _)
    | (with_reducible apply Kept.foldl_fst; intro _ _ _))

theorem tookFrame_kept {ρ : Bool} {χ : List Part} {σ s : State} (hw : Sub [.red] χ) (hk : Kept ρ χ σ s) :
    Kept ρ χ σ (tookFrame s) := .view hw hk rfl

theorem mirrorRec_kept {ρ : Bool} {χ : List Part} {σ s : State} {m : MirrorRec} (hw : Sub [.red, .mem] χ) (hk : Kept ρ χ σ s) :
    Kept ρ χ σ (mirrorRec m s) := by
  unfold mirrorRec
  repeat' (first
    | with_reducible assumption | exact Sub.of hw rfl | with_reducible apply tookFrame_kept
    | (simp only [keptTo]; with_reducible apply KeptTo.intro hw)
    | (show ∀ p : Part, _; intro p; cases p <;> dsimp only [Part.same] <;> first | exact .inl (by decide) | exact .inr (by with_reducible rfl) | exact .inr rfl)
    | with_reducible rfl | with_reducible exact MemTo.refl _ | with_reducible exact Otp.Grown.refl _
    | with_reducible apply MemTo.writeTarn | with_reducible apply Kept.ite | split | dsimp only)

theorem ackSend_kept {ρ : Bool} {χ : List Part} {σ s : State} (hw : Sub [.red] χ) (hk : Kept ρ χ σ s) :
    Kept ρ χ σ (ackSend s) := .view hw hk rfl

theorem ackReceived_kept {ρ : Bool} {χ : List Part} {σ s : State} {seq : Word} (hw : Sub [.red] χ) (hk : Kept ρ χ σ s) :
    Kept ρ χ σ (ackReceived seq s) := .view hw hk rfl

theorem norilRetransmit_kept {ρ : Bool} {χ : List Part} {σ s : State} (hw : Sub [.red] χ) (hk : Kept ρ χ σ s) :
    Kept ρ χ σ (norilRetransmit s) := .view hw hk rfl

theorem norilCrcBad_kept {ρ : Bool} {χ : List Part} {σ s : State} (hw : Sub [.red] χ) (hk : Kept ρ χ σ s) :
    Kept ρ χ σ (norilCrcBad s) := .view hw hk rfl

theorem joinReceived_kept {ρ : Bool} {χ : List Part} {σ s : State} (hw : Sub [.red] χ) (hk : Kept ρ χ σ s) :
    Kept ρ χ σ (joinReceived s) := by
  unfold joinReceived
  repeat' (first
    | with_reducible assumption | (simp only [keptTo]; with_reducible apply KeptTo.intro hw)
    | (show ∀ p : Part, _; intro p; cases p <;> dsimp only [Part.same] <;> first | exact .inl (by decide) | exact .inr (by with_reducible rfl) | exact .inr rfl)
    | with_reducible rfl | with_reducible exact MemTo.refl _ | with_reducible exact Otp.Grown.refl _
    | with_reducible apply Kept.ite)

theorem sendCommand_kept {ρ : Bool} {χ : List Part} {σ s : State} {m : MirrorCmd} (hw : Sub [.red] χ) (hk : Kept ρ χ σ s) :
    Kept ρ χ σ (sendCommand m s) := by
  unfold sendCommand
  repeat' (first
    | with_reducible assumption | with_reducible apply sendMirror_kept | with_reducible apply Kept.ite)

theorem forward_kept {ρ : Bool} {χ : List Part} {σ s : State} {m : MirrorCmd} (hw : Sub [.red] χ) (hk : Kept ρ χ σ s) :
    Kept ρ χ σ (forward m s) := by
  unfold forward
  repeat' (first
    | with_reducible assumption | with_reducible apply sendCommand_kept
    | (simp only [keptTo]; with_reducible apply KeptTo.intro hw)
    | (show ∀ p : Part, _; intro p; cases p <;> dsimp only [Part.same] <;> first | exact .inl (by decide) | exact .inr (by with_reducible rfl) | exact .inr rfl)
    | with_reducible rfl | with_reducible exact MemTo.refl _ | with_reducible exact Otp.Grown.refl _
    | with_reducible apply Kept.ite)

theorem snapshotComplete_kept {ρ : Bool} {χ : List Part} {σ s : State} {wave : Word} {snap : Snapshot} (hw : Sub [.red] χ) (hk : Kept ρ χ σ s) :
    Kept ρ χ σ (snapshotComplete wave snap s) := by
  unfold snapshotComplete
  repeat' (first
    | with_reducible assumption | with_reducible apply sendCommand_kept
    | (simp only [keptTo]; refine KeptTo.view hw ?_ rfl) | with_reducible apply Kept.ite
    | (with_reducible apply Kept.foldl; intro _ _ _) | split)

theorem redGetStatus_kept {ρ : Bool} {χ : List Part} {σ s : State} (hw : Sub [] χ) (hk : Kept ρ χ σ s) :
    Kept ρ χ σ (redGetStatus s).1 := by
  unfold redGetStatus
  repeat' (first | with_reducible assumption)

theorem redRateChange_kept {ρ : Bool} {χ : List Part} {σ s : State} (hw : Sub [.lkt, .cmds, .boot, .tdm, .net, .red, .tw] χ) (hk : Kept ρ χ σ s) :
    Kept ρ χ σ (redRateChange s) := by
  unfold redRateChange
  repeat' (first
    | with_reducible assumption | with_reducible apply leaveStep_kept
    | (simp only [keptTo]; refine KeptTo.view hw ?_ rfl))

end Sys2Proof.Machine
end

