-- ==== Sys2Proof/Laws/Kept/TwoWire.lean ====
section
/-! SUPPORT. What the operations of Machine/TwoWire.lean keep. -/

namespace Sys2Proof.Machine

theorem State.setTwc_kept {ρ : Bool} {χ : List Part} {σ s : State} {n : Nat} {c : TwCtl} (hw : Sub [.tw] χ) (hk : Kept ρ χ σ s) :
    Kept ρ χ σ (State.setTwc s n c) := by
  unfold State.setTwc
  repeat' (first
    | with_reducible assumption | (simp only [keptTo]; with_reducible apply KeptTo.intro hw)
    | (show ∀ p : Part, _; intro p; cases p <;> dsimp only [Part.same] <;> first | exact .inl (by decide) | exact .inr (by with_reducible rfl) | exact .inr rfl)
    | with_reducible rfl | with_reducible exact MemTo.refl _ | with_reducible exact Otp.Grown.refl _
    | (show _ = _; first | (simp; done) | rfl))

theorem State.setTwt_kept {ρ : Bool} {χ : List Part} {σ s : State} {t : Twt} (hw : Sub [.tw] χ) (hk : Kept ρ χ σ s) :
    Kept ρ χ σ (State.setTwt s t) := .view hw hk rfl

theorem twStuck_kept {ρ : Bool} {χ : List Part} {σ s : State} {n : Nat} (hw : Sub [.lkt, .cmds, .boot, .tdm, .net, .red, .tw] χ) (hk : Kept ρ χ σ s) :
    Kept ρ χ σ (twStuck n s) := by
  unfold twStuck
  repeat' (first
    | with_reducible assumption | exact Sub.of hw rfl | with_reducible apply State.setTwc_kept
    | with_reducible apply reportOwn_kept | with_reducible apply Kept.ite)

theorem twRecover_kept {ρ : Bool} {χ : List Part} {σ s : State} {n : Nat} {freed : Bool} (hw : Sub [.lkt, .cmds, .boot, .tdm, .net, .red, .tw] χ) (hk : Kept ρ χ σ s) :
    Kept ρ χ σ (twRecover n freed s) := by
  unfold twRecover
  repeat' (first
    | with_reducible assumption | exact Sub.of hw rfl | with_reducible apply State.setTwc_kept
    | with_reducible apply twStuck_kept | with_reducible apply Kept.ite)

theorem govFailed_kept {ρ : Bool} {χ : List Part} {σ s : State} (hw : Sub [.lkt, .cmds, .boot, .tdm, .fab, .net, .red, .tw] χ) (hk : Kept ρ χ σ s) :
    Kept ρ χ σ (govFailed s) := by
  unfold govFailed
  repeat' (first
    | with_reducible assumption | exact Sub.of hw rfl | with_reducible apply reportAll_kept
    | (simp only [keptTo]; refine KeptTo.view hw ?_ rfl))

theorem twServe_kept {ρ : Bool} {χ : List Part} {σ s : State} {n : Nat} (hw : Sub [.lkt, .cmds, .boot, .tdm, .fab, .net, .red, .tw] χ) (hk : Kept ρ χ σ s) :
    Kept ρ χ σ (twServe n s) := by
  unfold twServe
  repeat' (first
    | with_reducible assumption | exact Sub.of hw rfl | with_reducible apply State.setTwc_kept
    | with_reducible apply govFailed_kept | with_reducible apply Kept.ite)

theorem twGo_kept {ρ : Bool} {χ : List Part} {σ s : State} {n : Nat} (hw : Sub [.sys, .tw] χ) (hk : Kept ρ χ σ s) :
    Kept ρ χ σ (twGo n s) := by
  unfold twGo
  repeat' (first
    | with_reducible assumption | exact Sub.of hw rfl | with_reducible apply State.setTwc_kept
    | (simp only [keptTo]; with_reducible apply KeptTo.intro hw)
    | (show ∀ p : Part, _; intro p; cases p <;> dsimp only [Part.same] <;> first | exact .inl (by decide) | exact .inr (by with_reducible rfl) | exact .inr rfl)
    | with_reducible rfl | with_reducible exact MemTo.refl _ | with_reducible exact Otp.Grown.refl _
    | with_reducible apply Kept.ite)

theorem twAbort_kept {ρ : Bool} {χ : List Part} {σ s : State} {n : Nat} (hw : Sub [.tw] χ) (hk : Kept ρ χ σ s) :
    Kept ρ χ σ (twAbort n s) := by
  unfold twAbort
  repeat' (first | with_reducible assumption | with_reducible apply State.setTwc_kept | split | dsimp only)

theorem twEnd_kept {ρ : Bool} {χ : List Part} {σ s : State} {n : Nat} {e : TwEnd} (hw : Sub [.lkt, .cmds, .boot, .tdm, .net, .red, .tw] χ) (hk : Kept ρ χ σ s) :
    Kept ρ χ σ (twEnd n e s) := by
  unfold twEnd
  repeat' (first
    | with_reducible assumption | exact Sub.of hw rfl | with_reducible apply State.setTwc_kept
    | with_reducible apply twRecover_kept | with_reducible apply Kept.ite | split)

theorem twRetry_kept {ρ : Bool} {χ : List Part} {σ s : State} {n : Nat} (hw : Sub [.lkt, .cmds, .boot, .tdm, .fab, .net, .red, .tw] χ) (hk : Kept ρ χ σ s) :
    Kept ρ χ σ (twRetry n s) := by
  unfold twRetry
  repeat' (first
    | with_reducible assumption | exact Sub.of hw rfl | with_reducible apply twServe_kept
    | with_reducible apply State.setTwc_kept | with_reducible apply Kept.ite)

theorem twStretch_kept {ρ : Bool} {χ : List Part} {σ s : State} {n : Nat} {done : BitVec 6} {freed : Bool} (hw : Sub [.lkt, .cmds, .boot, .tdm, .fab, .net, .red, .tw] χ) (hk : Kept ρ χ σ s) :
    Kept ρ χ σ (twStretch n done freed s) := by
  unfold twStretch
  repeat' (first
    | with_reducible assumption | exact Sub.of hw rfl | with_reducible apply twRecover_kept
    | with_reducible apply State.setTwc_kept | with_reducible apply govFailed_kept | with_reducible apply Kept.ite
    | split)

theorem twSclStuck_kept {ρ : Bool} {χ : List Part} {σ s : State} {n : Nat} (hw : Sub [.lkt, .cmds, .boot, .tdm, .fab, .net, .red, .tw] χ) (hk : Kept ρ χ σ s) :
    Kept ρ χ σ (twSclStuck n s) := by
  unfold twSclStuck
  repeat' (first
    | with_reducible assumption | exact Sub.of hw rfl | with_reducible apply twStuck_kept
    | with_reducible apply govFailed_kept | with_reducible apply Kept.ite)

theorem twRepeat_kept {ρ : Bool} {χ : List Part} {σ s : State} {n : Nat} {freed : Bool} (hw : Sub [.lkt, .cmds, .boot, .tdm, .net, .red, .tw] χ) (hk : Kept ρ χ σ s) :
    Kept ρ χ σ (twRepeat n freed s) := by
  unfold twRepeat
  repeat' (first | with_reducible assumption | with_reducible apply twRecover_kept | with_reducible apply Kept.ite)

theorem twUnstick_kept {ρ : Bool} {χ : List Part} {σ s : State} {n : Nat} (hw : Sub [.tw] χ) (hk : Kept ρ χ σ s) :
    Kept ρ χ σ (twUnstick n s) := by
  unfold twUnstick
  repeat' (first | with_reducible assumption | with_reducible apply State.setTwc_kept)

theorem twAlert_kept {ρ : Bool} {χ : List Part} {σ s : State} {n : Nat} (hw : Sub [.tw] χ) (hk : Kept ρ χ σ s) :
    Kept ρ χ σ (twAlert n s) := by
  unfold twAlert
  repeat' (first | with_reducible assumption | with_reducible apply State.setTwc_kept | with_reducible apply Kept.ite)

theorem twAlertGone_kept {ρ : Bool} {χ : List Part} {σ s : State} {n : Nat} (hw : Sub [.tw] χ) (hk : Kept ρ χ σ s) :
    Kept ρ χ σ (twAlertGone n s) := by
  unfold twAlertGone
  repeat' (first | with_reducible assumption | with_reducible apply State.setTwc_kept)

theorem twAlertRead_kept {ρ : Bool} {χ : List Part} {σ s : State} {n : Nat} {byte : Option Byte} (hw : Sub [.tw] χ) (hk : Kept ρ χ σ s) :
    Kept ρ χ σ (twAlertRead n byte s) := by
  unfold twAlertRead
  repeat' (first
    | with_reducible assumption | with_reducible apply State.setTwc_kept | with_reducible apply Kept.ite | split)

theorem govLeavesBus_kept {ρ : Bool} {χ : List Part} {σ s : State} (hw : Sub [.tw] χ) (hk : Kept ρ χ σ s) :
    Kept ρ χ σ (govLeavesBus s) := by
  unfold govLeavesBus
  repeat' (first | with_reducible assumption | with_reducible apply State.setTwc_kept | with_reducible apply Kept.ite)

theorem governorDone_kept {ρ : Bool} {χ : List Part} {σ s : State} {ok : Bool} {data : Half} (hw : Sub [.lkt, .cmds, .boot, .tdm, .fab, .net, .red, .tw] χ) (hk : Kept ρ χ σ s) :
    Kept ρ χ σ (governorDone ok data s) := by
  unfold governorDone
  repeat' (first
    | with_reducible assumption | exact Sub.of hw rfl | with_reducible apply reportAll_kept
    | with_reducible apply govLeavesBus_kept | (simp only [keptTo]; refine KeptTo.view hw ?_ rfl))

theorem governorPoll_kept {ρ : Bool} {χ : List Part} {σ s : State} {ok : Bool} {mv : Half} (hw : Sub [.lkt, .cmds, .boot, .tdm, .fab, .net, .red, .tw] χ) (hk : Kept ρ χ σ s) :
    Kept ρ χ σ (governorPoll ok mv s) := by
  unfold governorPoll
  repeat' (first
    | with_reducible assumption | exact Sub.of hw rfl | with_reducible apply reportAll_kept
    | (simp only [keptTo]; refine KeptTo.view hw ?_ rfl))

theorem twCtlWrite_kept {ρ : Bool} {χ : List Part} {σ s : State} {n o : Nat} {w : Word} (hw : Sub [.tw] χ) (hk : Kept ρ χ σ s) :
    Kept ρ χ σ (twCtlWrite n o w s) := by
  unfold twCtlWrite
  repeat' (first | with_reducible assumption | with_reducible apply State.setTwc_kept | with_reducible apply Kept.ite)

theorem twtRegWrite_kept {ρ : Bool} {χ : List Part} {σ s : State} {o : Nat} {w : Word} (hw : Sub [.tw] χ) (hk : Kept ρ χ σ s) :
    Kept ρ χ σ (twtRegWrite o w s) := by
  unfold twtRegWrite
  repeat' (first | with_reducible assumption | with_reducible apply State.setTwt_kept | with_reducible apply Kept.ite)

theorem twtReadPage_kept {ρ : Bool} {χ : List Part} {σ s : State} {n : Byte} (hw : Sub [.tw] χ) (hk : Kept ρ χ σ s) :
    Kept ρ χ σ (twtReadPage n s) := by
  unfold twtReadPage
  repeat' (first | with_reducible assumption | with_reducible apply State.setTwt_kept | with_reducible apply Kept.ite)

theorem twtProto_kept {ρ : Bool} {χ : List Part} {σ s : State} {n : Nat} (hw : Sub [.lkt, .cmds, .boot, .tdm, .net, .red, .tw] χ) (hk : Kept ρ χ σ s) :
    Kept ρ χ σ (twtProto n s) := by
  unfold twtProto
  repeat' (first
    | with_reducible assumption | exact Sub.of hw rfl | with_reducible apply State.setTwt_kept
    | with_reducible apply reportOwn_kept | with_reducible apply Kept.ite)

theorem twtWritePage_kept {ρ : Bool} {χ : List Part} {σ s : State} {bs : List Byte} (hw : Sub [.lkt, .cmds, .boot, .tdm, .net, .red, .tw] χ) (hk : Kept ρ χ σ s) :
    Kept ρ χ σ (twtWritePage bs s) := by
  unfold twtWritePage
  repeat' (first
    | with_reducible assumption | exact Sub.of hw rfl | with_reducible apply State.setTwt_kept
    | with_reducible apply twtProto_kept | with_reducible apply Kept.ite | split)

theorem twtError_kept {ρ : Bool} {χ : List Part} {σ s : State} (hw : Sub [.lkt, .cmds, .boot, .tdm, .net, .red, .tw] χ) (hk : Kept ρ χ σ s) :
    Kept ρ χ σ (twtError s) := by
  unfold twtError
  repeat' (first | with_reducible assumption | with_reducible apply twtProto_kept | with_reducible apply Kept.ite)

theorem twtTimeout_kept {ρ : Bool} {χ : List Part} {σ s : State} (hw : Sub [.lkt, .cmds, .boot, .tdm, .net, .red, .tw] χ) (hk : Kept ρ χ σ s) :
    Kept ρ χ σ (twtTimeout s) := by
  unfold twtTimeout
  repeat' (first
    | with_reducible assumption | exact Sub.of hw rfl | with_reducible apply twtProto_kept
    | with_reducible apply State.setTwt_kept | with_reducible apply Kept.ite)

theorem twtAlert_kept {ρ : Bool} {χ : List Part} {σ s : State} (hw : Sub [.tw] χ) (hk : Kept ρ χ σ s) :
    Kept ρ χ σ (twtAlert s) := by
  unfold twtAlert
  repeat' (first | with_reducible assumption | with_reducible apply State.setTwt_kept)

theorem twtAlertResponse_kept {ρ : Bool} {χ : List Part} {σ s : State} (hw : Sub [.tw] χ) (hk : Kept ρ χ σ s) :
    Kept ρ χ σ (twtAlertResponse s) := by
  unfold twtAlertResponse
  repeat' (first | with_reducible assumption | with_reducible apply State.setTwt_kept | with_reducible apply Kept.ite)

end Sys2Proof.Machine
end

