-- ==== Sys2Proof/Laws/Kept/Rings.lean ====
section
/-! SUPPORT. What the operations of Machine/Rings.lean keep. -/

namespace Sys2Proof.Machine

theorem fetchDesc_kept {ρ : Bool} {χ : List Part} {σ s : State} {owner a : Nat} (hw : Sub [.lkt, .cmds, .boot, .tdm, .col, .net, .red, .tw] χ) (hk : Kept ρ χ σ s) :
    Kept ρ χ σ (fetchDesc owner a s).1 := by
  unfold fetchDesc
  repeat' (first
    | with_reducible assumption | (refine colRead_kept_eq ?_ ?_ (by assumption)) | with_reducible apply Kept.ite_fst
    | split)

theorem fetchDesc_kept_eq {ρ : Bool} {χ : List Part} {σ s : State} {owner a : Nat} {tt : State} {aa : Except Walk (List Byte)} (hw : Sub [.lkt, .cmds, .boot, .tdm, .col, .net, .red, .tw] χ) (hk : Kept ρ χ σ s) (he : (fetchDesc owner a s) = (tt, aa)) :
    Kept ρ χ σ tt := by
  have := fetchDesc_kept (owner:=owner) (a:=a) hw hk; rw [he] at this; exact this

theorem fillRx_kept {ρ : Bool} {χ : List Part} {σ s : State} {owner : Nat} {x : Ring} {fuel i : Nat} {bs : List Byte} {done : List (Nat × Nat)}
    (hw : Sub [.lkt, .cmds, .boot, .tdm, .mtx, .col, .net, .red, .tw, .mem] χ) (hk : Kept ρ χ σ s) : Kept ρ χ σ (fillRx owner x fuel i bs done s).1 := by
  induction fuel generalizing i bs done s with
  | zero => exact hk
  | succ n ih =>
    unfold fillRx
    repeat' (first | assumption | exact hw.of rfl | with_reducible apply ih | with_reducible apply fetchDesc_kept | (refine fetchDesc_kept_eq (hw.of rfl) ?_ (by assumption)) | with_reducible apply colWrite_kept | (refine colWrite_kept_eq (hw.of rfl) ?_ (by assumption)) | with_reducible apply Kept.ite_fst | split | dsimp only)

theorem fillRx_kept_eq {ρ : Bool} {χ : List Part} {σ s tt : State} {owner : Nat} {x : Ring} {fuel i : Nat} {bs : List Byte} {done : List (Nat × Nat)} {aa} (hw : Sub [.lkt, .cmds, .boot, .tdm, .mtx, .col, .net, .red, .tw, .mem] χ) (hk : Kept ρ χ σ s) (e : fillRx owner x fuel i bs done s = (tt, aa)) :
    Kept ρ χ σ tt := by
  have := fillRx_kept (owner := owner) (x := x) (fuel := fuel) (i := i) (bs := bs) (done := done) hw hk; rw [e] at this; exact this

theorem backRx_kept {ρ : Bool} {χ : List Part} {σ s : State} {x : Ring} {i : Nat} {ctrl len total : Nat} {f : RxFrame} (hw : Sub [.lkt, .cmds, .boot, .tdm, .mtx, .col, .net, .red, .tw, .mem] χ) (hk : Kept ρ χ σ s) :
    Kept ρ χ σ (backRx x i ctrl len total f s) := by
  unfold backRx
  repeat' (first | with_reducible assumption | with_reducible apply colWrite_kept)

theorem backAllRx_kept {ρ : Bool} {χ : List Part} {σ s : State} {x : Ring} {f : RxFrame} {discard : Bool} {done : List (Nat × Nat)} (hw : Sub [.lkt, .cmds, .boot, .tdm, .mtx, .col, .net, .red, .tw, .mem] χ) (hk : Kept ρ χ σ s) :
    Kept ρ χ σ (backAllRx x f discard done s) := by
  unfold backAllRx
  repeat' (first
    | with_reducible assumption | with_reducible apply backRx_kept | (with_reducible apply Kept.foldl; intro _ _ _))

theorem ringDone_kept {ρ : Bool} {χ : List Part} {σ s : State} {owner : Nat} {irq : Bool} (hw : Sub [.cmds] χ) (hk : Kept ρ χ σ s) :
    Kept ρ χ σ (ringDone owner irq s) := by
  unfold ringDone
  repeat' (first
    | with_reducible assumption | with_reducible apply State.setPart_kept | with_reducible rfl
    | with_reducible apply Kept.ite)

theorem rxDeliver_kept {ρ : Bool} {χ : List Part} {σ s : State} {r : Nat} (hw : Sub [.lkt, .cmds, .boot, .tdm, .mtx, .col, .net, .red, .tw, .mem] χ) (hk : Kept ρ χ σ s) :
    Kept ρ χ σ (rxDeliver r s) := by
  unfold rxDeliver
  repeat' (first
    | with_reducible assumption | exact Sub.of hw rfl | (refine fillRx_kept_eq (hw.of rfl) ?_ (by assumption))
    | with_reducible apply State.setRxRing_kept | with_reducible apply backAllRx_kept
    | with_reducible apply ringDone_kept | with_reducible apply Kept.ite | split)

theorem walkTx_kept {ρ : Bool} {χ : List Part} {σ s : State} {owner : Nat} {x : Ring} {fuel : Nat} {t : TxWalk}
    (hw : Sub [.lkt, .cmds, .boot, .tdm, .col, .net, .red, .tw] χ) (hk : Kept ρ χ σ s) : Kept ρ χ σ (walkTx owner x fuel t s).1 := by
  induction fuel generalizing t s with
  | zero => exact hk
  | succ n ih =>
    unfold walkTx
    repeat' (first | assumption | exact hw.of rfl | with_reducible apply ih | with_reducible apply fetchDesc_kept | (refine fetchDesc_kept_eq (hw.of rfl) ?_ (by assumption)) | with_reducible apply colRead_kept | (refine colRead_kept_eq (hw.of rfl) ?_ (by assumption)) | with_reducible apply Kept.ite_fst | split | dsimp only)

theorem walkTx_kept_eq {ρ : Bool} {χ : List Part} {σ s tt : State} {owner : Nat} {x : Ring} {fuel : Nat} {t : TxWalk} {aa} (hw : Sub [.lkt, .cmds, .boot, .tdm, .col, .net, .red, .tw] χ) (hk : Kept ρ χ σ s) (e : walkTx owner x fuel t s = (tt, aa)) :
    Kept ρ χ σ tt := by
  have := walkTx_kept (owner := owner) (x := x) (fuel := fuel) (t := t) hw hk; rw [e] at this; exact this

theorem backTx_kept {ρ : Bool} {χ : List Part} {σ s : State} {x : Ring} {n flag : Nat} (hw : Sub [.lkt, .cmds, .boot, .tdm, .mtx, .col, .net, .red, .tw, .mem] χ) (hk : Kept ρ χ σ s) :
    Kept ρ χ σ (backTx x n flag s) := by
  unfold backTx
  repeat' (first
    | with_reducible assumption | exact Sub.of hw rfl | with_reducible apply colRead_kept
    | with_reducible apply colWrite_kept | (with_reducible apply Kept.foldl; intro _ _ _))

theorem sendTx_kept {ρ : Bool} {χ : List Part} {σ s : State} {r : Nat} {x : Ring} {t : TxWalk} (hw : Sub [.lkt, .cmds, .boot, .tdm, .mtx, .col, .net, .red, .tw, .mem] χ) (hk : Kept ρ χ σ s) :
    Kept ρ χ σ (sendTx r x t s) := by
  unfold sendTx
  repeat' (first
    | with_reducible assumption | exact Sub.of hw rfl | with_reducible apply backTx_kept
    | with_reducible apply dropPre_kept | with_reducible apply State.setTxRing_kept | with_reducible apply toPorts_kept
    | with_reducible apply pauseCheck_kept | with_reducible apply ringDone_kept | with_reducible apply Kept.ite
    | (with_reducible apply Kept.foldl; intro _ _ _))

theorem txFrame_kept {ρ : Bool} {χ : List Part} {σ s : State} {r : Nat} (hw : Sub [.lkt, .cmds, .boot, .tdm, .mtx, .col, .net, .red, .tw, .mem] χ) (hk : Kept ρ χ σ s) :
    Kept ρ χ σ (txFrame r s) := by
  unfold txFrame
  repeat' (first
    | with_reducible assumption | exact Sub.of hw rfl | (refine walkTx_kept_eq (hw.of rfl) ?_ (by assumption))
    | with_reducible apply State.setTxRing_kept | with_reducible apply sendTx_kept | with_reducible apply backTx_kept
    | with_reducible apply Kept.ite | split)

theorem stopTx_kept {ρ : Bool} {χ : List Part} {σ s : State} {r : Nat} (hw : Sub [.lkt, .cmds, .boot, .tdm, .mtx, .col, .net, .red, .tw, .mem] χ) (hk : Kept ρ χ σ s) :
    Kept ρ χ σ (stopTx r s) := by
  unfold stopTx
  repeat' (first
    | with_reducible assumption | exact Sub.of hw rfl | with_reducible apply walkTx_kept
    | with_reducible apply backTx_kept | with_reducible apply State.setTxRing_kept | with_reducible apply Kept.ite)

theorem netSetRing_kept {ρ : Bool} {χ : List Part} {σ s : State} {c : NetSetRing} (hw : Sub [.lkt, .cmds, .boot, .tdm, .mtx, .col, .net, .red, .tw, .mem] χ) (hk : Kept ρ χ σ s) :
    Kept ρ χ σ (netSetRing c s).1 := by
  unfold netSetRing
  repeat' (first
    | with_reducible assumption | exact Sub.of hw rfl | with_reducible apply State.setRxRing_kept
    | with_reducible apply stopTx_kept | with_reducible apply State.setTxRing_kept | with_reducible apply Kept.ite
    | with_reducible apply Kept.ite_fst)

theorem ringDoorbell_kept {ρ : Bool} {χ : List Part} {σ s : State} {tx : Bool} {r : Nat} (hw : Sub [.lkt, .cmds, .boot, .tdm, .mtx, .col, .net, .red, .tw, .mem] χ) (hk : Kept ρ χ σ s) :
    Kept ρ χ σ (ringDoorbell tx r s) := by
  unfold ringDoorbell
  repeat' (first
    | with_reducible assumption | with_reducible apply txFrame_kept | with_reducible apply rxDeliver_kept
    | with_reducible apply Kept.ite)

theorem ringWrite_kept {ρ : Bool} {χ : List Part} {σ s : State} {tx : Bool} {r o : Nat} {w : Word} (hw : Sub [.net] χ) (hk : Kept ρ χ σ s) :
    Kept ρ χ σ (ringWrite tx r o w s) := by
  unfold ringWrite
  repeat' (first
    | with_reducible assumption | with_reducible apply State.setTxRing_kept | with_reducible apply State.setRxRing_kept
    | with_reducible apply Kept.ite)

end Sys2Proof.Machine
end

