-- ==== Sys2Proof/Laws/Kept/Packets.lean ====
section
/-! SUPPORT. What the operations of Machine/Packets.lean keep. -/

namespace Sys2Proof.Machine

theorem showPacket_kept {ρ : Bool} {χ : List Part} {σ s : State} {p : Nat} {bs : List Byte} (hw : Sub [.cmds] χ) (hk : Kept ρ χ σ s) :
    Kept ρ χ σ (showPacket p bs s) := by
  unfold showPacket
  repeat' (first | with_reducible assumption | with_reducible apply State.setPart_kept | with_reducible rfl)

theorem mailboxReply_kept {ρ : Bool} {χ : List Part} {σ s : State} {p : Nat} {h : PktHdr} {pkt : List Byte} (hw : Sub [.cmds] χ) (hk : Kept ρ χ σ s) :
    Kept ρ χ σ (mailboxReply p h pkt s) := by
  unfold mailboxReply
  repeat' (first | with_reducible assumption | with_reducible apply showPacket_kept | with_reducible apply onSlot_kept)

theorem udpSend_kept {ρ : Bool} {χ : List Part} {σ s : State} {c : CmdSlot} {pkt : List Byte} (hw : Sub [.lkt, .cmds, .boot, .tdm, .net, .red, .tw] χ) (hk : Kept ρ χ σ s) :
    Kept ρ χ σ (udpSend c pkt s) := by
  unfold udpSend
  repeat' (first | with_reducible assumption | with_reducible apply toPorts_kept)

theorem udpReply_kept {ρ : Bool} {χ : List Part} {σ s : State} {p : Nat} {h : PktHdr} {pkt : List Byte} (hw : Sub [.lkt, .cmds, .boot, .tdm, .net, .red, .tw] χ) (hk : Kept ρ χ σ s) :
    Kept ρ χ σ (udpReply p h pkt s) := by
  unfold udpReply
  repeat' (first
    | with_reducible assumption | exact Sub.of hw rfl | with_reducible apply udpSend_kept
    | with_reducible apply onSlot_kept)

theorem answer_kept {ρ : Bool} {χ : List Part} {σ s : State} {p : Nat} {udp : Bool} {r : Reply} (hw : Sub [.lkt, .cmds, .boot, .tdm, .net, .red, .tw] χ) (hk : Kept ρ χ σ s) :
    Kept ρ χ σ (answer p udp r s) := by
  unfold answer
  repeat' (first
    | with_reducible assumption | exact Sub.of hw rfl | with_reducible apply udpReply_kept
    | with_reducible apply mailboxReply_kept | with_reducible apply onSlot_kept | with_reducible apply Kept.ite)

theorem udpDirect_kept {ρ : Bool} {χ : List Part} {σ s : State} {c : CmdSlot} {p : Nat} {h : PktHdr} {key : Option (BitVec 256)} {st : Status} (hw : Sub [.lkt, .cmds, .boot, .tdm, .net, .red, .tw] χ) (hk : Kept ρ χ σ s) :
    Kept ρ χ σ (udpDirect c p h key st s) := by
  unfold udpDirect
  repeat' (first | with_reducible assumption | with_reducible apply udpSend_kept)

end Sys2Proof.Machine
end

