-- ==== Sys2Proof/Laws/Kept/SysCommands.lean ====
section
/-! SUPPORT. What the operations of Machine/SysCommands.lean keep. -/

namespace Sys2Proof.Machine

/-- A drawn session is not zero (R408). -/
theorem pickSession_ne_zero (o w : Word) : pickSession o w ≠ 0 := by
  unfold pickSession
  split
  · rename_i h; exact h.1
  · split
    · rename_i h; exact h.1
    · rename_i h k
      intro e
      have e1 : w = 0xFFFF_FFFE#32 := by bv_omega
      subst e1
      by_cases ho : (0xFFFF_FFFE#32 : Word) = o
      · subst ho; exact k (by decide)
      · exact h ⟨by decide, ho⟩

/-- A partition takes a new session. -/
theorem State.setPart_session_kept {ρ : Bool} {χ : List Part} {σ s : State} {p : Nat} {c : PartCmd} (hw : Sub [.cmds] χ) (hk : Kept ρ χ σ s)
    (hc : c.session ≠ 0) : Kept ρ χ σ (s.setPart p c) := by
  refine hk.trans ⟨rfl, fun i => ?_, Otp.Grown.refl _, fun _ => ⟨BitVec.or_self, id⟩, fun p => by cases p <;> first | exact .inl (hw _ (by decide)) | exact .inr rfl⟩
  refine ⟨i.tarn, i.dram, ?_, fun d hd => ?_, i.refs, i.ports, i.ctl, i.locks⟩
  · simpa [State.setPart] using i.parts
  · rcases List.mem_or_eq_of_mem_set hd with h | h
    · exact i.sessions d h
    · subst h; exact hc

theorem sysHello_kept {ρ : Bool} {χ : List Part} {σ s : State} {p : Nat} {newSession : Bool} (hw : Sub [.cmds, .fresh] χ) (hk : Kept ρ χ σ s) :
    Kept ρ χ σ (sysHello p newSession s).1 := by
  unfold sysHello
  repeat' (first
    | with_reducible assumption | exact Sub.of hw rfl
    | (with_reducible refine State.setPart_session_kept (hw.of rfl) ?_ (pickSession_ne_zero _ _))
    | with_reducible apply draw_kept | with_reducible apply Kept.ite_fst)

theorem sysGetInfo_kept {ρ : Bool} {χ : List Part} {σ s : State} (hw : Sub [] χ) (hk : Kept ρ χ σ s) :
    Kept ρ χ σ (sysGetInfo s).1 := by
  unfold sysGetInfo
  repeat' (first | with_reducible assumption)

theorem sysGetOwnership_kept {ρ : Bool} {χ : List Part} {σ s : State} (hw : Sub [] χ) (hk : Kept ρ χ σ s) :
    Kept ρ χ σ (sysGetOwnership s).1 := by
  unfold sysGetOwnership
  repeat' (first | with_reducible assumption)

theorem sysProfileLoad_kept {ρ : Bool} {χ : List Part} {σ s : State} {c : ProfileLoad} (hw : Sub [] χ) (hk : Kept ρ χ σ s) :
    Kept ρ χ σ (sysProfileLoad c s).1 := by
  unfold sysProfileLoad
  repeat' (first | with_reducible assumption | with_reducible apply Kept.ite_fst)

theorem profileLoadEnd_kept {ρ : Bool} {χ : List Part} {σ s : State} {n : Nat} {flags : Byte} (hw : Sub [.boot, .ka] χ) (hk : Kept ρ χ σ s) :
    Kept ρ χ σ (profileLoadEnd n flags s).1 := by
  unfold profileLoadEnd
  repeat' (first
    | with_reducible assumption | (simp only [keptTo]; refine KeptTo.view hw ?_ rfl)
    | with_reducible apply Kept.ite_fst | split)

theorem profileLoadEnd_kept_eq {ρ : Bool} {χ : List Part} {σ s : State} {n : Nat} {flags : Byte} {tt : State} {aa : Reply} (hw : Sub [.boot, .ka] χ) (hk : Kept ρ χ σ s) (he : (profileLoadEnd n flags s) = (tt, aa)) :
    Kept ρ χ σ tt := by
  have := profileLoadEnd_kept (n:=n) (flags:=flags) hw hk; rw [he] at this; exact this

theorem sysProfileErase_kept {ρ : Bool} {χ : List Part} {σ s : State} {c : ProfileErase} (hw : Sub [] χ) (hk : Kept ρ χ σ s) :
    Kept ρ χ σ (sysProfileErase c s).1 := by
  unfold sysProfileErase
  repeat' (first | with_reducible assumption | with_reducible apply Kept.ite_fst)

theorem profileEraseEnd_kept {ρ : Bool} {χ : List Part} {σ s : State} {n : Nat} (hw : Sub [.flash] χ) (hk : Kept ρ χ σ s) :
    Kept ρ χ σ (profileEraseEnd n s).1 := by
  unfold profileEraseEnd
  repeat' (first
    | with_reducible assumption | with_reducible apply flashErase_kept
    | (simp only [keptTo]; refine KeptTo.view hw ?_ rfl))

theorem profileEraseEnd_kept_eq {ρ : Bool} {χ : List Part} {σ s : State} {n : Nat} {tt : State} {aa : Reply} (hw : Sub [.flash] χ) (hk : Kept ρ χ σ s) (he : (profileEraseEnd n s) = (tt, aa)) :
    Kept ρ χ σ tt := by
  have := profileEraseEnd_kept (n:=n) hw hk; rw [he] at this; exact this

theorem sysProfileWrite_kept {ρ : Bool} {χ : List Part} {σ s : State} {w : FlashWrite} (hw : Sub [.flash] χ) (hk : Kept ρ χ σ s) :
    Kept ρ χ σ (sysProfileWrite w s).1 := by
  unfold sysProfileWrite
  repeat' (first | with_reducible assumption | with_reducible apply flashWrite_kept | with_reducible apply Kept.ite_fst)

theorem sysProfileSeal_kept {ρ : Bool} {χ : List Part} {σ s : State} {slot : Byte} (hw : Sub [] χ) (hk : Kept ρ χ σ s) :
    Kept ρ χ σ (sysProfileSeal slot s).1 := by
  unfold sysProfileSeal
  repeat' (first | with_reducible assumption | with_reducible apply Kept.ite_fst)

theorem profileSealEnd_kept {ρ : Bool} {χ : List Part} {σ s : State} {n : Nat} (hw : Sub [.flash] χ) (hk : Kept ρ χ σ s) :
    Kept ρ χ σ (profileSealEnd n s).1 := by
  unfold profileSealEnd
  repeat' (first | with_reducible assumption | (simp only [keptTo]; refine KeptTo.view hw ?_ rfl) | split)

theorem profileSealEnd_kept_eq {ρ : Bool} {χ : List Part} {σ s : State} {n : Nat} {tt : State} {aa : Reply} (hw : Sub [.flash] χ) (hk : Kept ρ χ σ s) (he : (profileSealEnd n s) = (tt, aa)) :
    Kept ρ χ σ tt := by
  have := profileSealEnd_kept (n:=n) hw hk; rw [he] at this; exact this

theorem sysProfileList_kept {ρ : Bool} {χ : List Part} {σ s : State} (hw : Sub [] χ) (hk : Kept ρ χ σ s) :
    Kept ρ χ σ (sysProfileList s).1 := by
  unfold sysProfileList
  repeat' (first | with_reducible assumption)

theorem fwEraseEnd_kept {ρ : Bool} {χ : List Part} {σ s : State} {c : Nat} (hw : Sub [.flash] χ) (hk : Kept ρ χ σ s) :
    Kept ρ χ σ (fwEraseEnd c s).1 := by
  unfold fwEraseEnd
  repeat' (first | with_reducible assumption | with_reducible apply flashErase_kept)

theorem fwEraseEnd_kept_eq {ρ : Bool} {χ : List Part} {σ s : State} {c : Nat} {tt : State} {aa : Reply} (hw : Sub [.flash] χ) (hk : Kept ρ χ σ s) (he : (fwEraseEnd c s) = (tt, aa)) :
    Kept ρ χ σ tt := by
  have := fwEraseEnd_kept (c:=c) hw hk; rw [he] at this; exact this

theorem jobEnd_kept_eq {ρ : Bool} {χ : List Part} {σ s t : State} {j : Job} {x : Reply} (hw : Sub [.flash, .boot, .ka] χ) (hk : Kept ρ χ σ s) (e : jobEnd j s = some (t, x)) :
    Kept ρ χ σ t := by
  unfold jobEnd at e
  cases j <;> simp only [Option.some.injEq, Option.map_eq_some_iff, reduceCtorEq] at e
  · exact fwEraseEnd_kept_eq (hw.of rfl) hk e
  · cases e; exact hk
  · exact profileEraseEnd_kept_eq (hw.of rfl) hk e
  · exact profileSealEnd_kept_eq (hw.of rfl) hk e
  · exact profileLoadEnd_kept_eq (hw.of rfl) hk e
  · obtain ⟨_, _, e⟩ := e; cases e; exact hk

end Sys2Proof.Machine
end

