-- ==== Sys2Proof/Laws/Refs.lean ====
section
/-! SUPPORT. Polestar keeps six references (R34): no operation changes how many there are. -/

namespace Sys2Proof.Machine

theorem foldl_refs {α : Type} (f : Pst → α → Pst) (l : List α) (h : ∀ p a, (f p a).refs.length = p.refs.length)
    (p : Pst) : (l.foldl f p).refs.length = p.refs.length := by
  induction l generalizing p with
  | nil => rfl
  | cons a l ih => exact (ih (f p a)).trans (h p a)

@[simp] theorem Pst.setRef_refs (p : Pst) (i : Nat) (r : RefSt) :
    (Pst.setRef p i r).refs.length = p.refs.length := by
  unfold Pst.setRef
  repeat' (first | rfl | (simp; done) | split | dsimp only)

@[simp] theorem Pst.prunePairs_refs (p : Pst) :
    (Pst.prunePairs p).refs.length = p.refs.length := by
  unfold Pst.prunePairs
  repeat' (first | rfl | (simp; done) | split | dsimp only)

@[simp] theorem Pst.updateWtr_refs (p : Pst) (now : Nat) :
    (Pst.updateWtr p now).refs.length = p.refs.length := by
  unfold Pst.updateWtr
  repeat' (first | rfl | (simp; done) | split | dsimp only)

@[simp] theorem Pst.refreshFreq_refs (p : Pst) :
    (Pst.refreshFreq p).1.refs.length = p.refs.length := by
  unfold Pst.refreshFreq
  repeat' (first | rfl | (simp; done) | split | dsimp only)

@[simp] theorem Pst.movePhase_refs (p : Pst) (d : Int) :
    (Pst.movePhase p d).refs.length = p.refs.length := by
  unfold Pst.movePhase
  repeat' (first | rfl | (simp; done) | split | dsimp only)

@[simp] theorem Pst.leaveRef_refs (p : Pst) :
    (Pst.leaveRef p).refs.length = p.refs.length := by
  unfold Pst.leaveRef
  repeat' (first | rfl | (simp; done) | split | dsimp only)

@[simp] theorem Pst.endHoldover_refs (p : Pst) (now : Nat) :
    (Pst.endHoldover p now).refs.length = p.refs.length := by
  unfold Pst.endHoldover
  repeat' (first | rfl | (simp; done) | split | dsimp only)

@[simp] theorem Pst.switchTo_refs (p : Pst) (now : Nat) (i : Nat) (count : Bool) :
    (Pst.switchTo p now i count).1.refs.length = p.refs.length := by
  unfold Pst.switchTo
  repeat' (first | rfl | (simp; done) | split | dsimp only)

@[simp] theorem Pst.toFreerun_refs (p : Pst) (now : Nat) :
    (Pst.toFreerun p now).refs.length = p.refs.length := by
  unfold Pst.toFreerun
  repeat' (first | rfl | (simp; done) | split | dsimp only)

@[simp] theorem Pst.toHoldover_refs (p : Pst) (now : Nat) :
    (Pst.toHoldover p now).1.refs.length = p.refs.length := by
  unfold Pst.toHoldover
  repeat' (first | rfl | (simp; done) | split | dsimp only)

@[simp] theorem Pst.acquireLock_refs (p : Pst) (now i : Nat) :
    (Pst.acquireLock p now i).refs.length = p.refs.length := by
  unfold Pst.acquireLock
  repeat' (first | rfl | (simp; done) | split | dsimp only)

@[simp] theorem Pst.evaluate_refs (p : Pst) (now : Nat) :
    (Pst.evaluate p now).1.refs.length = p.refs.length := by
  unfold Pst.evaluate
  repeat' (first | rfl | (simp; done) | split | dsimp only)

@[simp] theorem Pst.settle_refs (p : Pst) (now : Nat) :
    (Pst.settle p now).1.refs.length = p.refs.length := by
  unfold Pst.settle
  repeat' (first | rfl | (simp; done) | split | dsimp only)

@[simp] theorem Pst.measure_refs (p : Pst) (i : Nat) (m : RefMeas) :
    (Pst.measure p i m).refs.length = p.refs.length := by
  unfold Pst.measure
  repeat' (first | rfl | (simp; done) | split | dsimp only)

@[simp] theorem Pst.refValid_refs (p : Pst) (now i : Nat) (m : RefMeas) :
    (Pst.refValid p now i m).refs.length = p.refs.length := by
  unfold Pst.refValid
  repeat' (first | rfl | (simp; done) | split | dsimp only)

@[simp] theorem Pst.refQualified_refs (p : Pst) (now i : Nat) (m : RefMeas) (sec : BitVec 48) (ns : Word) :
    (Pst.refQualified p now i m sec ns).1.refs.length = p.refs.length := by
  unfold Pst.refQualified
  repeat' (first | rfl | (simp; done) | split | dsimp only)

@[simp] theorem Pst.refLost_refs (p : Pst) (now i : Nat) (present : Bool) :
    (Pst.refLost p now i present).1.refs.length = p.refs.length := by
  unfold Pst.refLost
  repeat' (first | rfl | (simp; done) | split | dsimp only)

@[simp] theorem Pst.wtrExpiry_refs (p : Pst) (now i : Nat) :
    (Pst.wtrExpiry p now i).1.refs.length = p.refs.length := by
  unfold Pst.wtrExpiry
  repeat' (first | rfl | (simp; done) | split | dsimp only)

@[simp] theorem Pst.slewDone_refs (p : Pst) :
    (Pst.slewDone p).refs.length = p.refs.length := by
  unfold Pst.slewDone
  repeat' (first | rfl | (simp; done) | split | dsimp only)

@[simp] theorem Pst.slewComplete_refs (p : Pst) (now : Nat) :
    (Pst.slewComplete p now).1.refs.length = p.refs.length := by
  unfold Pst.slewComplete
  repeat' (first | rfl | (simp; done) | split | dsimp only)

@[simp] theorem Pst.slewEdge_refs (p : Pst) :
    (Pst.slewEdge p).refs.length = p.refs.length := by
  unfold Pst.slewEdge
  repeat' (first | rfl | (simp; done) | split | dsimp only)

@[simp] theorem Pst.nextMcnt_refs (p : Pst) :
    (Pst.nextMcnt p).refs.length = p.refs.length := by
  unfold Pst.nextMcnt
  repeat' (first | rfl | (simp; done) | split | dsimp only)

@[simp] theorem Pst.addPtp_refs (p : Pst) (d : Int) :
    (Pst.addPtp p d).refs.length = p.refs.length := by
  unfold Pst.addPtp
  repeat' (first | rfl | (simp; done) | split | dsimp only)

@[simp] theorem Pst.specExpiry_refs (p : Pst) :
    (Pst.specExpiry p).1.refs.length = p.refs.length := by
  unfold Pst.specExpiry
  repeat' (first | rfl | (simp; done) | split | dsimp only)

@[simp] theorem Pst.historySecond_refs (p : Pst) (now : Nat) (w : Int) :
    (Pst.historySecond p now w).refs.length = p.refs.length := by
  unfold Pst.historySecond
  repeat' (first | rfl | (simp; done) | split | dsimp only)

@[simp] theorem Pst.disagreeWindow_refs (p : Pst) (ms : List RefMeas) :
    (Pst.disagreeWindow p ms).1.refs.length = p.refs.length := by
  unfold Pst.disagreeWindow
  repeat' (first | rfl | (simp; done) | split | dsimp only)
  rw [foldl_refs]
  intro q i
  split <;> simp

@[simp] theorem Pst.applyRefConfig_refs (p : Pst) (now i : Nat) (c : RefCfg) :
    (Pst.applyRefConfig p now i c).1.refs.length = p.refs.length := by
  unfold Pst.applyRefConfig
  repeat' (first | rfl | (simp; done) | split | dsimp only)

@[simp] theorem Pst.applyRank_refs (p : Pst) (now i rank : Nat) :
    (Pst.applyRank p now i rank).1.refs.length = p.refs.length := by
  unfold Pst.applyRank
  repeat' (first | rfl | (simp; done) | split | dsimp only)

@[simp] theorem Pst.applySelect_refs (p : Pst) (now : Nat) (mode : SelMode) (man : Nat) (rev : Bool) :
    (Pst.applySelect p now mode man rev).1.refs.length = p.refs.length := by
  unfold Pst.applySelect
  repeat' (first | rfl | (simp; done) | split | dsimp only)

@[simp] theorem Pst.expireWtr_refs (p : Pst) (now : Nat) :
    (Pst.expireWtr p now).refs.length = p.refs.length := by
  unfold Pst.expireWtr
  repeat' (first | rfl | (simp; done) | split | dsimp only)

@[simp] theorem Pst.applyTimers_refs (p : Pst) (now : Nat) (t : ClkSetTimers) :
    (Pst.applyTimers p now t).1.refs.length = p.refs.length := by
  unfold Pst.applyTimers
  simp only [Pst.settle_refs, Pst.expireWtr_refs]
  rw [foldl_refs]
  intro q i
  simp

@[simp] theorem Pst.applyHoldover_refs (p : Pst) (now : Nat) (h : ClkSetHoldover) :
    (Pst.applyHoldover p now h).1.refs.length = p.refs.length := by
  unfold Pst.applyHoldover
  repeat' (first | rfl | (simp; done) | split | dsimp only)

@[simp] theorem Pst.applyPhaseStep_refs (p : Pst) (ns : Int) :
    (Pst.applyPhaseStep p ns).1.refs.length = p.refs.length := by
  unfold Pst.applyPhaseStep
  repeat' (first | rfl | (simp; done) | split | dsimp only)

@[simp] theorem Pst.applyRealign_refs (p : Pst) (r : Realign) :
    (Pst.applyRealign p r).1.refs.length = p.refs.length := by
  unfold Pst.applyRealign
  repeat' (first | rfl | (simp; done) | split | dsimp only)

end Sys2Proof.Machine
end

