-- ==== Sys2Proof/Laws/Kept/Ptp.lean ====
section
/-! SUPPORT. What the operations of Machine/Ptp.lean keep. -/

namespace Sys2Proof.Machine

theorem State.setInst_kept {ρ : Bool} {χ : List Part} {σ s : State} {i : Nat} {x : PtpInst} (hw : Sub [.ptp] χ) (hk : Kept ρ χ σ s) :
    Kept ρ χ σ (State.setInst s i x) := by
  unfold State.setInst
  repeat' (first
    | with_reducible assumption | (simp only [keptTo]; with_reducible apply KeptTo.intro hw)
    | (show ∀ p : Part, _; intro p; cases p <;> dsimp only [Part.same] <;> first | exact .inl (by decide) | exact .inr (by with_reducible rfl) | exact .inr rfl)
    | with_reducible rfl | with_reducible exact MemTo.refl _ | with_reducible exact Otp.Grown.refl _
    | with_reducible apply Kept.ite)

theorem withPst_kept {ρ : Bool} {χ : List Part} {σ s : State} {f : Pst → Pst × List Nat}
    (hw : Sub [.lkt, .pst, .cmds, .boot, .tdm, .net, .red, .tw] χ) (hk : Kept ρ χ σ s) (hf : ∀ p, (f p).1.refs.length = p.refs.length) : Kept ρ χ σ (withPst f s) := by
  unfold withPst
  exact reportAll_kept (hw.of rfl) (hk.same hw (fun p => by cases p <;> dsimp only [Part.same] <;> first | exact .inl (by decide) | exact .inr (by with_reducible rfl) | exact .inr rfl) rfl (MemTo.refl _) rfl (hf _) rfl rfl rfl (Otp.Grown.refl _))

theorem judgePtp_kept {ρ : Bool} {χ : List Part} {σ s : State} {i : Nat} (hw : Sub [.lkt, .pst, .cmds, .boot, .tdm, .net, .red, .tw] χ) (hk : Kept ρ χ σ s) :
    Kept ρ χ σ (judgePtp i s) := by
  unfold judgePtp
  repeat' (first
    | with_reducible assumption | with_reducible apply withPst_kept | with_reducible apply Kept.ite
    | (show _ = _; first | (simp; done) | rfl) | (intro _))

theorem settlePtp_kept {ρ : Bool} {χ : List Part} {σ s : State} {i : Nat} (hw : Sub [.lkt, .pst, .cmds, .boot, .tdm, .net, .ptp, .red, .tw] χ) (hk : Kept ρ χ σ s) :
    Kept ρ χ σ (settlePtp i s) := by
  unfold settlePtp
  repeat' (first
    | with_reducible assumption | exact Sub.of hw rfl | with_reducible apply State.setInst_kept
    | with_reducible apply judgePtp_kept | with_reducible apply reportOwn_kept | with_reducible apply Kept.ite)

theorem announceReceived_kept {ρ : Bool} {χ : List Part} {σ s : State} {i : Nat} {a : Announce} (hw : Sub [.lkt, .pst, .cmds, .boot, .tdm, .net, .ptp, .red, .tw] χ) (hk : Kept ρ χ σ s) :
    Kept ρ χ σ (announceReceived i a s) := by
  unfold announceReceived
  repeat' (first
    | with_reducible assumption | exact Sub.of hw rfl | with_reducible apply settlePtp_kept
    | with_reducible apply State.setInst_kept | with_reducible apply Kept.ite)

theorem announceTimeout_kept {ρ : Bool} {χ : List Part} {σ s : State} {i : Nat} (hw : Sub [.lkt, .pst, .cmds, .boot, .tdm, .net, .ptp, .red, .tw] χ) (hk : Kept ρ χ σ s) :
    Kept ρ χ σ (announceTimeout i s) := by
  unfold announceTimeout
  repeat' (first
    | with_reducible assumption | exact Sub.of hw rfl | with_reducible apply settlePtp_kept
    | with_reducible apply State.setInst_kept | with_reducible apply withPst_kept | with_reducible apply Kept.ite
    | (show _ = _; first | (simp; done) | rfl) | (intro _))

theorem syncTimeout_kept {ρ : Bool} {χ : List Part} {σ s : State} {i : Nat} (hw : Sub [.lkt, .pst, .cmds, .boot, .tdm, .net, .red, .tw] χ) (hk : Kept ρ χ σ s) :
    Kept ρ χ σ (syncTimeout i s) := by
  unfold syncTimeout
  repeat' (first
    | with_reducible assumption | with_reducible apply withPst_kept | (show _ = _; first | (simp; done) | rfl)
    | (intro _))

theorem syncReceived_kept {ρ : Bool} {χ : List Part} {σ s : State} {i : Nat} {m : SyncMsg} (hw : Sub [.ptp] χ) (hk : Kept ρ χ σ s) :
    Kept ρ χ σ (syncReceived i m s) := by
  unfold syncReceived
  repeat' (first | with_reducible assumption | with_reducible apply State.setInst_kept | with_reducible apply Kept.ite)

theorem followUp_kept {ρ : Bool} {χ : List Part} {σ s : State} {i : Nat} {m : SyncMsg} (hw : Sub [.ptp] χ) (hk : Kept ρ χ σ s) :
    Kept ρ χ σ (followUp i m s) := by
  unfold followUp
  repeat' (first
    | with_reducible assumption | with_reducible apply State.setInst_kept | with_reducible apply Kept.ite | split
    | dsimp only)

theorem followUpTimeout_kept {ρ : Bool} {χ : List Part} {σ s : State} {i : Nat} (hw : Sub [.ptp] χ) (hk : Kept ρ χ σ s) :
    Kept ρ χ σ (followUpTimeout i s) := by
  unfold followUpTimeout
  repeat' (first
    | with_reducible assumption | with_reducible apply State.setInst_kept | with_reducible apply Kept.ite | split
    | dsimp only)

theorem sendPtp_kept {ρ : Bool} {χ : List Part} {σ s : State} {i dport : Nat} {dst : Nat × Nat} {msg : List Byte} (hw : Sub [.net, .ptp] χ) (hk : Kept ρ χ σ s) :
    Kept ρ χ σ (sendPtp i dport dst msg s) := by
  unfold sendPtp
  repeat' (first
    | with_reducible assumption | exact Sub.of hw rfl | with_reducible apply State.setNetPort_kept
    | with_reducible apply State.setInst_kept)

theorem delayReqSend_kept {ρ : Bool} {χ : List Part} {σ s : State} {i : Nat} {t : Stamp} (hw : Sub [.net, .ptp] χ) (hk : Kept ρ χ σ s) :
    Kept ρ χ σ (delayReqSend i t s) := by
  unfold delayReqSend
  repeat' (first
    | with_reducible assumption | exact Sub.of hw rfl | with_reducible apply sendPtp_kept
    | with_reducible apply State.setInst_kept | with_reducible apply Kept.ite)

theorem delayRespTimeout_kept {ρ : Bool} {χ : List Part} {σ s : State} {i : Nat} (hw : Sub [.ptp] χ) (hk : Kept ρ χ σ s) :
    Kept ρ χ σ (delayRespTimeout i s) := by
  unfold delayRespTimeout
  repeat' (first | with_reducible assumption | with_reducible apply State.setInst_kept | with_reducible apply Kept.ite)

theorem phaseSample_kept {ρ : Bool} {χ : List Part} {σ s : State} {i : Nat} {offset : Int} (hw : Sub [.pst] χ) (hk : Kept ρ χ σ s) :
    Kept ρ χ σ (phaseSample i offset s) := by
  unfold phaseSample
  repeat' (first
    | with_reducible assumption | (simp only [keptTo]; with_reducible apply KeptTo.intro hw)
    | (show ∀ p : Part, _; intro p; cases p <;> dsimp only [Part.same] <;> first | exact .inl (by decide) | exact .inr (by with_reducible rfl) | exact .inr rfl)
    | with_reducible rfl | with_reducible exact MemTo.refl _ | with_reducible exact Otp.Grown.refl _
    | (show _ = _; first | (simp; done) | rfl))

theorem judgeOffset_kept {ρ : Bool} {χ : List Part} {σ s : State} {i : Nat} {raw : Int} {x : PtpInst} (hw : Sub [.lkt, .pst, .cmds, .boot, .tdm, .net, .ptp, .red, .tw] χ) (hk : Kept ρ χ σ s) :
    Kept ρ χ σ (judgeOffset i raw x s) := by
  unfold judgeOffset
  repeat' (first
    | with_reducible assumption | exact Sub.of hw rfl | with_reducible apply phaseSample_kept
    | with_reducible apply State.setInst_kept | with_reducible apply judgePtp_kept
    | with_reducible apply reportOwn_kept | with_reducible apply Kept.ite)

theorem delayResp_kept {ρ : Bool} {χ : List Part} {σ s : State} {i : Nat} {m : DelayResp} (hw : Sub [.lkt, .pst, .cmds, .boot, .tdm, .net, .ptp, .red, .tw] χ) (hk : Kept ρ χ σ s) :
    Kept ρ χ σ (delayResp i m s) := by
  unfold delayResp
  repeat' (first
    | with_reducible assumption | exact Sub.of hw rfl | with_reducible apply State.setInst_kept
    | with_reducible apply judgeOffset_kept | with_reducible apply Kept.ite | split | dsimp only)

theorem masterSync_kept {ρ : Bool} {χ : List Part} {σ s : State} {i : Nat} {t : Stamp} (hw : Sub [.net, .ptp] χ) (hk : Kept ρ χ σ s) :
    Kept ρ χ σ (masterSync i t s) := by
  unfold masterSync
  repeat' (first
    | with_reducible assumption | exact Sub.of hw rfl | with_reducible apply sendPtp_kept
    | with_reducible apply State.setInst_kept | with_reducible apply Kept.ite)

theorem masterAnnounce_kept {ρ : Bool} {χ : List Part} {σ s : State} {i : Nat} (hw : Sub [.lkt, .pst, .cmds, .boot, .tdm, .net, .ptp, .red, .tw] χ) (hk : Kept ρ χ σ s) :
    Kept ρ χ σ (masterAnnounce i s) := by
  unfold masterAnnounce
  repeat' (first
    | with_reducible assumption | exact Sub.of hw rfl | with_reducible apply settlePtp_kept
    | with_reducible apply sendPtp_kept | with_reducible apply State.setInst_kept | with_reducible apply Kept.ite)

theorem masterDelayReq_kept {ρ : Bool} {χ : List Part} {σ s : State} {i : Nat} {domain : Byte} {source : BitVec 80} {seq : Half} {correction : Long} {t : Stamp} (hw : Sub [.net, .ptp] χ) (hk : Kept ρ χ σ s) :
    Kept ρ χ σ (masterDelayReq i domain source seq correction t s) := by
  unfold masterDelayReq
  repeat' (first | with_reducible assumption | with_reducible apply sendPtp_kept | with_reducible apply Kept.ite)

theorem ptpSetInstance_kept {ρ : Bool} {χ : List Part} {σ s : State} {c : PtpSetInstance} (hw : Sub [.lkt, .pst, .cmds, .boot, .tdm, .net, .ptp, .red, .tw] χ) (hk : Kept ρ χ σ s) :
    Kept ρ χ σ (ptpSetInstance c s).1 := by
  unfold ptpSetInstance
  repeat' (first
    | with_reducible assumption | exact Sub.of hw rfl | with_reducible apply withPst_kept
    | with_reducible apply State.setInst_kept | with_reducible apply Kept.ite_fst
    | (show _ = _; first | (simp; done) | rfl) | (intro _))

theorem ptpSetPortTs_kept {ρ : Bool} {χ : List Part} {σ s : State} {c : PtpSetPortTs} (hw : Sub [.net] χ) (hk : Kept ρ χ σ s) :
    Kept ρ χ σ (ptpSetPortTs c s).1 := by
  unfold ptpSetPortTs
  repeat' (first
    | with_reducible assumption | with_reducible apply State.setNetPort_kept | with_reducible apply Kept.ite_fst)

theorem ptpSetMaster_kept {ρ : Bool} {χ : List Part} {σ s : State} {c : PtpSetMaster} (hw : Sub [.lkt, .pst, .cmds, .boot, .tdm, .net, .ptp, .red, .tw] χ) (hk : Kept ρ χ σ s) :
    Kept ρ χ σ (ptpSetMaster c s).1 := by
  unfold ptpSetMaster
  repeat' (first
    | with_reducible assumption | exact Sub.of hw rfl | with_reducible apply withPst_kept
    | with_reducible apply State.setInst_kept | with_reducible apply Kept.ite_fst
    | (show _ = _; first | (simp; done) | rfl) | (intro _))

theorem ptpAcceptJump_kept {ρ : Bool} {χ : List Part} {σ s : State} {inst : Byte} {gm : Long} (hw : Sub [.pst, .ptp] χ) (hk : Kept ρ χ σ s) :
    Kept ρ χ σ (ptpAcceptJump inst gm s).1 := by
  unfold ptpAcceptJump
  repeat' (first
    | with_reducible assumption | exact Sub.of hw rfl | with_reducible apply phaseSample_kept
    | with_reducible apply State.setInst_kept | (simp only [keptTo]; with_reducible apply KeptTo.intro hw)
    | (show ∀ p : Part, _; intro p; cases p <;> dsimp only [Part.same] <;> first | exact .inl (by decide) | exact .inr (by with_reducible rfl) | exact .inr rfl)
    | with_reducible rfl | with_reducible exact MemTo.refl _ | with_reducible exact Otp.Grown.refl _
    | with_reducible apply Kept.ite | with_reducible apply Kept.ite_fst | (show _ = _; first | (simp; done) | rfl))

theorem ptpSetTime_kept {ρ : Bool} {χ : List Part} {σ s : State} {sec : Long} (hw : Sub [.ptp] χ) (hk : Kept ρ χ σ s) :
    Kept ρ χ σ (ptpSetTime sec s).1 := by
  unfold ptpSetTime
  repeat' (first
    | with_reducible assumption | (simp only [keptTo]; refine KeptTo.view hw ?_ rfl)
    | with_reducible apply Kept.ite_fst)

theorem State.setAlarm_kept {ρ : Bool} {χ : List Part} {σ s : State} {a : Nat} {x : Alarm} (hw : Sub [.ptp] χ) (hk : Kept ρ χ σ s) :
    Kept ρ χ σ (State.setAlarm s a x) := .view hw hk rfl

theorem ptpSetAlarm_kept {ρ : Bool} {χ : List Part} {σ s : State} {c : PtpSetAlarm} (hw : Sub [.ptp] χ) (hk : Kept ρ χ σ s) :
    Kept ρ χ σ (ptpSetAlarm c s).1 := by
  unfold ptpSetAlarm
  repeat' (first
    | with_reducible assumption | with_reducible apply State.setAlarm_kept | with_reducible apply Kept.ite_fst)

theorem ptpCancelAlarm_kept {ρ : Bool} {χ : List Part} {σ s : State} {alarm : Byte} (hw : Sub [.ptp] χ) (hk : Kept ρ χ σ s) :
    Kept ρ χ σ (ptpCancelAlarm alarm s).1 := by
  unfold ptpCancelAlarm
  repeat' (first
    | with_reducible assumption | with_reducible apply State.setAlarm_kept | with_reducible apply Kept.ite_fst)

theorem alarmFire_kept {ρ : Bool} {χ : List Part} {σ s : State} {a : Nat} (hw : Sub [.lkt, .cmds, .boot, .tdm, .net, .ptp, .red, .tw] χ) (hk : Kept ρ χ σ s) :
    Kept ρ χ σ (alarmFire a s) := by
  unfold alarmFire
  repeat' (first
    | with_reducible assumption | exact Sub.of hw rfl | with_reducible apply State.setPart_kept
    | with_reducible apply State.setAlarm_kept | with_reducible apply reportFault_kept | with_reducible rfl
    | with_reducible apply Kept.ite | (with_reducible apply Kept.repeat; intro _ _))

theorem disarmMcnt_kept {ρ : Bool} {χ : List Part} {σ s : State} (hw : Sub [.ptp] χ) (hk : Kept ρ χ σ s) :
    Kept ρ χ σ (disarmMcnt s) := .view hw hk rfl

theorem ppsEdge_kept {ρ : Bool} {χ : List Part} {σ s : State} {after : Word} (hw : Sub [.ptp] χ) (hk : Kept ρ χ σ s) :
    Kept ρ χ σ (ppsEdge after s) := by
  unfold ppsEdge
  repeat' (first
    | with_reducible assumption | (simp only [keptTo]; with_reducible apply KeptTo.intro hw)
    | (show ∀ p : Part, _; intro p; cases p <;> dsimp only [Part.same] <;> first | exact .inl (by decide) | exact .inr (by with_reducible rfl) | exact .inr rfl)
    | with_reducible rfl | with_reducible exact MemTo.refl _ | with_reducible exact Otp.Grown.refl _)

theorem ptpGetStatus_kept {ρ : Bool} {χ : List Part} {σ s : State} {inst : Byte} (hw : Sub [] χ) (hk : Kept ρ χ σ s) :
    Kept ρ χ σ (ptpGetStatus inst s).1 := by
  unfold ptpGetStatus
  repeat' (first | with_reducible assumption | with_reducible apply Kept.ite_fst)

end Sys2Proof.Machine
end

