-- ==== Sys2Proof/Laws/Kept/StreamTx.lean ====
section
/-! SUPPORT. What the operations of Machine/StreamTx.lean keep. -/

namespace Sys2Proof.Machine

theorem State.setTxCtx_kept {ρ : Bool} {χ : List Part} {σ s : State} {c : Nat} {x : TxCtx} (hw : Sub [.stm] χ) (hk : Kept ρ χ σ s) :
    Kept ρ χ σ (State.setTxCtx s c x) := .view hw hk rfl

theorem closePacket_kept {ρ : Bool} {χ : List Part} {σ s : State} {c : Nat} {cfg : TxCfg} {w : Word} (hw : Sub [.stm, .red] χ) (hk : Kept ρ χ σ s) :
    Kept ρ χ σ (closePacket c cfg w s) := by
  unfold closePacket
  repeat' (first
    | with_reducible assumption | exact Sub.of hw rfl | with_reducible apply noteCrc_kept
    | with_reducible apply State.setTxCtx_kept)

theorem gatherCtx_kept {ρ : Bool} {χ : List Part} {σ s : State} {w : Word} {image : Nat → Word} {c : Nat} (hw : Sub [.lkt, .cmds, .boot, .tdm, .net, .stm, .red, .tw] χ) (hk : Kept ρ χ σ s) :
    Kept ρ χ σ (gatherCtx w image s c) := by
  unfold gatherCtx
  repeat' (first
    | with_reducible assumption | exact Sub.of hw rfl | with_reducible apply State.setTxCtx_kept
    | with_reducible apply tapFeed_kept | with_reducible apply closePacket_kept | with_reducible apply Kept.ite
    | (with_reducible apply Kept.foldl; intro _ _ _) | split | dsimp only)

theorem txGuard_kept {ρ : Bool} {χ : List Part} {σ s : State} {w : Word} {image : Nat → Word} (hw : Sub [.lkt, .cmds, .boot, .tdm, .net, .stm, .red, .tw] χ) (hk : Kept ρ χ σ s) :
    Kept ρ χ σ (txGuard w image s) := by
  unfold txGuard
  repeat' (first
    | with_reducible assumption | with_reducible apply gatherCtx_kept | (with_reducible apply Kept.foldl; intro _ _ _))

theorem txToken_kept {ρ : Bool} {χ : List Part} {σ s : State} {w : Word} {image : Nat → Word} (hw : Sub [.lkt, .cmds, .boot, .tdm, .net, .stm, .red, .tw] χ) (hk : Kept ρ χ σ s) :
    Kept ρ χ σ (txToken w image s) := by
  unfold txToken
  repeat' (first
    | with_reducible assumption | with_reducible apply gatherCtx_kept | (with_reducible apply Kept.foldl; intro _ _ _))

theorem txEdge_kept {ρ : Bool} {χ : List Part} {σ s : State} {w : Word} (hw : Sub [.stm] χ) (hk : Kept ρ χ σ s) :
    Kept ρ χ σ (txEdge w s) := .view hw hk rfl

theorem sendCopy_kept {ρ : Bool} {χ : List Part} {σ s : State} {cfg : TxCfg} {k : TxPacket} {domain : Nat} (hw : Sub [.lkt, .cmds, .boot, .tdm, .net, .red, .tw] χ) (hk : Kept ρ χ σ s) :
    Kept ρ χ σ (sendCopy cfg k domain s) := by
  unfold sendCopy
  repeat' (first | with_reducible assumption | with_reducible apply toPorts_kept | with_reducible apply Kept.ite)

theorem sendPacket_kept {ρ : Bool} {χ : List Part} {σ s : State} {c : Nat} {cfg : TxCfg} {k : TxPacket} (hw : Sub [.lkt, .cmds, .boot, .tdm, .net, .stm, .red, .tw] χ) (hk : Kept ρ χ σ s) :
    Kept ρ χ σ (sendPacket c cfg k s) := by
  unfold sendPacket
  repeat' (first
    | with_reducible assumption | exact Sub.of hw rfl | with_reducible apply State.setTxCtx_kept
    | with_reducible apply sendCopy_kept)

theorem packetLaunch_kept {ρ : Bool} {χ : List Part} {σ s : State} {c : Nat} (hw : Sub [.lkt, .cmds, .boot, .tdm, .net, .stm, .red, .tw] χ) (hk : Kept ρ χ σ s) :
    Kept ρ χ σ (packetLaunch c s) := by
  unfold packetLaunch
  repeat' (first
    | with_reducible assumption | exact Sub.of hw rfl | with_reducible apply State.setTxCtx_kept
    | with_reducible apply sendPacket_kept | with_reducible apply leaveStep_kept
    | (simp only [keptTo]; refine KeptTo.view hw ?_ rfl) | with_reducible apply Kept.ite | split | dsimp only)

theorem txStep_kept {ρ : Bool} {χ : List Part} {σ s : State} {w : Word} {d : Int} (hw : Sub [.stm] χ) (hk : Kept ρ χ σ s) :
    Kept ρ χ σ (txStep w d s) := .view hw hk rfl

end Sys2Proof.Machine
end

