-- ==== Sys2Proof/Laws/Kept/StreamRx.lean ====
section
/-! SUPPORT. What the operations of Machine/StreamRx.lean keep. -/

namespace Sys2Proof.Machine

theorem State.setRxCtx_kept {ρ : Bool} {χ : List Part} {σ s : State} {c : Nat} {x : RxCtx} (hw : Sub [.stm] χ) (hk : Kept ρ χ σ s) :
    Kept ρ χ σ (State.setRxCtx s c x) := .view hw hk rfl

theorem setTag_kept {ρ : Bool} {χ : List Part} {σ s : State} {c : RxCfg} {x tag : Word} (hw : Sub [.mem] χ) (hk : Kept ρ χ σ s) :
    Kept ρ χ σ (setTag c x tag s) := by
  unfold setTag
  repeat' (first
    | with_reducible assumption | (simp only [keptTo]; with_reducible apply KeptTo.intro hw)
    | (show ∀ p : Part, _; intro p; cases p <;> dsimp only [Part.same] <;> first | exact .inl (by decide) | exact .inr (by with_reducible rfl) | exact .inr rfl)
    | with_reducible rfl | with_reducible exact MemTo.refl _ | with_reducible exact Otp.Grown.refl _
    | with_reducible apply MemTo.putWord)

theorem markEmpty_kept {ρ : Bool} {χ : List Part} {σ s : State} {c : RxCfg} {p : Nat} {w : Word} (hw : Sub [.mem] χ) (hk : Kept ρ χ σ s) :
    Kept ρ χ σ (markEmpty c p w s) := by
  unfold markEmpty
  repeat' (first
    | with_reducible assumption | with_reducible apply setTag_kept | (with_reducible apply Kept.foldl; intro _ _ _))

theorem putStream_kept {ρ : Bool} {χ : List Part} {σ s : State} {w : Word} {c : Nat} {ws : List Word} (hw : Sub [.mem] χ) (hk : Kept ρ χ σ s) :
    Kept ρ χ σ (putStream w c ws s) := by
  unfold putStream
  repeat' (first
    | with_reducible assumption | with_reducible apply putInput_kept | (with_reducible apply Kept.foldl; intro _ _ _))

theorem countConceal_kept {ρ : Bool} {χ : List Part} {σ s : State} {c : Nat} {missing : Bool} {p : Present} (hw : Sub [.lkt, .cmds, .boot, .tdm, .net, .stm, .red, .tw] χ) (hk : Kept ρ χ σ s) :
    Kept ρ χ σ (countConceal c missing p s) := by
  unfold countConceal
  repeat' (first
    | with_reducible assumption | exact Sub.of hw rfl | with_reducible apply State.setRxCtx_kept
    | with_reducible apply reportFault_kept | with_reducible apply Kept.ite)

theorem takeSlot_kept {ρ : Bool} {χ : List Part} {σ s : State} {cfg : RxCfg} {x : Word} (hw : Sub [.mem] χ) (hk : Kept ρ χ σ s) :
    Kept ρ χ σ (takeSlot cfg x s).1 := by
  unfold takeSlot
  repeat' (first | with_reducible assumption | with_reducible apply setTag_kept)

theorem presentCtx_kept {ρ : Bool} {χ : List Part} {σ s : State} {w : Word} {c : Nat} (hw : Sub [.lkt, .cmds, .boot, .tdm, .net, .stm, .red, .tw, .mem] χ) (hk : Kept ρ χ σ s) :
    Kept ρ χ σ (presentCtx w s c) := by
  unfold presentCtx
  repeat' (first
    | with_reducible assumption | exact Sub.of hw rfl | with_reducible apply putStream_kept
    | with_reducible apply State.setRxCtx_kept | with_reducible apply takeSlot_kept | with_reducible apply tapFeed_kept
    | with_reducible apply countConceal_kept | with_reducible apply Kept.ite
    | (with_reducible apply Kept.foldl; intro _ _ _) | split | dsimp only)

theorem rxIngress_kept {ρ : Bool} {χ : List Part} {σ s : State} {w : Word} (hw : Sub [.lkt, .cmds, .boot, .tdm, .net, .stm, .red, .tw, .mem] χ) (hk : Kept ρ χ σ s) :
    Kept ρ χ σ (rxIngress w s) := by
  unfold rxIngress
  repeat' (first
    | with_reducible assumption | with_reducible apply presentCtx_kept | (with_reducible apply Kept.foldl; intro _ _ _))

theorem rxStopped_kept {ρ : Bool} {χ : List Part} {σ s : State} {c : Nat} (hw : Sub [.stm] χ) (hk : Kept ρ χ σ s) :
    Kept ρ χ σ (rxStopped c s) := by
  unfold rxStopped
  repeat' (first | with_reducible assumption | with_reducible apply State.setRxCtx_kept | with_reducible apply Kept.ite)

theorem placeSample_kept {ρ : Bool} {χ : List Part} {σ s : State} {c : RxCfg} {p : Nat} {q x : Word} {ws : List Word} (hw : Sub [.mem] χ) (hk : Kept ρ χ σ s) :
    Kept ρ χ σ (placeSample c p q x ws s).1 := by
  unfold placeSample
  repeat' (first
    | with_reducible assumption | (simp only [keptTo]; with_reducible apply KeptTo.intro hw)
    | (show ∀ p : Part, _; intro p; cases p <;> dsimp only [Part.same] <;> first | exact .inl (by decide) | exact .inr (by with_reducible rfl) | exact .inr rfl)
    | with_reducible rfl | with_reducible exact MemTo.refl _ | with_reducible exact Otp.Grown.refl _
    | with_reducible apply MemTo.writeTarn | with_reducible apply Kept.ite_fst)

theorem placeAll_kept {ρ : Bool} {χ : List Part} {σ s : State} {c : RxCfg} {p : Nat} {q t : Word} {samples : List (List Word)} (hw : Sub [.mem] χ) (hk : Kept ρ χ σ s) :
    Kept ρ χ σ (placeAll c p q t samples s).1 := by
  unfold placeAll
  repeat' (first
    | with_reducible assumption | with_reducible apply placeSample_kept
    | (with_reducible apply Kept.foldl_fst; intro _ _ _))

theorem packetNotices_kept {ρ : Bool} {χ : List Part} {σ s : State} {c : Nat} {late early diff : Bool} (hw : Sub [.lkt, .cmds, .boot, .tdm, .net, .stm, .red, .tw] χ) (hk : Kept ρ χ σ s) :
    Kept ρ χ σ (packetNotices c late early diff s) := by
  unfold packetNotices
  repeat' (first
    | with_reducible assumption | exact Sub.of hw rfl | with_reducible apply reportFault_kept
    | with_reducible apply State.setRxCtx_kept | with_reducible apply Kept.ite)

theorem saddle_kept {ρ : Bool} {χ : List Part} {σ s : State} {pathB : Bool} {bs : List Byte} {ns : Nat} {c : Nat} (hw : Sub [.lkt, .cmds, .boot, .tdm, .net, .stm, .red, .tw, .mem] χ) (hk : Kept ρ χ σ s) :
    Kept ρ χ σ (saddle pathB bs ns s c) := by
  unfold saddle
  repeat' (first
    | with_reducible assumption | exact Sub.of hw rfl | with_reducible apply State.setRxCtx_kept
    | with_reducible apply packetNotices_kept | with_reducible apply placeAll_kept | with_reducible apply Kept.ite
    | split | dsimp only)

theorem mediaPacket_kept {ρ : Bool} {χ : List Part} {σ s : State} {n : Nat} {bs : List Byte} {t : Stamp} (hw : Sub [.lkt, .cmds, .boot, .tdm, .net, .stm, .red, .tw, .mem] χ) (hk : Kept ρ χ σ s) :
    Kept ρ χ σ (mediaPacket n bs t s) := by
  unfold mediaPacket
  repeat' (first
    | with_reducible assumption | with_reducible apply saddle_kept | with_reducible apply Kept.ite
    | (with_reducible apply Kept.foldl; intro _ _ _))

theorem pathDown_kept {ρ : Bool} {χ : List Part} {σ s : State} {c : Nat} {pathB : Bool} (hw : Sub [.lkt, .cmds, .boot, .tdm, .net, .stm, .red, .tw] χ) (hk : Kept ρ χ σ s) :
    Kept ρ χ σ (pathDown c pathB s) := by
  unfold pathDown
  repeat' (first
    | with_reducible assumption | exact Sub.of hw rfl | with_reducible apply reportFault_kept
    | with_reducible apply State.setRxCtx_kept | with_reducible apply Kept.ite)

end Sys2Proof.Machine
end

