-- ==== Sys2Proof/Laws/Kept/Streams.lean ====
section
/-! SUPPORT. What the operations of Machine/Streams.lean keep. -/

namespace Sys2Proof.Machine

theorem streamSetTx_kept {ρ : Bool} {χ : List Part} {σ s : State} {ctx : Byte} {c : TxCfg} (hw : Sub [.stm] χ) (hk : Kept ρ χ σ s) :
    Kept ρ χ σ (streamSetTx ctx c s).1 := by
  unfold streamSetTx
  repeat' (first
    | with_reducible assumption | with_reducible apply State.setTxCtx_kept | with_reducible apply Kept.ite_fst)

theorem streamSetRx_kept {ρ : Bool} {χ : List Part} {σ s : State} {ctx : Byte} {c : RxCfg} (hw : Sub [.stm] χ) (hk : Kept ρ χ σ s) :
    Kept ρ χ σ (streamSetRx ctx c s).1 := by
  unfold streamSetRx
  repeat' (first
    | with_reducible assumption | with_reducible apply State.setRxCtx_kept | with_reducible apply Kept.ite_fst)

theorem streamSetCs_kept {ρ : Bool} {χ : List Part} {σ s : State} {ctx : Byte} {block : List Byte} (hw : Sub [.stm] χ) (hk : Kept ρ χ σ s) :
    Kept ρ χ σ (streamSetCs ctx block s).1 := by
  unfold streamSetCs
  repeat' (first
    | with_reducible assumption | with_reducible apply State.setTxCtx_kept | with_reducible apply Kept.ite_fst)

theorem startTx_kept {ρ : Bool} {χ : List Part} {σ s : State} {n : Nat} {q0 : Half} {w : Word} (hw : Sub [.stm] χ) (hk : Kept ρ χ σ s) :
    Kept ρ χ σ (startTx n q0 w s).1 := by
  unfold startTx
  repeat' (first
    | with_reducible assumption | with_reducible apply State.setTxCtx_kept | with_reducible apply Kept.ite_fst | split
    | dsimp only)

theorem startRx_kept {ρ : Bool} {χ : List Part} {σ s : State} {n : Nat} {w : Word} (hw : Sub [.stm, .mem] χ) (hk : Kept ρ χ σ s) :
    Kept ρ χ σ (startRx n w s).1 := by
  unfold startRx
  repeat' (first
    | with_reducible assumption | exact Sub.of hw rfl | with_reducible apply markEmpty_kept
    | with_reducible apply State.setRxCtx_kept | with_reducible apply Kept.ite_fst | split | dsimp only)

theorem streamStart_kept {ρ : Bool} {χ : List Part} {σ s : State} {dir ctx : Byte} {q0 : Half} {w : Word} (hw : Sub [.stm, .mem] χ) (hk : Kept ρ χ σ s) :
    Kept ρ χ σ (streamStart dir ctx q0 w s).1 := by
  unfold streamStart
  repeat' (first
    | with_reducible assumption | exact Sub.of hw rfl | with_reducible apply startTx_kept
    | with_reducible apply startRx_kept | with_reducible apply Kept.ite_fst)

theorem streamStop_kept {ρ : Bool} {χ : List Part} {σ s : State} {dir ctx : Byte} {e : Word} (hw : Sub [.stm] χ) (hk : Kept ρ χ σ s) :
    Kept ρ χ σ (streamStop dir ctx e s).1 := by
  unfold streamStop
  repeat' (first
    | with_reducible assumption | with_reducible apply State.setTxCtx_kept | with_reducible apply State.setRxCtx_kept
    | with_reducible apply Kept.ite_fst)

theorem streamSetGroup_kept {ρ : Bool} {χ : List Part} {σ s : State} {group : Byte} {p : Half} (hw : Sub [.stm] χ) (hk : Kept ρ χ σ s) :
    Kept ρ χ σ (streamSetGroup group p s).1 := by
  unfold streamSetGroup
  repeat' (first
    | with_reducible assumption | (simp only [keptTo]; refine KeptTo.view hw ?_ rfl)
    | with_reducible apply Kept.ite_fst)

theorem streamGetContext_kept {ρ : Bool} {χ : List Part} {σ s : State} {dir ctx : Byte} (hw : Sub [] χ) (hk : Kept ρ χ σ s) :
    Kept ρ χ σ (streamGetContext dir ctx s).1 := by
  unfold streamGetContext
  repeat' (first | with_reducible assumption | with_reducible apply Kept.ite_fst)

theorem streamClear_kept {ρ : Bool} {χ : List Part} {σ s : State} {dir ctx : Byte} (hw : Sub [.stm] χ) (hk : Kept ρ χ σ s) :
    Kept ρ χ σ (streamClear dir ctx s).1 := by
  unfold streamClear
  repeat' (first
    | with_reducible assumption | with_reducible apply State.setTxCtx_kept | with_reducible apply State.setRxCtx_kept
    | with_reducible apply Kept.ite_fst)

theorem sadSetPathdown_kept {ρ : Bool} {χ : List Part} {σ s : State} {n : Half} (hw : Sub [.stm] χ) (hk : Kept ρ χ σ s) :
    Kept ρ χ σ (sadSetPathdown n s).1 := by
  unfold sadSetPathdown
  repeat' (first
    | with_reducible assumption | (simp only [keptTo]; refine KeptTo.view hw ?_ rfl)
    | with_reducible apply Kept.ite_fst)

theorem stmSelWrite_kept {ρ : Bool} {χ : List Part} {σ s : State} {w : Word} (hw : Sub [.stm] χ) (hk : Kept ρ χ σ s) :
    Kept ρ χ σ (stmSelWrite w s) := .view hw hk rfl

theorem streamsRateChange_kept {ρ : Bool} {χ : List Part} {σ s : State} (hw : Sub [.stm] χ) (hk : Kept ρ χ σ s) :
    Kept ρ χ σ (streamsRateChange s) := .view hw hk rfl

end Sys2Proof.Machine
end

