-- ==== Sys2Proof/Laws/Kept/Clock.lean ====
section
/-! SUPPORT. What the operations of Machine/Clock.lean keep. -/

namespace Sys2Proof.Machine

theorem busyArms_kept {ρ : Bool} {χ : List Part} {σ s : State} (hw : Sub [.cmds, .boot] χ) (hk : Kept ρ χ σ s) :
    Kept ρ χ σ (busyArms s) := by
  unfold busyArms
  repeat' (first
    | with_reducible assumption | with_reducible apply giveResult_kept | with_reducible apply Kept.ite
    | (with_reducible apply Kept.foldl; intro _ _ _) | split)

theorem rateAccepted_kept {ρ : Bool} {χ : List Part} {σ s : State} (hw : Sub [.lkt, .cmds, .boot, .tdm, .mtx, .net, .ptp, .stm, .red, .tw] χ) (hk : Kept ρ χ σ s) :
    Kept ρ χ σ (rateAccepted s) := by
  unfold rateAccepted
  repeat' (first
    | with_reducible assumption | exact Sub.of hw rfl | with_reducible apply mtxRateChange_kept
    | with_reducible apply redRateChange_kept | with_reducible apply disarmMcnt_kept
    | with_reducible apply tdmRateChange_kept | with_reducible apply streamsRateChange_kept
    | with_reducible apply busyArms_kept)

theorem applyRate_kept {ρ : Bool} {χ : List Part} {σ s : State} {code : Nat} (hw : Sub [.lkt, .pst, .cmds, .boot, .tdm, .net, .red, .tw] χ) (hk : Kept ρ χ σ s) :
    Kept ρ χ σ (applyRate code s) := by
  unfold applyRate
  repeat' (first
    | with_reducible assumption | with_reducible apply withPst_kept | (show _ = _; first | (simp; done) | rfl)
    | dsimp only | (intro _))

theorem clearJump_kept {ρ : Bool} {χ : List Part} {σ s : State} {i : Nat} {enable : Bool} (hw : Sub [.ptp] χ) (hk : Kept ρ χ σ s) :
    Kept ρ χ σ (clearJump i enable s) := by
  unfold clearJump
  repeat' (first | with_reducible assumption | with_reducible apply State.setInst_kept | with_reducible apply Kept.ite)

theorem applyClk_kept {ρ : Bool} {χ : List Part} {σ s : State} {c : ClkApply} (hw : Sub [.lkt, .pst, .cmds, .boot, .tdm, .net, .ptp, .red, .tw] χ) (hk : Kept ρ χ σ s) :
    Kept ρ χ σ (applyClk s c) := by
  unfold applyClk
  repeat' (first
    | with_reducible assumption | exact Sub.of hw rfl | with_reducible apply applyRate_kept
    | with_reducible apply clearJump_kept | with_reducible apply withPst_kept | with_reducible apply judgePtp_kept
    | with_reducible apply Kept.ite | (show _ = _; first | (simp; done) | rfl) | split | (intro _))

theorem later_kept {ρ : Bool} {χ : List Part} {σ s : State} {c : ClkApply} (hw : Sub [.lkt, .pst, .cmds, .boot, .tdm, .net, .ptp, .red, .tw] χ) (hk : Kept ρ χ σ s) :
    Kept ρ χ σ (later c s) := by
  unfold later
  repeat' (first
    | with_reducible assumption | with_reducible apply applyClk_kept
    | (simp only [keptTo]; with_reducible apply KeptTo.intro hw)
    | (show ∀ p : Part, _; intro p; cases p <;> dsimp only [Part.same] <;> first | exact .inl (by decide) | exact .inr (by with_reducible rfl) | exact .inr rfl)
    | with_reducible rfl | with_reducible exact MemTo.refl _ | with_reducible exact Otp.Grown.refl _
    | with_reducible apply Kept.ite)

theorem applyWaiting_kept {ρ : Bool} {χ : List Part} {σ s : State} (hw : Sub [.lkt, .pst, .cmds, .boot, .tdm, .net, .ptp, .red, .tw] χ) (hk : Kept ρ χ σ s) :
    Kept ρ χ σ (applyWaiting s) := by
  unfold applyWaiting
  repeat' (first
    | with_reducible assumption | with_reducible apply applyClk_kept
    | (simp only [keptTo]; refine KeptTo.view hw ?_ rfl) | (with_reducible apply Kept.foldl; intro _ _ _))

theorem clkGetStatus_kept {ρ : Bool} {χ : List Part} {σ s : State} (hw : Sub [] χ) (hk : Kept ρ χ σ s) :
    Kept ρ χ σ (clkGetStatus s).1 := by
  unfold clkGetStatus
  repeat' (first | with_reducible assumption)

theorem clkSetRate_kept {ρ : Bool} {χ : List Part} {σ s : State} {code : Byte} (hw : Sub [.lkt, .pst, .cmds, .boot, .tdm, .mtx, .net, .ptp, .stm, .red, .tw] χ) (hk : Kept ρ χ σ s) :
    Kept ρ χ σ (clkSetRate code s).1 := by
  unfold clkSetRate
  repeat' (first
    | with_reducible assumption | exact Sub.of hw rfl | with_reducible apply later_kept
    | with_reducible apply rateAccepted_kept | with_reducible apply Kept.ite_fst)

theorem clkRefConfig_kept {ρ : Bool} {χ : List Part} {σ s : State} {c : ClkRefConfig} (hw : Sub [.lkt, .pst, .cmds, .boot, .tdm, .net, .ptp, .red, .tw] χ) (hk : Kept ρ χ σ s) :
    Kept ρ χ σ (clkRefConfig c s).1 := by
  unfold clkRefConfig
  repeat' (first
    | with_reducible assumption | exact Sub.of hw rfl | with_reducible apply later_kept
    | with_reducible apply withPst_kept | with_reducible apply Kept.ite_fst | (show _ = _; first | (simp; done) | rfl)
    | (intro _))

theorem clkSelect_kept {ρ : Bool} {χ : List Part} {σ s : State} {c : ClkSelect} (hw : Sub [.lkt, .pst, .cmds, .boot, .tdm, .net, .ptp, .red, .tw] χ) (hk : Kept ρ χ σ s) :
    Kept ρ χ σ (clkSelect c s).1 := by
  unfold clkSelect
  repeat' (first
    | with_reducible assumption | with_reducible apply later_kept | with_reducible apply Kept.ite_fst | split)

theorem clkSetTimers_kept {ρ : Bool} {χ : List Part} {σ s : State} {t : ClkSetTimers} (hw : Sub [.lkt, .pst, .cmds, .boot, .tdm, .net, .ptp, .red, .tw] χ) (hk : Kept ρ χ σ s) :
    Kept ρ χ σ (clkSetTimers t s).1 := by
  unfold clkSetTimers
  repeat' (first | with_reducible assumption | with_reducible apply later_kept | with_reducible apply Kept.ite_fst)

theorem clkSetHoldover_kept {ρ : Bool} {χ : List Part} {σ s : State} {h : ClkSetHoldover} (hw : Sub [.lkt, .pst, .cmds, .boot, .tdm, .net, .ptp, .red, .tw] χ) (hk : Kept ρ χ σ s) :
    Kept ρ χ σ (clkSetHoldover h s).1 := by
  unfold clkSetHoldover
  repeat' (first | with_reducible assumption | with_reducible apply later_kept | with_reducible apply Kept.ite_fst)

theorem clkSetTrim_kept {ρ : Bool} {χ : List Part} {σ s : State} {ppt : Long} (hw : Sub [.lkt, .pst, .cmds, .boot, .tdm, .net, .ptp, .red, .tw] χ) (hk : Kept ρ χ σ s) :
    Kept ρ χ σ (clkSetTrim ppt s).1 := by
  unfold clkSetTrim
  repeat' (first | with_reducible assumption | with_reducible apply later_kept | with_reducible apply Kept.ite_fst)

theorem clkPhaseStep_kept {ρ : Bool} {χ : List Part} {σ s : State} {ns : Word} (hw : Sub [.lkt, .pst, .cmds, .boot, .tdm, .net, .ptp, .red, .tw] χ) (hk : Kept ρ χ σ s) :
    Kept ρ χ σ (clkPhaseStep ns s).1 := by
  unfold clkPhaseStep
  repeat' (first | with_reducible assumption | with_reducible apply later_kept | with_reducible apply Kept.ite_fst)

theorem clkRealign_kept {ρ : Bool} {χ : List Part} {σ s : State} {c : ClkRealign} (hw : Sub [.lkt, .pst, .cmds, .boot, .tdm, .net, .ptp, .red, .tw] χ) (hk : Kept ρ χ σ s) :
    Kept ρ χ σ (clkRealign c s).1 := by
  unfold clkRealign
  repeat' (first
    | with_reducible assumption | with_reducible apply later_kept | with_reducible apply Kept.ite_fst | split)

theorem clkGetRef_kept {ρ : Bool} {χ : List Part} {σ s : State} {index : Byte} (hw : Sub [] χ) (hk : Kept ρ χ σ s) :
    Kept ρ χ σ (clkGetRef index s).1 := by
  unfold clkGetRef
  repeat' (first | with_reducible assumption | with_reducible apply Kept.ite_fst)

theorem fabSetGovernor_kept {ρ : Bool} {χ : List Part} {σ s : State} {c : FabSetGovernor} (hw : Sub [.fab] χ) (hk : Kept ρ χ σ s) :
    Kept ρ χ σ (fabSetGovernor c s).1 := by
  unfold fabSetGovernor
  repeat' (first
    | with_reducible assumption | (simp only [keptTo]; refine KeptTo.view hw ?_ rfl)
    | with_reducible apply Kept.ite_fst)

theorem fabSetEscalation_kept {ρ : Bool} {χ : List Part} {σ s : State} {burst stall : Half} (hw : Sub [.fab] χ) (hk : Kept ρ χ σ s) :
    Kept ρ χ σ (fabSetEscalation burst stall s).1 := by
  unfold fabSetEscalation
  repeat' (first
    | with_reducible assumption | (simp only [keptTo]; refine KeptTo.view hw ?_ rfl)
    | with_reducible apply Kept.ite_fst)

theorem fabSetTelemetry_kept {ρ : Bool} {χ : List Part} {σ s : State} {n : Byte} {w : Half} (hw : Sub [.fab] χ) (hk : Kept ρ χ σ s) :
    Kept ρ χ σ (fabSetTelemetry n w s).1 := by
  unfold fabSetTelemetry
  repeat' (first
    | with_reducible assumption | (simp only [keptTo]; refine KeptTo.view hw ?_ rfl)
    | with_reducible apply Kept.ite_fst)

theorem fabClearTelemetry_kept {ρ : Bool} {χ : List Part} {σ s : State} (hw : Sub [.fab] χ) (hk : Kept ρ χ σ s) :
    Kept ρ χ σ (fabClearTelemetry s).1 := by
  exact .view hw hk rfl

theorem moveCounter_kept {ρ : Bool} {χ : List Part} {σ s : State} {d : Int} (hw : Sub [.pst, .ptp] χ) (hk : Kept ρ χ σ s) :
    Kept ρ χ σ (moveCounter d s) := by
  unfold moveCounter
  repeat' (first
    | with_reducible assumption | (simp only [keptTo]; with_reducible apply KeptTo.intro hw)
    | (show ∀ p : Part, _; intro p; cases p <;> dsimp only [Part.same] <;> first | exact .inl (by decide) | exact .inr (by with_reducible rfl) | exact .inr rfl)
    | with_reducible rfl | with_reducible exact MemTo.refl _ | with_reducible exact Otp.Grown.refl _
    | (show _ = _; first | (simp; done) | rfl))

theorem slewAtEdge_kept {ρ : Bool} {χ : List Part} {σ s : State} (hw : Sub [.lkt, .pst, .cmds, .boot, .tdm, .net, .ptp, .red, .tw] χ) (hk : Kept ρ χ σ s) :
    Kept ρ χ σ (slewAtEdge s) := by
  unfold slewAtEdge
  repeat' (first
    | with_reducible assumption | exact Sub.of hw rfl | with_reducible apply withPst_kept
    | (simp only [keptTo]; with_reducible apply KeptTo.intro hw)
    | (show ∀ p : Part, _; intro p; cases p <;> dsimp only [Part.same] <;> first | exact .inl (by decide) | exact .inr (by with_reducible rfl) | exact .inr rfl)
    | with_reducible rfl | with_reducible exact MemTo.refl _ | with_reducible exact Otp.Grown.refl _
    | (show _ = _; first | (simp; done) | rfl) | (intro _))

theorem counterAtEdge_kept {ρ : Bool} {χ : List Part} {σ s : State} (hw : Sub [.pst] χ) (hk : Kept ρ χ σ s) :
    Kept ρ χ σ (counterAtEdge s) := by
  unfold counterAtEdge
  repeat' (first
    | with_reducible assumption | (simp only [keptTo]; with_reducible apply KeptTo.intro hw)
    | (show ∀ p : Part, _; intro p; cases p <;> dsimp only [Part.same] <;> first | exact .inl (by decide) | exact .inr (by with_reducible rfl) | exact .inr rfl)
    | with_reducible rfl | with_reducible exact MemTo.refl _ | with_reducible exact Otp.Grown.refl _
    | with_reducible apply Kept.ite | (show _ = _; first | (simp; done) | rfl))

theorem mcntAtEdge_kept {ρ : Bool} {χ : List Part} {σ s : State} (hw : Sub [.pst, .ptp, .stm] χ) (hk : Kept ρ χ σ s) :
    Kept ρ χ σ (mcntAtEdge s) := by
  unfold mcntAtEdge
  repeat' (first
    | with_reducible assumption | exact Sub.of hw rfl | with_reducible apply txStep_kept
    | with_reducible apply moveCounter_kept | (simp only [keptTo]; with_reducible apply KeptTo.intro hw)
    | (show ∀ p : Part, _; intro p; cases p <;> dsimp only [Part.same] <;> first | exact .inl (by decide) | exact .inr (by with_reducible rfl) | exact .inr rfl)
    | with_reducible rfl | with_reducible exact MemTo.refl _ | with_reducible exact Otp.Grown.refl _
    | with_reducible apply Kept.ite | (show _ = _; first | (simp; done) | rfl) | split)

theorem polestarEdge_kept {ρ : Bool} {χ : List Part} {σ s : State} (hw : Sub [.lkt, .pst, .cmds, .boot, .tdm, .net, .ptp, .stm, .red, .tw] χ) (hk : Kept ρ χ σ s) :
    Kept ρ χ σ (polestarEdge s) := by
  unfold polestarEdge
  repeat' (first
    | with_reducible assumption | exact Sub.of hw rfl | with_reducible apply mcntAtEdge_kept
    | with_reducible apply counterAtEdge_kept | with_reducible apply slewAtEdge_kept
    | with_reducible apply withPst_kept | (simp only [keptTo]; with_reducible apply KeptTo.intro hw)
    | (show ∀ p : Part, _; intro p; cases p <;> dsimp only [Part.same] <;> first | exact .inl (by decide) | exact .inr (by with_reducible rfl) | exact .inr rfl)
    | with_reducible rfl | with_reducible exact MemTo.refl _ | with_reducible exact Otp.Grown.refl _
    | (show _ = _; first | (simp; done) | rfl) | (intro _))

theorem slewComplete_kept {ρ : Bool} {χ : List Part} {σ s : State} (hw : Sub [.lkt, .pst, .cmds, .boot, .tdm, .net, .ptp, .red, .tw] χ) (hk : Kept ρ χ σ s) :
    Kept ρ χ σ (slewComplete s) := by
  unfold slewComplete
  repeat' (first
    | with_reducible assumption | exact Sub.of hw rfl | with_reducible apply withPst_kept
    | (simp only [keptTo]; with_reducible apply KeptTo.intro hw)
    | (show ∀ p : Part, _; intro p; cases p <;> dsimp only [Part.same] <;> first | exact .inl (by decide) | exact .inr (by with_reducible rfl) | exact .inr rfl)
    | with_reducible rfl | with_reducible exact MemTo.refl _ | with_reducible exact Otp.Grown.refl _
    | with_reducible apply Kept.ite | (show _ = _; first | (simp; done) | rfl) | (intro _))

theorem ptpSetTimeApply_kept {ρ : Bool} {χ : List Part} {σ s : State} (hw : Sub [.pst, .ptp, .stm] χ) (hk : Kept ρ χ σ s) :
    Kept ρ χ σ (ptpSetTimeApply s) := by
  unfold ptpSetTimeApply
  repeat' (first
    | with_reducible assumption | exact Sub.of hw rfl | with_reducible apply moveCounter_kept
    | with_reducible apply txStep_kept | (simp only [keptTo]; refine KeptTo.view hw ?_ rfl) | split)

end Sys2Proof.Machine
end

