-- ==== Sys2Proof/Laws/Kept/Lookout.lean ====
section
/-! SUPPORT. What the operations of Machine/Lookout.lean keep. -/

namespace Sys2Proof.Machine

theorem oscCompare_kept {ρ : Bool} {χ : List Part} {σ s : State} {b xo : Half} (hw : Sub [.lkt, .cmds, .boot, .tdm, .net, .red, .tw] χ) (hk : Kept ρ χ σ s) :
    Kept ρ χ σ (oscCompare b xo s) := by
  unfold oscCompare
  repeat' (first
    | with_reducible assumption | with_reducible apply reportOwn_kept
    | (simp only [keptTo]; with_reducible apply KeptTo.intro hw)
    | (show ∀ p : Part, _; intro p; cases p <;> dsimp only [Part.same] <;> first | exact .inl (by decide) | exact .inr (by with_reducible rfl) | exact .inr rfl)
    | with_reducible rfl | with_reducible exact MemTo.refl _ | with_reducible exact Otp.Grown.refl _
    | with_reducible apply Kept.ite)

theorem edgeTimeout_kept {ρ : Bool} {χ : List Part} {σ s : State} (hw : Sub [.lkt, .cmds, .boot, .tdm, .net, .red, .tw] χ) (hk : Kept ρ χ σ s) :
    Kept ρ χ σ (edgeTimeout s) := by
  unfold edgeTimeout
  repeat' (first
    | with_reducible assumption | with_reducible apply reportOwn_kept
    | (simp only [keptTo]; with_reducible apply KeptTo.intro hw)
    | (show ∀ p : Part, _; intro p; cases p <;> dsimp only [Part.same] <;> first | exact .inl (by decide) | exact .inr (by with_reducible rfl) | exact .inr rfl)
    | with_reducible rfl | with_reducible exact MemTo.refl _ | with_reducible exact Otp.Grown.refl _
    | with_reducible apply Kept.ite)

theorem supWatchdog_kept {ρ : Bool} {χ : List Part} {σ s : State} (hw : Sub [.lkt, .cmds, .boot, .tdm, .net, .red, .tw] χ) (hk : Kept ρ χ σ s) :
    Kept ρ χ σ (supWatchdog s) := by
  unfold supWatchdog
  repeat' (first
    | with_reducible assumption | with_reducible apply reportOwn_kept
    | (simp only [keptTo]; with_reducible apply KeptTo.intro hw)
    | (show ∀ p : Part, _; intro p; cases p <;> dsimp only [Part.same] <;> first | exact .inl (by decide) | exact .inr (by with_reducible rfl) | exact .inr rfl)
    | with_reducible rfl | with_reducible exact MemTo.refl _ | with_reducible exact Otp.Grown.refl _
    | with_reducible apply Kept.ite)

theorem supKick_kept {ρ : Bool} {χ : List Part} {σ s : State} (hw : Sub [.lkt] χ) (hk : Kept ρ χ σ s) :
    Kept ρ χ σ (supKick s) := .view hw hk rfl

theorem coreStop_kept {ρ : Bool} {χ : List Part} {σ s : State} {core1 : Bool} (hw : Sub [.lkt, .cmds, .boot, .tdm, .net, .red, .tw] χ) (hk : Kept ρ χ σ s) :
    Kept ρ χ σ (coreStop core1 s) := by
  unfold coreStop
  repeat' (first
    | with_reducible assumption | with_reducible apply reportOwn_kept
    | (simp only [keptTo]; with_reducible apply KeptTo.intro hw)
    | (show ∀ p : Part, _; intro p; cases p <;> dsimp only [Part.same] <;> first | exact .inl (by decide) | exact .inr (by with_reducible rfl) | exact .inr rfl)
    | with_reducible rfl | with_reducible exact MemTo.refl _ | with_reducible exact Otp.Grown.refl _
    | with_reducible apply Kept.ite)

theorem coreKick_kept {ρ : Bool} {χ : List Part} {σ s : State} {core1 : Bool} (hw : Sub [.lkt] χ) (hk : Kept ρ χ σ s) :
    Kept ρ χ σ (coreKick core1 s) := by
  unfold coreKick
  repeat' (first
    | with_reducible assumption | (simp only [keptTo]; with_reducible apply KeptTo.intro hw)
    | (show ∀ p : Part, _; intro p; cases p <;> dsimp only [Part.same] <;> first | exact .inl (by decide) | exact .inr (by with_reducible rfl) | exact .inr rfl)
    | with_reducible rfl | with_reducible exact MemTo.refl _ | with_reducible exact Otp.Grown.refl _
    | with_reducible apply Kept.ite)

theorem signalPath_kept {ρ : Bool} {χ : List Part} {σ s : State} {src : Nat} (hw : Sub [.lkt, .cmds, .boot, .tdm, .net, .red, .tw] χ) (hk : Kept ρ χ σ s) :
    Kept ρ χ σ (signalPath src s) := by
  unfold signalPath
  have hl : Sub [.lkt] χ := hw.of rfl
  refine Kept.ite ?_ ?_
  · exact .view hl hk rfl
  split
  · exact hk
  · have h : Kept ρ χ σ (reportFault 0x000 (BitVec.ofNat 16 src) s) := reportFault_kept hw hk
    generalize reportFault 0x000 (BitVec.ofNat 16 src) s = t at h ⊢
    have h1 : Kept ρ χ σ { t with lkt := { t.lkt with sigpathLast := BitVec.ofNat 8 src, srcMask := setBit t.lkt.srcMask src true } } :=
      .view hl h rfl
    exact Kept.ite (recordFault_kept hw h1) h1

theorem sourceUnmask_kept {ρ : Bool} {χ : List Part} {σ s : State} {src : Nat} (hw : Sub [.lkt] χ) (hk : Kept ρ χ σ s) :
    Kept ρ χ σ (sourceUnmask src s) := .view hw hk rfl

theorem pulseTest_kept {ρ : Bool} {χ : List Part} {σ s : State} {failing : BitVec 256} (hw : Sub [.lkt, .cmds, .boot, .tdm, .net, .red, .tw] χ) (hk : Kept ρ χ σ s) :
    Kept ρ χ σ (pulseTest failing s) := by
  unfold pulseTest
  repeat' (first
    | with_reducible assumption | with_reducible apply signalPath_kept | (with_reducible apply Kept.foldl; intro _ _ _))

theorem faultReport_kept {ρ : Bool} {χ : List Part} {σ s : State} {src : Byte} {inst : Half} (hw : Sub [.lkt, .cmds, .boot, .tdm, .net, .red, .tw] χ) (hk : Kept ρ χ σ s) :
    Kept ρ χ σ (faultReport src inst s) := by
  unfold faultReport
  repeat' (first | with_reducible assumption | with_reducible apply reportFault_kept)

theorem escalationExpiry_kept {ρ : Bool} {χ : List Part} {σ s : State} {g : Nat} (hw : Sub [.lkt, .cmds, .boot, .tdm, .net, .red, .tw] χ) (hk : Kept ρ χ σ s) :
    Kept ρ χ σ (escalationExpiry g s) := by
  unfold escalationExpiry
  repeat' (first | with_reducible assumption | with_reducible apply escalate_kept | with_reducible apply Kept.ite)

theorem claimTimeExpiry_kept {ρ : Bool} {χ : List Part} {σ s : State} {g : Nat} (hw : Sub [.lkt, .tw] χ) (hk : Kept ρ χ σ s) :
    Kept ρ χ σ (claimTimeExpiry g s) := by
  unfold claimTimeExpiry
  repeat' (first
    | with_reducible assumption | exact Sub.of hw rfl | with_reducible apply noteAlert_kept
    | with_reducible apply State.setRecord_kept | with_reducible apply Kept.ite)

theorem notedExpiry_kept {ρ : Bool} {χ : List Part} {σ s : State} {g : Nat} (hw : Sub [.lkt] χ) (hk : Kept ρ χ σ s) :
    Kept ρ χ σ (notedExpiry g s) := by
  unfold notedExpiry
  repeat' (first | with_reducible assumption | with_reducible apply State.setRecord_kept | with_reducible apply Kept.ite)

theorem claimRecord_kept {ρ : Bool} {χ : List Part} {σ s : State} {g who : Nat} (hw : Sub [.lkt] χ) (hk : Kept ρ χ σ s) :
    Kept ρ χ σ (claimRecord g who s) := by
  unfold claimRecord
  repeat' (first | with_reducible assumption | with_reducible apply State.setRecord_kept | split | dsimp only)

theorem clearRecord_kept {ρ : Bool} {χ : List Part} {σ s : State} {g : Nat} (hw : Sub [.lkt, .tdm] χ) (hk : Kept ρ χ σ s) :
    Kept ρ χ σ (clearRecord g s) := by
  unfold clearRecord
  repeat' (first
    | with_reducible assumption | exact Sub.of hw rfl | with_reducible apply State.setRecord_kept
    | with_reducible apply openAllTx_kept | with_reducible apply Kept.ite)

theorem supClear_kept {ρ : Bool} {χ : List Part} {σ s : State} {g : Nat} (hw : Sub [.lkt, .tdm] χ) (hk : Kept ρ χ σ s) :
    Kept ρ χ σ (supClear g s) := by
  unfold supClear
  repeat' (first
    | with_reducible assumption | with_reducible apply clearRecord_kept
    | (simp only [keptTo]; refine KeptTo.view hw ?_ rfl) | split)

theorem fltGetStatus_kept {ρ : Bool} {χ : List Part} {σ s : State} {p : Nat} (hw : Sub [] χ) (hk : Kept ρ χ σ s) :
    Kept ρ χ σ (fltGetStatus p s).1 := by
  unfold fltGetStatus
  repeat' (first | with_reducible assumption)

theorem fltClaim_kept {ρ : Bool} {χ : List Part} {σ s : State} {p : Nat} {rec : Byte} (hw : Sub [.lkt] χ) (hk : Kept ρ χ σ s) :
    Kept ρ χ σ (fltClaim p rec s).1 := by
  unfold fltClaim
  repeat' (first | with_reducible assumption | with_reducible apply claimRecord_kept | with_reducible apply Kept.ite_fst)

theorem fltClear_kept {ρ : Bool} {χ : List Part} {σ s : State} {p : Nat} {rec : Byte} (hw : Sub [.lkt, .tdm] χ) (hk : Kept ρ χ σ s) :
    Kept ρ χ σ (fltClear p rec s).1 := by
  unfold fltClear
  repeat' (first
    | with_reducible assumption | with_reducible apply clearRecord_kept | with_reducible apply Kept.ite_fst | split)

theorem fltSetClass_kept {ρ : Bool} {χ : List Part} {σ s : State} {src cls act : Byte} (hw : Sub [.lkt] χ) (hk : Kept ρ χ σ s) :
    Kept ρ χ σ (fltSetClass src cls act s).1 := by
  unfold fltSetClass
  repeat' (first
    | with_reducible assumption | (simp only [keptTo]; refine KeptTo.view hw ?_ rfl)
    | with_reducible apply Kept.ite_fst | split | dsimp only)

theorem fltSetTimers_kept {ρ : Bool} {χ : List Part} {σ s : State} {esc : Word} {claim : Half} {sup : Word} (hw : Sub [.lkt] χ) (hk : Kept ρ χ σ s) :
    Kept ρ χ σ (fltSetTimers esc claim sup s).1 := by
  unfold fltSetTimers
  repeat' (first
    | with_reducible assumption | (simp only [keptTo]; refine KeptTo.view hw ?_ rfl)
    | with_reducible apply Kept.ite_fst)

theorem fltGetCounts_kept {ρ : Bool} {χ : List Part} {σ s : State} {first : Byte} {count : Half} (hw : Sub [] χ) (hk : Kept ρ χ σ s) :
    Kept ρ χ σ (fltGetCounts first count s).1 := by
  unfold fltGetCounts
  repeat' (first | with_reducible assumption | with_reducible apply Kept.ite_fst)

end Sys2Proof.Machine
end

