-- ==== Sys2Proof/Laws/Kept/Dma.lean ====
section
/-! SUPPORT. What the operations of Machine/Dma.lean keep. -/

namespace Sys2Proof.Machine

theorem State.setDmaCh_kept {ρ : Bool} {χ : List Part} {σ s : State} {n : Nat} {c : DmaCh} (hw : Sub [.dma] χ) (hk : Kept ρ χ σ s) :
    Kept ρ χ σ (State.setDmaCh s n c) := .view hw hk rfl

theorem dmaRun_kept {ρ : Bool} {χ : List Part} {σ s : State} {n : Nat} (hw : Sub [.dma] χ) (hk : Kept ρ χ σ s) :
    Kept ρ χ σ (dmaRun n s) := by
  unfold dmaRun
  repeat' (first | with_reducible assumption | with_reducible apply State.setDmaCh_kept | with_reducible apply Kept.ite)

theorem dmaError_kept {ρ : Bool} {χ : List Part} {σ s : State} {a : Nat} {write : Bool} (hw : Sub [.lkt, .cmds, .boot, .tdm, .dma, .net, .red, .tw] χ) (hk : Kept ρ χ σ s) :
    Kept ρ χ σ (dmaError a write s) := by
  unfold dmaError
  repeat' (first
    | with_reducible assumption | exact Sub.of hw rfl | with_reducible apply reportOwn_kept
    | (simp only [keptTo]; refine KeptTo.view hw ?_ rfl))

theorem takeDesc_kept {ρ : Bool} {χ : List Part} {σ s : State} {n : Nat} {bs : List Byte} (hw : Sub [.lkt, .cmds, .boot, .tdm, .dma, .net, .red, .tw] χ) (hk : Kept ρ χ σ s) :
    Kept ρ χ σ (takeDesc n bs s) := by
  unfold takeDesc
  repeat' (first
    | with_reducible assumption | exact Sub.of hw rfl | with_reducible apply State.setDmaCh_kept
    | with_reducible apply reportFault_kept | with_reducible apply Kept.ite)

theorem dmaFetch_kept {ρ : Bool} {χ : List Part} {σ s : State} {n : Nat} (hw : Sub [.lkt, .cmds, .boot, .tdm, .col, .dma, .net, .red, .tw] χ) (hk : Kept ρ χ σ s) :
    Kept ρ χ σ (dmaFetch n s) := by
  unfold dmaFetch
  repeat' (first
    | with_reducible assumption | exact Sub.of hw rfl | with_reducible apply reportFault_kept
    | with_reducible apply State.setDmaCh_kept | (refine colRead_kept_eq ?_ ?_ (by assumption))
    | with_reducible apply takeDesc_kept | with_reducible apply dmaError_kept | with_reducible apply Kept.ite | split)

theorem movePieces_kept {ρ : Bool} {χ : List Part} {σ s : State} {fuel src dst len : Nat} (hw : Sub [.lkt, .cmds, .boot, .tdm, .mtx, .col, .net, .red, .tw, .mem] χ) (hk : Kept ρ χ σ s) :
    Kept ρ χ σ (movePieces fuel src dst len s).1 := by
  induction fuel generalizing src dst len s with
  | zero => exact hk
  | succ n ih =>
    unfold movePieces
    repeat' (first | assumption | exact hw.of rfl | with_reducible apply ih | (refine colRead_kept_eq (hw.of rfl) ?_ (by assumption)) | (refine colWrite_kept_eq (hw.of rfl) ?_ (by assumption)) | with_reducible apply Kept.ite_fst | split | dsimp only)

theorem movePieces_kept_eq {ρ : Bool} {χ : List Part} {σ s tt : State} {fuel src dst len : Nat} {aa} (hw : Sub [.lkt, .cmds, .boot, .tdm, .mtx, .col, .net, .red, .tw, .mem] χ) (hk : Kept ρ χ σ s) (e : movePieces fuel src dst len s = (tt, aa)) :
    Kept ρ χ σ tt := by
  have := movePieces_kept (fuel := fuel) (src := src) (dst := dst) (len := len) hw hk; rw [e] at this; exact this

theorem takeRequest_kept {ρ : Bool} {χ : List Part} {σ s : State} {c : DmaCh} (hw : Sub [.dma] χ) (hk : Kept ρ χ σ s) :
    Kept ρ χ σ (takeRequest c s) := by
  unfold takeRequest
  repeat' (first
    | with_reducible assumption | (simp only [keptTo]; with_reducible apply KeptTo.intro hw)
    | (show ∀ p : Part, _; intro p; cases p <;> dsimp only [Part.same] <;> first | exact .inl (by decide) | exact .inr (by with_reducible rfl) | exact .inr rfl)
    | with_reducible rfl | with_reducible exact MemTo.refl _ | with_reducible exact Otp.Grown.refl _
    | with_reducible apply Kept.ite)

theorem dmaBurst_kept {ρ : Bool} {χ : List Part} {σ s : State} {n : Nat} (hw : Sub [.lkt, .cmds, .boot, .tdm, .mtx, .col, .dma, .net, .red, .tw, .mem] χ) (hk : Kept ρ χ σ s) :
    Kept ρ χ σ (dmaBurst n s) := by
  unfold dmaBurst
  repeat' (first
    | with_reducible assumption | exact Sub.of hw rfl | with_reducible apply reportFault_kept
    | with_reducible apply State.setDmaCh_kept | (refine movePieces_kept_eq (hw.of rfl) ?_ (by assumption))
    | with_reducible apply takeRequest_kept | with_reducible apply dmaError_kept | with_reducible apply Kept.ite
    | split)

theorem writeBack_kept {ρ : Bool} {χ : List Part} {σ s : State} {c : DmaCh} {status : Nat} {keepOwn : Bool} (hw : Sub [.lkt, .cmds, .boot, .tdm, .mtx, .col, .net, .red, .tw, .mem] χ) (hk : Kept ρ χ σ s) :
    Kept ρ χ σ (writeBack c status keepOwn s).1 := by
  unfold writeBack
  repeat' (first | with_reducible assumption | with_reducible apply colWrite_kept)

theorem writeBack_kept_eq {ρ : Bool} {χ : List Part} {σ s : State} {c : DmaCh} {status : Nat} {keepOwn : Bool} {tt : State} {aa : Bool} (hw : Sub [.lkt, .cmds, .boot, .tdm, .mtx, .col, .net, .red, .tw, .mem] χ) (hk : Kept ρ χ σ s) (he : (writeBack c status keepOwn s) = (tt, aa)) :
    Kept ρ χ σ tt := by
  have := writeBack_kept (c:=c) (status:=status) (keepOwn:=keepOwn) hw hk; rw [he] at this; exact this

theorem dmaStop_kept {ρ : Bool} {χ : List Part} {σ s : State} {n : Nat} (hw : Sub [.lkt, .cmds, .boot, .tdm, .mtx, .col, .dma, .net, .red, .tw, .mem] χ) (hk : Kept ρ χ σ s) :
    Kept ρ χ σ (dmaStop n s) := by
  unfold dmaStop
  repeat' (first
    | with_reducible assumption | exact Sub.of hw rfl | (refine writeBack_kept_eq ?_ ?_ (by assumption))
    | with_reducible apply State.setDmaCh_kept | with_reducible apply dmaError_kept | with_reducible apply Kept.ite
    | split)

theorem dmaTimer_kept {ρ : Bool} {χ : List Part} {σ s : State} {n : Nat} (hw : Sub [.dma] χ) (hk : Kept ρ χ σ s) :
    Kept ρ χ σ (dmaTimer n s) := by
  unfold dmaTimer
  repeat' (first | with_reducible assumption | with_reducible apply State.setDmaCh_kept | with_reducible apply Kept.ite)

theorem dmaMatch_kept {ρ : Bool} {χ : List Part} {σ s : State} {n : Nat} (hw : Sub [.dma] χ) (hk : Kept ρ χ σ s) :
    Kept ρ χ σ (dmaMatch n s) := by
  unfold dmaMatch
  repeat' (first | with_reducible assumption | with_reducible apply State.setDmaCh_kept | with_reducible apply Kept.ite)

theorem signalDone_kept {ρ : Bool} {χ : List Part} {σ s : State} {n : Nat} (hw : Sub [.dma] χ) (hk : Kept ρ χ σ s) :
    Kept ρ χ σ (signalDone n s) := by
  unfold signalDone
  repeat' (first
    | with_reducible assumption | with_reducible apply State.setDmaCh_kept
    | (simp only [keptTo]; refine KeptTo.view hw ?_ rfl))

theorem dmaComplete_kept {ρ : Bool} {χ : List Part} {σ s : State} {n : Nat} (hw : Sub [.lkt, .cmds, .boot, .tdm, .mtx, .col, .dma, .net, .red, .tw, .mem] χ) (hk : Kept ρ χ σ s) :
    Kept ρ χ σ (dmaComplete n s) := by
  unfold dmaComplete
  repeat' (first
    | with_reducible assumption | exact Sub.of hw rfl | (refine colRead_kept_eq ?_ ?_ (by assumption))
    | with_reducible apply dmaError_kept | (refine writeBack_kept_eq ?_ ?_ (by assumption))
    | with_reducible apply State.setDmaCh_kept | with_reducible apply signalDone_kept | with_reducible apply Kept.ite
    | split | dsimp only)

theorem dmaRequest_kept {ρ : Bool} {χ : List Part} {σ s : State} {line : Nat} (hw : Sub [.dma] χ) (hk : Kept ρ χ σ s) :
    Kept ρ χ σ (dmaRequest line s) := .view hw hk rfl

theorem dmaWithdraw_kept {ρ : Bool} {χ : List Part} {σ s : State} {line : Nat} (hw : Sub [.dma] χ) (hk : Kept ρ χ σ s) :
    Kept ρ χ σ (dmaWithdraw line s) := by
  unfold dmaWithdraw
  repeat' (first
    | with_reducible assumption | (simp only [keptTo]; with_reducible apply KeptTo.intro hw)
    | (show ∀ p : Part, _; intro p; cases p <;> dsimp only [Part.same] <;> first | exact .inl (by decide) | exact .inr (by with_reducible rfl) | exact .inr rfl)
    | with_reducible rfl | with_reducible exact MemTo.refl _ | with_reducible exact Otp.Grown.refl _
    | with_reducible apply Kept.ite)

theorem dmaResume_kept {ρ : Bool} {χ : List Part} {σ s : State} (hw : Sub [.dma] χ) (hk : Kept ρ χ σ s) :
    Kept ρ χ σ (dmaResume s).1 := by
  unfold dmaResume
  repeat' (first
    | with_reducible assumption | (simp only [keptTo]; refine KeptTo.view hw ?_ rfl)
    | with_reducible apply Kept.ite_fst)

theorem memSetScrub_kept {ρ : Bool} {χ : List Part} {σ s : State} {period timeout : Half} (hw : Sub [.col] χ) (hk : Kept ρ χ σ s) :
    Kept ρ χ σ (memSetScrub period timeout s).1 := by
  unfold memSetScrub
  repeat' (first
    | with_reducible assumption | (simp only [keptTo]; refine KeptTo.view hw ?_ rfl)
    | with_reducible apply Kept.ite_fst)

theorem memGetStatus_kept {ρ : Bool} {χ : List Part} {σ s : State} {p : Nat} (hw : Sub [] χ) (hk : Kept ρ χ σ s) :
    Kept ρ χ σ (memGetStatus p s).1 := by
  unfold memGetStatus
  repeat' (first | with_reducible assumption)

theorem dmaCtrlWrite_kept {ρ : Bool} {χ : List Part} {σ s : State} {n : Nat} {w : Word} (hw : Sub [.lkt, .cmds, .boot, .tdm, .mtx, .col, .dma, .net, .red, .tw, .mem] χ) (hk : Kept ρ χ σ s) :
    Kept ρ χ σ (dmaCtrlWrite n w s) := by
  unfold dmaCtrlWrite
  repeat' (first
    | with_reducible assumption | exact Sub.of hw rfl | with_reducible apply State.setDmaCh_kept
    | with_reducible apply dmaStop_kept | with_reducible apply dmaRun_kept | with_reducible apply Kept.ite)

theorem dmaChWrite_kept {ρ : Bool} {χ : List Part} {σ s : State} {a : Nat} {w : Word} (hw : Sub [.lkt, .cmds, .boot, .tdm, .mtx, .col, .dma, .net, .red, .tw, .mem] χ) (hk : Kept ρ χ σ s) :
    Kept ρ χ σ (dmaChWrite a w s) := by
  unfold dmaChWrite
  repeat' (first
    | with_reducible assumption | exact Sub.of hw rfl | with_reducible apply dmaCtrlWrite_kept
    | with_reducible apply State.setDmaCh_kept | split)

theorem masterError_kept {ρ : Bool} {χ : List Part} {σ s : State} {master target a : Nat} {write : Bool} (hw : Sub [.lkt, .cmds, .boot, .tdm, .wave, .crn, .dma, .net, .red, .tw] χ) (hk : Kept ρ χ σ s) :
    Kept ρ χ σ (masterError master target a write s) := by
  unfold masterError
  repeat' (first
    | with_reducible assumption | exact Sub.of hw rfl | with_reducible apply trap_kept
    | with_reducible apply reportOwn_kept | with_reducible apply dmaError_kept | with_reducible apply Kept.ite
    | (with_reducible apply Kept.foldl; intro _ _ _))

theorem colTimeout_kept {ρ : Bool} {χ : List Part} {σ s : State} {master target a : Nat} {write : Bool} (hw : Sub [.lkt, .cmds, .boot, .tdm, .wave, .crn, .col, .dma, .net, .red, .tw] χ) (hk : Kept ρ χ σ s) :
    Kept ρ χ σ (colTimeout master target a write s) := by
  unfold colTimeout
  repeat' (first
    | with_reducible assumption | exact Sub.of hw rfl | with_reducible apply colError_kept
    | with_reducible apply masterError_kept | with_reducible apply reportFault_kept
    | (simp only [keptTo]; refine KeptTo.view hw ?_ rfl))

end Sys2Proof.Machine
end

