-- ==== Sys2Proof/Laws/Kept/Commands.lean ====
section
/-! SUPPORT. What the effects of the commands keep. -/

namespace Sys2Proof.Machine

/-- A command's own effect keeps what every operation keeps, and changes the parts of `χ` alone. -/
def Body.Keeps (b : Body) (χ : List Part) : Prop :=
  ∀ (ρ : Bool) (σ s : State) (p : Nat) (udp : Bool), Kept ρ χ σ s → Kept ρ χ σ (b.run p udp s).1

theorem bodySysHello_keeps {χ : List Part} {newSession : Bool} (hw : Sub [.cmds, .fresh] χ) :
    (bodySysHello newSession).Keeps χ := fun _ _ _ _ _ h => sysHello_kept hw h

theorem bodySysGetInfo_keeps {χ : List Part} (hw : Sub [] χ) :
    (bodySysGetInfo).Keeps χ := fun _ _ _ _ _ h => sysGetInfo_kept hw h

theorem bodySysGetOwnership_keeps {χ : List Part} (hw : Sub [] χ) :
    (bodySysGetOwnership).Keeps χ := fun _ _ _ _ _ h => sysGetOwnership_kept hw h

theorem bodySysProfileLoad_keeps {χ : List Part} {c : ProfileLoad} (hw : Sub [] χ) :
    (bodySysProfileLoad c).Keeps χ := fun _ _ _ _ _ h => sysProfileLoad_kept hw h

theorem bodySysProfileErase_keeps {χ : List Part} {c : ProfileErase} (hw : Sub [] χ) :
    (bodySysProfileErase c).Keeps χ := fun _ _ _ _ _ h => sysProfileErase_kept hw h

theorem bodySysProfileWrite_keeps {χ : List Part} {c : FlashWrite} (hw : Sub [.flash] χ) :
    (bodySysProfileWrite c).Keeps χ := fun _ _ _ _ _ h => sysProfileWrite_kept hw h

theorem bodySysProfileSeal_keeps {χ : List Part} {slot : Byte} (hw : Sub [] χ) :
    (bodySysProfileSeal slot).Keeps χ := fun _ _ _ _ _ h => sysProfileSeal_kept hw h

theorem bodySysProfileList_keeps {χ : List Part} (hw : Sub [] χ) :
    (bodySysProfileList).Keeps χ := fun _ _ _ _ _ h => sysProfileList_kept hw h

theorem bodyFabSetGovernor_keeps {χ : List Part} {c : FabSetGovernor} (hw : Sub [.fab] χ) :
    (bodyFabSetGovernor c).Keeps χ := fun _ _ _ _ _ h => fabSetGovernor_kept hw h

theorem bodyFabSetEscalation_keeps {χ : List Part} {burst stall : Half} (hw : Sub [.fab] χ) :
    (bodyFabSetEscalation burst stall).Keeps χ := fun _ _ _ _ _ h => fabSetEscalation_kept hw h

theorem bodyCrnSetTrapEscalation_keeps {χ : List Part} {th : Half} (hw : Sub [.crn] χ) :
    (bodyCrnSetTrapEscalation th).Keeps χ := fun _ _ _ _ _ h => crnSetTrapEscalation_kept hw h

theorem bodyDmaResume_keeps {χ : List Part} (hw : Sub [.dma] χ) :
    (bodyDmaResume).Keeps χ := fun _ _ _ _ _ h => dmaResume_kept hw h

theorem bodyMemSetScrub_keeps {χ : List Part} {period timeout : Half} (hw : Sub [.col] χ) :
    (bodyMemSetScrub period timeout).Keeps χ := fun _ _ _ _ _ h => memSetScrub_kept hw h

theorem bodyClkGetStatus_keeps {χ : List Part} (hw : Sub [] χ) :
    (bodyClkGetStatus).Keeps χ := fun _ _ _ _ _ h => clkGetStatus_kept hw h

theorem bodyClkSetRate_keeps {χ : List Part} {code : Byte} (hw : Sub [.lkt, .pst, .cmds, .boot, .tdm, .mtx, .net, .ptp, .stm, .red, .tw] χ) :
    (bodyClkSetRate code).Keeps χ := fun _ _ _ _ _ h => clkSetRate_kept hw h

theorem bodyClkRefConfig_keeps {χ : List Part} {c : ClkRefConfig} (hw : Sub [.lkt, .pst, .cmds, .boot, .tdm, .net, .ptp, .red, .tw] χ) :
    (bodyClkRefConfig c).Keeps χ := fun _ _ _ _ _ h => clkRefConfig_kept hw h

theorem bodyClkSelect_keeps {χ : List Part} {c : ClkSelect} (hw : Sub [.lkt, .pst, .cmds, .boot, .tdm, .net, .ptp, .red, .tw] χ) :
    (bodyClkSelect c).Keeps χ := fun _ _ _ _ _ h => clkSelect_kept hw h

theorem bodyClkSetTimers_keeps {χ : List Part} {c : ClkSetTimers} (hw : Sub [.lkt, .pst, .cmds, .boot, .tdm, .net, .ptp, .red, .tw] χ) :
    (bodyClkSetTimers c).Keeps χ := fun _ _ _ _ _ h => clkSetTimers_kept hw h

theorem bodyClkSetHoldover_keeps {χ : List Part} {c : ClkSetHoldover} (hw : Sub [.lkt, .pst, .cmds, .boot, .tdm, .net, .ptp, .red, .tw] χ) :
    (bodyClkSetHoldover c).Keeps χ := fun _ _ _ _ _ h => clkSetHoldover_kept hw h

theorem bodyClkSetTrim_keeps {χ : List Part} {ppt : Long} (hw : Sub [.lkt, .pst, .cmds, .boot, .tdm, .net, .ptp, .red, .tw] χ) :
    (bodyClkSetTrim ppt).Keeps χ := fun _ _ _ _ _ h => clkSetTrim_kept hw h

theorem bodyClkPhaseStep_keeps {χ : List Part} {ns : Word} (hw : Sub [.lkt, .pst, .cmds, .boot, .tdm, .net, .ptp, .red, .tw] χ) :
    (bodyClkPhaseStep ns).Keeps χ := fun _ _ _ _ _ h => clkPhaseStep_kept hw h

theorem bodyClkRealign_keeps {χ : List Part} {c : ClkRealign} (hw : Sub [.lkt, .pst, .cmds, .boot, .tdm, .net, .ptp, .red, .tw] χ) :
    (bodyClkRealign c).Keeps χ := fun _ _ _ _ _ h => clkRealign_kept hw h

theorem bodyClkGetRef_keeps {χ : List Part} {index : Byte} (hw : Sub [] χ) :
    (bodyClkGetRef index).Keeps χ := fun _ _ _ _ _ h => clkGetRef_kept hw h

theorem bodyNetSetPort_keeps {χ : List Part} {c : NetSetPort} (hw : Sub [.lkt, .cmds, .boot, .tdm, .net, .red, .tw] χ) :
    (bodyNetSetPort c).Keeps χ := fun _ _ _ _ _ h => netSetPort_kept hw h

theorem bodyNetSetSwitch_keeps {χ : List Part} {c : NetSetSwitch} (hw : Sub [.net] χ) :
    (bodyNetSetSwitch c).Keeps χ := fun _ _ _ _ _ h => netSetSwitch_kept hw h

theorem bodyNetFdbWrite_keeps {χ : List Part} {c : NetFdbWrite} (hw : Sub [.net, .fresh] χ) :
    (bodyNetFdbWrite c).Keeps χ := fun _ _ _ _ _ h => netFdbWrite_kept hw h

theorem bodyNetVlanWrite_keeps {χ : List Part} {vid : Half} {members taggedPorts : Byte} (hw : Sub [.net] χ) :
    (bodyNetVlanWrite vid members taggedPorts).Keeps χ := fun _ _ _ _ _ h => netVlanWrite_kept hw h

theorem bodyNetSetFilter_keeps {χ : List Part} {c : NetSetFilter} (hw : Sub [.net] χ) :
    (bodyNetSetFilter c).Keeps χ := fun _ _ _ _ _ h => netSetFilter_kept hw h

theorem bodyNetSetRing_keeps {χ : List Part} {c : NetSetRing} (hw : Sub [.lkt, .cmds, .boot, .tdm, .mtx, .col, .net, .red, .tw, .mem] χ) :
    (bodyNetSetRing c).Keeps χ := fun _ _ _ _ _ h => netSetRing_kept hw h

theorem bodyNetTest_keeps {χ : List Part} {port mode : Byte} (hw : Sub [.net, .fresh] χ) :
    (bodyNetTest port mode).Keeps χ := fun _ _ _ _ _ h => netTest_kept hw h

theorem bodyNetGetStatus_keeps {χ : List Part} {port : Byte} (hw : Sub [] χ) :
    (bodyNetGetStatus port).Keeps χ := fun _ _ _ _ _ h => netGetStatus_kept hw h

theorem bodyPtpSetInstance_keeps {χ : List Part} {c : PtpSetInstance} (hw : Sub [.lkt, .pst, .cmds, .boot, .tdm, .net, .ptp, .red, .tw] χ) :
    (bodyPtpSetInstance c).Keeps χ := fun _ _ _ _ _ h => ptpSetInstance_kept hw h

theorem bodyPtpSetPortTs_keeps {χ : List Part} {c : PtpSetPortTs} (hw : Sub [.net] χ) :
    (bodyPtpSetPortTs c).Keeps χ := fun _ _ _ _ _ h => ptpSetPortTs_kept hw h

theorem bodyPtpSetMaster_keeps {χ : List Part} {c : PtpSetMaster} (hw : Sub [.lkt, .pst, .cmds, .boot, .tdm, .net, .ptp, .red, .tw] χ) :
    (bodyPtpSetMaster c).Keeps χ := fun _ _ _ _ _ h => ptpSetMaster_kept hw h

theorem bodyPtpAcceptJump_keeps {χ : List Part} {inst : Byte} {gm : Long} (hw : Sub [.pst, .ptp] χ) :
    (bodyPtpAcceptJump inst gm).Keeps χ := fun _ _ _ _ _ h => ptpAcceptJump_kept hw h

theorem bodyPtpSetTime_keeps {χ : List Part} {sec : Long} (hw : Sub [.ptp] χ) :
    (bodyPtpSetTime sec).Keeps χ := fun _ _ _ _ _ h => ptpSetTime_kept hw h

theorem bodyPtpSetAlarm_keeps {χ : List Part} {c : PtpSetAlarm} (hw : Sub [.ptp] χ) :
    (bodyPtpSetAlarm c).Keeps χ := fun _ _ _ _ _ h => ptpSetAlarm_kept hw h

theorem bodyPtpCancelAlarm_keeps {χ : List Part} {alarm : Byte} (hw : Sub [.ptp] χ) :
    (bodyPtpCancelAlarm alarm).Keeps χ := fun _ _ _ _ _ h => ptpCancelAlarm_kept hw h

theorem bodyPtpGetStatus_keeps {χ : List Part} {inst : Byte} (hw : Sub [] χ) :
    (bodyPtpGetStatus inst).Keeps χ := fun _ _ _ _ _ h => ptpGetStatus_kept hw h

theorem bodyStreamSetTx_keeps {χ : List Part} {ctx : Byte} {c : TxCfg} (hw : Sub [.stm] χ) :
    (bodyStreamSetTx ctx c).Keeps χ := fun _ _ _ _ _ h => streamSetTx_kept hw h

theorem bodyStreamSetRx_keeps {χ : List Part} {ctx : Byte} {c : RxCfg} (hw : Sub [.stm] χ) :
    (bodyStreamSetRx ctx c).Keeps χ := fun _ _ _ _ _ h => streamSetRx_kept hw h

theorem bodyStreamSetCs_keeps {χ : List Part} {ctx : Byte} {block : List Byte} (hw : Sub [.stm] χ) :
    (bodyStreamSetCs ctx block).Keeps χ := fun _ _ _ _ _ h => streamSetCs_kept hw h

theorem bodyStreamStart_keeps {χ : List Part} {dir ctx : Byte} {q0 : Half} {w : Word} (hw : Sub [.stm, .mem] χ) :
    (bodyStreamStart dir ctx q0 w).Keeps χ := fun _ _ _ _ _ h => streamStart_kept hw h

theorem bodyStreamStop_keeps {χ : List Part} {dir ctx : Byte} {e : Word} (hw : Sub [.stm] χ) :
    (bodyStreamStop dir ctx e).Keeps χ := fun _ _ _ _ _ h => streamStop_kept hw h

theorem bodyStreamSetGroup_keeps {χ : List Part} {group : Byte} {p : Half} (hw : Sub [.stm] χ) :
    (bodyStreamSetGroup group p).Keeps χ := fun _ _ _ _ _ h => streamSetGroup_kept hw h

theorem bodyStreamGetContext_keeps {χ : List Part} {dir ctx : Byte} (hw : Sub [] χ) :
    (bodyStreamGetContext dir ctx).Keeps χ := fun _ _ _ _ _ h => streamGetContext_kept hw h

theorem bodyStreamClear_keeps {χ : List Part} {dir ctx : Byte} (hw : Sub [.stm] χ) :
    (bodyStreamClear dir ctx).Keeps χ := fun _ _ _ _ _ h => streamClear_kept hw h

theorem bodyTapSet_keeps {χ : List Part} {c : TapSet} (hw : Sub [.stm] χ) :
    (bodyTapSet c).Keeps χ := fun _ _ _ _ _ h => tapSet_kept hw h

theorem bodyTapGet_keeps {χ : List Part} {tap : Byte} (hw : Sub [] χ) :
    (bodyTapGet tap).Keeps χ := fun _ _ _ _ _ h => tapGet_kept hw h

theorem bodyTdmSetGroup_keeps {χ : List Part} {c : TdmSetGroup} (hw : Sub [.tdm] χ) :
    (bodyTdmSetGroup c).Keeps χ := fun _ _ _ _ _ h => tdmSetGroup_kept hw h

theorem bodyTdmSetPort_keeps {χ : List Part} {c : TdmSetPort} (hw : Sub [.tdm] χ) :
    (bodyTdmSetPort c).Keeps χ := fun _ _ _ _ _ h => tdmSetPort_kept hw h

theorem bodyTdmSetRing_keeps {χ : List Part} {c : TdmSetRing} (hw : Sub [.tdm] χ) :
    (bodyTdmSetRing c).Keeps χ := fun _ _ _ _ _ h => tdmSetRing_kept hw h

theorem bodyTdmStageMask_keeps {χ : List Part} {c : TdmStageMask} (hw : Sub [.tdm] χ) :
    (bodyTdmStageMask c).Keeps χ := fun _ _ _ _ _ h => tdmStageMask_kept hw h

theorem bodyTdmCommit_keeps {χ : List Part} {mask : Long} (hw : Sub [.tdm] χ) :
    (bodyTdmCommit mask).Keeps χ := fun _ _ _ _ _ h => tdmCommit_kept hw h

theorem bodyTdmStart_keeps {χ : List Part} {mask : Long} (hw : Sub [.tdm] χ) :
    (bodyTdmStart mask).Keeps χ := fun _ _ _ _ _ h => tdmStart_kept hw h

theorem bodyTdmStop_keeps {χ : List Part} {mask : Long} (hw : Sub [.tdm] χ) :
    (bodyTdmStop mask).Keeps χ := fun _ _ _ _ _ h => tdmStop_kept hw h

theorem bodyTdmGetStatus_keeps {χ : List Part} {port : Byte} (hw : Sub [] χ) :
    (bodyTdmGetStatus port).Keeps χ := fun _ _ _ _ _ h => tdmGetStatus_kept hw h

theorem bodyGraphLoadChunk_keeps {χ : List Part} {c : GraphChunk} (hw : Sub [.rdg, .mem] χ) :
    (bodyGraphLoadChunk c).Keeps χ := fun _ _ _ _ _ h => graphLoadChunk_kept hw h

theorem bodyGraphVerify_keeps {χ : List Part} {length : Word} (hw : Sub [.rdg] χ) :
    (bodyGraphVerify length).Keeps χ := fun _ _ _ _ _ h => graphVerify_kept hw h

theorem bodyGraphCommit_keeps {χ : List Part} {c : GraphWave} (hw : Sub [.rdg] χ) :
    (bodyGraphCommit c).Keeps χ := fun _ _ _ _ _ h => graphCommit_kept hw h

theorem bodyGraphCancel_keeps {χ : List Part} (hw : Sub [.rdg] χ) :
    (bodyGraphCancel).Keeps χ := fun _ _ _ _ _ h => graphCancel_kept hw h

theorem bodyGraphStatus_keeps {χ : List Part} (hw : Sub [] χ) :
    (bodyGraphStatus).Keeps χ := fun _ _ _ _ _ h => graphStatus_kept hw h

theorem bodyGraphGetLayout_keeps {χ : List Part} (hw : Sub [] χ) :
    (bodyGraphGetLayout).Keeps χ := fun _ _ _ _ _ h => graphGetLayout_kept hw h

theorem bodyGraphSetReservation_keeps {χ : List Part} {ms : Half} (hw : Sub [.rdg] χ) :
    (bodyGraphSetReservation ms).Keeps χ := fun _ _ _ _ _ h => graphSetReservation_kept hw h

theorem bodyGraphHalt_keeps {χ : List Part} {c : GraphWave} (hw : Sub [.rdg] χ) :
    (bodyGraphHalt c).Keeps χ := fun _ _ _ _ _ h => graphHalt_kept hw h

theorem bodyNodeSetGain_keeps {χ : List Part} {c : NodeSetGain} (hw : Sub [.rdg] χ) :
    (bodyNodeSetGain c).Keeps χ := fun _ _ _ _ _ h => nodeSetGain_kept hw h

theorem bodyNodeSetTimeout_keeps {χ : List Part} {node ms : Half} (hw : Sub [.rdg] χ) :
    (bodyNodeSetTimeout node ms).Keeps χ := fun _ _ _ _ _ h => nodeSetTimeout_kept hw h

theorem bodyMtxSetGains_keeps {χ : List Part} {c : MtxSetGains} (hw : Sub [.mtx] χ) :
    (bodyMtxSetGains c).Keeps χ := fun _ _ _ _ _ h => mtxSetGains_kept hw h

theorem bodyMtxBulkArm_keeps {χ : List Part} {c : MtxBulkArm} (hw : Sub [.mtx] χ) :
    (bodyMtxBulkArm c).Keeps χ := fun _ _ _ _ _ h => mtxBulkArm_kept hw h

theorem bodyMtxBulkCancel_keeps {χ : List Part} (hw : Sub [.mtx] χ) :
    (bodyMtxBulkCancel).Keeps χ := fun _ _ _ _ _ h => mtxBulkCancel_kept hw h

theorem bodyMtxSetColumn_keeps {χ : List Part} {col ms : Half} (hw : Sub [.mtx] χ) :
    (bodyMtxSetColumn col ms).Keeps χ := fun _ _ _ _ _ h => mtxSetColumn_kept hw h

theorem bodyMtxGetGains_keeps {χ : List Part} {col first count : Half} (hw : Sub [] χ) :
    (bodyMtxGetGains col first count).Keeps χ := fun _ _ _ _ _ h => mtxGetGains_kept hw h

theorem bodyMtxGetStatus_keeps {χ : List Part} (hw : Sub [] χ) :
    (bodyMtxGetStatus).Keeps χ := fun _ _ _ _ _ h => mtxGetStatus_kept hw h

theorem bodyMtxSetQuota_keeps {χ : List Part} {qs : List Half} (hw : Sub [.mtx] χ) :
    (bodyMtxSetQuota qs).Keeps χ := fun _ _ _ _ _ h => mtxSetQuota_kept hw h

theorem bodyPwsSetStage_keeps {χ : List Part} {c : PwsSetStage} (hw : Sub [.pws] χ) :
    (bodyPwsSetStage c).Keeps χ := fun _ _ _ _ _ h => pwsSetStage_kept hw h

theorem bodyPwsSetChannel_keeps {χ : List Part} {c : PwsSetChannel} (hw : Sub [.pws] χ) :
    (bodyPwsSetChannel c).Keeps χ := fun _ _ _ _ _ h => pwsSetChannel_kept hw h

theorem bodyPwsStart_keeps {χ : List Part} {mask : Half} (hw : Sub [.pws] χ) :
    (bodyPwsStart mask).Keeps χ := fun _ _ _ _ _ h => pwsStart_kept hw h

theorem bodyPwsStop_keeps {χ : List Part} {mask : Half} (hw : Sub [.lkt, .cmds, .boot, .pws, .tdm, .net, .red, .tw] χ) :
    (bodyPwsStop mask).Keeps χ := fun _ _ _ _ _ h => pwsStop_kept hw h

theorem bodyPwsMute_keeps {χ : List Part} {mask : Half} {mute : Byte} (hw : Sub [.pws] χ) :
    (bodyPwsMute mask mute).Keeps χ := fun _ _ _ _ _ h => pwsMute_kept hw h

theorem bodyPwsClear_keeps {χ : List Part} {mask : Half} (hw : Sub [.pws] χ) :
    (bodyPwsClear mask).Keeps χ := fun _ _ _ _ _ h => pwsClear_kept hw h

theorem bodyPwsGetStatus_keeps {χ : List Part} {channel : Byte} (hw : Sub [] χ) :
    (bodyPwsGetStatus channel).Keeps χ := fun _ _ _ _ _ h => pwsGetStatus_kept hw h

theorem bodyRedSetPair_keeps {χ : List Part} {c : RedSetPair} (hw : Sub [.red] χ) :
    (bodyRedSetPair c).Keeps χ := fun _ _ _ _ _ h => redSetPair_kept hw h

theorem bodyRedSetShared_keeps {χ : List Part} {first : Half} {es : List SharedEntry} (hw : Sub [.red] χ) :
    (bodyRedSetShared first es).Keeps χ := fun _ _ _ _ _ h => redSetShared_kept hw h

theorem bodySadSetPathdown_keeps {χ : List Part} {n : Half} (hw : Sub [.stm] χ) :
    (bodySadSetPathdown n).Keeps χ := fun _ _ _ _ _ h => sadSetPathdown_kept hw h

theorem bodyRedHandover_keeps {χ : List Part} {h : Word} (hw : Sub [.red] χ) :
    (bodyRedHandover h).Keeps χ := fun _ _ _ _ _ h => redHandover_kept hw h

theorem bodyRedForceActive_keeps {χ : List Part} {confirm : Word} (hw : Sub [.red] χ) :
    (bodyRedForceActive confirm).Keeps χ := fun _ _ _ _ _ h => redForceActive_kept hw h

theorem bodyRedResync_keeps {χ : List Part} (hw : Sub [.lkt, .cmds, .boot, .tdm, .net, .red, .tw] χ) :
    (bodyRedResync).Keeps χ := fun _ _ _ _ _ h => redResync_kept hw h

theorem bodyRedGetStatus_keeps {χ : List Part} (hw : Sub [] χ) :
    (bodyRedGetStatus).Keeps χ := fun _ _ _ _ _ h => redGetStatus_kept hw h

theorem bodyFltGetStatus_keeps {χ : List Part} (hw : Sub [] χ) :
    (bodyFltGetStatus).Keeps χ := fun _ _ _ _ _ h => fltGetStatus_kept hw h

theorem bodyFltClaim_keeps {χ : List Part} {rec : Byte} (hw : Sub [.lkt] χ) :
    (bodyFltClaim rec).Keeps χ := fun _ _ _ _ _ h => fltClaim_kept hw h

theorem bodyFltClear_keeps {χ : List Part} {rec : Byte} (hw : Sub [.lkt, .tdm] χ) :
    (bodyFltClear rec).Keeps χ := fun _ _ _ _ _ h => fltClear_kept hw h

theorem bodyFltSetClass_keeps {χ : List Part} {src cls act : Byte} (hw : Sub [.lkt] χ) :
    (bodyFltSetClass src cls act).Keeps χ := fun _ _ _ _ _ h => fltSetClass_kept hw h

theorem bodyFltSetTimers_keeps {χ : List Part} {esc : Word} {claim : Half} {sup : Word} (hw : Sub [.lkt] χ) :
    (bodyFltSetTimers esc claim sup).Keeps χ := fun _ _ _ _ _ h => fltSetTimers_kept hw h

theorem bodyFltGetCounts_keeps {χ : List Part} {first : Byte} {count : Half} (hw : Sub [] χ) :
    (bodyFltGetCounts first count).Keeps χ := fun _ _ _ _ _ h => fltGetCounts_kept hw h

theorem bodySecGetStatus_keeps {χ : List Part} (hw : Sub [] χ) :
    (bodySecGetStatus).Keeps χ := fun _ _ _ _ _ h => secGetStatus_kept hw h

theorem bodySecKeyProgram_keeps {χ : List Part} {c : SecKeyProgram} (hw : Sub [.sec] χ) :
    (bodySecKeyProgram c).Keeps χ := fun _ _ _ _ _ h => secKeyProgram_kept hw h

theorem bodySecKeyRevoke_keeps {χ : List Part} {c : SecKeyRevoke} (hw : Sub [.sec] χ) :
    (bodySecKeyRevoke c).Keeps χ := fun _ _ _ _ _ h => secKeyRevoke_kept hw h

theorem bodySecArbAdvance_keeps {χ : List Part} {c : SecArbAdvance} (hw : Sub [.sec, .ka] χ) :
    (bodySecArbAdvance c).Keeps χ := fun _ _ _ _ _ h => secArbAdvance_kept hw h

theorem bodySecFwErase_keeps {χ : List Part} {copy : Byte} (hw : Sub [] χ) :
    (bodySecFwErase copy).Keeps χ := fun _ _ _ _ _ h => secFwErase_kept hw h

theorem bodySecFwWrite_keeps {χ : List Part} {c : FlashWrite} (hw : Sub [.flash] χ) :
    (bodySecFwWrite c).Keeps χ := fun _ _ _ _ _ h => secFwWrite_kept hw h

theorem bodySecFwVerify_keeps {χ : List Part} {copy : Byte} (hw : Sub [] χ) :
    (bodySecFwVerify copy).Keeps χ := fun _ _ _ _ _ h => secFwVerify_kept hw h

theorem bodySecDebugChallenge_keeps {χ : List Part} (hw : Sub [.sec, .fresh] χ) :
    (bodySecDebugChallenge).Keeps χ := fun _ _ _ _ _ h => secDebugChallenge_kept hw h

theorem bodySecDebugUnlock_keeps {χ : List Part} {block : List Byte} (hw : Sub [.lkt, .cmds, .sec, .boot, .tdm, .net, .red, .tw] χ) :
    (bodySecDebugUnlock block).Keeps χ := fun _ _ _ _ _ h => secDebugUnlock_kept hw h

theorem bodySecSetLock_keeps {χ : List Part} {bits : Word} (hw : Sub [.sec] χ) :
    (bodySecSetLock bits).Keeps χ := fun _ _ _ _ _ h => secSetLock_kept hw h

theorem bodyFabSetTelemetry_keeps {χ : List Part} {n : Byte} {w : Half} (hw : Sub [.fab] χ) :
    (bodyFabSetTelemetry n w).Keeps χ := fun _ _ _ _ _ h => fabSetTelemetry_kept hw h

theorem bodyFabClearTelemetry_keeps {χ : List Part} (hw : Sub [.fab] χ) :
    (bodyFabClearTelemetry).Keeps χ := fun _ _ _ _ _ h => fabClearTelemetry_kept hw h

theorem bodyCrnGetStatus_keeps {χ : List Part} (hw : Sub [] χ) :
    (bodyCrnGetStatus).Keeps χ := fun _ _ _ _ _ h => crnGetStatus_kept hw h

theorem bodyCrnReadMem_keeps {χ : List Part} {engine mem : Byte} {addr count : Half} (hw : Sub [] χ) :
    (bodyCrnReadMem engine mem addr count).Keeps χ := fun _ _ _ _ _ h => crnReadMem_kept hw h

theorem bodyMemGetStatus_keeps {χ : List Part} (hw : Sub [] χ) :
    (bodyMemGetStatus).Keeps χ := fun _ _ _ _ _ h => memGetStatus_kept hw h

theorem readSystem_keeps {χ : List Part} {h : PktHdr} {b : Body} (hw : Sub [.cmds, .flash, .fab, .crn, .col, .dma, .fresh] χ) (e : readSystem h = .ok b) : b.Keeps χ := by
  unfold readSystem at e
  try unfold noFields at e
  try unfold readFlash at e
  repeat' (split at e)
  all_goals first | (cases e; done) | (injection e with e; subst e)
  all_goals first
    | (with_reducible refine bodySysHello_keeps ?_; exact hw.of rfl)
    | (with_reducible refine bodySysGetInfo_keeps ?_; exact hw.of rfl)
    | (with_reducible refine bodySysGetOwnership_keeps ?_; exact hw.of rfl)
    | (with_reducible refine bodySysProfileLoad_keeps ?_; exact hw.of rfl)
    | (with_reducible refine bodySysProfileErase_keeps ?_; exact hw.of rfl)
    | (with_reducible refine bodySysProfileWrite_keeps ?_; exact hw.of rfl)
    | (with_reducible refine bodySysProfileSeal_keeps ?_; exact hw.of rfl)
    | (with_reducible refine bodySysProfileList_keeps ?_; exact hw.of rfl)
    | (with_reducible refine bodyFabSetGovernor_keeps ?_; exact hw.of rfl)
    | (with_reducible refine bodyFabSetEscalation_keeps ?_; exact hw.of rfl)
    | (with_reducible refine bodyCrnSetTrapEscalation_keeps ?_; exact hw.of rfl)
    | (with_reducible refine bodyDmaResume_keeps ?_; exact hw.of rfl)
    | (with_reducible refine bodyMemSetScrub_keeps ?_; exact hw.of rfl)

theorem readClock_keeps {χ : List Part} {h : PktHdr} {b : Body} (hw : Sub [.lkt, .pst, .cmds, .boot, .tdm, .mtx, .net, .ptp, .stm, .red, .tw] χ) (e : readClock h = .ok b) : b.Keeps χ := by
  unfold readClock at e
  try unfold noFields at e
  try unfold readFlash at e
  repeat' (split at e)
  all_goals first | (cases e; done) | (injection e with e; subst e)
  all_goals first
    | (with_reducible refine bodyClkGetStatus_keeps ?_; exact hw.of rfl)
    | (with_reducible refine bodyClkSetRate_keeps ?_; exact hw.of rfl)
    | (with_reducible refine bodyClkRefConfig_keeps ?_; exact hw.of rfl)
    | (with_reducible refine bodyClkSelect_keeps ?_; exact hw.of rfl)
    | (with_reducible refine bodyClkSetTimers_keeps ?_; exact hw.of rfl)
    | (with_reducible refine bodyClkSetHoldover_keeps ?_; exact hw.of rfl)
    | (with_reducible refine bodyClkSetTrim_keeps ?_; exact hw.of rfl)
    | (with_reducible refine bodyClkPhaseStep_keeps ?_; exact hw.of rfl)
    | (with_reducible refine bodyClkRealign_keeps ?_; exact hw.of rfl)
    | (with_reducible refine bodyClkGetRef_keeps ?_; exact hw.of rfl)

theorem readNet_keeps {χ : List Part} {h : PktHdr} {b : Body} (hw : Sub [.lkt, .pst, .cmds, .boot, .tdm, .mtx, .col, .net, .ptp, .stm, .red, .tw, .mem, .fresh] χ) (e : readNet h = .ok b) : b.Keeps χ := by
  unfold readNet at e
  try unfold noFields at e
  try unfold readFlash at e
  repeat' (split at e)
  all_goals first | (cases e; done) | (injection e with e; subst e)
  all_goals first
    | (with_reducible refine bodyNetSetPort_keeps ?_; exact hw.of rfl)
    | (with_reducible refine bodyNetSetSwitch_keeps ?_; exact hw.of rfl)
    | (with_reducible refine bodyNetFdbWrite_keeps ?_; exact hw.of rfl)
    | (with_reducible refine bodyNetVlanWrite_keeps ?_; exact hw.of rfl)
    | (with_reducible refine bodyNetSetFilter_keeps ?_; exact hw.of rfl)
    | (with_reducible refine bodyNetSetRing_keeps ?_; exact hw.of rfl)
    | (with_reducible refine bodyNetTest_keeps ?_; exact hw.of rfl)
    | (with_reducible refine bodyNetGetStatus_keeps ?_; exact hw.of rfl)
    | (with_reducible refine bodyPtpSetInstance_keeps ?_; exact hw.of rfl)
    | (with_reducible refine bodyPtpSetPortTs_keeps ?_; exact hw.of rfl)
    | (with_reducible refine bodyPtpSetMaster_keeps ?_; exact hw.of rfl)
    | (with_reducible refine bodyPtpAcceptJump_keeps ?_; exact hw.of rfl)
    | (with_reducible refine bodyPtpSetTime_keeps ?_; exact hw.of rfl)
    | (with_reducible refine bodyPtpSetAlarm_keeps ?_; exact hw.of rfl)
    | (with_reducible refine bodyPtpCancelAlarm_keeps ?_; exact hw.of rfl)
    | (with_reducible refine bodyPtpGetStatus_keeps ?_; exact hw.of rfl)
    | (with_reducible refine bodyStreamSetTx_keeps ?_; exact hw.of rfl)
    | (with_reducible refine bodyStreamSetRx_keeps ?_; exact hw.of rfl)
    | (with_reducible refine bodyStreamSetCs_keeps ?_; exact hw.of rfl)
    | (with_reducible refine bodyStreamStart_keeps ?_; exact hw.of rfl)
    | (with_reducible refine bodyStreamStop_keeps ?_; exact hw.of rfl)
    | (with_reducible refine bodyStreamSetGroup_keeps ?_; exact hw.of rfl)
    | (with_reducible refine bodyStreamGetContext_keeps ?_; exact hw.of rfl)
    | (with_reducible refine bodyStreamClear_keeps ?_; exact hw.of rfl)
    | (with_reducible refine bodyTapSet_keeps ?_; exact hw.of rfl)
    | (with_reducible refine bodyTapGet_keeps ?_; exact hw.of rfl)

theorem readTdm_keeps {χ : List Part} {h : PktHdr} {b : Body} (hw : Sub [.tdm] χ) (e : readTdm h = .ok b) : b.Keeps χ := by
  unfold readTdm at e
  try unfold noFields at e
  try unfold readFlash at e
  repeat' (split at e)
  all_goals first | (cases e; done) | (injection e with e; subst e)
  all_goals first
    | (with_reducible refine bodyTdmSetGroup_keeps ?_; exact hw.of rfl)
    | (with_reducible refine bodyTdmSetPort_keeps ?_; exact hw.of rfl)
    | (with_reducible refine bodyTdmSetRing_keeps ?_; exact hw.of rfl)
    | (with_reducible refine bodyTdmStageMask_keeps ?_; exact hw.of rfl)
    | (with_reducible refine bodyTdmCommit_keeps ?_; exact hw.of rfl)
    | (with_reducible refine bodyTdmStart_keeps ?_; exact hw.of rfl)
    | (with_reducible refine bodyTdmStop_keeps ?_; exact hw.of rfl)
    | (with_reducible refine bodyTdmGetStatus_keeps ?_; exact hw.of rfl)

theorem readGraph_keeps {χ : List Part} {h : PktHdr} {b : Body} (hw : Sub [.rdg, .mem] χ) (e : readGraph h = .ok b) : b.Keeps χ := by
  unfold readGraph at e
  try unfold noFields at e
  try unfold readFlash at e
  repeat' (split at e)
  all_goals first | (cases e; done) | (injection e with e; subst e)
  all_goals first
    | (with_reducible refine bodyGraphLoadChunk_keeps ?_; exact hw.of rfl)
    | (with_reducible refine bodyGraphVerify_keeps ?_; exact hw.of rfl)
    | (with_reducible refine bodyGraphCommit_keeps ?_; exact hw.of rfl)
    | (with_reducible refine bodyGraphCancel_keeps ?_; exact hw.of rfl)
    | (with_reducible refine bodyGraphStatus_keeps ?_; exact hw.of rfl)
    | (with_reducible refine bodyGraphGetLayout_keeps ?_; exact hw.of rfl)
    | (with_reducible refine bodyGraphSetReservation_keeps ?_; exact hw.of rfl)
    | (with_reducible refine bodyGraphHalt_keeps ?_; exact hw.of rfl)
    | (with_reducible refine bodyNodeSetGain_keeps ?_; exact hw.of rfl)
    | (with_reducible refine bodyNodeSetTimeout_keeps ?_; exact hw.of rfl)

theorem readMatrix_keeps {χ : List Part} {h : PktHdr} {b : Body} (hw : Sub [.mtx] χ) (e : readMatrix h = .ok b) : b.Keeps χ := by
  unfold readMatrix at e
  try unfold noFields at e
  try unfold readFlash at e
  repeat' (split at e)
  all_goals first | (cases e; done) | (injection e with e; subst e)
  all_goals first
    | (with_reducible refine bodyMtxSetGains_keeps ?_; exact hw.of rfl)
    | (with_reducible refine bodyMtxBulkArm_keeps ?_; exact hw.of rfl)
    | (with_reducible refine bodyMtxBulkCancel_keeps ?_; exact hw.of rfl)
    | (with_reducible refine bodyMtxSetColumn_keeps ?_; exact hw.of rfl)
    | (with_reducible refine bodyMtxGetGains_keeps ?_; exact hw.of rfl)
    | (with_reducible refine bodyMtxGetStatus_keeps ?_; exact hw.of rfl)
    | (with_reducible refine bodyMtxSetQuota_keeps ?_; exact hw.of rfl)

theorem readStage_keeps {χ : List Part} {h : PktHdr} {b : Body} (hw : Sub [.lkt, .cmds, .boot, .pws, .tdm, .net, .red, .tw] χ) (e : readStage h = .ok b) : b.Keeps χ := by
  unfold readStage at e
  try unfold noFields at e
  try unfold readFlash at e
  repeat' (split at e)
  all_goals first | (cases e; done) | (injection e with e; subst e)
  all_goals first
    | (with_reducible refine bodyPwsSetStage_keeps ?_; exact hw.of rfl)
    | (with_reducible refine bodyPwsSetChannel_keeps ?_; exact hw.of rfl)
    | (with_reducible refine bodyPwsStart_keeps ?_; exact hw.of rfl)
    | (with_reducible refine bodyPwsStop_keeps ?_; exact hw.of rfl)
    | (with_reducible refine bodyPwsMute_keeps ?_; exact hw.of rfl)
    | (with_reducible refine bodyPwsClear_keeps ?_; exact hw.of rfl)
    | (with_reducible refine bodyPwsGetStatus_keeps ?_; exact hw.of rfl)

theorem readPair_keeps {χ : List Part} {h : PktHdr} {b : Body} (hw : Sub [.lkt, .cmds, .boot, .tdm, .net, .stm, .red, .tw] χ) (e : readPair h = .ok b) : b.Keeps χ := by
  unfold readPair at e
  try unfold noFields at e
  try unfold readFlash at e
  repeat' (split at e)
  all_goals first | (cases e; done) | (injection e with e; subst e)
  all_goals first
    | (with_reducible refine bodyRedSetPair_keeps ?_; exact hw.of rfl)
    | (with_reducible refine bodyRedSetShared_keeps ?_; exact hw.of rfl)
    | (with_reducible refine bodySadSetPathdown_keeps ?_; exact hw.of rfl)
    | (with_reducible refine bodyRedHandover_keeps ?_; exact hw.of rfl)
    | (with_reducible refine bodyRedForceActive_keeps ?_; exact hw.of rfl)
    | (with_reducible refine bodyRedResync_keeps ?_; exact hw.of rfl)
    | (with_reducible refine bodyRedGetStatus_keeps ?_; exact hw.of rfl)

theorem readFault_keeps {χ : List Part} {h : PktHdr} {b : Body} (hw : Sub [.lkt, .tdm] χ) (e : readFault h = .ok b) : b.Keeps χ := by
  unfold readFault at e
  try unfold noFields at e
  try unfold readFlash at e
  repeat' (split at e)
  all_goals first | (cases e; done) | (injection e with e; subst e)
  all_goals first
    | (with_reducible refine bodyFltGetStatus_keeps ?_; exact hw.of rfl)
    | (with_reducible refine bodyFltClaim_keeps ?_; exact hw.of rfl)
    | (with_reducible refine bodyFltClear_keeps ?_; exact hw.of rfl)
    | (with_reducible refine bodyFltSetClass_keeps ?_; exact hw.of rfl)
    | (with_reducible refine bodyFltSetTimers_keeps ?_; exact hw.of rfl)
    | (with_reducible refine bodyFltGetCounts_keeps ?_; exact hw.of rfl)

theorem readSecurity_keeps {χ : List Part} {h : PktHdr} {b : Body} (hw : Sub [.lkt, .cmds, .sec, .flash, .boot, .ka, .tdm, .net, .red, .tw, .fresh] χ) (e : readSecurity h = .ok b) : b.Keeps χ := by
  unfold readSecurity at e
  try unfold noFields at e
  try unfold readFlash at e
  repeat' (split at e)
  all_goals first | (cases e; done) | (injection e with e; subst e)
  all_goals first
    | (with_reducible refine bodySecGetStatus_keeps ?_; exact hw.of rfl)
    | (with_reducible refine bodySecKeyProgram_keeps ?_; exact hw.of rfl)
    | (with_reducible refine bodySecKeyRevoke_keeps ?_; exact hw.of rfl)
    | (with_reducible refine bodySecArbAdvance_keeps ?_; exact hw.of rfl)
    | (with_reducible refine bodySecFwErase_keeps ?_; exact hw.of rfl)
    | (with_reducible refine bodySecFwWrite_keeps ?_; exact hw.of rfl)
    | (with_reducible refine bodySecFwVerify_keeps ?_; exact hw.of rfl)
    | (with_reducible refine bodySecDebugChallenge_keeps ?_; exact hw.of rfl)
    | (with_reducible refine bodySecDebugUnlock_keeps ?_; exact hw.of rfl)
    | (with_reducible refine bodySecSetLock_keeps ?_; exact hw.of rfl)

theorem readDiag_keeps {χ : List Part} {h : PktHdr} {b : Body} (hw : Sub [.fab] χ) (e : readDiag h = .ok b) : b.Keeps χ := by
  unfold readDiag at e
  try unfold noFields at e
  try unfold readFlash at e
  repeat' (split at e)
  all_goals first | (cases e; done) | (injection e with e; subst e)
  all_goals first
    | (with_reducible refine bodyFabSetTelemetry_keeps ?_; exact hw.of rfl)
    | (with_reducible refine bodyFabClearTelemetry_keeps ?_; exact hw.of rfl)
    | (with_reducible refine bodyCrnGetStatus_keeps ?_; exact hw.of rfl)
    | (with_reducible refine bodyCrnReadMem_keeps ?_; exact hw.of rfl)
    | (with_reducible refine bodyMemGetStatus_keeps ?_; exact hw.of rfl)

theorem readBody_keeps {χ : List Part} {h : PktHdr} {b : Body} (hw : Sub [.lkt, .pst, .cmds, .sec, .flash, .boot, .ka, .pws, .tdm, .fab, .rdg, .crn, .mtx, .col, .dma, .net, .ptp, .stm, .red, .tw, .mem, .fresh] χ) (e : readBody h = .ok b) : b.Keeps χ := by
  unfold readBody at e
  split at e
  · exact readSystem_keeps (hw.of rfl) e
  · exact readClock_keeps (hw.of rfl) e
  · exact readNet_keeps (hw.of rfl) e
  · exact readTdm_keeps (hw.of rfl) e
  · exact readGraph_keeps (hw.of rfl) e
  · exact readMatrix_keeps (hw.of rfl) e
  · exact readStage_keeps (hw.of rfl) e
  · exact readPair_keeps (hw.of rfl) e
  · exact readFault_keeps (hw.of rfl) e
  · exact readSecurity_keeps (hw.of rfl) e
  · exact readDiag_keeps (hw.of rfl) e
  · cases e

end Sys2Proof.Machine
end

