-- ==== Sys2Proof/Laws/Kept/Falver.lean ====
section
/-! SUPPORT. What the operations of Machine/Falver.lean keep. -/

namespace Sys2Proof.Machine

theorem configDirty_kept {ρ : Bool} {χ : List Part} {σ s : State} (hw : Sub [.sys] χ) (hk : Kept ρ χ σ s) :
    Kept ρ χ σ (configDirty s) := by
  unfold configDirty
  repeat' (first
    | with_reducible assumption | (simp only [keptTo]; with_reducible apply KeptTo.intro hw)
    | (show ∀ p : Part, _; intro p; cases p <;> dsimp only [Part.same] <;> first | exact .inl (by decide) | exact .inr (by with_reducible rfl) | exact .inr rfl)
    | with_reducible rfl | with_reducible exact MemTo.refl _ | with_reducible exact Otp.Grown.refl _
    | with_reducible apply Kept.ite)

theorem crcCommit_kept {ρ : Bool} {χ : List Part} {σ s : State} (hw : Sub [.sys] χ) (hk : Kept ρ χ σ s) :
    Kept ρ χ σ (crcCommit s) := by
  unfold crcCommit
  repeat' (first
    | with_reducible assumption | (simp only [keptTo]; with_reducible apply KeptTo.intro hw)
    | (show ∀ p : Part, _; intro p; cases p <;> dsimp only [Part.same] <;> first | exact .inl (by decide) | exact .inr (by with_reducible rfl) | exact .inr rfl)
    | with_reducible rfl | with_reducible exact MemTo.refl _ | with_reducible exact Otp.Grown.refl _
    | with_reducible apply Kept.ite)

theorem forwardBody_kept {ρ : Bool} {χ : List Part} {σ s t : State} {p : Nat} {b : Body} {r : Reply} (hw : Sub [.red] χ) (hk : Kept ρ χ σ t) :
    Kept ρ χ σ (forwardBody s p b r t) := by
  unfold forwardBody; exact Kept.ite (forward_kept (hw.of rfl) hk) hk

theorem afterCommand_kept {ρ : Bool} {χ : List Part} {σ s t : State} {op : Nat} {r : Reply} (hw : Sub [.lkt, .sys, .cmds, .boot, .tdm, .net, .red, .tw] χ) (hk : Kept ρ χ σ t) :
    Kept ρ χ σ (afterCommand s op r t) := by
  unfold afterCommand
  exact noteEval_kept (hw.of rfl) (Kept.ite (crcCommit_kept (hw.of rfl) (configDirty_kept (hw.of rfl) hk)) hk)

theorem carriedOut_kept {ρ : Bool} {χ : List Part} {σ s t : State} {fwd : Bool} {p : Nat} {b : Body} {r : Reply} (hw : Sub [.lkt, .sys, .cmds, .boot, .tdm, .net, .red, .tw] χ) (hk : Kept ρ χ σ t) :
    Kept ρ χ σ (carriedOut fwd p b r s t) := by
  unfold carriedOut
  exact Kept.ite (afterCommand_kept (hw.of rfl) hk) (forwardBody_kept (hw.of rfl) (afterCommand_kept (hw.of rfl) hk))

theorem perform_kept {ρ : Bool} {χ : List Part} {σ s : State} {fwd : Bool} {p : Nat} {udp : Bool} {limit : Nat} {b : Body} (hw : Sub [.lkt, .sys, .cmds, .boot, .tdm, .net, .red, .tw] χ)
    (hb : b.Keeps χ) (hk : Kept ρ χ σ s) : Kept ρ χ σ (perform fwd p udp limit b s).1 := by
  unfold perform
  split
  · exact hk
  · exact Kept.ite_fst hk (carriedOut_kept (hw.of rfl) (hb _ _ _ _ _ hk))

theorem slotRan_kept {ρ : Bool} {χ : List Part} {σ s t : State} {p : Nat} {udp : Bool} {b : Body} {r : Reply} (hw : Sub [.cmds] χ) (hk : Kept ρ χ σ t) :
    Kept ρ χ σ (slotRan p udp b r s t) := by
  unfold slotRan; exact onSlot_kept (hw.of rfl) hk

theorem runInSlot_kept {ρ : Bool} {χ : List Part} {σ s : State} {p : Nat} {udp : Bool} {b : Body} (hw : Sub [.lkt, .sys, .cmds, .boot, .tdm, .net, .red, .tw] χ) (hb : b.Keeps χ) (hk : Kept ρ χ σ s) :
    Kept ρ χ σ (runInSlot p udp b s) := by
  unfold runInSlot
  exact slotRan_kept (hw.of rfl) (perform_kept (hw.of rfl) hb hk)

theorem pendingHeader_kept {ρ : Bool} {χ : List Part} {σ s : State} {p : Nat} {h : PktHdr} (hw : Sub [.cmds] χ) (hk : Kept ρ χ σ s) :
    Kept ρ χ σ (pendingHeader p h s) := by
  unfold pendingHeader
  repeat' (first | with_reducible assumption | with_reducible apply showPacket_kept)

theorem takeSlotFor_kept {ρ : Bool} {χ : List Part} {σ s : State} {p : Nat} {udp : Bool} {op : Nat} (hw : Sub [.cmds] χ) (hk : Kept ρ χ σ s) :
    Kept ρ χ σ (takeSlotFor p udp op s) := by
  unfold takeSlotFor
  repeat' (first
    | with_reducible assumption | with_reducible apply onSlot_kept | with_reducible apply pendingHeader_kept
    | with_reducible apply Kept.ite)

theorem runCommand_kept {ρ : Bool} {χ : List Part} {σ s : State} {q : Sender} {b : Body} (hw : Sub [.lkt, .sys, .cmds, .sec, .boot, .tdm, .net, .red, .tw] χ) (hb : b.Keeps χ) (hk : Kept ρ χ σ s) :
    Kept ρ χ σ (runCommand q b s) := by
  unfold runCommand
  refine Kept.ite hk (Kept.ite (onSlot_kept (hw.of rfl) (authFailed_kept (hw.of rfl) (takeSlotFor_kept (hw.of rfl) hk))) ?_)
  exact runInSlot_kept (hw.of rfl) hb (takeSlotFor_kept (hw.of rfl) hk)

theorem runPacket_kept {ρ : Bool} {χ : List Part} {σ s : State} {p : Nat} {udp : Bool} (hw : Sub [.lkt, .pst, .sys, .cmds, .sec, .flash, .boot, .ka, .pws, .tdm, .fab, .rdg, .crn, .mtx, .col, .dma, .net, .ptp, .stm, .red, .tw, .mem, .fresh] χ) (hk : Kept ρ χ σ s) :
    Kept ρ χ σ (runPacket p udp s) := by
  unfold runPacket
  split
  · exact onSlot_kept (hw.of rfl) hk
  · rename_i e; exact runInSlot_kept (hw.of rfl) (readBody_keeps (hw.of rfl) e) hk

theorem executionEnd_kept {ρ : Bool} {χ : List Part} {σ s : State} {q : Sender} (hw : Sub [.lkt, .pst, .sys, .cmds, .sec, .flash, .boot, .ka, .pws, .tdm, .fab, .rdg, .crn, .mtx, .col, .dma, .net, .ptp, .stm, .red, .tw, .mem, .fresh] χ) (hk : Kept ρ χ σ s) :
    Kept ρ χ σ (executionEnd q s) := by
  unfold executionEnd
  repeat' (first
    | with_reducible assumption | exact Sub.of hw rfl | with_reducible apply runPacket_kept
    | (refine jobEnd_kept_eq (hw.of rfl) ?_ (by assumption)) | with_reducible apply giveResult_kept
    | with_reducible apply noteEval_kept | with_reducible apply answer_kept | with_reducible apply Kept.ite | split
    | dsimp only)

theorem releaseReply_kept {ρ : Bool} {χ : List Part} {σ s : State} {q : Sender} (hw : Sub [.cmds] χ) (hk : Kept ρ χ σ s) :
    Kept ρ χ σ (releaseReply q s) := by
  unfold releaseReply
  repeat' (first | with_reducible assumption | with_reducible apply onSlot_kept)

theorem refuseMailbox_kept {ρ : Bool} {χ : List Part} {σ s : State} {m : Nat} {k : Packet} {key : Option (BitVec 256)} {st : Status} (hw : Sub [.cmds] χ) (hk : Kept ρ χ σ s) :
    Kept ρ χ σ (refuseMailbox m k key st s) := by
  unfold refuseMailbox
  repeat' (first | with_reducible assumption | with_reducible apply mailboxReply_kept)

theorem acceptPacket_kept {ρ : Bool} {χ : List Part} {σ s : State} {p : Nat} {udp : Bool} {k : Packet} {src : CmdSlot} (hw : Sub [.cmds] χ) (hk : Kept ρ χ σ s) :
    Kept ρ χ σ (acceptPacket p udp k src s) := by
  unfold acceptPacket
  repeat' (first | with_reducible assumption | with_reducible apply onSlot_kept)

theorem takeCounter_kept {ρ : Bool} {χ : List Part} {σ s : State} {k : Packet} (hw : Sub [.cmds] χ) (hk : Kept ρ χ σ s) :
    Kept ρ χ σ (takeCounter k s) := by
  unfold takeCounter
  repeat' (first
    | with_reducible assumption | with_reducible apply State.setPart_kept | with_reducible rfl
    | with_reducible apply Kept.ite)

theorem doorbell_kept {ρ : Bool} {χ : List Part} {σ s : State} {m : Nat} (hw : Sub [.lkt, .cmds, .sec, .boot, .tdm, .net, .red, .tw] χ) (hk : Kept ρ χ σ s) :
    Kept ρ χ σ (doorbell m s) := by
  unfold doorbell
  repeat' (first
    | with_reducible assumption | exact Sub.of hw rfl | with_reducible apply State.setPart_kept
    | with_reducible apply pendingHeader_kept | with_reducible apply onSlot_kept
    | with_reducible apply refuseMailbox_kept | with_reducible apply authFailed_kept
    | with_reducible apply takeCounter_kept | with_reducible apply acceptPacket_kept | with_reducible rfl
    | with_reducible apply Kept.ite)

theorem udpAuthFail_kept {ρ : Bool} {χ : List Part} {σ s : State} {src : CmdSlot} {k : Packet} (hw : Sub [.lkt, .cmds, .sec, .boot, .tdm, .net, .red, .tw] χ) (hk : Kept ρ χ σ s) :
    Kept ρ χ σ (udpAuthFail src k s) := by
  unfold udpAuthFail
  repeat' (first
    | with_reducible assumption | exact Sub.of hw rfl | with_reducible apply authFailed_kept
    | with_reducible apply udpDirect_kept | with_reducible apply State.setPart_kept | with_reducible rfl
    | with_reducible apply Kept.ite)

theorem udpDropped_kept {ρ : Bool} {χ : List Part} {σ s : State} (hw : Sub [.own] χ) (hk : Kept ρ χ σ s) :
    Kept ρ χ σ (udpDropped s) := .view hw hk rfl

theorem udpPacket_kept {ρ : Bool} {χ : List Part} {σ s : State} {src : CmdSlot} {bs : List Byte} (hw : Sub [.lkt, .cmds, .own, .sec, .boot, .tdm, .net, .red, .tw] χ) (hk : Kept ρ χ σ s) :
    Kept ρ χ σ (udpPacket src bs s) := by
  unfold udpPacket
  repeat' (first
    | with_reducible assumption | exact Sub.of hw rfl | with_reducible apply udpDropped_kept
    | with_reducible apply udpAuthFail_kept | with_reducible apply udpDirect_kept | with_reducible apply udpSend_kept
    | with_reducible apply takeCounter_kept | with_reducible apply acceptPacket_kept | with_reducible apply Kept.ite
    | split)

theorem udpCommand_kept {ρ : Bool} {χ : List Part} {σ s : State} {port : Nat} {bs : List Byte} (hw : Sub [.lkt, .cmds, .own, .sec, .boot, .tdm, .net, .red, .tw] χ) (hk : Kept ρ χ σ s) :
    Kept ρ χ σ (udpCommand port bs s) := by
  unfold udpCommand
  repeat' (first
    | with_reducible assumption | exact Sub.of hw rfl | with_reducible apply State.setRxRing_kept
    | with_reducible apply udpDropped_kept | with_reducible apply udpPacket_kept | with_reducible apply Kept.ite)

theorem withLead_kept {ρ : Bool} {χ : List Part} {σ s : State} {w : Word} {f : State → State × Reply}
    (hw : Sub [.pst] χ) (hf : ∀ t, Kept ρ χ σ t → Kept ρ χ σ (f t).1) (hk : Kept ρ χ σ s) : Kept ρ χ σ (withLead w f s).1 := by
  unfold withLead
  refine Kept.ite_fst ?_ (hf _ hk)
  have h1 := hf { s with pst := { s.pst with mcnt := w - 8 } }
    (hk.same hw (fun p => by cases p <;> dsimp only [Part.same] <;> first | exact .inl (by decide) | exact .inr (by with_reducible rfl) | exact .inr rfl) rfl (MemTo.refl _) rfl rfl rfl rfl rfl (Otp.Grown.refl _))
  exact h1.same hw (fun p => by cases p <;> dsimp only [Part.same] <;> first | exact .inl (by decide) | exact .inr (by with_reducible rfl) | exact .inr rfl) rfl (MemTo.refl _) rfl rfl rfl rfl rfl (Otp.Grown.refl _)

theorem placeData_kept {ρ : Bool} {χ : List Part} {σ s : State} {m : MirrorCmd} (hw : Sub [.mtx, .mem] χ) (hk : Kept ρ χ σ s) :
    Kept ρ χ σ (placeData m s) := by
  unfold placeData
  repeat' (first
    | with_reducible assumption | (simp only [keptTo]; with_reducible apply KeptTo.intro hw)
    | (show ∀ p : Part, _; intro p; cases p <;> dsimp only [Part.same] <;> first | exact .inl (by decide) | exact .inr (by with_reducible rfl) | exact .inr rfl)
    | with_reducible rfl | with_reducible exact MemTo.refl _ | with_reducible exact Otp.Grown.refl _
    | with_reducible apply MemTo.writeTarn | split)

theorem runForwarded_kept {ρ : Bool} {χ : List Part} {σ s : State} {m : MirrorCmd} {payload : List Byte} (hw : Sub [.lkt, .pst, .sys, .cmds, .sec, .flash, .boot, .ka, .pws, .tdm, .fab, .rdg, .crn, .mtx, .col, .dma, .net, .ptp, .stm, .red, .tw, .mem, .fresh] χ) (hk : Kept ρ χ σ s) :
    Kept ρ χ σ (runForwarded m payload s).1 := by
  unfold runForwarded
  split
  · exact hk
  · rename_i e
    have hb := readBody_keeps (hw.of rfl) e
    dsimp only
    split
    · exact perform_kept (hw.of rfl) hb hk
    · exact withLead_kept (hw.of rfl) (fun _ h => perform_kept (hw.of rfl) hb h) hk

theorem runForwarded_kept_eq {ρ : Bool} {χ : List Part} {σ s tt : State} {m : MirrorCmd} {payload : List Byte} {aa : Reply} (hw : Sub [.lkt, .pst, .sys, .cmds, .sec, .flash, .boot, .ka, .pws, .tdm, .fab, .rdg, .crn, .mtx, .col, .dma, .net, .ptp, .stm, .red, .tw, .mem, .fresh] χ) (hk : Kept ρ χ σ s)
    (he : runForwarded m payload s = (tt, aa)) : Kept ρ χ σ tt := by
  have := runForwarded_kept (m := m) (payload := payload) hw hk; rw [he] at this; exact this

theorem applyForwarded_kept {ρ : Bool} {χ : List Part} {σ s : State} {m : MirrorCmd} (hw : Sub [.lkt, .pst, .sys, .cmds, .sec, .flash, .boot, .ka, .pws, .tdm, .fab, .rdg, .crn, .mtx, .col, .dma, .net, .ptp, .stm, .red, .tw, .mem, .fresh] χ) (hk : Kept ρ χ σ s) :
    Kept ρ χ σ (applyForwarded m s) := by
  unfold applyForwarded
  repeat' (first
    | with_reducible assumption | exact Sub.of hw rfl | with_reducible apply placeData_kept
    | with_reducible apply runForwarded_kept | with_reducible apply leaveStep_kept
    | (simp only [keptTo]; with_reducible apply KeptTo.intro hw)
    | (show ∀ p : Part, _; intro p; cases p <;> dsimp only [Part.same] <;> first | exact .inl (by decide) | exact .inr (by with_reducible rfl) | exact .inr rfl)
    | with_reducible rfl | with_reducible exact MemTo.refl _ | with_reducible exact Otp.Grown.refl _
    | with_reducible apply Kept.ite | with_reducible apply Kept.ite_fst)

theorem mirrorCmd_kept {ρ : Bool} {χ : List Part} {σ s : State} {m : MirrorCmd} (hw : Sub [.lkt, .pst, .sys, .cmds, .sec, .flash, .boot, .ka, .pws, .tdm, .fab, .rdg, .crn, .mtx, .col, .dma, .net, .ptp, .stm, .red, .tw, .mem, .fresh] χ) (hk : Kept ρ χ σ s) :
    Kept ρ χ σ (mirrorCmd m s) := by
  unfold mirrorCmd
  repeat' (first
    | with_reducible assumption | exact Sub.of hw rfl | with_reducible apply tookFrame_kept
    | with_reducible apply applyForwarded_kept | (simp only [keptTo]; with_reducible apply KeptTo.intro hw)
    | (show ∀ p : Part, _; intro p; cases p <;> dsimp only [Part.same] <;> first | exact .inl (by decide) | exact .inr (by with_reducible rfl) | exact .inr rfl)
    | with_reducible rfl | with_reducible exact MemTo.refl _ | with_reducible exact Otp.Grown.refl _
    | with_reducible apply Kept.ite | split | dsimp only)

end Sys2Proof.Machine
end

