-- ==== Sys2Proof/Laws/Kept/Teardown.lean ====
section
/-! SUPPORT. What the operations of Machine/Teardown.lean keep. -/

namespace Sys2Proof.Machine

theorem startTeardown_kept {ρ : Bool} {χ : List Part} {σ s : State} {w : Word} (hw : Sub [.lkt, .cmds, .boot, .pws, .tdm, .net, .stm, .red, .tw] χ) (hk : Kept ρ χ σ s) :
    Kept ρ χ σ (startTeardown w s) := by
  unfold startTeardown
  repeat' (first
    | with_reducible assumption | exact Sub.of hw rfl | with_reducible apply fadeAllTx_kept
    | with_reducible apply pwsStopAll_kept | (simp only [keptTo]; with_reducible apply KeptTo.intro hw)
    | (show ∀ p : Part, _; intro p; cases p <;> dsimp only [Part.same] <;> first | exact .inl (by decide) | exact .inr (by with_reducible rfl) | exact .inr rfl)
    | with_reducible rfl | with_reducible exact MemTo.refl _ | with_reducible exact Otp.Grown.refl _)

theorem teardownEdge_kept {ρ : Bool} {χ : List Part} {σ s : State} {k : Word} (hw : Sub [.lkt, .cmds, .boot, .pws, .tdm, .net, .stm, .red, .tw] χ) (hk : Kept ρ χ σ s) :
    Kept ρ χ σ (teardownEdge k s) := by
  unfold teardownEdge
  repeat' (first | with_reducible assumption | with_reducible apply startTeardown_kept | with_reducible apply Kept.ite)

theorem kaRequest_kept {ρ : Bool} {χ : List Part} {σ s : State} {t : Teardown} (hw : Sub [.lkt, .cmds, .boot, .pws, .tdm, .net, .stm, .red, .tw] χ) (hk : Kept ρ χ σ s) :
    Kept ρ χ σ (kaRequest t s) := by
  unfold kaRequest
  repeat' (first
    | with_reducible assumption | with_reducible apply startTeardown_kept
    | (simp only [keptTo]; with_reducible apply KeptTo.intro hw)
    | (show ∀ p : Part, _; intro p; cases p <;> dsimp only [Part.same] <;> first | exact .inl (by decide) | exact .inr (by with_reducible rfl) | exact .inr rfl)
    | with_reducible rfl | with_reducible exact MemTo.refl _ | with_reducible exact Otp.Grown.refl _
    | with_reducible apply Kept.ite)

theorem kaCtrlWrite_kept_eq {ρ : Bool} {χ : List Part} {σ s tt : State} {w : Word} (hw : Sub [.lkt, .cmds, .boot, .pws, .tdm, .net, .stm, .red, .tw] χ) (hk : Kept ρ χ σ s) (he : kaCtrlWrite w s = some tt) :
    Kept ρ χ σ tt := by
  unfold kaCtrlWrite at he
  repeat' (split at he)
  · cases he
  · cases he; exact kaRequest_kept (hw.of rfl) hk
  · cases he; exact kaRequest_kept (hw.of rfl) hk
  · cases he; exact hk

end Sys2Proof.Machine
end

