-- ==== Sys2Proof/Laws/Kept/Edge.lean ====
section
/-! SUPPORT. What the operations of Machine/Edge.lean keep. -/

namespace Sys2Proof.Machine

theorem takeImage_kept {ρ : Bool} {χ : List Part} {σ : State} {half : Nat} {x : State × List BankPart × Word} {bs : List Byte}
    (hw : Sub [.crn, .mem] χ) (hk : Kept ρ χ σ x.1) : Kept ρ χ σ (takeImage half x bs).1 := by
  obtain ⟨s, ps, corner⟩ := x
  unfold takeImage
  exact Kept.foldl _ _ (fun _ _ h => writeInit_kept (hw.of rfl) h) (Kept.foldl _ _ (fun _ _ h => loadProgram_kept (hw.of rfl) h) hk)

theorem takeImages_kept {ρ : Bool} {χ : List Part} {σ s : State} {half : Nat} {base : List BankPart} {images : List (List Byte)} (hw : Sub [.crn, .mem] χ) (hk : Kept ρ χ σ s) :
    Kept ρ χ σ (takeImages half base images s).1 := by
  unfold takeImages
  repeat' (first
    | with_reducible assumption | with_reducible apply takeImage_kept
    | (with_reducible apply Kept.foldl_fst; intro _ _ _))

theorem adoptImages_kept {ρ : Bool} {χ : List Part} {σ s : State} {k : Word} {snap : Snapshot} (hw : Sub [.rdg, .crn, .mem] χ) (hk : Kept ρ χ σ s) :
    Kept ρ χ σ (adoptImages k snap s) := by
  unfold adoptImages
  repeat' (first
    | with_reducible assumption | exact Sub.of hw rfl | with_reducible apply takeImages_kept
    | with_reducible apply applyCommit_kept | (simp only [keptTo]; with_reducible apply KeptTo.intro hw)
    | (show ∀ p : Part, _; intro p; cases p <;> dsimp only [Part.same] <;> first | exact .inl (by decide) | exact .inr (by with_reducible rfl) | exact .inr rfl)
    | with_reducible rfl | with_reducible exact MemTo.refl _ | with_reducible exact Otp.Grown.refl _
    | with_reducible apply Kept.ite)

theorem adoptPending_kept {ρ : Bool} {χ : List Part} {σ s : State} {k : Word} {snap : Snapshot} (hw : Sub [.lkt, .pst, .cmds, .boot, .tdm, .rdg, .crn, .net, .ptp, .red, .tw, .mem] χ) (hk : Kept ρ χ σ s) :
    Kept ρ χ σ (adoptPending k snap s) := by
  unfold adoptPending
  repeat' (first
    | with_reducible assumption | exact Sub.of hw rfl | with_reducible apply takeImages_kept | with_reducible apply keepPrograms_kept
    | (simp only [keptTo]; refine KeptTo.view hw ?_ rfl) | split)

theorem adoptGains_kept {ρ : Bool} {χ : List Part} {σ s : State} {snap : Snapshot} (hw : Sub [.crn, .mtx] χ) (hk : Kept ρ χ σ s) :
    Kept ρ χ σ (adoptGains snap s) := by
  unfold adoptGains
  repeat' (first
    | with_reducible assumption | exact Sub.of hw rfl | with_reducible apply State.setEngine_kept
    | (simp only [keptTo]; refine KeptTo.view hw ?_ rfl) | (with_reducible apply Kept.foldl; intro _ _ _))

theorem adoptionEdge_kept {ρ : Bool} {χ : List Part} {σ s : State} {k : Word} (hw : Sub [.lkt, .pst, .sys, .cmds, .sec, .flash, .boot, .ka, .pws, .tdm, .fab, .rdg, .crn, .mtx, .col, .dma, .net, .ptp, .stm, .red, .tw, .mem, .fresh] χ) (hk : Kept ρ χ σ s) :
    Kept ρ χ σ (adoptionEdge k s) := by
  unfold adoptionEdge
  repeat' (first
    | with_reducible assumption | exact Sub.of hw rfl | with_reducible apply applyForwarded_kept
    | with_reducible apply adoptPending_kept | with_reducible apply adoptGains_kept
    | with_reducible apply adoptImages_kept | (simp only [keptTo]; refine KeptTo.view hw ?_ rfl)
    | with_reducible apply Kept.ite | (with_reducible apply Kept.foldl; intro _ _ _) | split)

theorem waveEdge_kept {ρ : Bool} {χ : List Part} {σ s : State} {k : Word} (hw : Sub [.wave, .rdg, .crn, .mtx, .col] χ) (hk : Kept ρ χ σ s) :
    Kept ρ χ σ (waveEdge k s) := by
  unfold waveEdge
  repeat' (first
    | with_reducible assumption | with_reducible apply launchWave_kept
    | (simp only [keptTo]; with_reducible apply KeptTo.intro hw)
    | (show ∀ p : Part, _; intro p; cases p <;> dsimp only [Part.same] <;> first | exact .inl (by decide) | exact .inr (by with_reducible rfl) | exact .inr rfl)
    | with_reducible rfl | with_reducible exact MemTo.refl _ | with_reducible exact Otp.Grown.refl _
    | with_reducible apply Kept.ite)

theorem ingress_kept {ρ : Bool} {χ : List Part} {σ s : State} {k : Word} (hw : Sub [.lkt, .cmds, .boot, .tdm, .dma, .net, .stm, .red, .tw, .mem, .fresh] χ) (hk : Kept ρ χ σ s) :
    Kept ρ χ σ (ingress k s) := by
  unfold ingress
  repeat' (first
    | with_reducible assumption | exact Sub.of hw rfl | with_reducible apply sharedEdge_kept
    | with_reducible apply rxIngress_kept | with_reducible apply tdmIngress_kept
    | with_reducible apply edgeEntries_kept)

theorem sampleEdge_kept {ρ : Bool} {χ : List Part} {σ s : State} (hw : Sub [.lkt, .pst, .sys, .cmds, .sec, .flash, .boot, .ka, .pws, .tdm, .fab, .wave, .rdg, .crn, .mtx, .col, .dma, .net, .ptp, .stm, .red, .tw, .mem, .fresh] χ) (hk : Kept ρ χ σ s) :
    Kept ρ χ σ (sampleEdge s) := by
  unfold sampleEdge
  repeat' (first
    | with_reducible assumption | exact Sub.of hw rfl | with_reducible apply applyWaiting_kept
    | with_reducible apply polestarEdge_kept | with_reducible apply waveEdge_kept
    | with_reducible apply adoptionEdge_kept | with_reducible apply inStepEdge_kept
    | with_reducible apply handoverEdge_kept | with_reducible apply txEdge_kept | with_reducible apply ingress_kept
    | with_reducible apply teardownEdge_kept | (simp only [keptTo]; with_reducible apply KeptTo.intro hw)
    | (show ∀ p : Part, _; intro p; cases p <;> dsimp only [Part.same] <;> first | exact .inl (by decide) | exact .inr (by with_reducible rfl) | exact .inr rfl)
    | with_reducible rfl | with_reducible exact MemTo.refl _ | with_reducible exact Otp.Grown.refl _
    | with_reducible apply Kept.ite)

theorem tokenReturn_kept {ρ : Bool} {χ : List Part} {σ s : State} {slack : Word} (hw : Sub [.lkt, .cmds, .boot, .tdm, .fab, .wave, .rdg, .crn, .mtx, .col, .net, .stm, .red, .tw] χ) (hk : Kept ρ χ σ s) :
    Kept ρ χ σ (tokenReturn slack s) := by
  unfold tokenReturn
  repeat' (first
    | with_reducible assumption | exact Sub.of hw rfl | with_reducible apply completionToken_kept
    | with_reducible apply txToken_kept | split | dsimp only)

theorem pwsGuard_kept {ρ : Bool} {χ : List Part} {σ s : State} {image : Nat → Word} (hw : Sub [.pws] χ) (hk : Kept ρ χ σ s) :
    Kept ρ χ σ (pwsGuard image s) := by
  unfold pwsGuard
  repeat' (first
    | with_reducible assumption | with_reducible apply guardPws_kept | (with_reducible apply Kept.foldl; intro _ _ _))

theorem missWave_kept {ρ : Bool} {χ : List Part} {σ s : State} {k : Word} (hw : Sub [.lkt, .cmds, .boot, .tdm, .fab, .wave, .net, .red, .tw] χ) (hk : Kept ρ χ σ s) :
    Kept ρ χ σ (missWave k s) := by
  unfold missWave
  repeat' (first
    | with_reducible assumption | exact Sub.of hw rfl | with_reducible apply reportOwn_kept
    | (simp only [keptTo]; with_reducible apply KeptTo.intro hw)
    | (show ∀ p : Part, _; intro p; cases p <;> dsimp only [Part.same] <;> first | exact .inl (by decide) | exact .inr (by with_reducible rfl) | exact .inr rfl)
    | with_reducible rfl | with_reducible exact MemTo.refl _ | with_reducible exact Otp.Grown.refl _
    | with_reducible apply Kept.ite)

theorem guardWave_kept {ρ : Bool} {χ : List Part} {σ s : State} {k : Word} {parity : List (Nat × Word)} (hw : Sub [.lkt, .cmds, .boot, .pws, .tdm, .fab, .wave, .net, .stm, .red, .tw] χ) (hk : Kept ρ χ σ s) :
    Kept ρ χ σ (guardWave k parity s) := by
  unfold guardWave
  repeat' (first
    | with_reducible assumption | exact Sub.of hw rfl | with_reducible apply missWave_kept
    | with_reducible apply tdmGuard_kept | with_reducible apply txGuard_kept | with_reducible apply pwsGuard_kept
    | (simp only [keptTo]; with_reducible apply KeptTo.intro hw)
    | (show ∀ p : Part, _; intro p; cases p <;> dsimp only [Part.same] <;> first | exact .inl (by decide) | exact .inr (by with_reducible rfl) | exact .inr rfl)
    | with_reducible rfl | with_reducible exact MemTo.refl _ | with_reducible exact Otp.Grown.refl _
    | with_reducible apply Kept.ite)

theorem outputGuard_kept {ρ : Bool} {χ : List Part} {σ s : State} {parity : List (Nat × Word)} (hw : Sub [.lkt, .cmds, .boot, .pws, .tdm, .fab, .wave, .net, .stm, .red, .tw] χ) (hk : Kept ρ χ σ s) :
    Kept ρ χ σ (outputGuard parity s) := by
  unfold outputGuard
  repeat' (first
    | with_reducible assumption | exact Sub.of hw rfl | with_reducible apply guardWave_kept
    | with_reducible apply txGuard_kept | with_reducible apply pwsGuard_kept | with_reducible apply tdmGuard_kept
    | (simp only [keptTo]; with_reducible apply KeptTo.intro hw)
    | (show ∀ p : Part, _; intro p; cases p <;> dsimp only [Part.same] <;> first | exact .inl (by decide) | exact .inr (by with_reducible rfl) | exact .inr rfl)
    | with_reducible rfl | with_reducible exact MemTo.refl _ | with_reducible exact Otp.Grown.refl _
    | with_reducible apply Kept.ite)

theorem missBurst_kept {ρ : Bool} {χ : List Part} {σ s : State} (hw : Sub [.lkt, .cmds, .boot, .tdm, .net, .red, .tw] χ) (hk : Kept ρ χ σ s) :
    Kept ρ χ σ (missBurst s) := by
  unfold missBurst
  repeat' (first | with_reducible assumption | with_reducible apply reportOwn_kept | with_reducible apply Kept.ite)

theorem fabricStall_kept {ρ : Bool} {χ : List Part} {σ s : State} (hw : Sub [.lkt, .cmds, .boot, .tdm, .net, .red, .tw] χ) (hk : Kept ρ χ σ s) :
    Kept ρ χ σ (fabricStall s) := by
  unfold fabricStall
  repeat' (first | with_reducible assumption | with_reducible apply reportOwn_kept | with_reducible apply Kept.ite)

theorem trapStall_kept {ρ : Bool} {χ : List Part} {σ s : State} (hw : Sub [.lkt, .cmds, .boot, .tdm, .net, .red, .tw] χ) (hk : Kept ρ χ σ s) :
    Kept ρ χ σ (trapStall s) := by
  unfold trapStall
  repeat' (first | with_reducible assumption | with_reducible apply reportOwn_kept | with_reducible apply Kept.ite)

theorem coreUnder_kept {ρ : Bool} {χ : List Part} {σ s : State} (hw : Sub [.lkt, .cmds, .boot, .tdm, .fab, .net, .red, .tw] χ) (hk : Kept ρ χ σ s) :
    Kept ρ χ σ (coreUnder s) := by
  unfold coreUnder
  repeat' (first
    | with_reducible assumption | exact Sub.of hw rfl | with_reducible apply reportOwn_kept
    | (simp only [keptTo]; refine KeptTo.view hw ?_ rfl))

end Sys2Proof.Machine
end

