-- ==== Sys2Proof/Laws/Kept/IndirectSpace.lean ====
section
/-! SUPPORT. What the operations of Machine/IndirectSpace.lean keep. -/

namespace Sys2Proof.Machine

theorem eyeWord_kept {ρ : Bool} {χ : List Part} {σ s : State} {block : Nat} (hw : Sub [.fresh] χ) (hk : Kept ρ χ σ s) :
    Kept ρ χ σ (eyeWord s block).2 := by
  unfold eyeWord
  repeat' (first | with_reducible assumption | with_reducible apply draw_kept | split)

theorem eyeWord_kept_eq {ρ : Bool} {χ : List Part} {σ s : State} {block : Nat} {tt : State} {aa : Word} (hw : Sub [.fresh] χ) (hk : Kept ρ χ σ s) (he : (eyeWord s block) = (aa, tt)) :
    Kept ρ χ σ tt := by
  have := eyeWord_kept (block:=block) hw hk; rw [he] at this; exact this

theorem storeWord_kept {ρ : Bool} {χ : List Part} {σ s : State} {a : Nat} {w : Word} (hw : Sub [.sys] χ) (hk : Kept ρ χ σ s) :
    Kept ρ χ σ (storeWord a w s) := .view hw hk rfl

theorem indRead_kept_eq {ρ : Bool} {χ : List Part} {σ s tt : State} {a : Nat} {aa : Word} (hw : Sub [.fresh] χ) (hk : Kept ρ χ σ s) (he : indRead a s = some (aa, tt)) :
    Kept ρ χ σ tt := by
  unfold indRead at he
  repeat' (split at he)
  all_goals first
    | (cases he; exact hk)
    | (injection he with he; exact eyeWord_kept_eq (hw.of rfl) hk he)
    | (cases he; done)

theorem indWrite_kept_eq {ρ : Bool} {χ : List Part} {σ s tt : State} {a : Nat} {w : Word} (hw : Sub [.lkt, .sys, .cmds, .boot, .ka, .pws, .tdm, .net, .stm, .red, .tw] χ) (hk : Kept ρ χ σ s) (he : indWrite a w s = some tt) :
    Kept ρ χ σ tt := by
  unfold indWrite at he
  repeat' (split at he)
  all_goals first
    | exact kaCtrlWrite_kept_eq (hw.of rfl) hk he
    | (cases he; done)
    | (cases he; exact configDirty_kept (hw.of rfl) (storeWord_kept (hw.of rfl) hk))
    | (cases he; exact hk.same hw (fun p => by cases p <;> dsimp only [Part.same] <;> first | exact .inl (by decide) | exact .inr (by with_reducible rfl) | exact .inr rfl) rfl (MemTo.refl _) rfl rfl rfl rfl rfl (Otp.Grown.refl _))

theorem indRefused_kept {ρ : Bool} {χ : List Part} {σ s : State} (hw : Sub [.sys] χ) (hk : Kept ρ χ σ s) :
    Kept ρ χ σ (indRefused s) := .view hw hk rfl

end Sys2Proof.Machine
end

