-- ==== Sys2Proof/Laws/Kept/RegisterReads.lean ====
section
/-! SUPPORT. What the operations of Machine/RegisterReads.lean keep. -/

namespace Sys2Proof.Machine

theorem onShadow_kept {ρ : Bool} {χ : List Part} {σ s : State} {q : Requester} {f : Shadow → Shadow} (hw : Sub [.sys] χ) (hk : Kept ρ χ σ s) :
    Kept ρ χ σ (onShadow q f s) := by
  unfold onShadow
  repeat' (first | with_reducible assumption | with_reducible apply State.setShadow_kept)

theorem markRead_kept {ρ : Bool} {χ : List Part} {σ s : State} {p : Nat} (hw : Sub [.cmds] χ) (hk : Kept ρ χ σ s) :
    Kept ρ χ σ (markRead p s) := by
  unfold markRead
  repeat' (first
    | with_reducible assumption | with_reducible apply State.setPart_kept | with_reducible rfl
    | with_reducible apply Kept.ite)

theorem indDataRead_kept {ρ : Bool} {χ : List Part} {σ s : State} {q : Requester} (hw : Sub [.sys, .fresh] χ) (hk : Kept ρ χ σ s) :
    Kept ρ χ σ (indDataRead q s).1 := by
  unfold indDataRead
  repeat' (first
    | with_reducible assumption | exact Sub.of hw rfl | (refine indRead_kept_eq ?_ ?_ (by assumption))
    | with_reducible apply onShadow_kept | with_reducible apply indRefused_kept | with_reducible apply Kept.ite_fst
    | split | dsimp only)

theorem latchRead_kept {ρ : Bool} {χ : List Part} {σ s : State} {q : Requester} {a : Nat} (hw : Sub [.sys, .cmds] χ) (hk : Kept ρ χ σ s) :
    Kept ρ χ σ (latchRead q a s) := by
  unfold latchRead
  repeat' (first
    | with_reducible assumption | exact Sub.of hw rfl | with_reducible apply onShadow_kept
    | with_reducible apply markRead_kept | with_reducible apply Kept.ite)

theorem readReg_kept {ρ : Bool} {χ : List Part} {σ s : State} {q : Requester} {a : Nat} (hw : Sub [.sys, .cmds, .fresh] χ) (hk : Kept ρ χ σ s) :
    Kept ρ χ σ (readReg q a s).1 := by
  unfold readReg
  repeat' (first
    | with_reducible assumption | exact Sub.of hw rfl | with_reducible apply indDataRead_kept
    | with_reducible apply latchRead_kept | with_reducible apply Kept.ite_fst)

theorem readReg_kept_eq {ρ : Bool} {χ : List Part} {σ s : State} {q : Requester} {a : Nat} {tt : State} {aa : Word} (hw : Sub [.sys, .cmds, .fresh] χ) (hk : Kept ρ χ σ s) (he : (readReg q a s) = (tt, aa)) :
    Kept ρ χ σ tt := by
  have := readReg_kept (q:=q) (a:=a) hw hk; rw [he] at this; exact this

theorem busRead_kept {ρ : Bool} {χ : List Part} {σ s : State} {q : Requester} {a : Nat} (hw : Sub [.sys, .cmds, .fresh] χ) (hk : Kept ρ χ σ s) :
    Kept ρ χ σ (busRead q a s) := by
  unfold busRead
  repeat' (first
    | with_reducible assumption | exact Sub.of hw rfl | with_reducible apply onShadow_kept
    | with_reducible apply readReg_kept | with_reducible apply Kept.ite)

end Sys2Proof.Machine
end

