-- ==== Sys2Proof/Laws/Kept/RegisterWrites.lean ====
section
/-! SUPPORT. What the operations of Machine/RegisterWrites.lean keep. -/

namespace Sys2Proof.Machine

theorem ignoreWrite_kept {ρ : Bool} {χ : List Part} {σ s : State} {q : Requester} {a reason : Nat} (hw : Sub [.sys] χ) (hk : Kept ρ χ σ s) :
    Kept ρ χ σ (ignoreWrite q a reason s) := .view hw hk rfl

theorem crcEnableWrite_kept {ρ : Bool} {χ : List Part} {σ s : State} {on : Bool} (hw : Sub [.sys] χ) (hk : Kept ρ χ σ s) :
    Kept ρ χ σ (crcEnableWrite on s) := by
  unfold crcEnableWrite
  repeat' (first
    | with_reducible assumption | (simp only [keptTo]; with_reducible apply KeptTo.intro hw)
    | (show ∀ p : Part, _; intro p; cases p <;> dsimp only [Part.same] <;> first | exact .inl (by decide) | exact .inr (by with_reducible rfl) | exact .inr rfl)
    | with_reducible rfl | with_reducible exact MemTo.refl _ | with_reducible exact Otp.Grown.refl _
    | with_reducible apply Kept.ite)

theorem crcCtrlWrite_kept {ρ : Bool} {χ : List Part} {σ s : State} {w : Word} (hw : Sub [.sys] χ) (hk : Kept ρ χ σ s) :
    Kept ρ χ σ (crcCtrlWrite w s) := by
  unfold crcCtrlWrite
  repeat' (first
    | with_reducible assumption | with_reducible apply crcEnableWrite_kept | with_reducible apply crcCommit_kept
    | with_reducible apply Kept.ite)

theorem sysLockWrite_kept {ρ : Bool} {χ : List Part} {σ s : State} {w : Word} (hw : Sub [.sys] χ) (hk : Kept ρ χ σ s) : Kept ρ χ σ (sysLockWrite w s) := by
  refine hk.trans ⟨rfl, fun i => ⟨i.tarn, i.dram, i.parts, i.sessions, i.refs, i.ports, i.ctl, ?_⟩, Otp.Grown.refl _, fun _ => ⟨?_, id⟩, fun p => by cases p <;> first | exact .inl (hw _ (by decide)) | exact .inr rfl⟩
  · show (s.sys.lock ||| (w &&& 0x1FF#32)) &&& 0xFFFF_FE00#32 = 0#32
    have h : (0x1FF#32 : Word) &&& 0xFFFF_FE00#32 = 0#32 := by decide
    rw [BitVec.and_or_distrib_right, i.locks, BitVec.and_assoc, h]
    simp
  · show s.sys.lock ||| (s.sys.lock ||| (w &&& 0x1FF#32)) = s.sys.lock ||| (w &&& 0x1FF#32)
    rw [← BitVec.or_assoc, BitVec.or_self]

theorem sysWrite_kept {ρ : Bool} {χ : List Part} {σ s : State} {q : Requester} {a : Nat} {w : Word} (hw : Sub [.sys] χ) (hk : Kept ρ χ σ s) :
    Kept ρ χ σ (sysWrite q a w s) := by
  unfold sysWrite
  repeat' (first
    | with_reducible assumption | with_reducible apply sysLockWrite_kept | with_reducible apply crcCtrlWrite_kept
    | with_reducible apply onShadow_kept | (simp only [keptTo]; refine KeptTo.view hw ?_ rfl) | split)

theorem indDataWrite_kept {ρ : Bool} {χ : List Part} {σ s : State} {q : Requester} {w : Word} (hw : Sub [.lkt, .sys, .cmds, .boot, .ka, .pws, .tdm, .net, .stm, .red, .tw] χ) (hk : Kept ρ χ σ s) :
    Kept ρ χ σ (indDataWrite q w s) := by
  unfold indDataWrite
  repeat' (first
    | with_reducible assumption | exact Sub.of hw rfl | (refine indWrite_kept_eq ?_ ?_ (by assumption))
    | with_reducible apply onShadow_kept | with_reducible apply indRefused_kept | with_reducible apply ignoreWrite_kept
    | with_reducible apply Kept.ite | split | dsimp only)

theorem emptyMbox_kept {ρ : Bool} {χ : List Part} {σ s : State} {p : Nat} (hw : Sub [.cmds] χ) (hk : Kept ρ χ σ s) :
    Kept ρ χ σ (emptyMbox p s) := by
  unfold emptyMbox
  repeat' (first | with_reducible assumption | with_reducible apply State.setPart_kept | with_reducible rfl)

theorem packetWrite_kept {ρ : Bool} {χ : List Part} {σ s : State} {p o : Nat} {w : Word} (hw : Sub [.cmds] χ) (hk : Kept ρ χ σ s) :
    Kept ρ χ σ (packetWrite p o w s) := by
  unfold packetWrite
  repeat' (first
    | with_reducible assumption | with_reducible apply emptyMbox_kept | with_reducible apply State.setPart_kept
    | with_reducible rfl | with_reducible apply Kept.ite | split)

theorem ackReply_kept {ρ : Bool} {χ : List Part} {σ s : State} {p : Nat} (hw : Sub [.cmds] χ) (hk : Kept ρ χ σ s) :
    Kept ρ χ σ (ackReply p s) := by
  unfold ackReply
  repeat' (first | with_reducible assumption | with_reducible apply emptyMbox_kept | with_reducible apply Kept.ite)

theorem ackRing_kept {ρ : Bool} {χ : List Part} {σ s : State} {p : Nat} (hw : Sub [.cmds] χ) (hk : Kept ρ χ σ s) :
    Kept ρ χ σ (ackRing p s) := by
  unfold ackRing
  repeat' (first | with_reducible assumption | with_reducible apply State.setPart_kept | with_reducible rfl)

theorem ackAlarm_kept {ρ : Bool} {χ : List Part} {σ s : State} {p : Nat} (hw : Sub [.cmds] χ) (hk : Kept ρ χ σ s) :
    Kept ρ χ σ (ackAlarm p s) := by
  unfold ackAlarm
  repeat' (first | with_reducible assumption | with_reducible apply State.setPart_kept | with_reducible rfl)

theorem ackWrite_kept {ρ : Bool} {χ : List Part} {σ s : State} {p : Nat} {w : Word} (hw : Sub [.cmds] χ) (hk : Kept ρ χ σ s) :
    Kept ρ χ σ (ackWrite p w s) := by
  unfold ackWrite
  repeat' (first
    | with_reducible assumption | with_reducible apply ackReply_kept | with_reducible apply ackRing_kept
    | with_reducible apply ackAlarm_kept | with_reducible apply Kept.ite)

theorem mboxWrite_kept {ρ : Bool} {χ : List Part} {σ s : State} {p o : Nat} {w : Word} (hw : Sub [.lkt, .cmds, .sec, .boot, .tdm, .net, .red, .tw] χ) (hk : Kept ρ χ σ s) :
    Kept ρ χ σ (mboxWrite p o w s) := by
  unfold mboxWrite
  repeat' (first
    | with_reducible assumption | exact Sub.of hw rfl | with_reducible apply packetWrite_kept
    | with_reducible apply doorbell_kept | with_reducible apply ackWrite_kept | with_reducible apply State.setPart_kept
    | with_reducible rfl | with_reducible apply Kept.ite | split)

theorem lktWrite_kept {ρ : Bool} {χ : List Part} {σ s : State} {a : Nat} {w : Word} (hw : Sub [.lkt, .tdm] χ) (hk : Kept ρ χ σ s) :
    Kept ρ χ σ (lktWrite a w s) := by
  unfold lktWrite
  repeat' (first
    | with_reducible assumption | exact Sub.of hw rfl | with_reducible apply supKick_kept
    | with_reducible apply claimRecord_kept | with_reducible apply supClear_kept | split)

theorem dmaWrite_kept {ρ : Bool} {χ : List Part} {σ s : State} {a : Nat} {w : Word} (hw : Sub [.lkt, .cmds, .boot, .tdm, .mtx, .col, .dma, .net, .red, .tw, .mem] χ) (hk : Kept ρ χ σ s) :
    Kept ρ χ σ (dmaWrite a w s) := by
  unfold dmaWrite
  repeat' (first
    | with_reducible assumption | exact Sub.of hw rfl | with_reducible apply State.setDmaCh_kept
    | with_reducible apply dmaChWrite_kept | split)

theorem clockWrite_kept {ρ : Bool} {χ : List Part} {σ s : State} {a : Nat} {w : Word} (hw : Sub [.pst, .fab] χ) (hk : Kept ρ χ σ s) :
    Kept ρ χ σ (clockWrite a w s) := by
  unfold clockWrite
  repeat' (first
    | with_reducible assumption | (simp only [keptTo]; refine KeptTo.view hw ?_ rfl) | with_reducible apply Kept.ite
    | split)

theorem ridgeWrite_kept {ρ : Bool} {χ : List Part} {σ s : State} {a : Nat} {w : Word} (hw : Sub [.rdg, .col, .dma] χ) (hk : Kept ρ χ σ s) :
    Kept ρ χ σ (ridgeWrite a w s) := by
  unfold ridgeWrite
  repeat' (first | with_reducible assumption | (simp only [keptTo]; refine KeptTo.view hw ?_ rfl) | split)

theorem engineWrite_kept {ρ : Bool} {χ : List Part} {σ s : State} {a : Nat} {w : Word} (hw : Sub [.crn, .mtx] χ) (hk : Kept ρ χ σ s) :
    Kept ρ χ σ (engineWrite a w s) := by
  unfold engineWrite
  repeat' (first
    | with_reducible assumption | exact Sub.of hw rfl | with_reducible apply State.setEngine_kept
    | (simp only [keptTo]; refine KeptTo.view hw ?_ rfl) | with_reducible apply Kept.ite | split)

theorem netPortWrite_kept {ρ : Bool} {χ : List Part} {σ s : State} {q : Requester} {a : Nat} {w : Word} (hw : Sub [.sys, .net] χ) (hk : Kept ρ χ σ s) :
    Kept ρ χ σ (netPortWrite q a w s) := by
  unfold netPortWrite
  repeat' (first
    | with_reducible assumption | exact Sub.of hw rfl | with_reducible apply onShadow_kept
    | with_reducible apply State.setNetPort_kept | split)

theorem ringBlockWrite_kept {ρ : Bool} {χ : List Part} {σ s : State} {tx : Bool} {r o : Nat} {w : Word} (hw : Sub [.lkt, .cmds, .boot, .tdm, .mtx, .col, .net, .red, .tw, .mem] χ) (hk : Kept ρ χ σ s) :
    Kept ρ χ σ (ringBlockWrite tx r o w s) := by
  unfold ringBlockWrite
  repeat' (first
    | with_reducible assumption | exact Sub.of hw rfl | with_reducible apply State.setTxRing_kept
    | with_reducible apply State.setRxRing_kept | with_reducible apply ringDoorbell_kept
    | with_reducible apply ringWrite_kept | with_reducible apply Kept.ite | split)

theorem netWrite_kept {ρ : Bool} {χ : List Part} {σ s : State} {q : Requester} {a : Nat} {w : Word} (hw : Sub [.lkt, .sys, .cmds, .boot, .tdm, .mtx, .col, .net, .red, .tw, .mem] χ) (hk : Kept ρ χ σ s) :
    Kept ρ χ σ (netWrite q a w s) := by
  unfold netWrite
  repeat' (first
    | with_reducible assumption | exact Sub.of hw rfl | with_reducible apply ringBlockWrite_kept
    | with_reducible apply netPortWrite_kept | (simp only [keptTo]; with_reducible apply KeptTo.intro hw)
    | (show ∀ p : Part, _; intro p; cases p <;> dsimp only [Part.same] <;> first | exact .inl (by decide) | exact .inr (by with_reducible rfl) | exact .inr rfl)
    | with_reducible rfl | with_reducible exact MemTo.refl _ | with_reducible exact Otp.Grown.refl _
    | with_reducible apply Kept.ite)

theorem ptpWrite_kept {ρ : Bool} {χ : List Part} {σ s : State} {a : Nat} {w : Word} (hw : Sub [.net, .ptp] χ) (hk : Kept ρ χ σ s) :
    Kept ρ χ σ (ptpWrite a w s) := by
  unfold ptpWrite
  repeat' (first
    | with_reducible assumption | exact Sub.of hw rfl | with_reducible apply State.setInst_kept
    | with_reducible apply State.setNetPort_kept | with_reducible apply State.setAlarm_kept
    | with_reducible apply Kept.ite | split)

theorem twCtrlWrite_kept {ρ : Bool} {χ : List Part} {σ s : State} {n : Nat} {w : Word} (hw : Sub [.sys, .tw] χ) (hk : Kept ρ χ σ s) :
    Kept ρ χ σ (twCtrlWrite n w s) := by
  unfold twCtrlWrite
  repeat' (first
    | with_reducible assumption | exact Sub.of hw rfl | with_reducible apply twAbort_kept
    | with_reducible apply twGo_kept | with_reducible apply Kept.ite)

theorem twWrite_kept {ρ : Bool} {χ : List Part} {σ s : State} {a : Nat} {w : Word} (hw : Sub [.sys, .tw] χ) (hk : Kept ρ χ σ s) :
    Kept ρ χ σ (twWrite a w s) := by
  unfold twWrite
  repeat' (first
    | with_reducible assumption | exact Sub.of hw rfl | with_reducible apply twCtrlWrite_kept
    | with_reducible apply twCtlWrite_kept | with_reducible apply twtAlert_kept | with_reducible apply twtRegWrite_kept
    | with_reducible apply Kept.ite)

theorem pwsWrite_kept {ρ : Bool} {χ : List Part} {σ s : State} {a : Nat} {w : Word} (hw : Sub [.pws] χ) (hk : Kept ρ χ σ s) :
    Kept ρ χ σ (pwsWrite a w s) := by
  unfold pwsWrite
  repeat' (first
    | with_reducible assumption | with_reducible apply State.setPwsCh_kept | with_reducible apply Kept.ite | split)

theorem stmWrite_kept {ρ : Bool} {χ : List Part} {σ s : State} {a : Nat} {w : Word} (hw : Sub [.stm] χ) (hk : Kept ρ χ σ s) :
    Kept ρ χ σ (stmWrite a w s) := by
  unfold stmWrite
  repeat' (first
    | with_reducible assumption | with_reducible apply stmSelWrite_kept | with_reducible apply State.setTap_kept
    | with_reducible apply Kept.ite)

theorem redWrite_kept {ρ : Bool} {χ : List Part} {σ s : State} {a : Nat} {w : Word} (hw : Sub [.red] χ) (hk : Kept ρ χ σ s) :
    Kept ρ χ σ (redWrite a w s) := by
  unfold redWrite
  repeat' (first | with_reducible assumption | (simp only [keptTo]; refine KeptTo.view hw ?_ rfl) | split)

theorem tdmWrite_kept {ρ : Bool} {χ : List Part} {σ s : State} {a : Nat} {w : Word} (hw : Sub [.tdm] χ) (hk : Kept ρ χ σ s) :
    Kept ρ χ σ (tdmWrite a w s) := by
  unfold tdmWrite
  repeat' (first
    | with_reducible assumption | with_reducible apply State.setPort_kept | with_reducible apply State.setGroup_kept
    | with_reducible apply Kept.ite | split)

theorem regStore_kept {ρ : Bool} {χ : List Part} {σ s : State} {q : Requester} {a : Nat} {w : Word} (hw : Sub [.lkt, .pst, .sys, .cmds, .sec, .boot, .ka, .pws, .tdm, .fab, .rdg, .crn, .mtx, .col, .dma, .net, .ptp, .stm, .red, .tw, .mem] χ) (hk : Kept ρ χ σ s) :
    Kept ρ χ σ (regStore q a w s) := by
  unfold regStore
  repeat' (first
    | with_reducible assumption | exact Sub.of hw rfl | with_reducible apply indDataWrite_kept
    | with_reducible apply sysWrite_kept | with_reducible apply lktWrite_kept | with_reducible apply dmaWrite_kept
    | with_reducible apply mboxWrite_kept | with_reducible apply clockWrite_kept | with_reducible apply ridgeWrite_kept
    | with_reducible apply engineWrite_kept | with_reducible apply netWrite_kept | with_reducible apply ptpWrite_kept
    | with_reducible apply twWrite_kept | with_reducible apply pwsWrite_kept | with_reducible apply stmWrite_kept
    | with_reducible apply redWrite_kept | with_reducible apply noteEval_kept | with_reducible apply secSetBits_kept
    | with_reducible apply tdmWrite_kept | with_reducible apply Kept.ite)

theorem writeReg_kept {ρ : Bool} {χ : List Part} {σ s : State} {q : Requester} {a : Nat} {w : Word} {whole : Bool} (hw : Sub [.lkt, .pst, .sys, .cmds, .sec, .boot, .ka, .pws, .tdm, .fab, .rdg, .crn, .mtx, .col, .dma, .net, .ptp, .stm, .red, .tw, .mem] χ) (hk : Kept ρ χ σ s) :
    Kept ρ χ σ (writeReg q a w whole s) := by
  unfold writeReg
  repeat' (first
    | with_reducible assumption | exact Sub.of hw rfl | with_reducible apply ignoreWrite_kept
    | with_reducible apply configDirty_kept | with_reducible apply regStore_kept | with_reducible apply Kept.ite)

theorem busWrite_kept {ρ : Bool} {χ : List Part} {σ s : State} {q : Requester} {a : Nat} {w : Word} {whole : Bool} (hw : Sub [.lkt, .pst, .sys, .cmds, .sec, .boot, .ka, .pws, .tdm, .fab, .rdg, .crn, .mtx, .col, .dma, .net, .ptp, .stm, .red, .tw, .mem] χ) (hk : Kept ρ χ σ s) :
    Kept ρ χ σ (busWrite q a w whole s) := by
  unfold busWrite
  repeat' (first | with_reducible assumption | with_reducible apply writeReg_kept | with_reducible apply Kept.ite)

theorem spiReads_kept {ρ : Bool} {χ : List Part} {σ s : State} {q : Requester} {n a : Nat} (hw : Sub [.sys, .cmds, .fresh] χ) (hk : Kept ρ χ σ s) : Kept ρ χ σ (spiReads q n a s).1 := by
  induction n generalizing a s with
  | zero => exact hk
  | succ n ih =>
    unfold spiReads
    by_cases h : present s q = true
    · simp only [h, if_true]; exact ih (readReg_kept (hw.of rfl) hk)
    · simp only [h, if_false]; exact ih hk

theorem spiReads_kept_eq {ρ : Bool} {χ : List Part} {σ s tt : State} {q : Requester} {n a : Nat} {aa : List Word} (hw : Sub [.sys, .cmds, .fresh] χ) (hk : Kept ρ χ σ s)
    (he : spiReads q n a s = (tt, aa)) : Kept ρ χ σ tt := by
  have := spiReads_kept (q := q) (n := n) (a := a) hw hk; rw [he] at this; exact this

theorem spiWrites_kept {ρ : Bool} {χ : List Part} {σ s : State} {q : Requester} {n a : Nat} {bs : List Byte} (hw : Sub [.lkt, .pst, .sys, .cmds, .sec, .boot, .ka, .pws, .tdm, .fab, .rdg, .crn, .mtx, .col, .dma, .net, .ptp, .stm, .red, .tw, .mem] χ) (hk : Kept ρ χ σ s) :
    Kept ρ χ σ (spiWrites q n a bs s) := by
  induction n generalizing a bs s with
  | zero => exact hk
  | succ n ih => exact ih (busWrite_kept (hw.of rfl) hk)

theorem spiFrame_kept {ρ : Bool} {χ : List Part} {σ s : State} {bs : List Byte} (hw : Sub [.lkt, .pst, .sys, .cmds, .sec, .boot, .ka, .pws, .tdm, .fab, .rdg, .crn, .mtx, .col, .dma, .net, .ptp, .stm, .red, .tw, .mem, .fresh] χ) (hk : Kept ρ χ σ s) :
    Kept ρ χ σ (spiFrame bs s) := by
  unfold spiFrame
  repeat' (first
    | with_reducible assumption | exact Sub.of hw rfl | with_reducible apply spiReads_kept
    | with_reducible apply onShadow_kept | with_reducible apply spiWrites_kept | with_reducible apply Kept.ite)

theorem crcClean_kept {ρ : Bool} {χ : List Part} {σ s : State} {r : Word} (hw : Sub [.lkt, .sys, .cmds, .boot, .tdm, .net, .red, .tw] χ) (hk : Kept ρ χ σ s) :
    Kept ρ χ σ (crcClean r s) := by
  unfold crcClean
  repeat' (first
    | with_reducible assumption | exact Sub.of hw rfl | with_reducible apply reportOwn_kept
    | (simp only [keptTo]; with_reducible apply KeptTo.intro hw)
    | (show ∀ p : Part, _; intro p; cases p <;> dsimp only [Part.same] <;> first | exact .inl (by decide) | exact .inr (by with_reducible rfl) | exact .inr rfl)
    | with_reducible rfl | with_reducible exact MemTo.refl _ | with_reducible exact Otp.Grown.refl _
    | with_reducible apply Kept.ite)

theorem crcPass_kept {ρ : Bool} {χ : List Part} {σ s : State} {r : Word} (hw : Sub [.lkt, .sys, .cmds, .boot, .tdm, .net, .red, .tw] χ) (hk : Kept ρ χ σ s) :
    Kept ρ χ σ (crcPass r s) := by
  unfold crcPass
  repeat' (first
    | with_reducible assumption | with_reducible apply crcClean_kept
    | (simp only [keptTo]; with_reducible apply KeptTo.intro hw)
    | (show ∀ p : Part, _; intro p; cases p <;> dsimp only [Part.same] <;> first | exact .inl (by decide) | exact .inr (by with_reducible rfl) | exact .inr rfl)
    | with_reducible rfl | with_reducible exact MemTo.refl _ | with_reducible exact Otp.Grown.refl _
    | with_reducible apply Kept.ite)

theorem bar2Read_kept {ρ : Bool} {χ : List Part} {σ s : State} {p : Fin 4} {a n : Nat} (hw : Sub [.lkt, .sys, .cmds, .boot, .tdm, .col, .net, .red, .tw, .fresh] χ) (hk : Kept ρ χ σ s) :
    Kept ρ χ σ (bar2Read p a n s).1 := by
  unfold bar2Read
  split
  · generalize hx : readReg (.pf p) ((a - 0x4000_0000) / 4 * 4) s = x
    obtain ⟨t, w⟩ := x
    exact readReg_kept_eq (hw.of rfl) hk hx
  · split
    rename_i e
    split at e
    · cases e; exact colError_kept (hw.of rfl) hk
    · exact colRead_kept_eq (hw.of rfl) hk e

theorem bar2Write_kept {ρ : Bool} {χ : List Part} {σ s : State} {p : Fin 4} {a : Nat} {bs : List Byte} (hw : Sub [.lkt, .pst, .sys, .cmds, .sec, .boot, .ka, .pws, .tdm, .fab, .rdg, .crn, .mtx, .col, .dma, .net, .ptp, .stm, .red, .tw, .mem] χ) (hk : Kept ρ χ σ s) :
    Kept ρ χ σ (bar2Write p a bs s) := by
  unfold bar2Write
  repeat' (first
    | with_reducible assumption | exact Sub.of hw rfl | with_reducible apply writeReg_kept
    | with_reducible apply colError_kept | with_reducible apply colWrite_kept | with_reducible apply Kept.ite)

theorem bar2Access_kept {ρ : Bool} {χ : List Part} {σ s : State} {p : Fin 4} {a n : Nat} {data : Option (List Byte)} (hw : Sub [.lkt, .pst, .sys, .cmds, .sec, .boot, .ka, .pws, .tdm, .fab, .rdg, .crn, .mtx, .col, .dma, .net, .ptp, .stm, .red, .tw, .mem, .fresh] χ) (hk : Kept ρ χ σ s) :
    Kept ρ χ σ (bar2Access p a n data s) := by
  unfold bar2Access
  repeat' (first
    | with_reducible assumption | exact Sub.of hw rfl | with_reducible apply bar2Write_kept
    | with_reducible apply bar2Read_kept | with_reducible apply onShadow_kept | with_reducible apply Kept.ite | split)

end Sys2Proof.Machine
end

