-- ==== Sys2Proof/Laws/Kept/MatrixRows.lean ====
section
/-! SUPPORT. What the operations of Machine/MatrixRows.lean keep. -/

namespace Sys2Proof.Machine

theorem bulkCheckDone_kept {ρ : Bool} {χ : List Part} {σ s : State} {p : Nat} (hw : Sub [.cmds, .boot, .mtx] χ) (hk : Kept ρ χ σ s) :
    Kept ρ χ σ (bulkCheckDone p s) := by
  unfold bulkCheckDone
  repeat' (first
    | with_reducible assumption | exact Sub.of hw rfl | (refine bulkCheck_kept_eq ?_ ?_ (by assumption))
    | with_reducible apply giveResult_kept | split)

end Sys2Proof.Machine
end

