-- ==== Sys2Proof/Laws/Kept/Reset.lean ====
section
/-! SUPPORT. What the operations of Machine/Reset.lean keep. -/

namespace Sys2Proof.Machine

theorem abandonJob_kept {ρ : Bool} {χ : List Part} {σ s : State} {j : Job} (hw : Sub [.flash] χ) (hk : Kept ρ χ σ s) :
    Kept ρ χ σ (abandonJob s j) := by
  unfold abandonJob
  repeat' (first
    | with_reducible assumption | with_reducible apply flashErase_kept | with_reducible apply profileEraseEnd_kept
    | split)

theorem newSessions_kept {ρ : Bool} {χ : List Part} {σ s : State} (hw : Sub [.cmds, .fresh] χ) (hk : Kept ρ χ σ s) : Kept ρ χ σ (newSessions s) := by
  refine hk.trans ⟨rfl, fun i => ⟨i.tarn, i.dram, ?_, fun c hc => ?_, i.refs, i.ports, i.ctl, i.locks⟩, Otp.Grown.refl _,
    fun _ => ⟨BitVec.or_self, id⟩, fun p => by cases p <;> first | exact .inl (hw _ (by decide)) | exact .inr rfl⟩
  · simp [newSessions, drawN, i.parts]
  · obtain ⟨x, _, rfl⟩ := List.mem_map.1 hc
    exact pickSession_ne_zero _ _

/-- A reset leaves what the pins, the fuses, the flash and the keep-alive domain hold (R512, R523). -/
theorem resetDomains_kept {χ : List Part} {σ s : State} (hw : Sub [.lkt, .pst, .sys, .cmds, .own, .sec, .flash, .boot, .ka, .pins, .pws, .tdm, .fab, .wave, .rdg, .crn, .mtx, .col, .dma, .net, .ptp, .stm, .red, .tw, .mem, .fresh] χ) (hk : Kept true χ σ s) : Kept true χ σ (resetDomains s) := by
  have h := newSessions_kept (hw.of rfl) (Kept.foldl abandonJob (runningJobs s) (fun _ _ h => abandonJob_kept (hw.of rfl) h) hk)
  refine h.trans ⟨rfl, fun i => ⟨rfl, rfl, i.parts, i.sessions, rfl, rfl, rfl, BitVec.zero_and⟩, Otp.Grown.refl _, fun e => (by cases e), fun p => by cases p <;> first | exact .inl (hw _ (by decide)) | exact .inr rfl⟩

theorem dropShadow_kept {ρ : Bool} {χ : List Part} {σ s : State} (hw : Sub [.boot] χ) (hk : Kept ρ χ σ s) :
    Kept ρ χ σ (dropShadow s) := .view hw hk rfl

theorem beginBoot_kept {ρ : Bool} {χ : List Part} {σ s : State} {kind : Nat} {sel : BitVec 3} (hw : Sub [.ka, .pins] χ) (hk : Kept ρ χ σ s) :
    Kept ρ χ σ (beginBoot kind sel s) := .view hw hk rfl

theorem porstAssert_kept {χ : List Part} {σ s : State} (hw : Sub [.lkt, .pst, .sys, .cmds, .own, .sec, .flash, .boot, .ka, .pins, .pws, .tdm, .fab, .wave, .rdg, .crn, .mtx, .col, .dma, .net, .ptp, .stm, .red, .tw, .mem, .fresh] χ) (hk : Kept true χ σ s) :
    Kept true χ σ (porstAssert s) := by
  unfold porstAssert
  repeat' (first
    | with_reducible assumption | exact Sub.of hw rfl | with_reducible apply dropShadow_kept
    | with_reducible apply resetDomains_kept | (simp only [keptTo]; with_reducible apply KeptTo.intro hw)
    | (show ∀ p : Part, _; intro p; cases p <;> dsimp only [Part.same] <;> first | exact .inl (by decide) | exact .inr (by with_reducible rfl) | exact .inr rfl)
    | with_reducible rfl | with_reducible exact MemTo.refl _ | with_reducible exact Otp.Grown.refl _
    | with_reducible apply Kept.ite)

theorem porstRelease_kept {χ : List Part} {σ s : State} {sel : BitVec 3} {iox : BitVec 9} {settled : Bool} (hw : Sub [.ka, .pins] χ) (hk : Kept true χ σ s) :
    Kept true χ σ (porstRelease sel iox settled s) := by
  unfold porstRelease
  repeat' (first
    | with_reducible assumption | with_reducible apply beginBoot_kept
    | (simp only [keptTo]; with_reducible apply KeptTo.intro hw)
    | (show ∀ p : Part, _; intro p; cases p <;> dsimp only [Part.same] <;> first | exact .inl (by decide) | exact .inr (by with_reducible rfl) | exact .inr rfl)
    | with_reducible rfl | with_reducible exact MemTo.refl _ | with_reducible exact Otp.Grown.refl _
    | with_reducible apply Kept.ite)

theorem sysrstAssert_kept {χ : List Part} {σ s : State} (hw : Sub [.lkt, .pst, .sys, .cmds, .own, .sec, .flash, .boot, .ka, .pins, .pws, .tdm, .fab, .wave, .rdg, .crn, .mtx, .col, .dma, .net, .ptp, .stm, .red, .tw, .mem, .fresh] χ) (hk : Kept true χ σ s) :
    Kept true χ σ (sysrstAssert s) := by
  unfold sysrstAssert
  repeat' (first
    | with_reducible assumption | with_reducible apply resetDomains_kept
    | (simp only [keptTo]; with_reducible apply KeptTo.intro hw)
    | (show ∀ p : Part, _; intro p; cases p <;> dsimp only [Part.same] <;> first | exact .inl (by decide) | exact .inr (by with_reducible rfl) | exact .inr rfl)
    | with_reducible rfl | with_reducible exact MemTo.refl _ | with_reducible exact Otp.Grown.refl _
    | with_reducible apply Kept.ite)

theorem sysrstRelease_kept {χ : List Part} {σ s : State} {sel : BitVec 3} (hw : Sub [.ka, .pins] χ) (hk : Kept true χ σ s) :
    Kept true χ σ (sysrstRelease sel s) := by
  unfold sysrstRelease
  repeat' (first
    | with_reducible assumption | with_reducible apply beginBoot_kept
    | (simp only [keptTo]; with_reducible apply KeptTo.intro hw)
    | (show ∀ p : Part, _; intro p; cases p <;> dsimp only [Part.same] <;> first | exact .inl (by decide) | exact .inr (by with_reducible rfl) | exact .inr rfl)
    | with_reducible rfl | with_reducible exact MemTo.refl _ | with_reducible exact Otp.Grown.refl _
    | with_reducible apply Kept.ite)

theorem testEnable_kept {χ : List Part} {σ s : State} {high : Bool} {sel : BitVec 3} (hw : Sub [.lkt, .pst, .sys, .cmds, .own, .sec, .flash, .boot, .ka, .pins, .pws, .tdm, .fab, .wave, .rdg, .crn, .mtx, .col, .dma, .net, .ptp, .stm, .red, .tw, .mem, .fresh] χ) (hk : Kept true χ σ s) :
    Kept true χ σ (testEnable high sel s) := by
  unfold testEnable
  repeat' (first
    | with_reducible assumption | exact Sub.of hw rfl | with_reducible apply dropShadow_kept
    | with_reducible apply resetDomains_kept | with_reducible apply beginBoot_kept
    | (simp only [keptTo]; with_reducible apply KeptTo.intro hw)
    | (show ∀ p : Part, _; intro p; cases p <;> dsimp only [Part.same] <;> first | exact .inl (by decide) | exact .inr (by with_reducible rfl) | exact .inr rfl)
    | with_reducible rfl | with_reducible exact MemTo.refl _ | with_reducible exact Otp.Grown.refl _
    | with_reducible apply Kept.ite)

theorem pciePerst_kept {ρ : Bool} {χ : List Part} {σ s : State} {high : Bool} (hw : Sub [.pins] χ) (hk : Kept ρ χ σ s) :
    Kept ρ χ σ (pciePerst high s) := .view hw hk rfl

theorem vkaPowerOn_kept {χ : List Part} {σ s : State} (hw : Sub [.lkt, .pst, .sys, .cmds, .own, .sec, .flash, .boot, .ka, .pins, .pws, .tdm, .fab, .wave, .rdg, .crn, .mtx, .col, .dma, .net, .ptp, .stm, .red, .tw, .mem, .fresh] χ) (hk : Kept true χ σ s) :
    Kept true χ σ (vkaPowerOn s) := by
  unfold vkaPowerOn
  repeat' (first
    | with_reducible assumption | exact Sub.of hw rfl | with_reducible apply dropShadow_kept
    | with_reducible apply resetDomains_kept | (simp only [keptTo]; refine KeptTo.view hw ?_ rfl))

theorem teardownReset_kept {χ : List Part} {σ s : State} {sel : BitVec 3} (hw : Sub [.lkt, .pst, .sys, .cmds, .own, .sec, .flash, .boot, .ka, .pins, .pws, .tdm, .fab, .wave, .rdg, .crn, .mtx, .col, .dma, .net, .ptp, .stm, .red, .tw, .mem, .fresh] χ) (hk : Kept true χ σ s) :
    Kept true χ σ (teardownReset sel s) := by
  unfold teardownReset
  repeat' (first
    | with_reducible assumption | exact Sub.of hw rfl | with_reducible apply dropShadow_kept
    | with_reducible apply resetDomains_kept | with_reducible apply beginBoot_kept
    | (simp only [keptTo]; refine KeptTo.view hw ?_ rfl) | split)

theorem wake_kept {ρ : Bool} {χ : List Part} {σ s : State} {low : Bool} (hw : Sub [.ka, .pins] χ) (hk : Kept ρ χ σ s) :
    Kept ρ χ σ (wake low s) := by
  unfold wake
  repeat' (first
    | with_reducible assumption | (simp only [keptTo]; with_reducible apply KeptTo.intro hw)
    | (show ∀ p : Part, _; intro p; cases p <;> dsimp only [Part.same] <;> first | exact .inl (by decide) | exact .inr (by with_reducible rfl) | exact .inr rfl)
    | with_reducible rfl | with_reducible exact MemTo.refl _ | with_reducible exact Otp.Grown.refl _
    | with_reducible apply Kept.ite)

theorem pwrReassert_kept {ρ : Bool} {χ : List Part} {σ s : State} (hw : Sub [.ka] χ) (hk : Kept ρ χ σ s) :
    Kept ρ χ σ (pwrReassert s) := by
  unfold pwrReassert
  repeat' (first
    | with_reducible assumption | (simp only [keptTo]; with_reducible apply KeptTo.intro hw)
    | (show ∀ p : Part, _; intro p; cases p <;> dsimp only [Part.same] <;> first | exact .inl (by decide) | exact .inr (by with_reducible rfl) | exact .inr rfl)
    | with_reducible rfl | with_reducible exact MemTo.refl _ | with_reducible exact Otp.Grown.refl _
    | with_reducible apply Kept.ite)

end Sys2Proof.Machine
end

