-- ==== Sys2Proof/Laws/Kept/Boot.lean ====
section
/-! SUPPORT. What the operations of Machine/Boot.lean keep. -/

namespace Sys2Proof.Machine

theorem otpSensed_kept {ρ : Bool} {χ : List Part} {σ s : State} (hw : Sub [.boot] χ) (hk : Kept ρ χ σ s) :
    Kept ρ χ σ (otpSensed s) := .view hw hk rfl

theorem tarnFilled_kept {ρ : Bool} {χ : List Part} {σ s : State} (hw : Sub [.boot, .mem] χ) (hk : Kept ρ χ σ s) : Kept ρ χ σ (tarnFilled s) := by
  unfold tarnFilled
  exact Kept.ite (hk.same hw (fun p => by cases p <;> dsimp only [Part.same] <;> first | exact .inl (by decide) | exact .inr (by with_reducible rfl) | exact .inr rfl) rfl ⟨fun _ => rfl, id⟩ rfl rfl rfl rfl rfl (Otp.Grown.refl _)) hk

theorem dramTraining_kept {ρ : Bool} {χ : List Part} {σ s : State} {ok : Bool} {bytes : BitVec 4} {rate : BitVec 5} (hw : Sub [.boot] χ) (hk : Kept ρ χ σ s) :
    Kept ρ χ σ (dramTraining ok bytes rate s) := by
  unfold dramTraining
  repeat' (first
    | with_reducible assumption | (simp only [keptTo]; with_reducible apply KeptTo.intro hw)
    | (show ∀ p : Part, _; intro p; cases p <;> dsimp only [Part.same] <;> first | exact .inl (by decide) | exact .inr (by with_reducible rfl) | exact .inr rfl)
    | with_reducible rfl | with_reducible exact MemTo.refl _ | with_reducible exact Otp.Grown.refl _
    | with_reducible apply Kept.ite)

theorem eccDone_kept {ρ : Bool} {χ : List Part} {σ s : State} (hw : Sub [.boot] χ) (hk : Kept ρ χ σ s) :
    Kept ρ χ σ (eccDone s) := by
  unfold eccDone
  repeat' (first
    | with_reducible assumption | (simp only [keptTo]; with_reducible apply KeptTo.intro hw)
    | (show ∀ p : Part, _; intro p; cases p <;> dsimp only [Part.same] <;> first | exact .inl (by decide) | exact .inr (by with_reducible rfl) | exact .inr rfl)
    | with_reducible rfl | with_reducible exact MemTo.refl _ | with_reducible exact Otp.Grown.refl _
    | with_reducible apply Kept.ite)

theorem dramRetrain_kept {ρ : Bool} {χ : List Part} {σ s : State} (hw : Sub [.boot] χ) (hk : Kept ρ χ σ s) :
    Kept ρ χ σ (dramRetrain s) := by
  unfold dramRetrain
  repeat' (first
    | with_reducible assumption | (simp only [keptTo]; with_reducible apply KeptTo.intro hw)
    | (show ∀ p : Part, _; intro p; cases p <;> dsimp only [Part.same] <;> first | exact .inl (by decide) | exact .inr (by with_reducible rfl) | exact .inr rfl)
    | with_reducible rfl | with_reducible exact MemTo.refl _ | with_reducible exact Otp.Grown.refl _
    | with_reducible apply Kept.ite)

theorem fwVerified_kept {ρ : Bool} {χ : List Part} {σ s : State} (hw : Sub [.lkt, .sys, .cmds, .sec, .boot, .tdm, .net, .red, .tw] χ) (hk : Kept ρ χ σ s) :
    Kept ρ χ σ (fwVerified s) := by
  unfold fwVerified
  repeat' (first
    | with_reducible assumption | exact Sub.of hw rfl | with_reducible apply reportOwn_kept
    | (simp only [keptTo]; with_reducible apply KeptTo.intro hw)
    | (show ∀ p : Part, _; intro p; cases p <;> dsimp only [Part.same] <;> first | exact .inl (by decide) | exact .inr (by with_reducible rfl) | exact .inr rfl)
    | with_reducible rfl | with_reducible exact MemTo.refl _ | with_reducible exact Otp.Grown.refl _
    | with_reducible apply Kept.ite | split)

theorem profileFail_kept {ρ : Bool} {χ : List Part} {σ s : State} {code index : Nat} {opcode : Half} {status : Byte} (hw : Sub [.lkt, .pst, .cmds, .own, .sec, .boot, .ka, .pws, .tdm, .fab, .wave, .rdg, .crn, .mtx, .net, .ptp, .stm, .red, .tw] χ) (hk : Kept ρ χ σ s) :
    Kept ρ χ σ (profileFail code index opcode status s) := by
  unfold profileFail
  refine reportOwn_kept (hw.of rfl) (hk.trans ⟨rfl, fun i => ⟨i.tarn, i.dram, i.parts, i.sessions, rfl, rfl, i.ctl, i.locks⟩,
    Otp.Grown.refl _, fun _ => ⟨BitVec.or_self, id⟩, fun p => by cases p <;> first | exact .inl (hw _ (by decide)) | exact .inr rfl⟩)

theorem applyBundle_kept {ρ : Bool} {χ : List Part} {σ s : State} {h : ProfHead} {b : Bundle} (hw : Sub [.pst, .own, .sec, .boot, .mtx, .net] χ) (hk : Kept ρ χ σ s) :
    Kept ρ χ σ (applyBundle h b s) := .view hw hk rfl

theorem profileApplied_kept {ρ : Bool} {χ : List Part} {σ s : State} {b : Bundle} (hw : Sub [.lkt, .pst, .cmds, .own, .sec, .boot, .ka, .pws, .tdm, .fab, .wave, .rdg, .crn, .mtx, .net, .ptp, .stm, .red, .tw] χ) (hk : Kept ρ χ σ s) :
    Kept ρ χ σ (profileApplied b s) := by
  unfold profileApplied
  repeat' (first
    | with_reducible assumption | exact Sub.of hw rfl | with_reducible apply profileFail_kept
    | with_reducible apply noteEval_kept | with_reducible apply applyBundle_kept | with_reducible apply Kept.ite
    | split)

theorem bootFinish_kept {ρ : Bool} {χ : List Part} {σ s : State} (hw : Sub [.lkt, .sys, .cmds, .boot, .ka, .pws, .tdm, .net, .red, .tw] χ) (hk : Kept ρ χ σ s) :
    Kept ρ χ σ (bootFinish s) := by
  unfold bootFinish
  repeat' (first
    | with_reducible assumption | exact Sub.of hw rfl | with_reducible apply pauseCheck_kept
    | with_reducible apply crcCommit_kept | (simp only [keptTo]; refine KeptTo.view hw ?_ rfl))

theorem bootReplied_kept {ρ : Bool} {χ : List Part} {σ s : State} {r : Reply} {c : BootCmd} (hw : Sub [.lkt, .pst, .sys, .cmds, .own, .sec, .boot, .ka, .pws, .tdm, .fab, .wave, .rdg, .crn, .mtx, .net, .ptp, .stm, .red, .tw] χ) (hk : Kept ρ χ σ s) :
    Kept ρ χ σ (bootReplied r c s) := by
  unfold bootReplied
  repeat' (first
    | with_reducible assumption | exact Sub.of hw rfl | with_reducible apply bootFinish_kept
    | with_reducible apply profileFail_kept | (simp only [keptTo]; with_reducible apply KeptTo.intro hw)
    | (show ∀ p : Part, _; intro p; cases p <;> dsimp only [Part.same] <;> first | exact .inl (by decide) | exact .inr (by with_reducible rfl) | exact .inr rfl)
    | with_reducible rfl | with_reducible exact MemTo.refl _ | with_reducible exact Otp.Grown.refl _
    | with_reducible apply Kept.ite)

theorem bootStart_kept {ρ : Bool} {χ : List Part} {σ s : State} {c : BootCmd} (hw : Sub [.lkt, .pst, .sys, .cmds, .own, .sec, .flash, .boot, .ka, .pws, .tdm, .fab, .wave, .rdg, .crn, .mtx, .col, .dma, .net, .ptp, .stm, .red, .tw, .mem, .fresh] χ) (hk : Kept ρ χ σ s) : Kept ρ χ σ (bootStart c s) := by
  unfold bootStart
  dsimp only
  split
  · exact bootReplied_kept (hw.of rfl) hk
  · split
    · exact bootReplied_kept (hw.of rfl) hk
    · rename_i e
      have h := perform_kept (fwd := false) (p := c.part.toNat) (udp := false) (limit := 65536) (hw.of rfl) (readBody_keeps (hw.of rfl) e) hk
      split
      · split
        · exact bootReplied_kept (hw.of rfl) h
        · exact h.same hw (fun p => by cases p <;> dsimp only [Part.same] <;> first | exact .inl (by decide) | exact .inr (by with_reducible rfl) | exact .inr rfl) rfl (MemTo.refl _) rfl rfl rfl rfl rfl (Otp.Grown.refl _)
      · exact bootReplied_kept (hw.of rfl) h

theorem bootPoll_kept {ρ : Bool} {χ : List Part} {σ s : State} {c : BootCmd} {j : Job} (hw : Sub [.lkt, .pst, .sys, .cmds, .own, .sec, .flash, .boot, .ka, .pws, .tdm, .fab, .wave, .rdg, .crn, .mtx, .net, .ptp, .stm, .red, .tw] χ) (hk : Kept ρ χ σ s) :
    Kept ρ χ σ (bootPoll c j s) := by
  unfold bootPoll
  repeat' (first
    | with_reducible assumption | exact Sub.of hw rfl | with_reducible apply bootReplied_kept
    | (refine jobEnd_kept_eq (hw.of rfl) ?_ (by assumption)) | split)

theorem bootNext_kept {ρ : Bool} {χ : List Part} {σ s : State} (hw : Sub [.lkt, .pst, .sys, .cmds, .own, .sec, .flash, .boot, .ka, .pws, .tdm, .fab, .wave, .rdg, .crn, .mtx, .col, .dma, .net, .ptp, .stm, .red, .tw, .mem, .fresh] χ) (hk : Kept ρ χ σ s) :
    Kept ρ χ σ (bootNext s) := by
  unfold bootNext
  repeat' (first
    | with_reducible assumption | exact Sub.of hw rfl | with_reducible apply bootFinish_kept
    | with_reducible apply bootPoll_kept | with_reducible apply bootStart_kept
    | (simp only [keptTo]; with_reducible apply KeptTo.intro hw)
    | (show ∀ p : Part, _; intro p; cases p <;> dsimp only [Part.same] <;> first | exact .inl (by decide) | exact .inr (by with_reducible rfl) | exact .inr rfl)
    | with_reducible rfl | with_reducible exact MemTo.refl _ | with_reducible exact Otp.Grown.refl _
    | with_reducible apply Kept.ite | split)

theorem acquireWaitEnd_kept {ρ : Bool} {χ : List Part} {σ s : State} (hw : Sub [.lkt, .pst, .sys, .cmds, .own, .sec, .flash, .boot, .ka, .pws, .tdm, .fab, .wave, .rdg, .crn, .mtx, .col, .dma, .net, .ptp, .stm, .red, .tw, .mem, .fresh] χ) (hk : Kept ρ χ σ s) :
    Kept ρ χ σ (acquireWaitEnd s) := by
  unfold acquireWaitEnd
  repeat' (first | with_reducible assumption | with_reducible apply bootNext_kept | with_reducible apply Kept.ite)

theorem coreRestart_kept {ρ : Bool} {χ : List Part} {σ s : State} {digestOk : Bool} (hw : Sub [.lkt, .pst, .cmds, .own, .sec, .boot, .ka, .pws, .tdm, .fab, .wave, .rdg, .crn, .mtx, .net, .ptp, .stm, .red, .tw] χ) (hk : Kept ρ χ σ s) :
    Kept ρ χ σ (coreRestart digestOk s) := by
  unfold coreRestart
  repeat' (first
    | with_reducible assumption | exact Sub.of hw rfl | with_reducible apply reportOwn_kept
    | with_reducible apply profileFail_kept | with_reducible apply pauseCheck_kept
    | (simp only [keptTo]; with_reducible apply KeptTo.intro hw)
    | (show ∀ p : Part, _; intro p; cases p <;> dsimp only [Part.same] <;> first | exact .inl (by decide) | exact .inr (by with_reducible rfl) | exact .inr rfl)
    | with_reducible rfl | with_reducible exact MemTo.refl _ | with_reducible exact Otp.Grown.refl _
    | with_reducible apply Kept.ite)

end Sys2Proof.Machine
end

