-- ==== Sys2Proof/Laws/Kept/StartRows.lean ====
section
/-! SUPPORT. What the operations of Machine/StartRows.lean keep. -/

namespace Sys2Proof.Machine

theorem kaWrite_kept {ρ : Bool} {χ : List Part} {σ s : State} {q : Requester} {w : Word} (hw : Sub [.lkt, .sys, .cmds, .boot, .ka, .pws, .tdm, .net, .stm, .red, .tw] χ) (hk : Kept ρ χ σ s) :
    Kept ρ χ σ (kaWrite q w s) := by
  unfold kaWrite
  repeat' (first
    | with_reducible assumption | exact Sub.of hw rfl | with_reducible apply ignoreWrite_kept
    | (refine indWrite_kept_eq ?_ ?_ (by assumption)) | with_reducible apply indRefused_kept
    | with_reducible apply Kept.ite | split)

end Sys2Proof.Machine
end

