-- ==== Sys2Proof/Tests/Slice0.lean ====
section
/-! SUPPORT. Tests. Ill-formed commands are refused; hand-computed words and tables of the spec read as the model has them;
and for each statement, states and operands that meet the hypotheses of each of its clauses, clause by clause. -/

namespace Sys2Proof.Machine

/-- The senders and requesters of the tests. -/
def tq : Sender := { part := 0, via := .mailbox }
def tr : Requester := .pf 0

def tRegion (n : Nat) (use : RegionUse) : Region :=
  { base := 0x10_0000 * n, size := 0x10_0000, owner := 0, hostVisible := true, use := use }

/-- A machine out of reset, with its partitions enabled and a region of Tarn for each use. -/
def up : State :=
  { State.reset with
    cmds := List.replicate 4 (PartCmd.init 1)
    own := { Own.init with partEn := 15, spiMask := 15, dramSize := 1
                           regions := [tRegion 1 .staging, tRegion 2 .rings, tRegion 3 .streamBuffers, tRegion 4 .hostRings
                             , tRegion 5 .mirrorInbox, tRegion 6 .mirrorOutbox, tRegion 7 .inputImages
                             , tRegion 8 .outputImages] } }

def tGov : FabSetGovernor :=
  { mode := 1, fixed := 700, target := 20, deadband := 5, floor := 0, upGain := 5, upMax := 1, downStep := 1, interval := 25
    settle := 5, recovery := 10 }

/-- Reference 2, enabled. -/
def tEn : RefSt := { RefSt.init 2 with cfg := { RefCfg.init 2 with enable := true } }

/-- Polestar free-running on its own, with reference 2 as given. -/
def tFree (r : RefSt) : State := { up with pst := { Pst.init.setRef 2 r with state := .freerun, mode := .none } }

/-- A live bank A with one node of one gain parameter, and one schedule entry on engine 3. -/
def tNode : Node :=
  { id := 7, kind := 0, place := 3, signature := 0, stateMem := 0, channels := 1, zcTimeout := 0, stateOfs := 0
    stateSize := 0, paramOfs := 0, paramSize := 16, retiring := false }
def tEntry : Entry :=
  { target := 3, part := 0, node := 7, start := 0, wait := 0, retiring := false, last := true, succ := [], cost := 0
    dormant := false }
def tLive : State :=
  { up with rdg := { Rdg.init with
      live := some 0
      bankA := { state := .live, corner := 0, rate := 1
                 parts := [{ BankPart.init with nodes := [tNode], entries := [tEntry] }, BankPart.init, BankPart.init
                   , BankPart.init] } } }

/-- Engine 3 as given. -/
def tEng (e : Engine) : State := up.setEngine 3 e

/-- DMA channel 0 as given. -/
def tDma (c : DmaCh) : State := { up with dma.ch := [(0, c)] }
def tMove : DmaCh :=
  { DmaCh.init with running := true, phase := .move, mSrc := 0x10_0000, mDst := 0x20_0000, mCount := 16, remain := 16 }

/-- Rests of words that read an operand from X where the operation needs one. -/
def tReads : Ag := { mem := 1, form := true, ptr := 0, mod := .imm 0 }
def tLanes : Ag := { mem := 1, form := false, ptr := 0, mod := .imm 0 }
def tMac : MacRest := .a Ag.idle Ag.idle Ag.idle .snop
def tShort : ShortRest := { mac := .mnop, ag0 := Ag.idle, ag1 := Ag.idle, ag2 := tLanes }
def tCopy : ShortRest := { mac := .mnop, ag0 := tLanes, ag1 := Ag.idle, ag2 := tLanes }
def tLong : LongRest := { mac := .mnop, ag0 := Ag.idle, ag1 := tReads }

/-- TDM port 5, power-stage channel 15, network port 3, and host rings 7, as given. -/
def tPort (p : Port) : State := up.setPort 5 p
def tPws (x : PwsCh) : State := up.setPwsCh 15 x
def tNet (p : NetPort) : State := { up with net.ports := [NetPort.init 0, NetPort.init 1, NetPort.init 2, p] }
def tLink : NetPort := { NetPort.init 3 with enabled := true, linkUp := true }
def tRing (q : List RxFrame) : Ring := { Ring.init with base := 0x40_0000, size := 2, enable := true, queue := q }
def tRings (ctrl : Byte) : State :=
  { up with net.rx := List.replicate 7 Ring.init ++ [tRing [{ bytes := [1, 2], stamp := none, port := 0, filter := 255 }]]
            net.tx := List.replicate 7 Ring.init ++ [tRing []]
            mem.tarn := [(0x40_0000, ctrl), (0x40_0004, 60), (0x40_000A, 0x41)] }
def tFill := fillRx 0 (tRing [{ bytes := [1, 2], stamp := none, port := 0, filter := 255 }]) 4 0 [1, 2] [] (tRings 1)
def tWalk := walkTx 0 (tRing []) 4 { count := 0, data := [], ctrl := 0, mask := 0 } (tRings 7)

/-- PTP instance 1 as given; an Announce, and instances that follow its sender or act as a master. -/
def tInst (x : PtpInst) : State := { up with ptp.inst1 := x }
def tAnn : Announce :=
  { mac := 0, ip := 0, domain := 127, source := 1, gmId := 7, priority1 := 128, priority2 := 128, clockClass := 6, accuracy := 0x21
    variance := 0, steps := 0, utcOfs := 37, utcValid := true, leap61 := false, leap59 := false }
def tSlave : PtpInst := { PtpInst.init with enable := true, state := .slave, chosen := some tAnn }
def tMaster : State :=
  { tInst { PtpInst.init with enable := true, state := .master, capable := true } with pst.state := .freerun }
def tMsg : SyncMsg :=
  { domain := 127, source := 1, seq := 3, twoStep := false, origin := { sec := 0, quarters := 0 }, correction := 0
    ingress := { sec := 0, quarters := 0 } }
def tResp : DelayResp :=
  { domain := 127, source := 1, seq := 3, receive := { sec := 0, quarters := 0 }, correction := 0, logInterval := 0xFD }
def tWait (t1 : Option Int) (t2 : Int) : SyncWait := { seq := 3, t1 := t1, t2 := t2 }

/-- Stream contexts 255 as given. -/
def tTxCfg : TxCfg :=
  { channels := 64, format := 0, ptime := 0, launch := 1, paths := 3, label := 0, pt := 127, dscp := 63, ttl := 1
    vlan := 0xFFF, plimit := 1460, ssrc := 0, srcIp := 0
    a := { dstMac := 0, dstIp := 0xE0000001, srcPort := 1, dstPort := 1 }
    b := { dstMac := 0, dstIp := 0xE0000002, srcPort := 1, dstPort := 1 } }
def tRxCfg : RxCfg :=
  { channels := 63, format := 0, ptime := 3, senderG := 1, paths := 3, group := 0xFF, l := 3999, depth := 4096
    base := 0x30_0000, rtpOfs := 0, pt := 96, ssrcEn := 1, ssrc := 0
    a := { dstIp := 0xE0000001, dstPort := 1, srcFilter := 0, vlan := 0 }
    b := { dstIp := 0xEFFFFFFF, dstPort := 1, srcFilter := 0, vlan := 4094 } }
def tTx (x : TxCtx) : State := { up with stm.tx := [(255, x)] }
def tRx (x : RxCtx) : State := { up with stm.rx := [(255, x)] }
def tTap (x : Tap) : State := { up with stm.taps := [(15, x)] }
def tPkt (live : Bool) : TxPacket := { closing := 0, seq := 0, ts := 0, payload := [], allLive := live }

/-- A UDP packet for path A of `tRxCfg`, with nothing after its UDP header; and a fragment for the host. -/
def tUdp : List Byte :=
  List.replicate 12 0 ++ [8, 0, 0x45, 0, 0, 28, 0, 0, 0, 0, 1, 17, 0, 0, 0, 0, 0, 0, 0xE0, 0, 0, 1, 0, 0, 0, 1, 0, 8, 0, 0]
def tFragment : List Byte := List.replicate 12 0 ++ [8, 0, 0x45, 0, 0, 28, 0, 0, 0x20, 0, 1, 17] ++ List.replicate 10 0

/-- Node 0 of pair 1, in a state, with the Noril link up. -/
def tRed (st : NodeSt) : State := { up with red.pairId := 1, red.state := st, red.nrl.up := true }
def tHb : Heartbeat :=
  { version := 1, node := 1, pair := 1, state := 4, hflags := 0, epoch := 1, hseq := 1, mcnt := 0, generation := 0
    matchRun := 0, tag := 0, source := 0 }
def tSnap : Snapshot :=
  { config := [], images := [], generation := 0, pendingBank := none, gains := [], changes := [], params := [] }
/-- The mailbox slot of partition 0 as given. -/
def tSlot (x : CmdSlot) : State := up.setPart 0 { PartCmd.init 1 with mbox := x }
def tRec (r : Record) : State := up.setRecord 7 r
def tTw (c : TwCtl) : State := { up with tw.ctl := [TwCtl.init, TwCtl.init, TwCtl.init, c] }
def tTwt (t : Twt) : State := { up with tw.twt := { t with en := true } }
def tInd (a : Word) : State := { up with sys.shadows := [(0, { Shadow.init with indAddr := a })] }

/-- A signature block of slot 0 with zeros for its key and its signature; a firmware image and a profile of headers alone. -/
def tBlock : List Byte := [0x42, 0x49, 0x47, 0x53, 1, 0, 0, 0] ++ List.replicate 248 0
def tFw : List Byte := [0x48, 0x59, 0x46, 0x57, 1, 0, 1, 0, 20, 0, 0, 0, 7, 0, 0, 0, 3, 0, 0, 0]
def tProf : List Byte :=
  [0x48, 0x59, 0x50, 0x46, 2, 0, 128, 0, 192, 0, 0, 0, 9, 0, 0, 0, 0, 0, 0, 0, 1, 1, 4, 0] ++ List.replicate 104 0
    ++ (List.range 4).flatMap fun k => BitVec.ofNat 8 (k + 1) :: List.replicate 15 0
def tStore (a : Nat) : List Byte → Store Byte
  | [] => []
  | b :: bs => (a, b) :: tStore (a + 1) bs
def tFlash (a : Nat) (bs : List Byte) : State :=
  { up with boot.tarnFilled := true, flash := { bytes := tStore a (bs ++ tBlock), sealed := 1 } }
def tBundle : Bundle :=
  { owners := List.replicate 1127 0, regions := [], commands := []
    platform := { station := 0, hostIp := 0, hostMask := 0, hostGateway := 0, udpPort := 6590, dramSize := 1, regAddr := 0
                  quotas := [2048, 2048, 2048, 2048], defaultRing := none } }
def tLocked : State := { up with sys.lock := 0x1FF }
def tOpen : State :=
  { up with sec.nonce := some 0, sec.otp.imgProg := 1, sec.otp.imgHashes := [(0, Config.sha384 (List.replicate 96 0))] }
/-! Ill-formed commands, one for each check, are refused, and well-formed ones at the edge of each check are not. -/

theorem test_wellFormed_refuses_events : (Instr.disagreeWindow (List.replicate 5 { fofs := 0, phase := 0 })).wellFormed = false
    ∧ (Instr.tdmFrameReceived 0 { k := 0, bitClocks := 256, phase := 0, parity := 0, words := List.replicate 33 0 }).wellFormed
      = false
    ∧ (Instr.stagingWindowWrite 0 0x7FFF [1, 2]).wellFormed = false
    ∧ (Instr.pcieBar2Access 0 0 1 (some [])).wellFormed = false ∧ (Instr.pcieBar2Access 0 0 0 none).wellFormed = false
    ∧ (Instr.spiFrame [1, 2, 3]).wellFormed = false ∧ (Instr.twtWrite []).wellFormed = false
    ∧ (Instr.twTransactionEnd 0 { outcome := .done, doneBytes := 33, read := List.replicate 33 0, recovery := none }).wellFormed
      = false := by decide

theorem test_wellFormed_refuses_registers : (Instr.registerWrite tr 0x0012 0 true).wellFormed = false
    ∧ (Instr.wideLoRead tr 0x5011).wellFormed = false ∧ (Instr.wideCounterLoWrite tr 0x5C09 0).wellFormed = false
    ∧ (Instr.wideCounterHiWrite tr 0x5C0E 0).wellFormed = false := by decide

theorem test_wellFormed_refuses_commands :
    (Instr.graphLoadChunk tq { offset := 0, length := 8, data := [0, 0, 0, 0] }).wellFormed = false
    ∧ (Instr.sysProfileWrite tq { unit := 0, offset := 0, length := 8, data := [0] }).wellFormed = false
    ∧ (Instr.secFwWrite tq { unit := 0, offset := 0, length := 8, data := [0] }).wellFormed = false
    ∧ (Instr.mtxSetGains tq { a := 0, mode := 0, reserved := 0, n := 0, reserved2 := 0, entries := List.replicate 502 0 }).wellFormed
      = false
    ∧ (Instr.mtxSetQuota tq [0, 0, 0]).wellFormed = false
    ∧ (Instr.redSetShared tq 0 (List.replicate 1006 { node := 0, port := 0, slot := 0, reserved := 0 })).wellFormed = false
    ∧ (Instr.streamSetCs tq 0 (List.replicate 23 0)).wellFormed = false
    ∧ (Instr.secDebugUnlock tq (List.replicate 255 0)).wellFormed = false := by decide +kernel

theorem test_wellFormed_accepts :
    (Instr.tdmFrameReceived 0 { k := 0, bitClocks := 256, phase := 0, parity := 0, words := List.replicate 32 0 }).wellFormed = true
    ∧ (Instr.stagingWindowWrite 0 0x7FFF [1]).wellFormed = true ∧ (Instr.registerWrite tr 0x0012 0 false).wellFormed = true
    ∧ (Instr.graphLoadChunk tq { offset := 0, length := 4000, data := List.replicate 4000 0 }).wellFormed = true
    ∧ (Instr.secDebugUnlock tq (List.replicate 256 0)).wellFormed = true := by decide +kernel

/-! Cairn's words, written out bit by bit from the fields of R160, R162 and R171 to R173. -/

/-- NOP (R159). -/
theorem test_word_nop : CWord.decode 0 = some (.a .mnop Ag.idle Ag.idle Ag.idle .snop) := by decide

/-- MACN.SC of ACC1 with what AG0 and AG1 read, beside MOVV V3, V5. -/
theorem test_word_mac :
    CWord.decode 0b00_00010_01_101_1000_1001_01001010000_11111101111_00000000000_10001110100
      = some (.a (.mac 1 5 8 9) { mem := 1, form := false, ptr := 2, mod := .m } { mem := 3, form := true, ptr := 7, mod := .imm 15 }
        Ag.idle (.movv 3 5)) := by decide

/-- ADD V7, V0, V1 beside a branch on not SZ to index 2047. -/
theorem test_word_branch :
    CWord.decode 0b01_10000_00_111_0000_0001_00000000000_00000000000_00001_0010_00_11111111111
      = some (.b (.add 7 0 1) Ag.idle Ag.idle (.br 2 2047)) := by decide

/-- An outbound FAR of 256 lines from Y at P2 to the Tarn address in S6. -/
theorem test_word_far :
    CWord.decode 0b10_000101_1_1_010_110_0000000000000000000000000000000000000000_11111111
      = some (.c (.far true true 2 6 255)) := by decide

/-- SETA M1, -2; LOOPI 3 over 5 instructions; and END. -/
theorem test_word_control :
    CWord.decode 0b10_000011_01_001_00000000000000000000000000000000000_1111111111111110 = some (.c (.seta 1 1 0xFFFE))
    ∧ CWord.decode 0b10_000010_0000000000000000000000000000_0000000000000011_0_00000000100 = some (.c (.loopi 3 4))
    ∧ CWord.decode 0b10_000111_00000000000000000000000000000000000000000000000000000000 = some (.c .stop) := by decide

/-- Format 0b11, an undefined control opcode, an undefined MAC opcode, an unused field that is not 0 (R159, R161, R173). -/
theorem test_word_undefined : CWord.decode 0xC000000000000000 = none ∧ CWord.decode 0x8800000000000000 = none
    ∧ CWord.decode 0x3E00000000000000 = none ∧ CWord.decode 0x8700000000000001 = none := by decide

/-! Values that the spec states or that follow from it by hand. -/

/-- EXPN and NORM of the examples of R170. -/
theorem test_expn_norm : expn 0x0000_0001 = 30 ∧ expn 0xFFFF_FFFE = 30 ∧ expn 0xFFFF_FFFF = 31 ∧ expn 0 = 31
    ∧ (0x0000_0001 : Word) <<< expn 0x0000_0001 = 0x4000_0000 ∧ (0xFFFF_FFFE : Word) <<< expn 0xFFFF_FFFE = 0x8000_0000
    ∧ (0xFFFF_FFFF : Word) <<< expn 0xFFFF_FFFF = 0x8000_0000 := by decide

def tAfter (o : Host.Outcome State Fault Refusal) : State :=
  match o with
  | .next t => t
  | _ => State.reset

/-- ADD limits the sum to 2^31 - 1 and sets the lane's SAT bit (R141, R169); the other lanes add. -/
theorem test_add_saturates :
    let t := (tAfter (exec (.add 3 2 0 1 tMac) (tEng { Engine.init with v := [(0, 0x7FFFFFFF), (1, 5), (4, 1), (5, 6)] }))).engine 3
    Store.look 0 t.v 8 = 0x7FFFFFFF ∧ Store.look 0 t.v 9 = 11 ∧ t.flags = 1 ∧ t.pc = 1 := by decide

/-- NRW and NRWE of one accumulator split it exactly (R168): 5 · 2^31 + 7 gives 5 and 7. -/
theorem test_narrow_splits :
    let e := { Engine.init with acc := [(0, 5 * 0x8000_0000 + 7)] }
    Store.look 0 ((tAfter (exec (.nrw 3 0 1 0 tMac) (tEng e))).engine 3).v 4 = 5
    ∧ Store.look 0 ((tAfter (exec (.nrwe 3 0 1 tMac) (tEng e))).engine 3).v 4 = 7 := by decide

/-- CLK_SET_RATE of 192 kHz in ACQUIRE takes effect at once (R29, R56); rate code 5 is refused with BAD_PARAM. -/
theorem test_clkSetRate : (tAfter (exec (.clkSetRate tq 4) up)).pst.rate = 4
    ∧ ((tAfter (exec (.clkSetRate tq 5) up)).slot 0 false).result = some (Reply.code .badParam) := by decide

/-- SYS_LOCK keeps a bit that is set (R442), and a locked command answers LOCKED. -/
theorem test_sysLock :
    let t := tAfter (exec (.sysLock tr 0) (tAfter (exec (.sysLock tr 2) up)))
    t.sys.lock = 2 ∧ ((tAfter (exec (.clkSetRate tq 4) t)).slot 0 false).result = some (Reply.code .locked) := by decide

/-- XO_LOSS is severe and makes the node fail-silent (R21, R458). -/
theorem test_xoLoss :
    let t := tAfter (exec (.faultReport 0x01 0) up)
    t.lkt.failSilent = true ∧ (t.record 0).actions = 8 ∧ (t.record 0).first = 1 ∧ t.lkt.faultCnt = 1 := by decide

/-- TDM_COMMIT of a stopped port is accepted, and the masks that were staged wait for its next start (R246, R247). -/
theorem test_tdmCommit :
    let t := tAfter (exec (.tdmCommit tq 1) ((tAfter (exec (.tdmStageMask tq { port := 0, rx := 3, tx := 5 }) up)).setPart 0
      (PartCmd.init 1)))
    (t.port 0).rxMask = 0 ∧ (t.port 0).commit = some (3, 5, .atStart) := by decide

/-- A wide pair (R436): a read of DMA_SRC_LO latches the high half. -/
theorem test_wideRead :
    let t := tAfter (exec (.wideLoRead tr 0x0808) (tDma { DmaCh.init with src := 0x12_3456_789A }))
    (t.shadow 0).rdata = [0x3456_789A] ∧ (t.shadow 0).wideHi = 0x12 := by decide

/-- An idle step changes nothing (log 2), and a step takes the first of two commands. -/
theorem test_step : step up = .next up
    ∧ (tAfter (step { up with pending := [.supLockstep, .supWatchdog] })).pending = [.supWatchdog] := by
  refine ⟨rfl, rfl⟩

/-! The words of the Cairn statements issue: each on an engine at index 0 that runs. -/

theorem test_meets_CairnAccumulatorRowsComplete : ∀ m ∈ [MacOp.mnop, .mpy 3 7 13 0, .mac 0 0 0 0, .lda 3 0 13, .adda 0 1 0
      , .sha 3 15, .nrw 0 7 15, .dnrw 0 0 0, .nrwc 3 7 15, .nrwe 0 0],
    CanIssue up 23 (tMac.word m) ∧ wordWaits (tMac.word m) = false ∧ ((up.engine 23).after (tMac.word m)).pc < 2048 := by
  unfold CanIssue; decide

theorem test_meets_CairnLaneRowsComplete : ∀ m ∈ [MacOp.add 7 13 0, .sub 0 0 0, .max 0 0 0, .min 0 0 0, .abs 7 13, .neg 0 0
      , .and 0 0 0, .or 0 0 0, .xor 0 0 0, .shl 7 13 15, .shr 0 0 0, .shv 0 0 0, .norm 0 0, .expn 0 0, .sel 7 13 13],
    CanIssue up 23 (tMac.word m) ∧ wordWaits (tMac.word m) = false ∧ ((up.engine 23).after (tMac.word m)).pc < 2048 := by
  unfold CanIssue; decide

theorem test_meets_CairnMoveRowsComplete :
    (∀ w ∈ [tShort.word .snop, tShort.word (.ldv 7), tShort.word (.st 7 0), tCopy.word .cpy, tShort.word (.movv 7 0)
      , tShort.word (.movsv 7 7 3), tShort.word (.bcst 7 7), tLong.word .lnop, tLong.word (.br 0 2047)
      , tLong.word (.call 7 2047), tLong.word (.ret 7), tLong.word (.addsi 7 7 0x400), tLong.word (.alus 7 7 7 7)
      , tLong.word (.mova 2 7 7 true), tLong.word (.movc 7 9), tLong.word (.lds 7), tLong.word (.sts 7)
      , tLong.word (.movvs 7 7 3), tLong.word (.setdw 63)],
      CanIssue up 23 w ∧ wordWaits w = false ∧ ((up.engine 23).after w).pc < 2048)
    ∧ (CanIssue up 23 (tShort.word (.waitf 3)) ∧ (up.engine 23).far = []
        ∧ ((up.engine 23).after (tShort.word (.waitf 3))).pc < 2048) := by
  unfold CanIssue; decide

theorem test_meets_FabricCommandsComplete :
    (∃ (s : State) (q : Sender) (c : _), Accepts s q (bodyFabSetGovernor c) ∧ fabGovernorOk c = true)
    ∧ (∃ (s : State) (q : Sender) (burst : _) (stall : _), Accepts s q (bodyFabSetEscalation burst stall) ∧ 1 ≤ burst.toNat ∧
      burst.toNat ≤ 1000 ∧ 2 ≤ stall.toNat ∧ stall.toNat ≤ 4800)
    ∧ (∃ (s : State) (q : Sender) (n : _) (w : _), Accepts s q (bodyFabSetTelemetry n w) ∧ 8 ≤ n.toNat ∧ n.toNat ≤ 16 ∧ 2 ≤
      w.toNat ∧ w.toNat ≤ 4096 ∧ w.toNat % 2 = 0 ∧ n.toNat ≠ s.fab.n)
    ∧ (∃ (s : State) (q : Sender), Accepts s q bodyFabClearTelemetry) :=
  ⟨⟨up, tq, tGov, by unfold Accepts; decide⟩,
    ⟨up, tq, 1, 4800, by unfold Accepts; decide⟩,
    ⟨up, tq, 8, 4096, by unfold Accepts; decide⟩,
    ⟨up, tq, by unfold Accepts; decide⟩⟩

theorem test_meets_ClockCommandsComplete :
    (∃ (s : State) (q : Sender), Accepts s q bodyClkGetStatus)
    ∧ (∃ (s : State) (q : Sender) (index : _), Accepts s q (bodyClkGetRef index) ∧ index.toNat ≤ 5)
    ∧ (∃ (s : State) (q : Sender) (code : _), Accepts s q (bodyClkSetRate code) ∧ code.toNat ≤ 4 ∧ code.toNat ≠ s.pst.rate ∧
      s.rdg.busyForRate = false ∧ rateBreaksRef s.pst code.toNat = false)
    ∧ (∃ (s : State) (q : Sender) (c : _), Accepts s q (bodyClkRefConfig c) ∧ refConfigOk c s.pst.rate = true)
    ∧ (∃ (s : State) (q : Sender) (c : _), Accepts s q (bodyClkSelect c) ∧ c.revertive.toNat ≤ 1 ∧ c.mode = 1 ∧ c.manual.toNat
      ≤ 5)
    ∧ (∃ (s : State) (q : Sender) (c : _), Accepts s q (bodyClkSetTimers c) ∧ clkTimersOk c = true)
    ∧ (∃ (s : State) (q : Sender) (c : _), Accepts s q (bodyClkSetHoldover c) ∧ clkHoldoverOk c = true)
    ∧ (∃ (s : State) (q : Sender) (ppt : _), Accepts s q (bodyClkSetTrim ppt) ∧ ppt.toInt.natAbs ≤ 100000000 ∧ s.pst.state =
      .freerun)
    ∧ (∃ (s : State) (q : Sender) (ns : _), Accepts s q (bodyClkPhaseStep ns) ∧ s.pst.state ≠ .acquire ∧ (phaseAhead s.pst +
      ns.toInt).natAbs ≤ 10000000)
    ∧ (∃ (s : State) (q : Sender) (c : _), Accepts s q (bodyClkRealign c) ∧ c.method = 0 ∧ 1 ≤ c.arg.toNat ∧ c.arg.toNat ≤
      10000 ∧ s.pst.phaseHeld = true ∧ realigning s.pst = false) :=
  ⟨⟨up, tq, by unfold Accepts; decide⟩,
    ⟨up, tq, 5, by unfold Accepts; decide⟩,
    ⟨up, tq, 4, by unfold Accepts; decide⟩,
    ⟨up, tq,
      { index := 0, enable := 1, rank := 6, form := 0, nominal := 0, qualTime := 6000, startQual := 10000, bandwidth := 10, maxClass := 6, offsetLimit := 100 },
      by unfold Accepts; decide⟩,
    ⟨up, tq, { mode := 1, manual := 5, revertive := 1 }, by unfold Accepts; decide⟩,
    ⟨up, tq, { wtr := 3600, slewLimit := 1, slewWindow := 0, disagree := 10000, capture := 200000000, acquire := 100 },
      by unfold Accepts; decide⟩,
    ⟨up, tq, { method := 1, oscClass := 2, specWindow := 86400, w := 240, wc := 30, g := 210 }, by unfold Accepts; decide⟩,
    ⟨tFree tEn, tq, -100000000, by unfold Accepts; decide⟩,
    ⟨tFree tEn, tq, 10000000, by unfold Accepts; decide⟩,
    ⟨{ tFree tEn with pst.phaseHeld := true }, tq, { method := 0, arg := 10000 }, by unfold Accepts; decide⟩⟩

theorem test_meets_ClockEventsComplete :
    (∃ (s : State) (ref : Fin 6) (m : RefMeas), s.held = false ∧ (s.pst.ref ref.val).cfg.enable = true ∧ (s.pst.ref
      ref.val).valid = false ∧ s.pst.refs.length = 6 ∧ (ref.val < 2 → ptpRefOk s ref.val = true) ∧ m.fofs.toInt.natAbs ≤
      s.pst.capture.toNat)
    ∧ (∃ (s : State) (ref : Fin 6), s.held = false ∧ s.pst.mode = .none ∧ s.pst.state = .freerun ∧ s.pst.refs.length = 6 ∧
      (s.pst.ref ref.val).cfg.enable = true ∧ (s.pst.ref ref.val).valid = true ∧ (s.pst.ref ref.val).qualified = false)
    ∧ (∃ (s : State) (ref : Fin 6), s.held = false ∧ (s.pst.ref ref.val).valid = false ∧ s.pst.refs.length = 6)
    ∧ (∃ (s : State), s.held = false ∧ s.pst.state = .acquire)
    ∧ (∃ (s : State) (ref : Fin 6), s.held = false ∧ (s.pst.ref ref.val).wtrRun = true ∧ s.pst.refs.length = 6 ∧ s.pst.mode =
      .none ∧ s.pst.state = .freerun)
    ∧ (∃ (s : State), s.held = false ∧ s.pst.state = .freerun ∧ s.pst.mode = .none)
    ∧ (∃ (s : State), s.held = false ∧ s.pst.state = .holdover ∧ s.pst.hoNative = true ∧ s.pst.outOfSpec = false)
    ∧ (∃ (s : State), s.held = false ∧ s.pst.state = .locked ∧ s.pst.secDirty = false ∧ s.pst.slewing = false ∧ (s.pst.ref
      s.pst.selref).valid = true)
    ∧ (∃ (s : State), s.held = false ∧ s.pst.refs.length = 6) :=
  ⟨⟨{ up with pst := Pst.init.setRef 2 tEn }, 2, { fofs := 100000000, phase := 0 }, by decide⟩,
    ⟨tFree { tEn with valid := true }, 2, by decide⟩,
    ⟨up, 5, by decide⟩,
    ⟨up, by decide⟩,
    ⟨tFree { tEn with wtrRun := true }, 2, by decide⟩,
    ⟨tFree tEn, by decide⟩,
    ⟨{ tFree tEn with pst.state := .holdover }, by decide⟩,
    ⟨{ tFree { tEn with valid := true } with pst.state := .locked, pst.selref := 2 }, by decide⟩,
    ⟨up, by decide⟩⟩

theorem test_meets_FabricEventsComplete :
    (∃ (s : State), s.held = false ∧ s.pst.state ≠ .acquire ∧ s.pst.waiting = [] ∧ s.pst.realign = .idle ∧ s.pst.firstEdge =
      false)
    ∧ (∃ (s : State) (slack : Word) (k : _), s.held = false ∧ s.wave.running = some k ∧ s.wave.waiting = none ∧ slack.toInt < 0)
    ∧ (∃ (s : State) (slack : Word) (k : _), s.held = false ∧ s.wave.running = some k ∧ s.wave.waiting = none ∧ s.wave.trapped
      = false ∧ 0 ≤ slack.toInt)
    ∧ (∃ (s : State), s.held = false ∧ s.pst.state ≠ .acquire ∧ s.wave.guarded = false ∧ s.wave.expected = true)
    ∧ (∃ (s : State), s.held = false ∧ s.fab.missBurst s.time = true)
    ∧ (∃ (s : State), s.held = false ∧ s.fab.stallTh ≤ s.fab.missRun.toNat)
    ∧ (∃ (s : State), s.held = false ∧ s.crn.trapStallTh ≤ s.crn.trapRun.toNat)
    ∧ (∃ (s : State), s.held = false ∧ s.fab.govState = .tracking ∧ s.fab.newParams = none ∧ s.fab.auto = true ∧ s.fab.queue =
      [] ∧ s.fab.intervalMin = none)
    ∧ (∃ (s : State), s.held = false ∧ s.fab.govState = .emergency ∧ s.time < s.fab.emergAt + s.fab.params.recovery * 1000)
    ∧ (∃ (s : State) (mv : Half), s.held = false ∧ s.fab.govState = .tracking ∧ mv.toNat = s.fab.vcmd.toNat)
    ∧ (∃ (s : State), s.held = false ∧ s.fab.xfer = some .writeVout ∧ s.fab.waitingV = none ∧ s.fab.queue = []) :=
  ⟨⟨tFree tEn, by decide⟩,
    ⟨{ up with wave.running := some 5 }, -1, 5, by decide⟩,
    ⟨{ up with wave.running := some 5 }, 0, 5, by decide⟩,
    ⟨{ tFree tEn with wave.guarded := false, wave.expected := true }, by decide⟩,
    ⟨{ up with fab.winStart := some 0, fab.winMisses := 8 }, by decide⟩,
    ⟨{ up with fab.missRun := 16 }, by decide⟩,
    ⟨{ up with crn.trapRun := 16 }, by decide⟩,
    ⟨{ up with fab.govState := .tracking, fab.auto := true }, by decide⟩,
    ⟨{ up with fab.govState := .emergency }, by decide⟩,
    ⟨{ up with fab.govState := .tracking, fab.vcmd := 750 }, 750, by decide⟩,
    ⟨{ up with fab.xfer := some .writeVout }, by decide⟩⟩

theorem test_meets_GraphCommandsComplete :
    (∃ (s : State) (q : Sender) (c : _) (r : _), Accepts s q (bodyGraphLoadChunk c) ∧ c.data.length = c.length.toNat ∧ 4 ≤
      c.length.toNat ∧ c.length.toNat ≤ 4000 ∧ c.length.toNat % 4 = 0 ∧ regionOf s .staging q.part.val = some r ∧
      c.offset.toNat + c.length.toNat ≤ r.size)
    ∧ (∃ (s : State) (q : Sender) (length : _) (r : _), Accepts s q (bodyGraphVerify length) ∧ verifyBusy s q.part.val = false
      ∧ regionOf s .staging q.part.val = some r ∧ length.toNat ≤ r.size ∧ length.toNat ≤ 0x100000 ∧ (s.rdg.bank
      s.rdg.shadow).state ≠ .ready)
    ∧ (∃ (s : State) (q : Sender) (c : _), Accepts s q (bodyGraphCommit c) ∧ waveOk s c = true ∧ s.rdg.commit = none ∧
      s.rdg.halt = none ∧ stepWaiting s.pst = false ∧ (s.rdg.bank s.rdg.shadow).state = .ready ∧ s.rdg.resPart = q.part.val ∧
      (s.rdg.bank s.rdg.shadow).rate = s.pst.rate ∧ (s.rdg.bank s.rdg.shadow).corner.toNat ≤ loadCeiling s.fs)
    ∧ (∃ (s : State) (q : Sender) (c : _), Accepts s q bodyGraphCancel ∧ s.rdg.commit = some c ∧ c.part = q.part.val ∧ 2 ≤
      ahead s c.m)
    ∧ (∃ (s : State) (q : Sender), Accepts s q bodyGraphStatus)
    ∧ (∃ (s : State) (q : Sender), Accepts s q bodyGraphGetLayout ∧ (graphGetLayout q.part.val s).2.payload.length ≤ 1432)
    ∧ (∃ (s : State) (q : Sender) (ms : _), Accepts s q (bodyGraphSetReservation ms) ∧ 100 ≤ ms.toNat ∧ ms.toNat ≤ 10000)
    ∧ (∃ (s : State) (q : Sender) (c : _), Accepts s q (bodyGraphHalt c) ∧ waveOk s c = true ∧ s.rdg.commit = none ∧
      s.rdg.xfade = none ∧ s.rdg.halt = none ∧ s.rdg.live.isSome = true)
    ∧ (∃ (s : State) (q : Sender) (c : _) (n : _), Accepts s q (bodyNodeSetGain c) ∧ liveNode s q.part.val c.node.toNat = some
      n ∧ c.param.toNat < n.gainParams ∧ c.maskFlag = 0 ∧ c.a = 0 ∧ n.channels = 1 ∧ s.rdg.cellWrites = [])
    ∧ (∃ (s : State) (q : Sender) (node : _) (ms : _) (n : _), Accepts s q (bodyNodeSetTimeout node ms) ∧ liveNode s
      q.part.val node.toNat = some n ∧ 0 < n.gainParams ∧ ms.toNat ≤ 1000) :=
  ⟨⟨up, tq, { offset := 0xFFFFC, length := 4, data := [0, 0, 0, 0] }, tRegion 1 .staging, by unfold Accepts; decide⟩,
    ⟨up, tq, 0x100000, tRegion 1 .staging, by unfold Accepts; decide⟩,
    ⟨{ up with rdg.bankA.state := .ready }, tq, { wave := 0, n := 4096, flags := 1 }, by unfold Accepts; decide⟩,
    ⟨{ up with rdg.commit := some { m := 2, n := 0, part := 0 } }, tq, { m := 2, n := 0, part := 0 },
      by unfold Accepts; decide⟩,
    ⟨up, tq, by unfold Accepts; decide⟩,
    ⟨up, tq, by unfold Accepts; decide +kernel⟩,
    ⟨up, tq, 10000, by unfold Accepts; decide⟩,
    ⟨tLive, tq, { wave := 8, n := 4096, flags := 0 }, by unfold Accepts; decide⟩,
    ⟨tLive, tq, { node := 7, param := 0, maskFlag := 0, a := 0, gain := 0, mask := 0 }, tNode, by unfold Accepts; decide⟩,
    ⟨tLive, tq, 7, 1000, tNode, by unfold Accepts; decide⟩⟩

theorem test_meets_GraphEventsComplete :
    (∃ (s : State) (b : _) (parts : _) (corner : _) (total : _), s.held = false ∧ s.rdg.build = some b ∧ b.outcome = some
      (parts, corner, total) ∧ b.programs = [] ∧ b.inits = [])
    ∧ (∃ (s : State) (b : _), s.held = false ∧ s.rdg.build = some b ∧ b.outcome = none ∧ b.rejectNotOwner = false ∧
      b.rejectNoRes = false)
    ∧ (∃ (s : State), s.held = false ∧ s.rdg.xfade.isSome = true ∧ 0 ≤ serialDiff s.mcnt s.rdg.xfadeEnd)
    ∧ (∃ (s : State) (h : _) (b : _), s.held = false ∧ s.rdg.halt = some h ∧ h.began = some (s.mcnt - BitVec.ofNat 32 h.n) ∧
      s.rdg.live = some b)
    ∧ (∃ (s : State) (e : Fin 24) (cell : Half), s.held = false ∧ (s.engine e.val).pendValid cell.toNat = true ∧ (s.engine
      e.val).ramping cell.toNat = false) :=
  ⟨⟨{ up with rdg.build := some { part := 0, udp := false, rate := 1, outcome := some ([], 0, 0), programs := [], inits := [], rejectNotOwner := false, rejectNoRes := false, reason := 0 } },
      { part := 0, udp := false, rate := 1, outcome := some ([], 0, 0), programs := [], inits := [], rejectNotOwner := false, rejectNoRes := false, reason := 0 },
      [], 0, 0, by decide⟩,
    ⟨{ up with rdg.build := some { part := 0, udp := false, rate := 1, outcome := none, programs := [], inits := [], rejectNotOwner := false, rejectNoRes := false, reason := 5 } },
      { part := 0, udp := false, rate := 1, outcome := none, programs := [], inits := [], rejectNotOwner := false, rejectNoRes := false, reason := 5 },
      by decide⟩,
    ⟨{ up with rdg.xfade := some 0 }, by decide⟩,
    ⟨{ tLive with pst.mcnt := 9, rdg.halt := some { h := 8, n := 1, began := some 8 } }, { h := 8, n := 1, began := some 8 },
      0, by decide⟩,
    ⟨tLive.setEngine 3 { Engine.init with c := [(3, 1)] }, 3, 0, by decide⟩⟩

theorem test_meets_CairnControlRowsComplete :
    (∃ (s : State) (n : Fin 24) (ss : _) (len : _), CanIssue s n.val (.c (.loop ss len)) ∧ ((s.engine n.val).sreg
      ss.toNat).toNat % 65536 ≠ 0 ∧ (s.engine n.val).loops.length < 3 ∧ (s.engine n.val).pc + (len.toNat + 1) ≤ 2047)
    ∧ (∃ (s : State) (n : Fin 24) (count : _) (len : _), CanIssue s n.val (.c (.loopi count len)) ∧ count.toNat ≠ 0 ∧
      (s.engine n.val).loops.length < 3 ∧ (s.engine n.val).pc + (len.toNat + 1) ≤ 2047)
    ∧ (∃ (s : State) (n : Fin 24) (cls : _) (i : _) (value : _), CanIssue s n.val (.c (.seta cls i value)) ∧ ((s.engine
      n.val).advanceFrom (s.engine n.val).pc).pc < 2048)
    ∧ (∃ (s : State) (n : Fin 24) (sd : _) (imm : _), CanIssue s n.val (.c (.movi sd imm)) ∧ ((s.engine n.val).advanceFrom
      (s.engine n.val).pc).pc < 2048)
    ∧ (∃ (s : State) (n : Fin 24) (toY : _) (pn : _) (ss : _) (lines : _), CanIssue s n.val (.c (.far false toY pn ss lines))
      ∧ ((s.engine n.val).advanceFrom (s.engine n.val).pc).pc < 2048 ∧ (s.engine n.val).far = [] ∧ farRangeOk ((s.engine
      n.val).sreg ss.toNat).toNat ((s.engine n.val).preg pn.toNat) (4 * (lines.toNat + 1)) = true ∧ farDeny s n.val ((s.engine
      n.val).sreg ss.toNat).toNat (4 * (lines.toNat + 1)) false = none ∧ farRegionOk s n.val ((s.engine n.val).sreg
      ss.toNat).toNat (4 * (lines.toNat + 1)) = true)
    ∧ (∃ (s : State) (n : Fin 24) (ss : _), CanIssue s n.val (.c (.seed ss)) ∧ ((s.engine n.val).advanceFrom (s.engine
      n.val).pc).pc < 2048)
    ∧ (∃ (s : State) (n : Fin 24), CanIssue s n.val (.c .stop) ∧ (s.engine n.val).far = [] ∧ (s.engine n.val).pc < 2048)
    ∧ (∃ (s : State) (n : Fin 24) (word : _), s.held = false ∧ (s.engine n.val).trapped = false ∧ (s.engine n.val).ended =
      false ∧ CWord.decode word = none)
    ∧ (∃ (s : State) (n : Fin 24) (x : _), s.held = false ∧ (s.engine n.val).far = [x] ∧ x.inbound = true ∧ s.mem.tarnBadIn
      x.tarn (4 * x.words) = false)
    ∧ (∃ (s : State) (n : Fin 24), s.held = false ∧ (s.engine n.val).window = true ∧ s.rdg.cells = [] ∧ s.rdg.cellWrites = [])
    ∧ (∃ (s : State) (n : Fin 24) (p : Fin 4) (i : Fin 4096) (x : _), s.held = false ∧ entryAt s p.val i.val = some x ∧
      entryReady s p.val i.val x = true ∧ x.target = n.val ∧ (s.engine n.val).trapped = false ∧ (s.engine n.val).entry = none)
    ∧ (∃ (s : State) (n : Fin 24) (p : Fin 4) (i : Fin 4096) (x : _), s.held = false ∧ entryAt s p.val i.val = some x ∧
      s.wave.dispatched.contains (p.val, i.val) = true ∧ s.entryDone p.val i.val = false ∧ x.target = n.val ∧ (s.engine
      n.val).far = [] ∧ (s.engine n.val).trapped = false ∧ (s.engine n.val).ended = true) :=
  ⟨⟨tEng { Engine.init with s := [(0, 0x10001)] }, 3, 0, 2046, by unfold CanIssue; decide⟩,
    ⟨up, 3, 1, 2046, by unfold CanIssue; decide⟩,
    ⟨up, 3, 1, 0, 0xC000, by unfold CanIssue; decide⟩,
    ⟨up, 3, 7, 0xFFFFFFFF, by unfold CanIssue; decide⟩,
    ⟨tEng { Engine.init with s := [(0, 0x100000)] }, 3, true, 0, 0, 255, by unfold CanIssue; decide⟩,
    ⟨up, 3, 0, by unfold CanIssue; decide⟩,
    ⟨tEng { Engine.init with pc := 2047 }, 3, by unfold CanIssue; decide⟩,
    ⟨up, 3, 0xC000000000000000, by decide⟩,
    ⟨tEng { Engine.init with far := [{ inbound := true, toY := false, tarn := 0x100000, loc := 16380, words := 4 }] }, 3,
      { inbound := true, toY := false, tarn := 0x100000, loc := 16380, words := 4 }, by decide⟩,
    ⟨tEng { Engine.init with window := true }, 3, by decide⟩,
    ⟨{ tLive with wave.running := some 5 }, 3, 0, 0, tEntry, by decide⟩,
    ⟨{ tLive with wave.dispatched := [(0, 0)], crn.engines := [(3, { Engine.init with ended := true })] }, 3, 0, 0, tEntry,
      by decide⟩⟩

theorem test_meets_CairnCommandsComplete :
    (∃ (s : State) (q : Sender) (th : _), Accepts s q (bodyCrnSetTrapEscalation th) ∧ 2 ≤ th.toNat ∧ th.toNat ≤ 4800)
    ∧ (∃ (s : State) (q : Sender), Accepts s q bodyCrnGetStatus)
    ∧ (∃ (s : State) (q : Sender) (engine : _) (mem : _) (addr : _) (count : _), Accepts s q (bodyCrnReadMem engine mem addr
      count) ∧ engine.toNat ≤ 23 ∧ mem.toNat ≤ 2 ∧ 1 ≤ count.toNat ∧ count.toNat ≤ 300 ∧ addr.toNat + count.toNat ≤ 16384) :=
  ⟨⟨up, tq, 4800, by unfold Accepts; decide⟩,
    ⟨up, tq, by unfold Accepts; decide⟩,
    ⟨up, tq, 23, 2, 16084, 300, by unfold Accepts; decide⟩⟩

theorem test_meets_CairnLaneValues :
    (∃ (j : Nat), j < 4) :=
  ⟨3, by decide⟩

theorem test_meets_MatrixRowsComplete :
    (∃ (s : State) (q : Sender) (c : _) (a : _) (mode : _) (e : _), Accepts s q (bodyMtxSetGains c) ∧ c.entries = [e] ∧
      c.reserved = 0 ∧ c.reserved2 = 0 ∧ mtxMode c.mode.toNat c.n.toNat = some mode ∧ armedWave s c.a = some a ∧ entryOk
      (meridianInputs s.pst.rate) e = true ∧ s.mtx.chg (entryKey e) = false ∧ slotsAfter s.mtx q.part.val
      [entryChange s q.part.val false a mode e] ≤ s.mtx.quota q.part.val)
    ∧ (∃ (s : State) (q : Sender) (c : _) (a : _) (mode : _), Accepts s q (bodyMtxBulkArm c) ∧ mtxMode c.mode.toNat c.n.toNat
      = some mode ∧ armedWave s c.a = some a ∧ 1 ≤ c.count.toNat ∧ c.count.toNat ≤ 4096 ∧ c.reserved = 0 ∧ s.mtx.arm
      q.part.val = none)
    ∧ (∃ (s : State) (p : Fin 4) (x : _), s.held = false ∧ s.mtx.arm p.val = some x ∧ x.checking = true ∧ firstFailing s p.val
      x.count = none ∧ slotsAfter s.mtx p.val ((List.range x.count).map fun i => entryChange s p.val true x.a x.mode
      (stagedEntry s.mtx p.val i)) ≤ s.mtx.quota p.val)
    ∧ (∃ (s : State) (q : Sender) (x : _), Accepts s q bodyMtxBulkCancel ∧ s.mtx.arm q.part.val = some x ∧ x.checking = false
      ∧ 2 ≤ ahead s x.a)
    ∧ (∃ (s : State) (q : Sender) (col : _) (ms : _), Accepts s q (bodyMtxSetColumn col ms) ∧ col.toNat < 512 ∧ ms.toNat ≤ 1000)
    ∧ (∃ (s : State) (q : Sender) (col : _) (first : _) (count : _), Accepts s q (bodyMtxGetGains col first count) ∧ col.toNat
      < 512 ∧ 1 ≤ count.toNat ∧ count.toNat ≤ 350 ∧ first.toNat + count.toNat ≤ meridianInputs s.pst.rate)
    ∧ (∃ (s : State) (q : Sender), Accepts s q bodyMtxGetStatus)
    ∧ (∃ (s : State) (q : Sender) (a : Half) (b : Half) (c : Half) (d : Half), Accepts s q (bodyMtxSetQuota [a, b, c, d]) ∧
      a.toNat + b.toNat + c.toNat + d.toNat ≤ 8192 ∧ (∀ p, p < 4 → s.mtx.slotsOf p ≤
      ([a.toNat, b.toNat, c.toNat, d.toNat].getD p 0)))
    ∧ (∃ (s : State) (col : Fin 512) (input : Fin 2048) (c : _), s.held = false ∧ s.mtx.changes = [c] ∧ c.key = 2048 * col.val
      + input.val ∧ s.wave.running = none ∧ c.expired s.mtx = true)
    ∧ (∃ (s : State) (p : Fin 4) (offset : BitVec 15) (bytes : List Byte), s.held = false ∧ s.mtx.arm p.val = none ∧
      offset.toNat + bytes.length ≤ 0x8000) :=
  ⟨⟨up, tq, { a := 0, mode := 0, reserved := 0, n := 0, reserved2 := 0, entries := [0] }, 8, .step, 0,
      by unfold Accepts; decide⟩,
    ⟨up, tq, { a := 8, mode := 1, reserved := 0, n := 4096, count := 4096 }, 8, .ramp 4096, by unfold Accepts; decide⟩,
    ⟨{ up with mtx.arms := [(0, some { a := 8, mode := .zc, count := 1, checking := true, udp := false })] }, 0,
      { a := 8, mode := .zc, count := 1, checking := true, udp := false }, by decide⟩,
    ⟨{ up with mtx.arms := [(0, some { a := 2, mode := .zc, count := 1, checking := false, udp := false })] }, tq,
      { a := 2, mode := .zc, count := 1, checking := false, udp := false }, by unfold Accepts; decide⟩,
    ⟨up, tq, 511, 1000, by unfold Accepts; decide⟩,
    ⟨up, tq, 511, 2047, 1, by unfold Accepts; decide⟩,
    ⟨up, tq, by unfold Accepts; decide⟩,
    ⟨up, tq, 2048, 2048, 2048, 2048, by unfold Accepts; decide⟩,
    ⟨{ up with mtx.lastWave := 479, mtx.changes := [{ key := 2048 * 511 + 2047, target := 0, a := 0, mode := .zc, timeout := 480, part := 0, bulk := false, slot := true, phase := .watching }] },
      511, 2047,
      { key := 2048 * 511 + 2047, target := 0, a := 0, mode := .zc, timeout := 480, part := 0, bulk := false, slot := true, phase := .watching },
      by decide⟩,
    ⟨up, 3, 0x7FFF, [1], by decide⟩⟩

theorem test_meets_MemoryRowsComplete :
    (∃ (s : State), s.held = false ∧ s.mem.tarnBad = [])
    ∧ (∃ (s : State), s.held = false ∧ s.mem.tarnBad = [])
    ∧ (∃ (s : State), s.held = false ∧ s.wave.running = none)
    ∧ (∃ (s : State), s.held = false ∧ s.wave.running = none)
    ∧ (∃ (s : State) (p : Fin 4) (addr : ColAddr) (bs : List Byte), s.held = false ∧ present s (.pf p) = true ∧ targetOf s
      addr.toNat < 16 ∧ inHostRegion s p.val addr.toNat bs.length = true ∧ s.col.gatedMasters = 0 ∧ s.col.gatedTargets = 0 ∧
      s.col.fenced = 0 ∧ s.mem.tarnBad = [])
    ∧ (∃ (s : State) (p : Fin 4) (addr : ColAddr) (n : Half), s.held = false ∧ present s (.pf p) = true ∧ targetOf s
      addr.toNat < 16 ∧ inHostRegion s p.val addr.toNat n.toNat = true ∧ s.col.gatedMasters = 0 ∧ s.col.gatedTargets = 0 ∧
      s.col.fenced = 0 ∧ s.mem.tarnBad = []) :=
  ⟨⟨up, by decide⟩,
    ⟨up, by decide⟩,
    ⟨up, by decide⟩,
    ⟨up, by decide⟩,
    ⟨up, 0, 0x1FFFFE, [1, 2], by decide⟩,
    ⟨up, 0, 0x1FFFFC, 4, by decide⟩⟩

theorem test_meets_DmaRowsComplete :
    (∃ (s : State) (q : Requester) (ch : Fin 32), MayWrite s q (0x0800 + 0x40 * ch.val) ∧ (s.dmaCh ch.val).running = false)
    ∧ (∃ (s : State) (q : Requester) (ch : Fin 32), MayWrite s q (0x0800 + 0x40 * ch.val) ∧ (s.dmaCh ch.val).running = true ∧
      (s.dmaCh ch.val).linked = false)
    ∧ (∃ (s : State) (ch : Fin 32), s.held = false ∧ s.dma.stopped = false ∧ (s.dmaCh ch.val).phase = .fetch ∧ dmaRangeOk s
      ch.val (s.dmaCh ch.val).cur.toNat 32 false = true ∧ targetOf s (s.dmaCh ch.val).cur.toNat < 16 ∧ s.mem.tarnBad = [] ∧
      s.col.fenced = 0 ∧ s.col.gatedMasters = 0 ∧ s.col.gatedTargets = 0)
    ∧ (∃ (s : State) (ch : Fin 32) (u : _), s.held = false ∧ burstReady s ch.val = true ∧ (s.dmaCh ch.val).badCode = none ∧
      dmaRangeOk s ch.val ((s.dmaCh ch.val).mSrc + ((s.dmaCh ch.val).mCount - (s.dmaCh ch.val).remain.toNat)) (min (s.dmaCh
      ch.val).burstBytes (s.dmaCh ch.val).remain.toNat) false = true ∧ dmaRangeOk s ch.val ((s.dmaCh ch.val).mDst + ((s.dmaCh
      ch.val).mCount - (s.dmaCh ch.val).remain.toNat)) (min (s.dmaCh ch.val).burstBytes (s.dmaCh ch.val).remain.toNat) true =
      true ∧ movePieces 4 ((s.dmaCh ch.val).mSrc + ((s.dmaCh ch.val).mCount - (s.dmaCh ch.val).remain.toNat)) ((s.dmaCh
      ch.val).mDst + ((s.dmaCh ch.val).mCount - (s.dmaCh ch.val).remain.toNat)) (min (s.dmaCh ch.val).burstBytes (s.dmaCh
      ch.val).remain.toNat) (takeRequest (s.dmaCh ch.val) s) = (u, none))
    ∧ (∃ (s : State), s.held = false)
    ∧ (∃ (s : State) (line : Fin 128), s.held = false ∧ s.dma.lines.getLsbD line.val = true ∧ s.dma.ch = [])
    ∧ (∃ (s : State) (ch : Fin 32), s.held = false ∧ (s.dmaCh ch.val).evtKind = 0)
    ∧ (∃ (s : State) (ch : Fin 32), s.held = false ∧ (s.dmaCh ch.val).running = true ∧ (s.dmaCh ch.val).evtKind = 1 ∧ (s.dmaCh
      ch.val).tArmed = true ∧ 0 ≤ serialDiff s.mcnt (s.dmaCh ch.val).t)
    ∧ (∃ (s : State) (ch : Fin 32), s.held = false ∧ s.dma.stopped = false ∧ (s.dmaCh ch.val).phase = .complete ∧ (s.dmaCh
      ch.val).mCount = 0 ∧ (s.dmaCh ch.val).linked = false)
    ∧ (∃ (s : State), s.held = false) :=
  ⟨⟨up, tr, 0, by unfold MayWrite; decide⟩,
    ⟨tDma { DmaCh.init with running := true }, tr, 0, by unfold MayWrite; decide⟩,
    ⟨tDma { DmaCh.init with running := true, phase := .fetch, cur := 0x10_0000 }, 0, by decide⟩,
    ⟨tDma tMove, 0, (movePieces 4 0x10_0000 0x20_0000 16 (tDma tMove)).1, by decide +kernel⟩,
    ⟨up, by decide⟩,
    ⟨{ up with dma.lines := BitVec.twoPow 128 127 }, 127, by decide⟩,
    ⟨up, 0, by decide⟩,
    ⟨tDma { DmaCh.init with running := true, lPace := 0x100, tArmed := true }, 0, by decide⟩,
    ⟨tDma { DmaCh.init with phase := .complete }, 0, by decide⟩,
    ⟨up, by decide⟩⟩

theorem test_meets_MemoryCommandsComplete :
    (∃ (s : State) (q : Sender), Accepts s q bodyDmaResume ∧ s.dma.stopped = true ∧ s.dma.ch = [])
    ∧ (∃ (s : State) (q : Sender) (period : _) (timeout : _), Accepts s q (bodyMemSetScrub period timeout) ∧ 1 ≤ period.toNat
      ∧ period.toNat ≤ 600 ∧ 2 ≤ timeout.toNat ∧ timeout.toNat ≤ 1000)
    ∧ (∃ (s : State) (q : Sender), Accepts s q bodyMemGetStatus) :=
  ⟨⟨{ up with dma.stopped := true }, tq, by unfold Accepts; decide⟩,
    ⟨up, tq, 600, 1000, by unfold Accepts; decide⟩,
    ⟨up, tq, by unfold Accepts; decide⟩⟩

theorem test_meets_TdmCommandsComplete :
    (∃ (s : State) (q : Sender) (c : _), Accepts s q (bodyTdmSetGroup c) ∧ c.group.toNat ≤ 7 ∧ c.foreign = 0 ∧ c.rate.toNat ≤
      4 ∧ (∀ n, n ∈ portsOf c.group.toNat → (s.port n).state = .stopped) ∧ asrcFits (fun h => if h = c.group.toNat then false
      else (s.group h).foreign) (masksDue s) = true)
    ∧ (∃ (s : State) (q : Sender) (c : _), Accepts s q (bodyTdmSetPort c) ∧ portParamsOk s c = true ∧ masksWithin (s.port
      c.port.toNat) c.n.toNat = true ∧ (s.port c.port.toNat).state = .stopped)
    ∧ (∃ (s : State) (q : Sender) (c : _), Accepts s q (bodyTdmSetRing c) ∧ c.port.toNat < 64 ∧ c.ringSlots = 1 ∧ c.depth = 2
      ∧ c.base.toNat % 16 = 0 ∧ c.dmaReqEn = 0 ∧ c.reqFrames = 1 ∧ popcount (s.port c.port.toNat).rxMask ≤ 1 ∧ popcount
      (s.port c.port.toNat).stageRx ≤ 1 ∧ popcount (s.port c.port.toNat).due.1 ≤ 1 ∧ c.base.toNat + 64 ≤ 0x0200_0000 ∧
      inOwnRegion s q.part.val c.base.toNat 64 = true ∧ (s.port c.port.toNat).state = .stopped)
    ∧ (∃ (s : State) (q : Sender) (c : _), Accepts s q (bodyTdmStageMask c) ∧ c.port.toNat ≤ 63 ∧ maskOver c.rx (s.port
      c.port.toNat).n = false ∧ maskOver c.tx (s.port c.port.toNat).n = false ∧ popcount c.rx ≤ maxSlots (portRate s
      c.port.toNat) ∧ popcount c.tx ≤ maxSlots (portRate s c.port.toNat) ∧ ((s.port c.port.toNat).ringSet = true → popcount
      c.rx ≤ (s.port c.port.toNat).ringSlots))
    ∧ (∃ (s : State) (q : Sender) (mask : _), Accepts s q (bodyTdmCommit mask) ∧ (∀ n, n ∈ bitsOf mask → (s.port n).busy =
      false) ∧ asrcFits (fun g => (s.group g).foreign) (fun n => if (bitsOf mask).contains n then ((s.port n).stageRx, (s.port
      n).stageTx) else masksDue s n) = true)
    ∧ (∃ (s : State) (q : Sender) (mask : _), Accepts s q (bodyTdmStart mask) ∧ (∀ n, n ∈ bitsOf mask → (s.port n).busy =
      false ∧ startOk s n = true))
    ∧ (∃ (s : State) (q : Sender) (mask : _), Accepts s q (bodyTdmStop mask) ∧ (∀ n, n ∈ bitsOf mask → (s.port n).busy = false))
    ∧ (∃ (s : State) (q : Sender) (port : _), Accepts s q (bodyTdmGetStatus port) ∧ port.toNat ≤ 63) :=
  ⟨⟨up, tq, { group := 7, foreign := 0, rate := 4 }, by unfold Accepts; decide⟩,
    ⟨up, tq,
      { port := 63, role := 0, mode := 0, n := 32, l := 1024, w := 32, offset := 31, fsWidth := 2, flags := 7, timeout := 1000 },
      by unfold Accepts; decide⟩,
    ⟨up, tq, { port := 63, ringSlots := 1, depth := 2, base := 0x200000, dmaReqEn := 0, reqFrames := 1 },
      by unfold Accepts; decide⟩,
    ⟨up, tq, { port := 63, rx := 0xFF, tx := 0 }, by unfold Accepts; decide⟩,
    ⟨up, tq, 1 <<< 63, by unfold Accepts; decide⟩,
    ⟨up.setPort 63 { Port.init with ringSet := true }, tq, 1 <<< 63, by unfold Accepts; decide⟩,
    ⟨up, tq, 1 <<< 63, by unfold Accepts; decide⟩,
    ⟨up, tq, 63, by unfold Accepts; decide⟩⟩

theorem test_meets_TdmEventsComplete :
    (∃ (s : State) (n : Fin 64), s.held = false ∧ (s.port n.val).state = .running ∧ isSlave s n.val = false)
    ∧ (∃ (s : State) (n : Fin 64) (f : TdmFrame), s.held = false ∧ (s.port n.val).state = .running ∧ isSlave s n.val = true ∧
      (s.port n.val).locked = true ∧ f.bitClocks.toNat = (s.port n.val).l ∧ inPhase s n.val f.phase = false)
    ∧ (∃ (s : State) (n : Fin 64), s.held = false ∧ isSlave s n.val = true ∧ (s.port n.val).state = .running ∧ (s.port
      n.val).locked = true)
    ∧ (∃ (s : State) (n : Fin 64), s.held = false ∧ isSlave s n.val = true ∧ (s.port n.val).state = .starting ∧ (s.port
      n.val).locked = false ∧ 4 ≤ (s.port n.val).goodRun ∧ (s.group (groupOfPort n.val)).foreign = false)
    ∧ (∃ (s : State) (n : Fin 64), s.held = false ∧ isSlave s n.val = true ∧ (s.port n.val).locked = true ∧ 4 ≤ (s.port
      n.val).errRun ∧ (s.group (groupOfPort n.val)).foreign = false)
    ∧ (∃ (s : State) (n : Fin 64) (slot : Fin 32), s.held = false ∧ ((s.port n.val).txSlot slot.val).gate = .opening)
    ∧ (∃ (s : State) (n : Fin 64) (slot : Fin 32), s.held = false ∧ ((s.port n.val).rxSlot slot.val).gate = .fadeOut 32)
    ∧ (∃ (s : State) (n : Fin 64) (rx : _) (tx : _), s.held = false ∧ (s.port n.val).commit = some (rx, tx, .silencing) ∧
      allClosed (s.port n.val).rx ((s.port n.val).rxMask &&& ~~~rx) = true ∧ allClosed (s.port n.val).tx ((s.port
      n.val).txMask &&& ~~~tx) = true)
    ∧ (∃ (s : State) (n : Fin 64), s.held = false ∧ (s.port n.val).state = .starting ∧ inSearch s n.val = false ∧ allOpen
      (s.port n.val).rx (s.port n.val).rxMask = true ∧ allOpen (s.port n.val).tx (s.port n.val).txMask = true)
    ∧ (∃ (s : State) (n : Fin 64), s.held = false ∧ (s.port n.val).state = .stopping ∧ allClosed (s.port n.val).rx (s.port
      n.val).rxMask = true ∧ allClosed (s.port n.val).tx (s.port n.val).txMask = true)
    ∧ (∃ (s : State) (n : Fin 64) (g : Fin 8), s.held = false ∧ (s.group g.val).foreign = true ∧ (s.group g.val).asrcLock =
      false ∧ timingPort s g.val = some n.val ∧ (s.port n.val).locked = true)
    ∧ (∃ (s : State) (g : Fin 8), s.held = false ∧ (s.group g.val).foreign = false) :=
  ⟨⟨tPort { Port.init with state := .running }, 5, by decide⟩,
    ⟨tPort { Port.init with state := .running, slave := true, locked := true }, 5,
      { k := 0, bitClocks := 256, phase := 5209, parity := 0, words := [] }, by decide⟩,
    ⟨tPort { Port.init with state := .running, slave := true, locked := true }, 5, by decide⟩,
    ⟨tPort { Port.init with state := .starting, slave := true, goodRun := 4 }, 5, by decide⟩,
    ⟨tPort { Port.init with slave := true, locked := true, errRun := 4 }, 5, by decide⟩,
    ⟨tPort { Port.init with tx := [(31, { Slot.init with gate := .opening })] }, 5, 31, by decide⟩,
    ⟨tPort { Port.init with rx := [(31, { Slot.init with gate := .fadeOut 32 })] }, 5, 31, by decide⟩,
    ⟨tPort { Port.init with rxMask := 3, txMask := 1, commit := some (1, 1, .silencing) }, 5, 1, 1, by decide⟩,
    ⟨tPort { Port.init with state := .starting }, 5, by decide⟩,
    ⟨tPort { Port.init with state := .stopping }, 5, by decide⟩,
    ⟨{ tPort { Port.init with state := .running, locked := true } with tdm.groups := [(0, { Group.init with foreign := true })] },
      5, 0, by decide⟩,
    ⟨up, 7, by decide⟩⟩

theorem test_meets_PowerCommandsComplete :
    (∃ (s : State) (q : Sender) (c : _), Accepts s q (bodyPwsSetStage c) ∧ 350 ≤ c.f0.toNat ∧ c.f0.toNat ≤ 600 ∧ 100 ≤
      c.uv.toNat ∧ c.uv.toNat ≤ 1400 ∧ 200 ≤ c.ov.toNat ∧ c.ov.toNat ≤ 1600 ∧ c.uv.toNat + 100 ≤ c.ov.toNat ∧ (∀ n, n < 16 →
      (s.pwsCh n).state = .off ∨ (s.pwsCh n).state = .latched))
    ∧ (∃ (s : State) (q : Sender) (c : _), Accepts s q (bodyPwsSetChannel c) ∧ c.channel.toNat < 16 ∧ c.retries.toNat < 16 ∧
      1000 ≤ c.d.toNat ∧ c.d.toNat ≤ 17000 ∧ 50 ≤ c.limit.toNat ∧ c.limit.toNat ≤ 780 ∧ 50 ≤ c.dcTh.toNat ∧ c.dcTh.toNat ≤
      2000 ∧ 50 ≤ c.dcTime.toNat ∧ c.dcTime.toNat ≤ 2000 ∧ c.dcTime.toNat % 10 = 0 ∧ 100 ≤ c.retryDelay.toNat ∧
      c.retryDelay.toNat ≤ 10000 ∧ ((s.pwsCh c.channel.toNat).state = .off ∨ (s.pwsCh c.channel.toNat).state = .latched))
    ∧ (∃ (s : State) (q : Sender) (mask : _), Accepts s q (bodyPwsStart mask) ∧ (∀ n, n ∈ bitsOf mask → (s.pwsCh n).state =
      .off))
    ∧ (∃ (s : State) (q : Sender) (mask : _), Accepts s q (bodyPwsStop mask))
    ∧ (∃ (s : State) (q : Sender) (mask : _) (m : _), Accepts s q (bodyPwsMute mask m) ∧ m.toNat ≤ 1)
    ∧ (∃ (s : State) (q : Sender) (mask : _), Accepts s q (bodyPwsClear mask) ∧ (∀ n, n ∈ bitsOf mask → (s.pwsCh n).state =
      .latched))
    ∧ (∃ (s : State) (q : Sender) (c : _), Accepts s q (bodyPwsGetStatus c) ∧ c.toNat < 16) :=
  ⟨⟨up, tq, { f0 := 350, divider := 0, uv := 100, ov := 200 }, by unfold Accepts; decide⟩,
    ⟨up, tq, { channel := 15, retries := 15, d := 17000, limit := 780, dcTh := 2000, dcTime := 2000, retryDelay := 10000 },
      by unfold Accepts; decide⟩,
    ⟨up, tq, 0x8000, by unfold Accepts; decide⟩,
    ⟨up, tq, 0x8000, by unfold Accepts; decide⟩,
    ⟨up, tq, 0x8000, 1, by unfold Accepts; decide⟩,
    ⟨tPws { PwsCh.init with state := .latched }, tq, 0x8000, by unfold Accepts; decide⟩,
    ⟨up, tq, 15, by unfold Accepts; decide⟩⟩

theorem test_meets_PowerEventsComplete :
    (∃ (s : State) (c : Fin 16) (fb : Word) (isense : Word), s.held = false ∧ (s.pwsCh c.val).state = .starting ∧ (s.pwsCh
      c.val).stage = .check ∧ fb.toInt.natAbs ≤ 50 ∧ (isense.toInt - 900).natAbs ≤ 50)
    ∧ (∃ (s : State) (c : Fin 16) (fb : Word), s.held = false ∧ (s.pwsCh c.val).state = .starting ∧ (s.pwsCh c.val).stage =
      .check ∧ 50 < fb.toInt.natAbs)
    ∧ (∃ (s : State) (c : Fin 16), s.held = false ∧ (s.pwsCh c.val).state = .starting ∧ (s.pwsCh c.val).stage = .hold)
    ∧ (∃ (s : State) (c : Fin 16), s.held = false ∧ (s.pwsCh c.val).released = true ∧ (s.pwsCh c.val).state = .playing ∧
      muteHeldOn s c.val = true ∧ 0 < (s.pwsCh c.val).gain)
    ∧ (∃ (s : State) (c : Fin 16), s.held = false ∧ (s.pwsCh c.val).released = true ∧ (s.pwsCh c.val).state = .starting ∧
      (s.pwsCh c.val).stage = .unmute ∧ muteHeldOn s c.val = false ∧ (s.pwsCh c.val).gain = 31)
    ∧ (∃ (s : State) (c : Fin 16), s.held = false ∧ (s.pwsCh c.val).state = .stopping ∧ (s.pwsCh c.val).gain = 0 ∧ (s.pwsCh
      c.val).stopTo = .off)
    ∧ (∃ (s : State) (c : Fin 16), s.held = false ∧ (s.pwsCh c.val).state = .stopping ∧ (s.pwsCh c.val).gain = 0 ∧ (s.pwsCh
      c.val).stopTo = .latchedDc)
    ∧ (∃ (s : State) (c : Fin 16), s.held = false ∧ (s.pwsCh c.val).released = true)
    ∧ (∃ (s : State) (c : Fin 16), s.held = false ∧ (s.pwsCh c.val).released = true ∧ (s.pwsCh c.val).state = .playing ∧
      (s.pwsCh c.val).retries < (s.pwsCh c.val).maxRetries)
    ∧ (∃ (s : State) (c : Fin 16), s.held = false ∧ (s.pwsCh c.val).released = true ∧ (s.pwsCh c.val).state = .playing ∧
      (s.pwsCh c.val).maxRetries ≤ (s.pwsCh c.val).retries)
    ∧ (∃ (s : State) (c : Fin 16), s.held = false ∧ (s.pwsCh c.val).state = .retryWait ∧ busBad s = false)
    ∧ (∃ (s : State) (c : Fin 16), s.held = false ∧ (s.pwsCh c.val).state = .playing)
    ∧ (∃ (s : State) (c : Fin 16) (mv : Word), s.held = false ∧ (s.pwsCh c.val).released = true ∧ mv.toInt.natAbs ≤ 10 *
      (s.pwsCh c.val).dcTh ∧ 0 < (s.pwsCh c.val).dcTime)
    ∧ (∃ (s : State) (c : Fin 16), s.held = false ∧ (s.pwsCh c.val).released = true) :=
  ⟨⟨tPws { PwsCh.init with state := .starting }, 15, 50, 950, by decide⟩,
    ⟨tPws { PwsCh.init with state := .starting }, 15, -51, by decide⟩,
    ⟨tPws { PwsCh.init with state := .starting, stage := .hold }, 15, by decide⟩,
    ⟨tPws { PwsCh.init with state := .playing, released := true, gain := 32 }, 15, by decide⟩,
    ⟨{ tPws { PwsCh.init with state := .starting, stage := .unmute, released := true, gain := 31, hostMute := false } with rdg.live := some 0, pst.state := .freerun },
      15, by decide⟩,
    ⟨tPws { PwsCh.init with state := .stopping }, 15, by decide⟩,
    ⟨tPws { PwsCh.init with state := .stopping, stopTo := .latchedDc }, 15, by decide⟩,
    ⟨tPws { PwsCh.init with released := true }, 15, by decide⟩,
    ⟨tPws { PwsCh.init with state := .playing, released := true, retries := 2 }, 15, by decide⟩,
    ⟨tPws { PwsCh.init with state := .playing, released := true, retries := 3 }, 15, by decide⟩,
    ⟨tPws { PwsCh.init with state := .retryWait }, 15, by decide⟩,
    ⟨tPws { PwsCh.init with state := .playing }, 15, by decide⟩,
    ⟨tPws { PwsCh.init with released := true }, 15, -2000, by decide⟩,
    ⟨tPws { PwsCh.init with released := true }, 15, by decide⟩⟩

theorem test_meets_PowerBusEventsComplete :
    (∃ (s : State), s.held = false)
    ∧ (∃ (s : State), s.held = false)
    ∧ (∃ (s : State), s.held = false) :=
  ⟨⟨up, by decide⟩,
    ⟨up, by decide⟩,
    ⟨up, by decide⟩⟩

theorem test_meets_NetworkCommandsComplete :
    (∃ (s : State) (q : Sender) (c : _), Accepts s q (bodyNetSetPort c) ∧ netPortOk c = true ∧ (s.netPort c.port.toNat).linkUp
      = false)
    ∧ (∃ (s : State) (q : Sender) (c : _), Accepts s q (bodyNetSetSwitch c) ∧ c.express = 176000 ∧ c.share = 131072 ∧ c.high =
      75 ∧ c.low = 25 ∧ c.causes.toNat ≤ 7 ∧ c.unknown.toNat ≤ 1 ∧ 10 ≤ c.ageing.toNat ∧ c.ageing.toNat ≤ 3600 ∧ memoryFits
      176000 131072 (s.net.rx.map Ring.queueKiB) = true)
    ∧ (∃ (s : State) (q : Sender) (c : _), Accepts s q (bodyNetFdbWrite c) ∧ c.vlan.toNat ≤ 4094 ∧ c.domain.toNat ≤ 1 ∧
      c.mask.toNat ≤ 63 ∧ c.flags.toNat ≤ 1 ∧ s.net.fdb.length < 4096)
    ∧ (∃ (s : State) (q : Sender) (vid : _) (mem : _) (tag : _), Accepts s q (bodyNetVlanWrite vid mem tag) ∧ vid.toNat ≤ 4094
      ∧ mem.toNat ≤ 63 ∧ tag.toNat ≤ 63 ∧ s.net.vlans.length < 64)
    ∧ (∃ (s : State) (q : Sender) (c : _), Accepts s q (bodyNetSetFilter c) ∧ c.index.toNat ≤ 31 ∧ c.enable = 1 ∧ c.ring.toNat
      ≤ 7 ∧ c.kind.toNat ≤ 3 ∧ c.vlan = 0xFFFF)
    ∧ (∃ (s : State) (q : Sender) (c : _), Accepts s q (bodyNetSetRing c) ∧ netRingOk c s = true ∧ c.dir = 0 ∧ (s.rxRing
      c.ring.toNat).enable = false)
    ∧ (∃ (s : State) (q : Sender) (port : _) (mode : _), Accepts s q (bodyNetTest port mode) ∧ port.toNat ≤ 3 ∧ mode.toNat ≤ 1)
    ∧ (∃ (s : State) (q : Sender) (port : _), Accepts s q (bodyNetGetStatus port) ∧ port.toNat ≤ 3) :=
  ⟨⟨up, tq,
      { port := 3, enable := 1, speed := 1, fec := 2, maxFrame := 9022, preempt := 1, addFrag := 3, pauseMode := 2, domain := 1, pvid := 4094, holdDown := 10000, watchdog := 1000, release := 1000 },
      by unfold Accepts; decide⟩,
    ⟨up, tq, { express := 176000, share := 131072, high := 75, low := 25, causes := 7, unknown := 1, ageing := 3600 },
      by unfold Accepts; decide⟩,
    ⟨up, tq, { addr := 0xFFFFFFFFFFFF, vlan := 4094, domain := 1, mask := 63, flags := 1, reserved := 0 },
      by unfold Accepts; decide⟩,
    ⟨up, tq, 4094, 63, 63, by unfold Accepts; decide⟩,
    ⟨up, tq,
      { index := 31, enable := 1, ring := 7, kind := 3, etherType := 0, proto := 0, reserved := 0, dstPort := 0, vlan := 0xFFFF },
      by unfold Accepts; decide⟩,
    ⟨up, tq, { dir := 0, ring := 7, enable := 1, size := 12, base := 0x400000, queue := 4, cls := 1, domain := 1 },
      by unfold Accepts; decide⟩,
    ⟨up, tq, 3, 1, by unfold Accepts; decide⟩,
    ⟨up, tq, 3, by unfold Accepts; decide⟩⟩

theorem test_meets_NetworkEventsComplete :
    (∃ (s : State) (n : Fin 4), s.held = false ∧ (s.netPort n.val).enabled = true)
    ∧ (∃ (s : State) (n : Fin 4), s.held = false ∧ (s.netPort n.val).linkUp = true)
    ∧ (∃ (s : State) (n : Fin 4), s.held = false ∧ (s.netPort n.val).linkUp = true)
    ∧ (∃ (s : State) (n : Fin 4) (frame : List Byte), s.held = false ∧ (s.netPort n.val).linkUp = true ∧ 60 ≤ frame.length ∧
      (s.netPort n.val).maxFrame < frame.length + 4)
    ∧ (∃ (s : State) (n : Fin 4) (frame : List Byte), s.held = false ∧ (s.netPort n.val).linkUp = true ∧ 60 ≤ frame.length ∧
      frame.length + 4 ≤ (s.netPort n.val).maxFrame ∧ etherType frame ≠ 0x8808)
    ∧ (∃ (s : State) (n : Fin 4) (f : _) (fs : _), s.held = false ∧ (s.netPort n.val).linkUp = true ∧ (s.netPort n.val).paused
      = false ∧ (s.netPort n.val).express = f :: fs ∧ f.cls = .media ∧ f.tsDesc = none)
    ∧ (∃ (s : State) (n : Fin 4), s.held = false ∧ (s.netPort n.val).linkUp = true ∧ (s.netPort n.val).preempt = true)
    ∧ (∃ (s : State) (n : Fin 4) (quanta : Half), s.held = false ∧ (s.netPort n.val).linkUp = true ∧ (s.netPort
      n.val).pauseMode ≠ 0 ∧ (s.netPort n.val).pauseBlocked = false ∧ quanta ≠ 0)
    ∧ (∃ (s : State), s.held = false)
    ∧ (∃ (s : State) (n : Fin 4), s.held = false ∧ (s.netPort n.val).paused = true)
    ∧ (∃ (s : State), s.held = false)
    ∧ (∃ (s : State) (n : Fin 4), s.held = false ∧ (s.netPort n.val).linkUp = true ∧ (s.netPort n.val).pauseTxOn = true ∧
      pauseWindow s = true ∧ s.net.share * s.net.low < 100 * occupancy s n.val)
    ∧ (∃ (s : State) (addr : BitVec 48) (vlan : Half) (domain : Bool) (e : _), s.held = false ∧ fdbFind s addr.toNat
      vlan.toNat (if domain then 1 else 0) = some e ∧ e.isStatic = false) :=
  ⟨⟨tNet { NetPort.init 3 with enabled := true }, 3, by decide⟩,
    ⟨tNet tLink, 3, by decide⟩,
    ⟨tNet tLink, 3, by decide⟩,
    ⟨tNet tLink, 3, List.replicate 1519 0, by decide +kernel⟩,
    ⟨tNet tLink, 3, List.replicate 60 0, by decide⟩,
    ⟨tNet { tLink with express := [{ bytes := [], ingress := 4, cls := .media, stamp := none, tsDesc := none }] }, 3,
      { bytes := [], ingress := 4, cls := .media, stamp := none, tsDesc := none }, [], by decide⟩,
    ⟨tNet { tLink with preempt := true }, 3, by decide⟩,
    ⟨tNet tLink, 3, 1, by decide⟩,
    ⟨up, by decide⟩,
    ⟨tNet { tLink with paused := true }, 3, by decide⟩,
    ⟨up, by decide⟩,
    ⟨{ tNet { tLink with pauseTxOn := true, bulk := [{ bytes := [0], ingress := 3, cls := .bulk, stamp := none, tsDesc := none }] } with net.share := 0 },
      3, by decide⟩,
    ⟨{ up with net.fdb := [(5, some { mask := 1, isStatic := false })] }, 5, 0, false, { mask := 1, isStatic := false },
      by decide⟩⟩

theorem test_meets_RingEventsComplete :
    (∃ (s : State) (r : Fin 8) (f : _) (rest : _) (s1 : _) (done : _), s.held = false ∧ (s.rxRing r.val).enable = true ∧
      (s.rxRing r.val).regionStop = false ∧ (s.rxRing r.val).queue = f :: rest ∧ fillRx (ownerOf s (.rxRing r.val)) (s.rxRing
      r.val) (s.rxRing r.val).count (s.rxRing r.val).head f.bytes [] s = (s1, .whole, done))
    ∧ (∃ (s : State) (r : Fin 8) (s1 : _) (t : _), s.held = false ∧ (s.txRing r.val).enable = true ∧ (s.txRing
      r.val).regionStop = false ∧ walkTx (ownerOf s (.txRing r.val)) (s.txRing r.val) (s.txRing r.val).count
      { count := 0, data := [], ctrl := 0, mask := 0 } s = (s1, .whole, t))
    ∧ (∃ (s : State) (r : Fin 8) (q : Requester) (tx : Bool), MayWrite s q ((if tx then 0x5A0C else 0x590C) + 0x20 * r.val)) :=
  ⟨⟨tRings 1, 7, { bytes := [1, 2], stamp := none, port := 0, filter := 255 }, [], tFill.1, [(0, 2)], by decide +kernel⟩,
    ⟨tRings 7, 7, tWalk.1, tWalk.2.2, by decide +kernel⟩,
    ⟨up, 7, tr, true, by unfold MayWrite; decide⟩⟩

theorem test_meets_TimeCommandsComplete :
    (∃ (s : State) (q : Sender) (c : _), Accepts s q (bodyPtpSetInstance c) ∧ ptpInstanceOk c = true)
    ∧ (∃ (s : State) (q : Sender) (c : _), Accepts s q (bodyPtpSetPortTs c) ∧ c.port.toNat ≤ 3 ∧ c.ingress.toInt.natAbs ≤
      100000 ∧ c.egress.toInt.natAbs ≤ 100000 ∧ c.asym.toInt.natAbs ≤ 100000)
    ∧ (∃ (s : State) (q : Sender) (c : _), Accepts s q (bodyPtpSetMaster c) ∧ c.inst.toNat ≤ 1 ∧ c.flags.toNat ≤ 1)
    ∧ (∃ (s : State) (q : Sender) (inst : _) (gm : _), Accepts s q (bodyPtpAcceptJump inst gm) ∧ inst.toNat ≤ 1 ∧ (s.inst
      inst.toNat).chosen.map Announce.gmId = some gm)
    ∧ (∃ (s : State) (q : Sender) (sec : _), Accepts s q (bodyPtpSetTime sec) ∧ sec.toNat < 2 ^ 48 ∧ ptpSelected s = false ∧
      bankBusy s = false)
    ∧ (∃ (s : State) (q : Sender) (c : _), Accepts s q (bodyPtpSetAlarm c) ∧ c.alarm.toNat ≤ 7 ∧ c.unit.toNat ≤ 1 ∧
      c.period.toNat < 2 ^ 31 ∧ 1 ≤ serialDiff c.target (alarmNow s (c.unit.toNat == 1)))
    ∧ (∃ (s : State) (q : Sender) (a : _), Accepts s q (bodyPtpCancelAlarm a) ∧ a.toNat ≤ 7)
    ∧ (∃ (s : State) (q : Sender) (inst : _), Accepts s q (bodyPtpGetStatus inst) ∧ inst.toNat ≤ 1) :=
  ⟨⟨up, tq,
      { inst := 1, enable := 1, profile := 1, domain := 127, logSync := 1, logAnnounce := 3, logDelay := 5, timeout := 10, unicast := 0, master := 1, reserved := 0, jump := 100, outlier := 100000 },
      by unfold Accepts; decide⟩,
    ⟨up, tq, { port := 3, reserved := 0, ingress := 100000, egress := -100000, asym := 0 }, by unfold Accepts; decide⟩,
    ⟨up, tq,
      { inst := 1, priority1 := 0, priority2 := 0, accuracy := 0, timeSource := 0, variance := 0, class1 := 6, class2 := 13, class3 := 7, class4 := 14, class5 := 52, class6 := 248, utcOfs := 37, flags := 1 },
      by unfold Accepts; decide⟩,
    ⟨tInst tSlave, tq, 1, 7, by unfold Accepts; decide⟩,
    ⟨up, tq, 0xFFFFFFFFFFFF, by unfold Accepts; decide⟩,
    ⟨up, tq, { alarm := 7, unit := 1, reserved := 0, target := 1, period := 0x7FFFFFFF }, by unfold Accepts; decide⟩,
    ⟨up, tq, 7, by unfold Accepts; decide⟩,
    ⟨up, tq, 1, by unfold Accepts; decide⟩⟩

theorem test_meets_TimeMessagesComplete :
    (∃ (s : State) (i : Fin 2) (a : Announce), s.held = false ∧ s.net.ports.length = 4 ∧ (s.pst.ref i.val).valid = false ∧
      (s.inst i.val).enable = true ∧ a.domain = (s.inst i.val).domain ∧ (s.inst i.val).foreign = [] ∧ (s.inst i.val).lastGm =
      none ∧ (mayMaster s i.val) = false)
    ∧ (∃ (s : State) (i : Fin 2) (m : SyncMsg), s.held = false ∧ s.net.ports.length = 4 ∧ (s.pst.ref i.val).valid = false ∧
      fromMaster (s.inst i.val) m.domain m.source = true ∧ m.twoStep = false ∧ (s.inst i.val).sync = none)
    ∧ (∃ (s : State) (i : Fin 2) (m : SyncMsg) (w : _), s.held = false ∧ s.net.ports.length = 4 ∧ (s.pst.ref i.val).valid =
      false ∧ (s.inst i.val).sync = some w ∧ fromMaster (s.inst i.val) m.domain m.source = true ∧ w.t1 = none ∧ w.seq = m.seq)
    ∧ (∃ (s : State) (i : Fin 2) (w : _), s.held = false ∧ s.net.ports.length = 4 ∧ (s.pst.ref i.val).valid = false ∧ (s.inst
      i.val).sync = some w ∧ w.t1 = none)
    ∧ (∃ (s : State) (i : Fin 2), s.held = false ∧ s.net.ports.length = 4 ∧ (s.pst.ref i.val).valid = false ∧ (s.inst
      i.val).enable = true ∧ (s.inst i.val).state = .slave)
    ∧ (∃ (s : State) (i : Fin 2) (m : DelayResp) (w : _) (t1 : _) (t3 : _), s.held = false ∧ s.net.ports.length = 4 ∧
      (s.pst.ref i.val).valid = false ∧ (s.inst i.val).request = some (m.seq, t3) ∧ (s.inst i.val).sync = some w ∧ w.t1 = some
      t1 ∧ fromMaster (s.inst i.val) m.domain m.source = true ∧ (s.inst i.val).rawDelays ≠ [] ∧ 4 * ((s.inst i.val).outlier :
      Int) < (rounded (w.t2 - t1 + (quartersOf m.receive - m.correction.toInt - t3 + rounded (s.netPort i.val).asym 250)) 2) -
      meanOf (s.inst i.val).rawDelays)
    ∧ (∃ (s : State) (i : Fin 2) (m : DelayResp) (w : _) (t1 : _) (t3 : _), s.held = false ∧ s.net.ports.length = 4 ∧
      (s.pst.ref i.val).valid = false ∧ (s.inst i.val).request = some (m.seq, t3) ∧ (s.inst i.val).sync = some w ∧ w.t1 = some
      t1 ∧ fromMaster (s.inst i.val) m.domain m.source = true ∧ (s.inst i.val).rawDelays = [] ∧ (s.inst i.val).rawOffsets = []
      ∧ (s.inst i.val).measured = 0 ∧ (s.inst i.val).acceptedGm = none ∧ (s.inst i.val).chosen ≠ none)
    ∧ (∃ (s : State) (i : Fin 2), s.held = false ∧ s.net.ports.length = 4 ∧ (s.pst.ref i.val).valid = false ∧ (s.inst
      i.val).request ≠ none)
    ∧ (∃ (s : State) (i : Fin 2), s.held = false ∧ s.net.ports.length = 4 ∧ (s.pst.ref i.val).valid = false)
    ∧ (∃ (s : State) (i : Fin 2), s.held = false ∧ s.net.ports.length = 4 ∧ (s.pst.ref i.val).valid = false ∧ (s.inst
      i.val).enable = true ∧ (s.inst i.val).chosen = none ∧ (s.inst i.val).foreign = [] ∧ mayMaster s i.val = false)
    ∧ (∃ (s : State) (i : Fin 2), s.held = false ∧ s.net.ports.length = 4 ∧ (s.pst.ref i.val).valid = false ∧ isMaster s i.val
      = true)
    ∧ (∃ (s : State) (i : Fin 2), s.held = false ∧ s.net.ports.length = 4 ∧ (s.pst.ref i.val).valid = false ∧ (s.inst
      i.val).foreign = [] ∧ (s.inst i.val).chosen = none ∧ isMaster s i.val = true)
    ∧ (∃ (s : State) (i : Fin 2), s.held = false ∧ s.net.ports.length = 4 ∧ (s.pst.ref i.val).valid = false ∧ isMaster s i.val
      = true) :=
  ⟨⟨tInst { PtpInst.init with enable := true }, 1, tAnn, by decide⟩,
    ⟨tInst tSlave, 1, tMsg, by decide⟩,
    ⟨tInst { tSlave with sync := some (tWait none 0) }, 1, tMsg, tWait none 0, by decide⟩,
    ⟨tInst { tSlave with sync := some (tWait none 0) }, 1, tWait none 0, by decide⟩,
    ⟨tInst tSlave, 1, by decide⟩,
    ⟨tInst { tSlave with request := some (3, 0), sync := some (tWait (some 0) 100000), rawDelays := [0] }, 1, tResp, tWait
      (some 0) 100000, 0, 0, by decide⟩,
    ⟨tInst { tSlave with request := some (3, 0), sync := some (tWait (some 0) 0) }, 1, tResp, tWait (some 0) 0, 0, 0,
      by decide⟩,
    ⟨tInst { tSlave with request := some (3, 0) }, 1, by decide⟩,
    ⟨up, 1, by decide⟩,
    ⟨tInst { PtpInst.init with enable := true }, 1, by decide⟩,
    ⟨tMaster, 1, by decide⟩,
    ⟨tMaster, 1, by decide⟩,
    ⟨tMaster, 1, by decide⟩⟩

theorem test_meets_TimeEventsComplete :
    (∃ (s : State) (sec : _), s.held = false ∧ s.ptp.setTime = some sec)
    ∧ (∃ (s : State), s.held = false)
    ∧ (∃ (s : State) (a : Fin 8), s.held = false ∧ (s.alarm a.val).armed = true ∧ (s.alarm a.val).period = 0 ∧ 0 ≤ serialDiff
      (alarmNow s (s.alarm a.val).ptp) (s.alarm a.val).target)
    ∧ (∃ (s : State) (a : Fin 8), s.held = false ∧ (s.alarm a.val).armed = true ∧ serialDiff (alarmNow s (s.alarm a.val).ptp)
      (s.alarm a.val).target = 0 ∧ (s.alarm a.val).period ≠ 0) :=
  ⟨⟨{ up with ptp.setTime := some 5 }, 5, by decide⟩,
    ⟨up, by decide⟩,
    ⟨{ up with ptp.alarms := [(7, { Alarm.init with armed := true })] }, 7, by decide⟩,
    ⟨{ up with ptp.alarms := [(7, { Alarm.init with armed := true, period := 5 })] }, 7, by decide⟩⟩

theorem test_meets_StreamCommandsComplete :
    (∃ (s : State) (q : Sender) (ctx : _) (c : _), Accepts s q (bodyStreamSetTx ctx c) ∧ txCfgOk s c = true ∧ (s.txCtx
      ctx.toNat).state = .stopped)
    ∧ (∃ (s : State) (q : Sender) (ctx : _) (c : _), Accepts s q (bodyStreamSetRx ctx c) ∧ rxCfgOk s c = true ∧ (s.rxCtx
      ctx.toNat).state = .stopped)
    ∧ (∃ (s : State) (q : Sender) (ctx : _) (block : _), Accepts s q (bodyStreamSetCs ctx block) ∧ block.length = 24 ∧
      (s.txCtx ctx.toNat).state = .stopped)
    ∧ (∃ (s : State) (q : Sender) (ctx : _) (q0 : _) (w : _) (c : _), Accepts s q (bodyStreamStart 0 ctx q0 w) ∧ (s.txCtx
      ctx.toNat).cfg = some c ∧ (s.txCtx ctx.toNat).state = .stopped ∧ payloadOk s c = true ∧ startWaveOk s w = true ∧ txLoad
      s + c.channels.toNat ≤ channelBudget s.pst.rate)
    ∧ (∃ (s : State) (q : Sender) (ctx : _) (w : _) (c : _), Accepts s q (bodyStreamStart 1 ctx 0 w) ∧ (s.rxCtx ctx.toNat).cfg
      = some c ∧ (s.rxCtx ctx.toNat).state = .stopped ∧ rxStartOk s ctx.toNat c = true ∧ startWaveOk s w = true ∧ rxLoad s +
      c.channels.toNat ≤ channelBudget s.pst.rate)
    ∧ (∃ (s : State) (q : Sender) (ctx : _) (w : _), Accepts s q (bodyStreamStop 0 ctx w) ∧ (s.txCtx ctx.toNat).state =
      .running)
    ∧ (∃ (s : State) (q : Sender) (ctx : _) (w : _), Accepts s q (bodyStreamStop 1 ctx w) ∧ (s.rxCtx ctx.toNat).state =
      .running)
    ∧ (∃ (s : State) (q : Sender) (g : _) (p : _), Accepts s q (bodyStreamSetGroup g p) ∧ g.toNat ≤ 31 ∧ 4 ≤ p.toNat ∧ p.toNat
      ≤ 4096 ∧ groupBusy s g.toNat = false)
    ∧ (∃ (s : State) (q : Sender) (dir : _) (ctx : _), Accepts s q (bodyStreamGetContext dir ctx) ∧ dir.toNat ≤ 1)
    ∧ (∃ (s : State) (q : Sender) (ctx : _), Accepts s q (bodyStreamClear 0 ctx))
    ∧ (∃ (s : State) (q : Sender) (c : _), Accepts s q (bodyTapSet c) ∧ c.tap.toNat ≤ 15 ∧ c.flags = 0 ∧ c.kind = 2 ∧
      c.unit.toNat ≤ 255 ∧ c.channel.toNat ≤ 63 ∧ c.n ≠ 0 ∧ ownerOf s (.rxCtx c.unit.toNat) = ownerOf s (.tap c.tap.toNat))
    ∧ (∃ (s : State) (q : Sender) (tap : _), Accepts s q (bodyTapGet tap) ∧ tap.toNat ≤ 15) :=
  ⟨⟨up, tq, 255, tTxCfg, by unfold Accepts; decide⟩,
    ⟨up, tq, 255, tRxCfg, by unfold Accepts; decide⟩,
    ⟨up, tq, 255, List.replicate 24 0, by unfold Accepts; decide⟩,
    ⟨tTx { TxCtx.init with cfg := some tTxCfg }, tq, 255, 0xFFFF, 8, tTxCfg, by unfold Accepts; decide⟩,
    ⟨tRx { RxCtx.init with cfg := some tRxCfg }, tq, 255, 0, tRxCfg, by unfold Accepts; decide⟩,
    ⟨tTx { TxCtx.init with state := .running }, tq, 255, 0, by unfold Accepts; decide⟩,
    ⟨tRx { RxCtx.init with state := .running }, tq, 255, 0, by unfold Accepts; decide⟩,
    ⟨up, tq, 31, 4096, by unfold Accepts; decide⟩,
    ⟨up, tq, 1, 255, by unfold Accepts; decide⟩,
    ⟨up, tq, 255, by unfold Accepts; decide⟩,
    ⟨up, tq, { tap := 15, kind := 2, unit := 255, channel := 63, flags := 0, n := 1, m := 0, crc := 0 },
      by unfold Accepts; decide⟩,
    ⟨up, tq, 15, by unfold Accepts; decide⟩⟩

theorem test_meets_StreamEventsComplete :
    (∃ (s : State) (n : Fin 16) (start : _) (crc : _), s.held = false ∧ (s.tap n.val).ended = some (start, crc, false) ∧
      (s.tap n.val).expected = none)
    ∧ (∃ (s : State) (n : Fin 16) (start : _) (crc : _) (e : _), s.held = false ∧ (s.tap n.val).ended = some (start, crc,
      false) ∧ (s.tap n.val).expected = some e ∧ e ≠ crc)
    ∧ (∃ (s : State) (c : Fin 256) (cfg : _) (k : _) (rest : _), s.held = false ∧ (s.txCtx c.val).cfg = some cfg ∧ (s.txCtx
      c.val).closed = k :: rest ∧ launchDue s cfg k = true ∧ s.lkt.failSilent = false ∧ k.allLive = true ∧ launchOf s
      k.closing c.val (cfg.launch.toNat == 1) (crc32c k.payload) = .send)
    ∧ (∃ (s : State) (c : Fin 256) (cfg : _) (k : _) (rest : _), s.held = false ∧ (s.txCtx c.val).cfg = some cfg ∧ (s.txCtx
      c.val).closed = k :: rest ∧ launchDue s cfg k = true ∧ k.allLive = false)
    ∧ (∃ (s : State) (n : Fin 4) (frame : List Byte) (c : _) (x : _) (cfg : _), s.held = false ∧ (s.netPort n.val).linkUp =
      true ∧ s.stm.rx = [(c, x)] ∧ x.cfg = some cfg ∧ x.takes (s.netPort n.val).domain frame = true ∧ checkPacket s cfg frame
      = none)
    ∧ (∃ (s : State) (n : Fin 4), s.held = false ∧ (s.netPort n.val).linkUp = true)
    ∧ (∃ (s : State) (c : Fin 256), s.held = false ∧ (s.rxCtx c.val).state = .running ∧ (s.rxCtx c.val).stopping = true ∧
      (s.rxCtx c.val).gain = 0) :=
  ⟨⟨tTap { Tap.init with ended := some (0, 0, false) }, 15, 0, 0, by decide⟩,
    ⟨tTap { Tap.init with ended := some (0, 0, false), expected := some 1 }, 15, 0, 0, 1, by decide⟩,
    ⟨tTx { TxCtx.init with cfg := some tTxCfg, closed := [tPkt true] }, 255, tTxCfg, tPkt true, [], by decide⟩,
    ⟨tTx { TxCtx.init with cfg := some tTxCfg, closed := [tPkt false] }, 255, tTxCfg, tPkt false, [], by decide⟩,
    ⟨{ tNet tLink with stm.rx := [(255, { RxCtx.init with cfg := some { tRxCfg with b := tRxCfg.a }, state := .running })] },
      3, tUdp, 255, { RxCtx.init with cfg := some { tRxCfg with b := tRxCfg.a }, state := .running },
      { tRxCfg with b := tRxCfg.a }, by decide⟩,
    ⟨tNet tLink, 3, by decide⟩,
    ⟨tRx { RxCtx.init with state := .running, stopping := true }, 255, by decide⟩⟩

theorem test_meets_PairCommandsComplete :
    (∃ (s : State) (q : Sender) (c : _), Accepts s q (bodyRedSetPair c) ∧ redPairOk s c = true ∧ s.rdg.busyForRate = false ∧
      s.red.state ≠ .failSilent)
    ∧ (∃ (s : State) (q : Sender) (first : _) (es : _), Accepts s q (bodyRedSetShared first es) ∧ 1 ≤ es.length ∧ es.length ≤
      480 ∧ es.all sharedOk = true ∧ first.toNat + es.length ≤ sharedLimit s.pst.rate)
    ∧ (∃ (s : State) (q : Sender) (n : _), Accepts s q (bodySadSetPathdown n) ∧ 2 ≤ n.toNat ∧ n.toNat ≤ 1000)
    ∧ (∃ (s : State) (q : Sender) (w : _), Accepts s q (bodyRedHandover w) ∧ w ≠ 0 ∧ 8 ≤ ahead s w ∧ s.red.state = .active ∧
      s.red.peerState = 3 ∧ handoverBusy s = false)
    ∧ (∃ (s : State) (q : Sender), Accepts s q (bodyRedForceActive s.red.epoch) ∧ s.red.state = .observer ∧ s.red.nrlOk =
      false ∧ s.red.netOk = false)
    ∧ (∃ (s : State) (q : Sender), Accepts s q bodyRedResync ∧ s.red.state = .observer)
    ∧ (∃ (s : State) (q : Sender), Accepts s q bodyRedResync ∧ s.red.state = .standby)
    ∧ (∃ (s : State) (q : Sender), Accepts s q bodyRedGetStatus) :=
  ⟨⟨up, tq,
      { pair := 1, node := 1, preferred := 1, ports := 14, reserved := 0, etherType := 0x88B5, claim := 10000, addr := 0x010000000000, vlan := 4095 },
      by unfold Accepts; decide⟩,
    ⟨up, tq, 511, [{ node := 1, port := 63, slot := 31, reserved := 0 }], by unfold Accepts; decide⟩,
    ⟨up, tq, 1000, by unfold Accepts; decide⟩,
    ⟨{ tRed .active with red.peerState := 3 }, tq, 8, by unfold Accepts; decide⟩,
    ⟨tRed .observer, tq, by unfold Accepts; decide⟩,
    ⟨tRed .observer, tq, by unfold Accepts; decide⟩,
    ⟨tRed .standby, tq, by unfold Accepts; decide⟩,
    ⟨up, tq, by unfold Accepts; decide⟩⟩

theorem test_meets_PairRoleEventsComplete :
    (∃ (s : State) (c : Fin 256), s.held = false ∧ (s.rxCtx c.val).state = .running ∧ (s.rxCtx c.val).b.up = true)
    ∧ (∃ (s : State), s.held = false ∧ s.red.state = .claiming ∧ s.red.heard = false)
    ∧ (∃ (s : State), s.held = false ∧ s.red.state = .claiming ∧ s.red.heard = true ∧ s.red.preferred = false ∧
      s.red.peerPreferred = true)
    ∧ (∃ (s : State), s.held = false ∧ paired s = true)
    ∧ (∃ (s : State) (path : _) (h : _), s.held = false ∧ paired s = true ∧ hbValid s path h = false)
    ∧ (∃ (s : State) (path : _) (h : _), s.held = false ∧ paired s = true ∧ hbValid s path h = true ∧ s.red.state = .standby)
    ∧ (∃ (s : State) (path : _) (h : _), s.held = false ∧ paired s = true ∧ hbValid s path h = true ∧ s.red.state = .active ∧
      h.state = 4 ∧ s.red.epoch.toNat < h.epoch.toNat)
    ∧ (∃ (s : State) (path : _) (h : _), s.held = false ∧ paired s = true ∧ hbValid s path h = true ∧ s.red.state = .claiming
      ∧ h.epoch ≠ 0)
    ∧ (∃ (s : State), s.held = false ∧ paired s = true ∧ s.red.state = .standby ∧ s.red.nrlOk = true ∧ s.red.netOk = false)
    ∧ (∃ (s : State), s.held = false ∧ paired s = true ∧ s.red.nrlOk = true ∧ s.red.netOk = true) :=
  ⟨⟨tRx { RxCtx.init with state := .running, b := { PathStat.init with up := true } }, 255, by decide⟩,
    ⟨tRed .claiming, by decide⟩,
    ⟨{ tRed .claiming with red.heard := true, red.peerPreferred := true }, by decide⟩,
    ⟨tRed .active, by decide⟩,
    ⟨tRed .active, .noril, { tHb with pair := 2 }, by decide⟩,
    ⟨tRed .standby, .noril, tHb, by decide⟩,
    ⟨tRed .active, .noril, tHb, by decide⟩,
    ⟨tRed .claiming, .noril, tHb, by decide⟩,
    ⟨{ tRed .standby with red.nrlOk := true }, by decide⟩,
    ⟨{ tRed .standby with red.nrlOk := true, red.netOk := true }, by decide⟩⟩

theorem test_meets_LinkEventsComplete :
    (∃ (s : State), s.held = false ∧ s.red.state = .active)
    ∧ (∃ (s : State), s.held = false)
    ∧ (∃ (s : State), s.held = false ∧ paired s = true ∧ s.red.nrl.up = true)
    ∧ (∃ (s : State) (f : WaveFrame), s.held = false ∧ paired s = true ∧ s.red.nrl.up = true ∧ f.p = s.mcnt ∧ f.state = 3)
    ∧ (∃ (s : State), s.held = false ∧ paired s = true ∧ s.red.state ≠ .standby)
    ∧ (∃ (s : State) (i : Fin 512), s.held = false ∧ (s.sharedCh i.val).gate = .isOpen ∧ holdLimit s.pst.rate ≤ (s.sharedCh
      i.val).missing)
    ∧ (∃ (s : State), s.held = false ∧ paired s = true ∧ s.red.nrl.up = true ∧ follows s = true ∧ (∀ w snap, s.red.join ≠
      .adopting w snap))
    ∧ (∃ (s : State) (w : _) (snap : _), s.held = false ∧ paired s = true ∧ s.red.nrl.up = true ∧ follows s = true ∧
      s.red.join = .adopting w snap)
    ∧ (∃ (s : State), s.held = false)
    ∧ (∃ (s : State), s.held = false)
    ∧ (∃ (s : State) (k : Nat), s.held = false ∧ k * mirrorPeriod s.pst.rate < 2 ^ 31 ∧ s.mcnt = s.red.mirrorFrom +
      BitVec.ofNat 32 (k * mirrorPeriod s.pst.rate) ∧ s.own.regions = [] ∧ s.red.state = .standby)
    ∧ (∃ (s : State) (m : MirrorRec) (i : _) (o : _), s.held = false ∧ paired s = true ∧ s.red.nrl.up = true ∧ regionOf s
      .mirrorInbox m.part.val = some i ∧ regionOf s .mirrorOutbox m.part.val = some o ∧ m.offset.toNat + m.bytes.length ≤
      i.size ∧ s.mem.readTarn (o.base + m.offset.toNat) m.bytes.length = m.bytes)
    ∧ (∃ (s : State), s.held = false)
    ∧ (∃ (s : State), s.held = false ∧ s.red.nrl.up = false)
    ∧ (∃ (s : State), s.held = false)
    ∧ (∃ (s : State), s.held = false ∧ s.red.state = .active ∧ paired s = true ∧ s.red.nrl.snapshot = false)
    ∧ (∃ (s : State) (w : _), s.held = false ∧ s.red.state = .observer ∧ s.red.join = .asked ∧ 8 ≤ ahead s w) :=
  ⟨⟨tRed .active, by decide⟩,
    ⟨up, by decide⟩,
    ⟨tRed .active, by decide⟩,
    ⟨tRed .standby, { p := 0, state := 3, shared := [], closing := [], latency := 0 }, by decide⟩,
    ⟨tRed .observer, by decide⟩,
    ⟨{ up with red.sharedCh := [(511, { SharedCh.init with missing := 12 })] }, 511, by decide⟩,
    ⟨tRed .standby, by exact ⟨rfl, rfl, rfl, rfl, fun _ _ h => nomatch h⟩⟩,
    ⟨{ tRed .observer with red.join := .adopting 8 tSnap }, 8, tSnap, by decide⟩,
    ⟨up, by decide⟩,
    ⟨up, by decide⟩,
    ⟨{ tRed .standby with own.regions := [] }, 0, by decide⟩,
    ⟨tRed .standby, { part := 0, offset := 0xFFFFF, bytes := [0] }, tRegion 5 .mirrorInbox, tRegion 6 .mirrorOutbox, by decide⟩,
    ⟨up, by decide⟩,
    ⟨up, by decide⟩,
    ⟨up, by decide⟩,
    ⟨tRed .active, by decide⟩,
    ⟨{ tRed .observer with red.join := .asked }, 8, by decide⟩⟩

theorem test_meets_SystemCommandsComplete :
    (∃ (s : State) (q : Sender), Accepts s q (bodySysHello false))
    ∧ (∃ (s : State) (q : Sender), Accepts s q (bodySysHello true) ∧ s.sec.drbgStopped = false ∧ s.cmds.length = 4)
    ∧ (∃ (s : State) (q : Sender), Accepts s q bodySysGetInfo)
    ∧ (∃ (s : State) (q : Sender), Accepts s q bodySysGetOwnership)
    ∧ (∃ (s : State) (q : Sender) (c : _), Accepts s q (bodySysProfileLoad c) ∧ loadSlot s c ≤ 7 ∧ c.flags.toNat ≤ 7 ∧
      s.boot.teardown = none ∧ (runningJobs (opened q (bodySysProfileLoad c) s)).any Job.editsProfile = false ∧ paired s =
      false)
    ∧ (∃ (s : State) (q : Sender) (c : _), Accepts s q (bodySysProfileErase c) ∧ c.slot.toNat ≤ 7 ∧ c.flags &&& 0xFD = 0 ∧
      eraseGuarded s c.slot.toNat = false)
    ∧ (∃ (s : State) (q : Sender) (c : _), Accepts s q (bodySysProfileWrite c) ∧ c.unit.toNat ≤ 7 ∧ c.data.length =
      c.length.toNat ∧ isSealed s c.unit.toNat = false ∧ flashWriteOk s (slotBase c.unit.toNat) c = true)
    ∧ (∃ (s : State) (q : Sender) (n : _), Accepts s q (bodySysProfileSeal n) ∧ n.toNat ≤ 7 ∧ isSealed s n.toNat = false)
    ∧ (∃ (s : State) (q : Sender), Accepts s q bodySysProfileList) :=
  ⟨⟨up, tq, by unfold Accepts; decide⟩,
    ⟨up, tq, by unfold Accepts; decide⟩,
    ⟨up, tq, by unfold Accepts; decide⟩,
    ⟨up, tq, by unfold Accepts; decide⟩,
    ⟨up, tq, { slot := 7, flags := 0 }, by unfold Accepts; decide⟩,
    ⟨up, tq, { slot := 7, flags := 0 }, by unfold Accepts; decide⟩,
    ⟨up, tq, { unit := 7, offset := 0x7FFFFC, length := 4, data := [1, 2, 3, 4] }, by unfold Accepts; decide⟩,
    ⟨up, tq, 7, by unfold Accepts; decide⟩,
    ⟨up, tq, by unfold Accepts; decide⟩⟩

theorem test_meets_SystemEventsComplete :
    (∃ (s : State), s.held = false ∧ s.boot.teardown = some .deepOff)
    ∧ (∃ (s : State) (n : _), s.held = false ∧ s.boot.teardown = some (.load n))
    ∧ (∃ (s : State) (frame : _), s.held = false ∧ isIpv4 frame = true ∧ ipProto frame = 17 ∧ ipDst frame = s.own.hostIp.toNat
      ∧ s.lkt.coresRun = true ∧ s.boot.halted = false ∧ isFragment frame = true)
    ∧ (∃ (s : State) (q : Sender) (r : _), s.held = false ∧ (slotOf q s).executing = true ∧ (slotOf q s).held = false ∧
      (slotOf q s).result = some r ∧ serves s q.part.val (q.via == .udp) (slotOf q s).hdr.opcode.toNat = true)
    ∧ (∃ (s : State) (q : Sender) (n : _), s.held = false ∧ (slotOf q s).executing = true ∧ (slotOf q s).held = false ∧
      (slotOf q s).result = none ∧ (slotOf q s).job = some (.profileErase n) ∧ serves s q.part.val (q.via == .udp) (slotOf q
      s).hdr.opcode.toNat = true) :=
  ⟨⟨{ up with boot.teardown := some .deepOff }, by decide⟩,
    ⟨{ up with boot.teardown := some (.load 7) }, 7, by decide⟩,
    ⟨up, tFragment, by decide⟩,
    ⟨tSlot { CmdSlot.init with state := .pending, result := some (Reply.ok []) }, tq, Reply.ok [], by decide⟩,
    ⟨tSlot { CmdSlot.init with state := .pending, job := some (.profileErase 7) }, tq, 7, by decide⟩⟩

theorem test_meets_MailboxRowsComplete :
    (∃ (s : State) (q : Requester) (m : Fin 4), MayWrite s q (0x1FE0 + 0x1000 * m.val))
    ∧ (∃ (s : State) (q : Requester) (m : Fin 4), MayRead s q ∧ q.part = m)
    ∧ (∃ (s : State) (q : Requester) (m : Fin 4), MayWrite s q (0x1FE8 + 0x1000 * m.val) ∧ (s.part m.val).mbox.state = .ready)
    ∧ (∃ (s : State) (q : Requester) (m : Fin 4), MayWrite s q (0x1FE8 + 0x1000 * m.val))
    ∧ (∃ (s : State) (q : Requester) (m : Fin 4), MayWrite s q (0x1FE8 + 0x1000 * m.val))
    ∧ (∃ (s : State) (q : Requester) (m : Fin 4) (word : Fin 1016), MayWrite s q (0x1000 + 0x1000 * m.val + 4 * word.val) ∧
      (s.part m.val).mbox.state = .empty)
    ∧ (∃ (s : State), s.held = false) :=
  ⟨⟨up, .pf 3, 3, by unfold MayWrite; decide⟩,
    ⟨up, .pf 3, 3, by unfold MayRead; decide⟩,
    ⟨up.setPart 0 { PartCmd.init 1 with mbox := { CmdSlot.init with state := .ready } }, tr, 0, by unfold MayWrite; decide⟩,
    ⟨up, tr, 0, by unfold MayWrite; decide⟩,
    ⟨up, tr, 0, by unfold MayWrite; decide⟩,
    ⟨up, tr, 0, 1015, by unfold MayWrite; decide⟩,
    ⟨up, by decide⟩⟩

theorem test_meets_RegisterWritesComplete :
    (∃ (s : State) (q : Requester) (addr : Half), MayWrite s q (addr.toNat / 4 * 4) ∧ isReg (addr.toNat / 4 * 4) = true)
    ∧ (∃ (s : State) (q : Requester) (addr : Half), s.held = false ∧ present s q = true ∧ isReg (addr.toNat / 4 * 4) = true ∧
      regAllowed s q (addr.toNat / 4 * 4) = false)
    ∧ (∃ (s : State) (q : Requester) (addr : Half), s.held = false ∧ present s q = true ∧ isReg (addr.toNat / 4 * 4) = true ∧
      regAllowed s q (addr.toNat / 4 * 4) = true)
    ∧ (∃ (s : State) (q : Requester), MayWrite s q 0x0010)
    ∧ (∃ (s : State) (q : Requester), MayWrite s q 0x0020)
    ∧ (∃ (s : State) (q : Requester), MayWrite s q 0x0020 ∧ s.sys.crcEnable = true)
    ∧ (∃ (s : State) (q : Requester), MayWrite s q 0x0020 ∧ s.sys.crcEnable = false)
    ∧ (∃ (s : State), s.held = false ∧ s.sys.crcEnable = true ∧ s.sys.crcDirty = true)
    ∧ (∃ (s : State), s.held = false ∧ s.sys.crcEnable = true ∧ s.sys.crcDirty = false ∧ s.sys.crcWait = true ∧
      s.sys.crcWaitLate = false)
    ∧ (∃ (s : State) (q : Requester), s.held = false ∧ present s q = true)
    ∧ (∃ (s : State) (q : Requester) (n : Fin 4), s.held = false ∧ present s q = true ∧ (s.shadow q.ix).stagedAddr = some
      (0x5C08 + 0x80 * n.val)) :=
  ⟨⟨up, tr, 0x0010, by unfold MayWrite; decide⟩,
    ⟨up, .pf 1, 0x0010, by decide⟩,
    ⟨up, tr, 0x0010, by decide⟩,
    ⟨up, tr, by unfold MayWrite; decide⟩,
    ⟨up, tr, by unfold MayWrite; decide⟩,
    ⟨{ up with sys.crcEnable := true }, tr, by unfold MayWrite; decide⟩,
    ⟨{ up with sys.crcEnable := false }, tr, by unfold MayWrite; decide⟩,
    ⟨{ up with sys.crcEnable := true, sys.crcDirty := true }, by decide⟩,
    ⟨{ up with sys.crcEnable := true, sys.crcWait := true }, by decide⟩,
    ⟨up, tr, by decide⟩,
    ⟨{ up with sys.shadows := [(0, { Shadow.init with stagedAddr := some 0x5D88 })] }, tr, 3, by decide⟩⟩

theorem test_meets_LatchingReadsComplete :
    (∃ (s : State) (q : Requester), MayRead s q)
    ∧ (∃ (s : State) (q : Requester), MayRead s q)
    ∧ (∃ (s : State) (q : Requester), MayRead s q)
    ∧ (∃ (s : State) (q : Requester), MayRead s q)
    ∧ (∃ (s : State) (q : Requester) (addr : Half), MayRead s q ∧ isWideLo (addr.toNat / 4 * 4) = true)
    ∧ (∃ (s : State) (q : Requester) (w : _) (t : _), MayRead s q ∧ q.part = 0 ∧ indRead (s.shadow q.ix).indAddr.toNat s =
      some (w, t))
    ∧ (∃ (s : State) (q : Requester) (w : _) (t : _), MayRead s q ∧ q.part = 0 ∧ indWrite (s.shadow q.ix).indAddr.toNat w s =
      some t) :=
  ⟨⟨up, tr, by unfold MayRead; decide⟩,
    ⟨up, tr, by unfold MayRead; decide⟩,
    ⟨up, tr, by unfold MayRead; decide⟩,
    ⟨up, tr, by unfold MayRead; decide⟩,
    ⟨up, tr, 0x55C8, by unfold MayRead; decide⟩,
    ⟨tInd 0x03000004, tr, kaStat (tInd 0x03000004), tInd 0x03000004, by unfold MayRead; decide +kernel⟩,
    ⟨tInd 0x020010FC, tr, 1, configDirty (storeWord 0x020010FC 1 (tInd 0x020010FC)), by unfold MayRead; decide +kernel⟩⟩

theorem test_meets_LookoutEventsComplete :
    (∃ (s : State), s.held = false ∧ s.lkt.oscB = false ∧ s.lkt.xoBad = false)
    ∧ (∃ (s : State), s.held = false ∧ s.lkt.oscB = false ∧ s.lkt.xoBad = false)
    ∧ (∃ (s : State), s.held = false ∧ s.pst.state ≠ .acquire)
    ∧ (∃ (s : State), s.held = false ∧ s.lkt.supKicked = true)
    ∧ (∃ (s : State), s.held = false ∧ s.lkt.supKicked = false)
    ∧ (∃ (s : State), s.held = false)
    ∧ (∃ (s : State), s.held = false ∧ s.lkt.coresRun = true)
    ∧ (∃ (s : State), s.held = false)
    ∧ (∃ (s : State) (src : Byte) (a : _), s.held = false ∧ s.lkt.srcMask.getLsbD src.toNat = false ∧ classOf s src.toNat =
      some (.service, a))
    ∧ (∃ (s : State), s.held = false)
    ∧ (∃ (s : State) (failing : BitVec 256), s.held = false ∧ (∀ n, n ∈ bitsOf failing → s.lkt.srcMask.getLsbD n = true))
    ∧ (∃ (s : State), s.held = false ∧ s.lkt.coresRun = false ∧ s.boot.profileApplied = false) :=
  ⟨⟨up, by decide⟩,
    ⟨up, by decide⟩,
    ⟨tFree tEn, by decide⟩,
    ⟨{ up with lkt.supKicked := true }, by decide⟩,
    ⟨up, by decide⟩,
    ⟨up, by decide⟩,
    ⟨up, by decide⟩,
    ⟨up, by decide⟩,
    ⟨up, 0, .none, by decide⟩,
    ⟨up, by decide⟩,
    ⟨{ up with lkt.srcMask := BitVec.twoPow 256 255 }, BitVec.twoPow 256 255, by decide⟩,
    ⟨{ up with lkt.coresRun := false }, by decide⟩⟩

theorem test_meets_RecordEventsComplete :
    (∃ (s : State) (src : Byte) (a : _), s.held = false ∧ s.lkt.srcMask.getLsbD src.toNat = false ∧ classOf s src.toNat = some
      (.notice, a) ∧ (s.record (src.toNat / 32)).state = .idle)
    ∧ (∃ (s : State) (src : Byte), s.held = false ∧ s.lkt.srcMask.getLsbD src.toNat = true)
    ∧ (∃ (s : State) (g : Fin 8), s.held = false ∧ (s.record g.val).state = .raised)
    ∧ (∃ (s : State) (g : Fin 8), s.held = false ∧ (s.record g.val).state = .claimed ∧ (s.record g.val).serviceSinceClaim =
      false)
    ∧ (∃ (s : State) (g : Fin 8), s.held = false ∧ (s.record g.val).state = .noted ∧ clearBlock s g.val = none)
    ∧ (∃ (s : State) (q : Requester), MayWrite s q 0x0410)
    ∧ (∃ (s : State) (q : Requester) (g : Fin 8), MayWrite s q 0x0414 ∧ (s.record g.val).state = .raised)
    ∧ (∃ (s : State) (q : Requester) (g : Fin 8), MayWrite s q 0x0418 ∧ clearBlock s g.val = none)
    ∧ (∃ (s : State) (q : Requester) (g : Fin 8) (src : _), MayWrite s q 0x0418 ∧ clearBlock s g.val = some src) :=
  ⟨⟨up, 0x20, .none, by decide⟩,
    ⟨{ up with lkt.srcMask := BitVec.twoPow 256 255 }, 255, by decide⟩,
    ⟨tRec { Record.init with state := .raised }, 7, by decide⟩,
    ⟨tRec { Record.init with state := .claimed }, 7, by decide⟩,
    ⟨tRec { Record.init with state := .noted }, 7, by decide⟩,
    ⟨up, .summit 2, by unfold MayWrite; decide⟩,
    ⟨tRec { Record.init with state := .raised }, .summit 2, 7, by unfold MayWrite; decide⟩,
    ⟨up, .summit 2, 7, by unfold MayWrite; decide⟩,
    ⟨{ up with lkt.srcMask := 1, lkt.records := [(0, { Record.init with state := .raised, merged := 1 })] }, .summit 2, 0, 0,
      by unfold MayWrite; decide⟩⟩

theorem test_meets_FaultCommandsComplete :
    (∃ (s : State) (q : Sender), Accepts s q bodyFltGetStatus)
    ∧ (∃ (s : State) (q : Sender) (g : _), Accepts s q (bodyFltClaim g) ∧ g.toNat ≤ 7 ∧ (s.record g.toNat).state ≠ .idle ∧
      (s.record g.toNat).route.getLsbD q.part.val = true)
    ∧ (∃ (s : State) (q : Sender) (g : _), Accepts s q (bodyFltClear g) ∧ g.toNat ≤ 7 ∧ (s.record g.toNat).route.getLsbD
      q.part.val = true ∧ clearBlock s g.toNat = none)
    ∧ (∃ (s : State) (q : Sender) (src : _) (cls : _) (act : _) (c : _) (a : _) (c0 : _) (a0 : _), Accepts s q
      (bodyFltSetClass src cls act) ∧ sourceInfo src.toNat = some (c0, a0, false) ∧ clsOf cls.toNat = some c ∧ actOf act.toNat
      = some a ∧ a ≠ .chMute)
    ∧ (∃ (s : State) (q : Sender) (esc : _) (claim : _) (sup : _), Accepts s q (bodyFltSetTimers esc claim sup) ∧ 100 ≤
      esc.toNat ∧ esc.toNat ≤ 100000 ∧ 10 ≤ claim.toNat ∧ claim.toNat ≤ 60000 ∧ 100 ≤ sup.toNat ∧ sup.toNat ≤ 100000)
    ∧ (∃ (s : State) (q : Sender) (first : _) (count : _), Accepts s q (bodyFltGetCounts first count) ∧ 1 ≤ count.toNat ∧
      first.toNat + count.toNat ≤ 256) :=
  ⟨⟨up, tq, by unfold Accepts; decide⟩,
    ⟨tRec { Record.init with state := .raised, route := 1 }, tq, 7, by unfold Accepts; decide⟩,
    ⟨tRec { Record.init with state := .raised, route := 1 }, tq, 7, by unfold Accepts; decide⟩,
    ⟨up, tq, 0, 2, 4, .severe, .failSilent, .service, .none, by unfold Accepts; decide⟩,
    ⟨up, tq, 100000, 60000, 100000, by unfold Accepts; decide⟩,
    ⟨up, tq, 255, 1, by unfold Accepts; decide⟩⟩

theorem test_meets_SecurityCommandsComplete :
    (∃ (s : State) (q : Sender), Accepts s q bodySecGetStatus)
    ∧ (∃ (s : State) (q : Sender) (c : _), Accepts s q (bodySecKeyProgram c) ∧ q.via = .mailbox ∧ s.sec.lock.getLsbD 1 = false
      ∧ keySlotOk c.kind.toNat c.index.toNat c.slot.toNat = true ∧ (c.kind.toNat < 2 → c.value >>> 256 = 0) ∧ keySlotUsed
      s.sec.otp c.kind.toNat c.index.toNat c.slot.toNat = false)
    ∧ (∃ (s : State) (q : Sender) (c : _), Accepts s q (bodySecKeyRevoke c) ∧ s.sec.lock.getLsbD 1 = false ∧ keySlotOk
      c.kind.toNat c.index.toNat c.slot.toNat = true ∧ revokeRefused s c = false)
    ∧ (∃ (s : State) (q : Sender) (c : _), Accepts s q (bodySecArbAdvance c) ∧ s.sec.lock.getLsbD 2 = false ∧ c.flags = 0 ∧
      arbCounter s ≤ c.value.toNat ∧ c.value.toNat ≤ min s.sec.fwRollback.toNat s.boot.profileRollback.toNat ∧ arbBusy (opened
      q (bodySecArbAdvance c) s) = false)
    ∧ (∃ (s : State) (q : Sender) (copy : _), Accepts s q (bodySecFwErase copy) ∧ s.sec.lock.getLsbD 0 = false ∧ copy.toNat ≤
      1 ∧ copyRuns s copy.toNat = false ∧ fwVerifying (opened q (bodySecFwErase copy) s) copy.toNat = false)
    ∧ (∃ (s : State) (q : Sender) (c : _), Accepts s q (bodySecFwWrite c) ∧ s.sec.lock.getLsbD 0 = false ∧ c.unit.toNat ≤ 1 ∧
      copyRuns s c.unit.toNat = false ∧ c.data.length = c.length.toNat ∧ flashWriteOk s (copyBase c.unit.toNat) c = true ∧
      fwVerifying (opened q (bodySecFwWrite c) s) c.unit.toNat = false)
    ∧ (∃ (s : State) (q : Sender) (copy : _), Accepts s q (bodySecFwVerify copy) ∧ copy.toNat ≤ 1)
    ∧ (∃ (s : State) (q : Sender), Accepts s q bodySecDebugChallenge ∧ s.sec.drbgStopped = false)
    ∧ (∃ (s : State) (q : Sender) (bits : _), Accepts s q (bodySecSetLock bits)) :=
  ⟨⟨up, tq, by unfold Accepts; decide⟩,
    ⟨up, tq, { kind := 2, index := 3, slot := 1, value := 1 }, by unfold Accepts; decide⟩,
    ⟨up, tq, { kind := 0, index := 3, slot := 1 }, by unfold Accepts; decide⟩,
    ⟨up, tq, { value := 0, flags := 0 }, by unfold Accepts; decide⟩,
    ⟨up, tq, 1, by unfold Accepts; decide⟩,
    ⟨up, tq, { unit := 1, offset := 0x7FFFFC, length := 4, data := [1, 2, 3, 4] }, by unfold Accepts; decide⟩,
    ⟨up, tq, 1, by unfold Accepts; decide⟩,
    ⟨up, tq, by unfold Accepts; decide⟩,
    ⟨up, tq, 15, by unfold Accepts; decide⟩⟩

theorem test_meets_SecurityEventsComplete :
    (∃ (s : State), s.held = false)
    ∧ (∃ (s : State), s.held = false)
    ∧ (∃ (s : State), s.held = false ∧ debugCode s ≠ 2)
    ∧ (∃ (s : State), s.held = false ∧ debugCode s = 2)
    ∧ (∃ (s : State), s.held = false ∧ s.pins.porstN = true ∧ s.ka.deepOff = false) :=
  ⟨⟨up, by decide⟩,
    ⟨up, by decide⟩,
    ⟨up, by decide⟩,
    ⟨{ up with sec.debugOpen := true }, by decide⟩,
    ⟨up, by decide⟩⟩

theorem test_meets_TwoWireRowsComplete :
    (∃ (s : State) (n : Fin 4) (q : Requester), MayWrite s q (0x6008 + 0xC0 * n.val) ∧ (s.twc n.val).state = .idle ∧ (s.twc
      n.val).wcount ≤ 32 ∧ (s.twc n.val).rcount ≤ 32 ∧ (s.twc n.val).busStuck = false)
    ∧ (∃ (s : State) (n : Fin 4) (q : Requester), MayWrite s q (0x6008 + 0xC0 * n.val) ∧ (s.twc n.val).state = .active)
    ∧ (∃ (s : State) (n : Fin 4), s.held = false ∧ (s.twc n.val).bus = .free ∧ (s.twc n.val).alert = false ∧ (s.twc
      n.val).state = .queued ∧ (s.twc n.val).busStuck = false ∧ (n.val = 0 → s.fab.xfer = none))
    ∧ (∃ (s : State) (n : Fin 4), s.held = false ∧ (s.twc n.val).bus = .host ∧ (s.twc n.val).aborting = false ∧ (s.twc
      n.val).block = false)
    ∧ (∃ (s : State) (n : Fin 4), s.held = false ∧ (s.twc n.val).bus = .host ∧ (s.twc n.val).aborting = false ∧ (s.twc
      n.val).addrTries < (s.twc n.val).addrRetry)
    ∧ (∃ (s : State) (n : Fin 4), s.held = false ∧ (s.twc n.val).state = .retryWait ∧ (s.twc n.val).bus = .free ∧ (s.twc
      n.val).alert = false ∧ (s.twc n.val).busStuck = false ∧ (n.val = 0 → s.fab.xfer = none) ∧ s.tw.ctl.length = 4)
    ∧ (∃ (s : State) (n : Fin 4), s.held = false ∧ (s.twc n.val).bus = .host ∧ (s.twc n.val).stretchMs n.val ≠ 0 ∧
      s.tw.ctl.length = 4)
    ∧ (∃ (s : State) (n : Fin 4), s.held = false ∧ (s.twc n.val).bus ≠ .governor ∧ (s.twc n.val).busStuck = false)
    ∧ (∃ (s : State) (n : Fin 4), s.held = false ∧ (s.twc n.val).busStuck = true)
    ∧ (∃ (s : State), s.held = false)
    ∧ (∃ (s : State) (n : Fin 4), s.held = false ∧ (s.twc n.val).alert = false)
    ∧ (∃ (s : State), s.held = false)
    ∧ (∃ (s : State) (n : Fin 4), s.held = false ∧ (s.twc n.val).bus = .alert ∧ (s.twc n.val).busStuck = false ∧ (s.twc
      n.val).wantsAlert = true)
    ∧ (∃ (s : State) (n : Fin 4), s.held = false ∧ (s.twc n.val).bus = .alert ∧ (s.twc n.val).busStuck = false ∧ (s.twc
      n.val).wantsAlert = true) :=
  ⟨⟨up, 3, tr, by unfold MayWrite; decide⟩,
    ⟨tTw { TwCtl.init with state := .active }, 3, tr, by unfold MayWrite; decide⟩,
    ⟨tTw { TwCtl.init with state := .queued }, 3, by decide⟩,
    ⟨tTw { TwCtl.init with bus := .host }, 3, by decide⟩,
    ⟨tTw { TwCtl.init with bus := .host, addrTries := 2 }, 3, by decide⟩,
    ⟨tTw { TwCtl.init with state := .retryWait }, 3, by decide⟩,
    ⟨tTw { TwCtl.init with bus := .host }, 3, by decide⟩,
    ⟨up, 3, by decide⟩,
    ⟨tTw { TwCtl.init with busStuck := true }, 3, by decide⟩,
    ⟨up, by decide⟩,
    ⟨up, 3, by decide⟩,
    ⟨up, by decide⟩,
    ⟨tTw { TwCtl.init with bus := .alert, alert := true }, 3, by decide⟩,
    ⟨tTw { TwCtl.init with bus := .alert, alert := true }, 3, by decide⟩⟩

theorem test_meets_TargetPortRowsComplete :
    (∃ (s : State), s.held = false ∧ s.tw.twt.en = true)
    ∧ (∃ (s : State), s.held = false ∧ s.tw.twt.en = true)
    ∧ (∃ (s : State) (p : Byte), s.held = false ∧ s.tw.twt.en = true ∧ 0x40 ≤ p.toNat % 128 ∧ p.toNat % 128 < 0x60)
    ∧ (∃ (s : State), s.held = false ∧ s.tw.twt.en = true ∧ s.tw.twt.faultAt = some s.time)
    ∧ (∃ (s : State), s.held = false ∧ s.tw.twt.en = true ∧ s.tw.twt.faultAt = some s.time)
    ∧ (∃ (s : State) (q : Requester), MayWrite s q 0x6304)
    ∧ (∃ (s : State), s.held = false ∧ s.tw.twt.en = true ∧ s.tw.twt.alertReq = true) :=
  ⟨⟨tTwt Twt.init, by decide⟩,
    ⟨tTwt Twt.init, by decide⟩,
    ⟨tTwt Twt.init, 0x5F, by decide⟩,
    ⟨tTwt { Twt.init with faultAt := some 0 }, by decide⟩,
    ⟨tTwt { Twt.init with faultAt := some 0 }, by decide⟩,
    ⟨up, tr, by unfold MayWrite; decide⟩,
    ⟨tTwt { Twt.init with alertReq := true }, by decide⟩⟩

theorem test_meets_ResetRowsComplete :
    (∃ (s : State), s.ka.deepOff = false)
    ∧ (∃ (s : State), s.pins.porstN = false ∧ s.ka.deepOff = false ∧ s.pins.sysrstN = true ∧ s.pins.testEn = false)
    ∧ (∃ (s : State), s.ka.deepOff = false)
    ∧ (∃ (s : State), s.pins.sysrstN = false ∧ s.ka.deepOff = false ∧ s.pins.porstN = true ∧ s.pins.testEn = false)
    ∧ (∃ (s : State) (q : Requester), present s q = true ∧ q.part = 0 ∧ s.sys.lock.getLsbD 7 = false ∧ s.sys.lock.getLsbD 8 =
      false ∧ s.boot.teardown = none)
    ∧ (∃ (s : State) (q : Requester), present s q = true ∧ q.part = 0 ∧ s.sys.lock.getLsbD 7 = false ∧ s.sys.lock.getLsbD 8 =
      false ∧ s.boot.teardown = none)
    ∧ (∃ (s : State), s.ka.deepOff = true ∧ s.ka.pwrEn = false ∧ s.ka.reassert = false)
    ∧ (∃ (s : State), s.ka.deepOff = true ∧ s.ka.reassert = true)
    ∧ (∃ (s : State), s.ka.deepOff = false) :=
  ⟨⟨up, by decide⟩,
    ⟨{ up with pins.porstN := false }, by decide⟩,
    ⟨up, by decide⟩,
    ⟨{ up with pins.sysrstN := false }, by decide⟩,
    ⟨up, tr, by decide⟩,
    ⟨up, tr, by decide⟩,
    ⟨{ up with ka.deepOff := true, ka.pwrEn := false }, by decide⟩,
    ⟨{ up with ka.deepOff := true, ka.reassert := true }, by decide⟩,
    ⟨up, by decide⟩⟩

theorem test_meets_BootRowsComplete :
    (∃ (s : State), s.held = false)
    ∧ (∃ (s : State), s.held = false ∧ s.boot.otpSensed = true ∧ s.boot.tarnFilled = false)
    ∧ (∃ (s : State), s.held = false ∧ s.boot.tarnFilled = true ∧ s.boot.dramTrained = false ∧ s.boot.dramFailed = false)
    ∧ (∃ (s : State), s.held = false ∧ s.boot.tarnFilled = true ∧ s.boot.dramTrained = false ∧ s.boot.dramFailed = false)
    ∧ (∃ (s : State), s.held = false ∧ s.boot.dramTrained = true)
    ∧ (∃ (s : State), s.held = false ∧ s.boot.dramTrained = true)
    ∧ (∃ (s : State), s.held = false ∧ s.boot.fwRunning = false ∧ s.boot.halted = false ∧ s.boot.tarnFilled = true ∧
      chosenCopy s = none)
    ∧ (∃ (s : State), s.held = false ∧ s.boot.fwRunning = true ∧ s.boot.profileApplied = false ∧ s.boot.failCode = 0 ∧
      s.boot.teardown = none ∧ isSealed s (bootSlot s) = false)
    ∧ (∃ (s : State) (c : _), s.held = false ∧ s.boot.profileApplied = true ∧ s.boot.bootDone = false ∧ s.lkt.coresRun = true
      ∧ s.boot.job = none ∧ s.boot.commands[s.boot.index]? = some c ∧ c.opcode.toNat < 0x0320)
    ∧ (∃ (s : State) (c : _), s.held = false ∧ s.boot.profileApplied = true ∧ s.boot.bootDone = false ∧ s.lkt.coresRun = true
      ∧ s.boot.job = none ∧ s.boot.commands[s.boot.index]? = some c ∧ 0x0320 ≤ c.opcode.toNat ∧ s.boot.acquireWaited = false ∧
      s.pst.state = .acquire)
    ∧ (∃ (s : State), s.held = false ∧ s.boot.profileApplied = true ∧ s.boot.bootDone = false ∧ s.lkt.coresRun = true ∧
      s.boot.commands[s.boot.index]? = none)
    ∧ (∃ (s : State), s.held = false ∧ s.boot.acquireWait = true ∧ s.pst.state ≠ .acquire) :=
  ⟨⟨up, by decide⟩,
    ⟨{ up with boot.otpSensed := true }, by decide⟩,
    ⟨{ up with boot.tarnFilled := true }, by decide⟩,
    ⟨{ up with boot.tarnFilled := true }, by decide⟩,
    ⟨{ up with boot.dramTrained := true }, by decide⟩,
    ⟨{ up with boot.dramTrained := true }, by decide⟩,
    ⟨{ up with boot.tarnFilled := true }, by decide +kernel⟩,
    ⟨{ up with boot.fwRunning := true }, by decide⟩,
    ⟨{ up with boot.profileApplied := true, boot.commands := [{ part := 0, opcode := 0x0205, payload := [] }] },
      { part := 0, opcode := 0x0205, payload := [] }, by decide⟩,
    ⟨{ up with boot.profileApplied := true, boot.commands := [{ part := 0, opcode := 0x0320, payload := [] }] },
      { part := 0, opcode := 0x0320, payload := [] }, by decide⟩,
    ⟨{ up with boot.profileApplied := true }, by decide⟩,
    ⟨{ tFree tEn with boot.acquireWait := true }, by decide⟩⟩

/-! What a signature verifies is an opaque constant (log 3): a verification that succeeds is a hypothesis here. -/

theorem test_meets_secDebugUnlock (h : ∀ m b, sigVerifies m b = true) :
    Accepts tOpen tq (bodySecDebugUnlock tBlock) ∧ tBlock.length = 256 ∧ unlockOk tOpen tBlock = true
      ∧ evalExpect tOpen = false := by
  refine ⟨by unfold Accepts; decide, by decide +kernel, ?_, by decide⟩
  have hk : sigKeyHeld tOpen.sec.otp tBlock = true := by
    have e : (tBlock.drop 8).take 96 = List.replicate 96 0 := by decide
    have k : leAt tBlock 5 1 = 0 := by decide
    have u : imgSlotUsable tOpen.sec.otp 0 = true := by decide
    have l : Store.look 0 tOpen.sec.otp.imgHashes 0 = Config.sha384 (List.replicate 96 0) := rfl
    simp only [sigKeyHeld, e, k, u, l, beq_self_eq_true, Bool.and_self]
  have hf : sigBlockFormed tBlock = true := by decide +kernel
  have hn : tOpen.sec.nonce = some 0 := rfl
  have hd : tOpen.sec.otp.dbgDisable = false := rfl
  simp [unlockOk, hn, hd, hf, hk, h]

theorem look_tStore (d : Byte) (bs : List Byte) : ∀ a j, Store.look d (tStore a bs) (a + j) = bs.getD j d := by
  induction bs with
  | nil => intros; rfl
  | cons b bs ih =>
    intro a j
    cases j with
    | zero => simp [tStore, Store.look]
    | succ j =>
      have e : a + (j + 1) = a + 1 + j := by omega
      have n : ¬ a + 1 + j = a := by omega
      simp [tStore, Store.look, e, n, ih]

theorem flashRead_tFlash (a k n : Nat) (bs : List Byte) (h : k + n ≤ (bs ++ tBlock).length) :
    flashRead (tFlash a bs).flash (a + k) n = ((bs ++ tBlock).drop k).take n := by
  have e : (tFlash a bs).flash.bytes = tStore a (bs ++ tBlock) := rfl
  refine List.ext_getElem (by simp [flashRead, Store.slice]; simp at h; omega) fun i h1 h2 => ?_
  have hi : k + i < (bs ++ tBlock).length := by simp [flashRead, Store.slice] at h1; omega
  simp only [flashRead, Store.slice, e, List.getElem_map, List.getElem_range, Nat.add_assoc, look_tStore, List.getElem_take,
    List.getElem_drop, List.getD_eq_getElem?_getD, List.getElem?_eq_getElem hi, Option.getD_some]

/-- A bundle with the block of the tests, under no programmed key, verifies where its signature does. -/
theorem bundleFault_tFlash (h : ∀ m b, sigVerifies m b = true) (a len roll : Nat) (bs : List Byte) (hl : bs.length = len) :
    bundleFault (tFlash a bs) a len roll = none := by
  have hr : flashRead (tFlash a bs).flash (a + len) 256 = tBlock := by
    subst hl
    rw [flashRead_tFlash a bs.length 256 bs (by rw [List.length_append]; exact Nat.add_le_add_left (by decide +kernel) _)
      , List.drop_left]
    decide +kernel
  have hf : sigBlockFormed tBlock = true := by decide +kernel
  have hp : (tFlash a bs).sec.otp.imgProg = 0 := rfl
  have ha : arbCounter (tFlash a bs) = 0 := rfl
  simp only [bundleFault, hr, hf, hp, h, ha]
  simp

theorem fwCheck_of {s : State} {c : Nat} {x : FwHead} (h0 : fwHead s c = some x)
    (h : bundleFault s (copyBase c) x.len x.rollback.toNat = none) : fwCheck s c = .ok x := by simp [fwCheck, h0, h]

theorem profCheck_of {s : State} {n : Nat} {x : ProfHead} (h0 : profHead s n = some x)
    (h : bundleFault s (slotBase n) x.len x.rollback.toNat = none) : profCheck s n = .ok x := by simp [profCheck, h0, h]

def tFwHead : FwHead := { evaluated := true, len := 20, version := 7, rollback := 3 }
def tProfHead : ProfHead := { len := 192, id := 9, rollback := 0, rate := 1, parts := 1, name := List.replicate 32 0 }

theorem test_meets_bootFwVerified (h : ∀ m b, sigVerifies m b = true) :
    chosenCopy (tFlash 0 tFw) = some (0, tFwHead, false) := by
  have h0 : fwCheck (tFlash 0 tFw) 0 = .ok tFwHead :=
    fwCheck_of (by decide +kernel) (bundleFault_tFlash h 0 20 3 tFw rfl)
  have h1 : fwHead (tFlash 0 tFw) 1 = none := by decide +kernel
  have h2 : fwCheck (tFlash 0 tFw) 1 = .error 0x20 := by simp only [fwCheck, h1]
  simp only [chosenCopy, h0, h2]

theorem test_meets_bootProfileApplied (h : ∀ m b, sigVerifies m b = true) :
    isSealed (tFlash 0x100_0000 tProf) (bootSlot (tFlash 0x100_0000 tProf)) = true
    ∧ profCheck (tFlash 0x100_0000 tProf) (bootSlot (tFlash 0x100_0000 tProf)) = .ok tProfHead
    ∧ bundleOk 1 tBundle = true := by
  refine ⟨by decide, ?_, by simp only [bundleOk, tBundle, List.length_replicate, List.all_replicate]; decide⟩
  have hb : bootSlot (tFlash 0x100_0000 tProf) = 0 := rfl
  rw [hb]
  exact profCheck_of (by decide +kernel) (bundleFault_tFlash h 0x100_0000 192 0 tProf (by decide +kernel))

theorem test_meets_StepRunsTheFront : (∃ (c : Instr) (rest : List Instr) (s : State), s.pending = c :: rest)
    ∧ ∃ s : State, s.pending = [] :=
  ⟨⟨.supWatchdog, [], { up with pending := [.supWatchdog] }, rfl⟩, ⟨up, rfl⟩⟩

theorem test_meets_NotOwnerChangesNothing : ∃ (s : State) (q : Sender) (c : NetSetRing),
    Reaches s q (bodyNetSetRing c) ∧ ownsAll s q.part.val (bodyNetSetRing c).units = false :=
  ⟨up, { part := 1, via := .mailbox },
    { dir := 1, ring := 7, enable := 0, size := 4, base := 0, queue := 4, cls := 0, domain := 0 }, by unfold Reaches; decide⟩

theorem test_meets_LocksRefuse : (∀ n < 9, tLocked.sys.lock.getLsbD n = true)
    ∧ (∀ b ∈ [bodySysProfileSeal 1, bodyClkSetRate 1, bodyNetTest 0 0, bodyTdmSetGroup { group := 0, foreign := 0, rate := 0 }
        , bodySadSetPathdown 8, bodyCrnSetTrapEscalation 2, bodyMemSetScrub 1 2],
      Reaches tLocked tq b ∧ (b.only0 = true → tq.part = 0) ∧ ownsAll tLocked tq.part.val b.units = true)
    ∧ MayRead tLocked tr := by
  refine ⟨by decide, ?_, by unfold MayRead; decide⟩
  unfold Reaches
  decide

theorem test_meets_FaultMerges : ∃ (s : State) (src : Byte) (c : Cls) (a : Act), s.held = false
    ∧ s.lkt.srcMask.getLsbD src.toNat = false ∧ classOf s src.toNat = some (c, a)
    ∧ (s.record (src.toNat / 32)).state ≠ .idle :=
  ⟨{ up with lkt.records := [(0, { Record.init with state := .raised, count := 0xFFFFFFFF })] }, 0, .service, .none, by decide⟩

theorem test_meets_PpsCapture : up.held = false ∧ MayRead up tr := by unfold MayRead; decide

theorem test_meets_WideWrites : up.held = false ∧ present up tr = true ∧ (3 : Fin 4).val < up.net.ports.length
    ∧ ownerOf up (.dmaCh 30) = tr.part.val := by decide

theorem test_meets_RowsTouchOnly : ∃ t, exec .supLockstep up = .next t := ⟨_, rfl⟩

theorem test_meets_FusesStayBlown : ∃ t, exec .porstAssert { up with sec.otp.partProg := 1 } = .next t := ⟨_, rfl⟩

theorem test_meets_OnlyResetsUndo : resets .supLockstep = false ∧ ∃ t, exec .supLockstep tLocked = .next t :=
  ⟨by decide, _, rfl⟩

theorem test_meets_StoresStayInside :
    (∃ t, exec (.far 3 true false 0 0 0) (tEng { Engine.init with s := [(0, 0x10_0000)], x := [(1, 5)] }) = .next t
      ∧ t.mem.readTarn 0x10_0004 1 = [5])
    ∧ (∃ t, exec (.pcieBar2Access 0 0x1FFFFE 2 (some [6, 7])) up = .next t ∧ targetOf up 0x1FFFFE < 16
      ∧ t.mem.readTarn 0x1FFFFF 1 = [7])
    ∧ (∃ t, exec (.pcieBar2Access 0 0x1_0000_0000 1 (some [6])) up = .next t ∧ targetOf up 0x1_0000_0000 = 16)
    ∧ (∃ t, exec (.pcieBar2Access 0 0x1FFFFE 2 none) up = .next t ∧ targetOf up 0x1FFFFE ≤ 16)
    ∧ (∃ t, exec (.mirrorRecReceived { part := 0, offset := 0xFFFFF, bytes := [9] }) (tRed .standby) = .next t
      ∧ regionOf (tRed .standby) .mirrorInbox 0 = some (tRegion 5 .mirrorInbox)
      ∧ t.mem.readTarn 0x5F_FFFF 1 = [9]) :=
  ⟨⟨_, rfl, by decide +kernel⟩, ⟨_, rfl, by decide, by decide +kernel⟩, ⟨_, rfl, by decide⟩, ⟨_, rfl, by decide⟩,
    ⟨_, rfl, by decide, by decide +kernel⟩⟩

theorem test_meets_InvariantKept : Inv { up with pending := [.supWatchdog] }
    ∧ ∃ t, step { up with pending := [.supWatchdog] } = .next t :=
  ⟨⟨by decide, by decide, by decide, by decide, by decide, by decide, by decide, by decide⟩, _, rfl⟩

theorem test_meets_CairnWordsRoundTrip : formsOk (tShort.word .snop) = true
    ∧ ∃ w, CWord.decode w = some (.c .stop) := ⟨by decide, 0x8700000000000000, by decide⟩

end Sys2Proof.Machine
end

section
/-! Writes of the direct window (R433, R437, R441 to R447): one rule per check of a write, per register that acts, and
per end of a pass of the configuration CRC, and the obligation on writes assembled from them. -/

namespace Sys2Proof.Machine

section Rules

variable {s : State} {q : Requester} {a b : Nat} {w : Word} {whole : Bool}

/-! The checks of a write (R414, R433, R442). -/

theorem whenUp_of_running (t : State) (h : s.held = false) : whenUp s t = t := by simp [whenUp, h]

theorem busWrite_of_present (hp : present s q = true) :
    busWrite q a w whole s = writeReg q (a / 4 * 4 % 0x1_0000) w whole s := by simp [busWrite, hp]

theorem writeReg_not_owner (hr : isReg a = true) (ho : regAllowed s q a = false) :
    writeReg q a w whole s = ignoreWrite q a 0 s := by simp [writeReg, hr, ho]

theorem writeReg_part_word (hr : isReg a = true) (ho : regAllowed s q a = true) :
    writeReg q a w false s = ignoreWrite q a 1 s := by simp [writeReg, hr, ho]

theorem writeReg_accepted (hr : isReg a = true) (ho : regAllowed s q a = true) (hl : regLocked s a = false) :
    writeReg q a w true s = if isRingBase a then configDirty (regStore q a w s) else regStore q a w s := by
  simp [writeReg, hr, ho, hl]

/-- An accepted write of a whole word to a register that is no ring base has the register's effect alone. -/
theorem write_runs_regStore (h : MayWrite s q a) (hr : isReg a = true) (hb : isRingBase a = false)
    (ha : b / 4 * 4 % 0x1_0000 = a) : whenUp s (busWrite q b w true s) = regStore q a w s := by
  obtain ⟨hheld, hp, ho, hl⟩ := h
  rw [whenUp_of_running _ hheld, busWrite_of_present hp, ha, writeReg_accepted hr ho hl, hb]
  rfl

theorem half_word_mod_window (x : Half) : x.toNat / 4 * 4 % 0x1_0000 = x.toNat / 4 * 4 := by
  have := x.isLt
  omega

/-- The row REGISTER_WRITE, once its requester reaches the window, is the write at its word's address. -/
theorem exec_registerWrite_of_present (addr : Half) (hheld : s.held = false) (hp : present s q = true) :
    exec (.registerWrite q addr w whole) s = .next (writeReg q (addr.toNat / 4 * 4) w whole s) := by
  show Host.Outcome.next (whenUp s (busWrite q addr.toNat w whole s)) = _
  rw [whenUp_of_running _ hheld, busWrite_of_present hp, half_word_mod_window]

/-! SYS_LOCK and CFG_CRC_CTRL (R442, R445, R446). -/

theorem regStore_lock : regStore q 0x0010 w s = sysLockWrite w s := rfl

theorem regStore_crcCtrl : regStore q 0x0020 w s = crcCtrlWrite w s := rfl

/-- A row that writes CFG_CRC_CTRL, where the write is accepted. -/
theorem write_crcCtrl (h : MayWrite s q 0x0020) : whenUp s (busWrite q 0x0020 w true s) = crcCtrlWrite w s := by
  rw [write_runs_regStore h rfl rfl rfl, regStore_crcCtrl]

theorem crcCtrlWrite_enable (on : Bool) : crcCtrlWrite (bitAt 0 on) s = crcEnableWrite on s := by cases on <;> rfl

theorem crcCtrlWrite_commit (on : Bool) : crcCtrlWrite (bitAt 0 on ||| 2) s = crcCommit (crcEnableWrite on s) := by
  cases on <;> rfl

theorem crcEnableWrite_same : crcEnableWrite s.sys.crcEnable s = s := by
  unfold crcEnableWrite
  cases s.sys.crcEnable <;> rfl

theorem crcEnableWrite_off (h : s.sys.crcEnable = true) :
    crcEnableWrite false s = { s with sys := { s.sys with
      crcEnable := false, crcRefValid := false, crcDirty := false } } := by
  simp [crcEnableWrite, h]

theorem crcEnableWrite_on (h : s.sys.crcEnable = false) :
    crcEnableWrite true s = { s with sys := { s.sys with
      crcEnable := true, crcDirty := false, crcWaitLate := false, crcDiffered := false } } := by
  simp [crcEnableWrite, h]

theorem crcCommit_unfrozen (h : s.sys.lock.getLsbD 8 = false) :
    crcCommit s = { s with sys := { s.sys with crcWait := true, crcWaitLate := true } } := by
  rw [crcCommit, h]
  rfl

/-- FREEZE refuses every write of CFG_CRC_CTRL (R442), so an accepted one finds it clear. -/
theorem unfrozen_of_mayWrite_crcCtrl (h : MayWrite s q 0x0020) : s.sys.lock.getLsbD 8 = false := by
  obtain ⟨-, -, -, hl⟩ := h
  simpa [regLocked] using hl

/-! The ends of a pass of the configuration CRC (R445, R446). -/

theorem crcPass_dirty (r : Word) (he : s.sys.crcEnable = true) (hd : s.sys.crcDirty = true) :
    crcPass r s = { s with sys := { s.sys with crcDirty := false, crcWaitLate := false } } := by simp [crcPass, he, hd]

theorem crcPass_clean (r : Word) (he : s.sys.crcEnable = true) (hd : s.sys.crcDirty = false) :
    crcPass r s = { crcClean r s with sys := { (crcClean r s).sys with crcDirty := false, crcWaitLate := false } } := by
  simp [crcPass, he, hd]

/-- A clean pass that a commit waited for from its start loads the reference. -/
theorem crcClean_commits (r : Word) (hw : s.sys.crcWait = true) (hl : s.sys.crcWaitLate = false) :
    crcClean r s = { s with sys := { s.sys with
      crcLast := r, crcPassCnt := s.sys.crcPassCnt + 1, crcRef := r, crcRefValid := true, crcWait := false
      crcDiffered := false, crcMismatch := false } } := by simp [crcClean, hw, hl]

/-! The 64-bit counters of a network port (R312, R437). -/

theorem isRingBase_netPort (h0 : 0x5C00 ≤ a) : isRingBase a = false := decide_eq_false (by omega)

/-- Every partition may write the registers of a network port, and no lock covers them (R433, R442). -/
theorem mayWrite_netPort (hheld : s.held = false) (hp : present s q = true) (h0 : 0x5C00 ≤ a) (h1 : a < 0x5E00) :
    MayWrite s q a := by
  have hm : mboxAt a = none := by
    unfold mboxAt
    exact if_neg (by omega)
  have hu : unitAt a = none := by
    unfold unitAt
    repeat rw [if_neg (by omega)]
  have hn : a ≠ 0x0020 := by omega
  refine ⟨hheld, hp, ?_, by simp [regLocked, isRingBase_netPort h0, hn]⟩
  unfold regAllowed
  rw [if_neg (by omega), if_neg (by omega), if_neg (by omega), hm]
  simp only [hu]

theorem isReg_netPort (h0 : 0x5C00 ≤ a) (h1 : a < 0x5E00) (ho : a % 0x80 ≤ 0x3C) : isReg a = true := by
  unfold isReg isNetReg
  repeat rw [if_neg (by omega)]
  rw [if_pos (by omega), decide_eq_true_eq]
  omega

theorem regStore_netPort (h0 : 0x5C00 ≤ a) (h1 : a < 0x5E00) : regStore q a w s = netPortWrite q a w s := by
  unfold regStore netWrite
  repeat rw [if_neg (by omega)]
  rw [if_pos h1]
  repeat rw [if_neg (by omega)]
  rw [if_pos ⟨h0, h1⟩]

/-- A write to a network port's block that reaches the window. -/
theorem write_netPort (hheld : s.held = false) (hp : present s q = true) (h0 : 0x5C00 ≤ a) (h1 : a < 0x5E00)
    (ho : a % 0x80 ≤ 0x3C) (h4 : a % 4 = 0) :
    whenUp s (busWrite q (BitVec.ofNat 16 a).toNat w true s) = netPortWrite q a w s := by
  rw [write_runs_regStore (mayWrite_netPort hheld hp h0 h1) (isReg_netPort h0 h1 ho) (isRingBase_netPort h0)
    (by rw [BitVec.toNat_ofNat]; omega), regStore_netPort h0 h1]

/-- The _LO word of a receive byte counter is staged for its requester. -/
theorem netPortWrite_rxBytesLo (ho : (a - 0x5C00) % 0x80 = 0x08) :
    netPortWrite q a w s = onShadow q (fun y => { y with stagedAddr := some a, stagedLo := w }) s := by
  unfold netPortWrite
  rw [ho]
  rfl

/-- The _HI word of a receive byte counter loads both halves where the requester staged the _LO word. -/
theorem netPortWrite_rxBytesHi {n : Nat} (hn : (a - 0x5C00) / 0x80 = n) (ho : (a - 0x5C00) % 0x80 = 0x0C)
    (hs : (s.shadow q.ix).stagedAddr = some (a - 4)) :
    netPortWrite q a w s
      = onShadow q (fun y => { y with stagedAddr := none }) (s.setNetPort n { s.netPort n with
          rxBytes := loadBoth w (s.shadow q.ix).stagedLo }) := by
  unfold netPortWrite
  rw [ho, hn]
  show onShadow q _ (s.setNetPort n { s.netPort n with
    rxBytes := if (s.shadow q.ix).stagedAddr = some (a - 4) then loadBoth w (s.shadow q.ix).stagedLo else _ }) = _
  rw [if_pos hs]

end Rules

/-- Settles O36: each row is a write of the window, so its checks decide first; the register's own rule then gives the
effect. That a ring base is covered configuration, and that setting ENABLE starts a clean pass, are the model's choices
(log 55). -/
theorem registerWritesComplete : Obligations.RegisterWritesComplete := by
  unfold Obligations.RegisterWritesComplete
  intro s q
  refine ⟨?accepted, ?notOwner, ?partWord, ?lock, ?commit, ?disable, ?enable, ?dirtyPass, ?commitPass, ?wideLo, ?wideHi⟩
  case accepted =>
    rintro addr w ⟨hheld, hp, ho, hl⟩ hr
    rw [exec_registerWrite_of_present addr hheld hp, writeReg_accepted hr ho hl]
  case notOwner =>
    intro addr w whole hheld hp hr ho
    rw [exec_registerWrite_of_present addr hheld hp, writeReg_not_owner hr ho]
  case partWord =>
    intro addr w hheld hp hr ho
    rw [exec_registerWrite_of_present addr hheld hp, writeReg_part_word hr ho]
  case lock =>
    intro bits h
    exact congrArg Host.Outcome.next ((write_runs_regStore h rfl rfl rfl).trans regStore_lock)
  case commit =>
    intro h
    refine congrArg Host.Outcome.next ((write_crcCtrl h).trans ?_)
    rw [crcCtrlWrite_commit, crcEnableWrite_same, crcCommit_unfrozen (unfrozen_of_mayWrite_crcCtrl h)]
  case disable =>
    intro h he
    refine congrArg Host.Outcome.next ((write_crcCtrl h).trans ?_)
    rw [crcCtrlWrite_enable, crcEnableWrite_off he]
  case enable =>
    intro h he
    refine congrArg Host.Outcome.next ((write_crcCtrl h).trans ?_)
    rw [crcCtrlWrite_enable, crcEnableWrite_on he]
  case dirtyPass =>
    intro r hheld he hd
    exact congrArg Host.Outcome.next ((whenUp_of_running _ hheld).trans (crcPass_dirty r he hd))
  case commitPass =>
    intro r hheld he hd hw hl
    refine congrArg Host.Outcome.next ((whenUp_of_running _ hheld).trans ?_)
    rw [crcPass_clean r he hd, crcClean_commits r hw hl]
  case wideLo =>
    intro n w hheld hp
    have hn := n.isLt
    refine congrArg Host.Outcome.next ((write_netPort hheld hp ?_ ?_ ?_ ?_).trans (netPortWrite_rxBytesLo ?_)) <;> omega
  case wideHi =>
    intro n w hheld hp hs
    have hn := n.isLt
    have ha : 0x5C0C + 0x80 * n.val - 4 = 0x5C08 + 0x80 * n.val := by omega
    refine congrArg Host.Outcome.next ((write_netPort hheld hp ?_ ?_ ?_ ?_).trans
      (netPortWrite_rxBytesHi ?_ ?_ (ha ▸ hs))) <;> omega

end Sys2Proof.Machine
end

section
/-! Commands that steps 7 and 8 of R411 turn away (R23, R411): one rule for a refused command, whatever its row, and the
obligation on ownership from it. -/

namespace Sys2Proof.Machine

section Refusals

variable {s : State} {q : Sender} {b : Body} {st : Status} {i : Instr}

theorem opened_with_cmds (x : List PartCmd) : { opened q b s with cmds := x } = { s with cmds := x } := by
  rw [opened, takeSlotFor_frame]

/-- A refusal changes the command slots alone, whatever its status. -/
theorem turnedAway_frame : turnedAway q b st s = { s with cmds := (turnedAway q b st s).cmds } :=
  opened_with_cmds (q := q) (b := b) (turnedAway q b st s).cmds

@[simp] theorem opened_own : (opened q b s).own = s.own := by rw [opened, takeSlotFor_frame]

@[simp] theorem opened_boot : (opened q b s).boot = s.boot := by rw [opened, takeSlotFor_frame]

theorem ownerOf_of_own_eq {t : State} (h : t.own = s.own) (r : Res) : ownerOf t r = ownerOf s r := by
  unfold ownerOf
  rw [h]

theorem ownsAll_of_own_eq {t : State} (h : t.own = s.own) (p : Nat) (rs : List Res) : ownsAll t p rs = ownsAll s p rs := by
  simp only [ownsAll, ownerOf_of_own_eq h]

theorem loadBusy_of_boot_eq {t : State} (h : t.boot = s.boot) (op : Nat) : loadBusy t op = loadBusy s op := by
  simp only [loadBusy, h]

theorem refusal_notOwner {fwd : Bool} {p : Nat} (hl : loadBusy s b.opcode = false) (ho : ownsAll s p b.units = false) :
    refusal s fwd p b = some .notOwner := by simp [refusal, hl, ho]

/-- A command that reaches the checks runs in its slot. -/
theorem runCommand_of_reaches (h : Reaches s q b) :
    runCommand q b s = runInSlot q.part.val (q.via == .udp) b (opened q b s) := by
  obtain ⟨-, hstart, hreach, -⟩ := h
  simp [runCommand, opened, hstart, hreach]

/-- Such a command leaves its refusal in its slot, and no more, where the checks find a refusal. -/
theorem runCommand_refused (h : Reaches s q b) (hr : refusal (opened q b s) false q.part.val b = some st) :
    runCommand q b s = turnedAway q b st s := by
  rw [runCommand_of_reaches h, runInSlot, perform_refused _ hr, turnedAway]

/-- The checks judge the state with the command in its slot, where owners and loads are those of before. -/
theorem refusal_opened_notOwner (h : Reaches s q b) (ho : ownsAll s q.part.val b.units = false) :
    refusal (opened q b s) false q.part.val b = some .notOwner := by
  obtain ⟨-, -, -, hload⟩ := h
  exact refusal_notOwner ((loadBusy_of_boot_eq opened_boot _).trans hload)
    ((ownsAll_of_own_eq opened_own _ _).trans ho)

/-- A row that runs its command, and does nothing else, is refused to a partition that does not own its units. -/
theorem unowned_of_runs_command (hrow : exec i s = .next (whenUp s (runCommand q b s))) : Unowned s q i b := by
  intro h ho
  rw [hrow, whenUp_of_running _ h.1, runCommand_refused h (refusal_opened_notOwner h ho)]

end Refusals

/-- Settles O50: every row that names units runs its command through the checks of R411, and the check of step 7 turns it
away before any effect, for the rows of every block alike. -/
theorem notOwnerChangesNothing : Obligations.NotOwnerChangesNothing := by
  unfold Obligations.NotOwnerChangesNothing
  refine ⟨rfl, fun s q b => turnedAway_frame, fun s q => ?rows⟩
  and_intros <;> intros <;> exact unowned_of_runs_command rfl

end Sys2Proof.Machine
end

section
/-! Lookout's own events (R20, R451, R453 to R455, R514): each operation in the case in which it acts, and the obligation on
them assembled from these. -/

namespace Sys2Proof.Machine

section Rules

variable {s : State}

/-- A row out of reset answers its operation's state. -/
theorem next_whenUp_of_eq {t u : State} (hheld : s.held = false) (h : t = u) :
    (.next (whenUp s t) : Host.Outcome State Fault Refusal) = .next u :=
  congrArg Host.Outcome.next ((whenUp_of_running t hheld).trans h)

/-! Oscillators and the sample edge (R20, R451). -/

/-- B and XO_IN both agree with A: time passes, and no more. -/
theorem oscCompare_agreeing {b xo : Half} (hb : offBy b.toNat 320 = false) (hx : offBy (100 * xo.toNat) 49152 = false)
    (hB : s.lkt.oscB = false) (hX : s.lkt.xoBad = false) :
    oscCompare b xo s = { s with lkt := { s.lkt with now := s.lkt.now + 10 } } := by
  simp [oscCompare, hb, hx, hB, hX]

/-- XO_IN differs from both A and B, which agree: XO_LOSS begins. -/
theorem oscCompare_xo_lost {b xo : Half} (hb : offBy b.toNat 320 = false) (hx : offBy (100 * xo.toNat) 49152 = true)
    (ha : offBy (xo.toNat * 32000) (b.toNat * 49152) = true) (hB : s.lkt.oscB = false) (hX : s.lkt.xoBad = false) :
    oscCompare b xo s = reportOwn 0x001 { s with lkt := { s.lkt with now := s.lkt.now + 10, xoBad := true } } := by
  simp [oscCompare, hb, hx, ha, hB, hX]

theorem edgeTimeout_outside_acquire (h : s.pst.state ≠ .acquire) :
    edgeTimeout s = reportOwn 0x001 { s with lkt := { s.lkt with edgeLoss := true } } := if_neg h

/-! Watchdogs (R453). -/

theorem supWatchdog_kicked (h : s.lkt.supKicked = true) :
    supWatchdog s = { s with lkt := { s.lkt with supKicked := false } } := if_pos h

theorem supWatchdog_not_kicked (h : s.lkt.supKicked = false) : supWatchdog s = reportOwn 0x003 s := by
  simp [supWatchdog, h]

theorem coreStop_core0 (h : s.lkt.coresRun = true) :
    coreStop false s = reportOwn 0x005 { s with lkt := { s.lkt with core0Stop := true } } := by simp [coreStop, h]

/-! Dual-rail signals (R454, R455). -/

/-- A break in an unmasked source below SEVERE: SIGNAL_PATH is reported for it, and it is masked. -/
theorem signalPath_service {src : Byte} {a : Act} {t : State} (hm : s.lkt.srcMask.getLsbD src.toNat = false)
    (hc : classOf s src.toNat = some (.service, a)) (ht : t = reportFault 0x000 (BitVec.ofNat 16 src.toNat) s) :
    signalPath src.toNat s = { t with lkt := { t.lkt with
      sigpathLast := src, srcMask := setBit t.lkt.srcMask src.toNat true } } := by
  simp [signalPath, hm, hc, ht]

/-- The pairs that fail are all masked, so none is left to report. -/
theorem pulseTest_masked {failing : BitVec 256} (h : ∀ n, n ∈ bitsOf failing → s.lkt.srcMask.getLsbD n = true) :
    pulseTest failing s = s := by
  have hnone : (bitsOf failing).filter (fun src => !s.lkt.srcMask.getLsbD src) = [] :=
    List.filter_eq_nil_iff.2 fun n hn => by simp [h n hn]
  rw [pulseTest, hnone]
  rfl

/-! The return of the cores (R514). -/

/-- No boot was under way, so none has failed; the pause frames are looked at again. -/
theorem coreRestart_before_profile (hc : s.lkt.coresRun = false) (hp : s.boot.profileApplied = false) :
    coreRestart true s = pauseCheck { s with lkt := { s.lkt with coresRun := true } } := by simp [coreRestart, hc, hp]

end Rules

/-- Settles O38: out of reset each row is its operation on Lookout, and the operation's rule for the case gives the next
state. -/
theorem lookoutEventsComplete : Obligations.LookoutEventsComplete := by
  unfold Obligations.LookoutEventsComplete
  intro s hheld
  refine ⟨?agreeing, ?xoLost, ?edgeLost, ?kicked, ?notKicked, ?lockstep, ?coreStops, ?coreKicked, ?broken, ?unmasked,
    ?pulsesMasked, ?coresReturn⟩
  case agreeing =>
    rintro b xo rfl rfl hB hX
    exact next_whenUp_of_eq hheld (oscCompare_agreeing (by decide) (by decide) hB hX)
  case xoLost =>
    rintro b xo rfl rfl hB hX
    exact next_whenUp_of_eq hheld (oscCompare_xo_lost (by decide) (by decide) (by decide) hB hX)
  case edgeLost => exact fun h => next_whenUp_of_eq hheld (edgeTimeout_outside_acquire h)
  case kicked => exact fun h => next_whenUp_of_eq hheld (supWatchdog_kicked h)
  case notKicked => exact fun h => next_whenUp_of_eq hheld (supWatchdog_not_kicked h)
  case lockstep => exact next_whenUp_of_eq hheld rfl
  case coreStops => exact fun h => next_whenUp_of_eq hheld (coreStop_core0 h)
  case coreKicked => exact next_whenUp_of_eq hheld rfl
  case broken => exact fun src a t hm hc ht => next_whenUp_of_eq hheld (signalPath_service hm hc ht)
  case unmasked => exact fun src => next_whenUp_of_eq hheld rfl
  case pulsesMasked => exact fun failing h => next_whenUp_of_eq hheld (pulseTest_masked h)
  case coresReturn => exact fun hc hp => next_whenUp_of_eq hheld (coreRestart_before_profile hc hp)

end Sys2Proof.Machine
end

section
/-! What reset leaves (R21, R177, R187, R270, R375, R379, R408, R416, R441): the field behind each register that the
obligation reads, and the obligation from the initial value of each part. -/

namespace Sys2Proof.Machine

section Registers

variable (s : State) (q : Requester)

theorem regRead_status : regRead s q 0x0008 = sysStatus s := rfl

theorem regRead_lock : regRead s q 0x0010 = s.sys.lock := rfl

theorem regRead_wrIgnored : regRead s q 0x0014 = s.sys.wrIgnored := rfl

theorem regRead_crcCtrl : regRead s q 0x0020 = crcCtrl s.sys := rfl

theorem regRead_crcStat : regRead s q 0x0024 = crcStat s.sys := rfl

theorem regRead_mcnt : regRead s q 0x5008 = s.pst.mcnt := rfl

theorem regRead_epoch : regRead s q 0x6804 = s.red.epoch := rfl

end Registers

/-- Right after reset every partition's slots are empty, and its session is a drawn one (R408). -/
theorem part_reset {p : Nat} (hp : p < 4) :
    State.reset.part p = PartCmd.init (pickSession 0 (Config.freeWord p)) :=
  match p, hp with
  | 0, _ | 1, _ | 2, _ | 3, _ => rfl

/-- A crosspoint that is not listed and has no change under way reads as zeros (R176, R177). -/
theorem word_reset (k : Nat) : State.reset.mtx.word k = 0#32 := by
  simp [Mtx.word, State.reset, Mtx.init, Mtx.chg, Store.look, bitAt]

/-- Settles O49: each part of the state at reset is that part's initial value, and a drawn session is never zero. That the
state is the one of the instant 0 of R516 is the model's choice (log 1), and so is that memory reads as zeros (log 4). -/
theorem resetValues : Obligations.ResetValues := by
  unfold Obligations.ResetValues
  refine ⟨fun q => ?registers, rfl, rfl, rfl, fun c _ => rfl, fun p hp => ?partitions, word_reset, rfl, rfl, rfl, rfl⟩
  case registers =>
    rw [regRead_status, regRead_lock, regRead_wrIgnored, regRead_crcCtrl, regRead_crcStat, regRead_mcnt, regRead_epoch]
    decide
  case partitions =>
    rw [part_reset hp]
    exact ⟨rfl, rfl, pickSession_ne_zero _ _⟩

end Sys2Proof.Machine
end

section
/-! What every row of the table keeps, put together from what each operation keeps (Laws/Kept), and the obligations on the
invariant. -/

namespace Sys2Proof.Machine

/-- Where row `i` answers a next state, that state follows the one before: what only a reset undoes is undone by a reset
alone, and the parts that `touches` does not name stay as they are. -/
def RowKept (i : Instr) : Prop := ∀ s t : State, exec i s = .next t → Kept (resets i) (touches i) s t

/-- The operation keeps what every operation keeps, and changes the parts of `a` alone. -/
abbrev Keeps (r : Bool) (a : List Part) (f : State → State) : Prop :=
  ∀ {χ : List Part} {σ s : State}, Sub a χ → Kept r χ σ s → Kept r χ σ (f s)

/-- The parts that a command changes beside its own effect: its slot, what its checks report, the configuration CRC and the
copy for a peer (R411, R413, R444, R388). -/
def commandParts : List Part := [.lkt, .sys, .cmds, .sec, .boot, .tdm, .net, .red, .tw]

section Rules

variable {i : Instr} {a : List Part}

theorem Sub.of_all {c : List Part} (h : (a.all fun p => c.contains p) = true) : Sub a c := Sub.of (fun _ hp => hp) h

theorem RowKept.always {f : State → State} (hrow : ∀ s, exec i s = .next (f s)) (hf : Keeps (resets i) a f)
    (ha : Sub a (touches i) := by exact .of_all rfl) : RowKept i := by
  intro s t h
  obtain rfl : f s = t := Host.Outcome.next.inj ((hrow s).symm.trans h)
  exact hf ha (.refl _ _ _)

/-- A row that does nothing while the block is held in reset. -/
theorem RowKept.up {f : State → State} (hrow : ∀ s, exec i s = .next (whenUp s (f s))) (hf : Keeps (resets i) a f)
    (ha : Sub a (touches i) := by exact .of_all rfl) : RowKept i :=
  .always hrow (fun hw hk => whenUp_kept hk (hf hw hk)) ha

theorem RowKept.command {q : Sender} {b : Body} (hrow : ∀ s, exec i s = .next (whenUp s (runCommand q b s)))
    (hb : ∀ {χ : List Part}, Sub a χ → b.Keeps χ) (hc : Sub commandParts (touches i) := by exact .of_all rfl)
    (ha : Sub a (touches i) := by exact .of_all rfl) : RowKept i :=
  .up hrow (fun hw hk => runCommand_kept (fun p hp => hw p (hc p hp)) (hb fun p hp => hw p (ha p hp)) hk) fun _ hp => hp

/-- An event of Polestar: it changes Polestar, keeps its six references (R34), and reports the faults that it finds. -/
theorem RowKept.polestar {g : State → Pst → Pst × List Nat} (hrow : ∀ s, exec i s = .next (whenUp s (withPst (g s) s)))
    (hg : ∀ s p, (g s p).1.refs.length = p.refs.length)
    (ha : Sub [.lkt, .pst, .cmds, .boot, .tdm, .net, .red, .tw] (touches i) := by exact .of_all rfl) : RowKept i :=
  .up hrow (fun hw hk => withPst_kept hw hk (hg _)) ha

/-- A word of an engine that is no FAR leaves memory alone. -/
theorem RowKept.word {n : Fin 24} {w : CWord} (hrow : ∀ s, exec i s = .next (whenUp s (issueRow n w s)))
    (hw : ∀ out y p r k, w ≠ .c (.far out y p r k))
    (ha : Sub [.lkt, .cmds, .boot, .tdm, .wave, .crn, .col, .net, .red, .tw] (touches i) := by exact .of_all rfl) :
    RowKept i :=
  .up hrow (fun hs hk => issueRow_plain_kept hs hw hk) ha

theorem MacRest.word_ne_far (x : MacRest) (m : MacOp) (out y p r k) : x.word m ≠ .c (.far out y p r k) := by
  cases x <;> exact CWord.noConfusion

theorem ShortRest.word_ne_far (x : ShortRest) (v : ShortMove) (out y p r k) : x.word v ≠ .c (.far out y p r k) := nofun

theorem LongRest.word_ne_far (x : LongRest) (v : LongMove) (out y p r k) : x.word v ≠ .c (.far out y p r k) := nofun

end Rules

/-! The rows that are more than one operation. -/

theorem referenceValid_rowKept {ref : Fin 6} {m : RefMeas} : RowKept (.referenceValid ref m) :=
  .up (a := [.pst]) (fun _ => rfl) fun hw hk => .ite hk <| hk.same hw (fun p => by cases p <;> simp [Part.same]) rfl
    (.refl _) rfl (by simp) rfl rfl rfl (.refl _)

theorem holdoverHistorySecond_rowKept {mean : Long} : RowKept (.holdoverHistorySecond mean) :=
  .up (a := [.pst]) (fun _ => rfl) fun hw hk => hk.same hw (fun p => by cases p <;> simp [Part.same]) rfl
    (.refl _) rfl (by simp) rfl rfl rfl (.refl _)

theorem acquireWindowExpiry_rowKept : RowKept .acquireWindowExpiry :=
  .up (a := [.lkt, .pst, .cmds, .boot, .tdm, .net, .red, .tw]) (fun _ => rfl) fun hw hk =>
    .ite (withPst_kept hw hk fun p => by simp) hk

theorem governorUpdate_rowKept : RowKept .governorUpdate :=
  .up (a := [.fab]) (fun _ => rfl) fun hw hk => .view hw hk rfl

theorem boundaryTestSelect_rowKept : RowKept .boundaryTestSelect :=
  .always (fun _ => rfl) fun hw hk => .ite hk (.ite (.view (a := [.pins]) (hw.of rfl) hk rfl) (boundarySelect_kept hw hk))

/-- A JTAG instruction outside the standard ones that is not refused is either void, in reset, or reported. -/
theorem privateJtagInstruction_rowKept : RowKept .privateJtagInstruction := by
  intro s t h
  replace h : execPrivateJtagInstruction s = .next t := h
  unfold execPrivateJtagInstruction at h
  split at h
  · cases h
    exact .refl _ _ _
  · split at h
    · cases h
    · cases h
      exact privateJtag_kept (.of_all rfl) (.refl _ _ _)

/-- Every row keeps what every operation keeps, and changes the parts that `touches` names for it alone. -/
theorem rowKept (i : Instr) : RowKept i := by
  cases i with
  -- Cairn engines
  | entryDispatch => exact .up (fun _ => rfl) entryDispatch_kept
  | entryCompletion => exact .up (fun _ => rfl) entryCompletion_kept
  | paramWriteWindow => exact .up (fun _ => rfl) paramWindow_kept
  | farTransferComplete => exact .up (fun _ => rfl) farComplete_kept
  | mnop | mpy | mac | lda | adda | sha | nrw | dnrw | nrwc | nrwe | add | sub | max | min | abs | neg | and | or
  | xor | shl | shr | shv | norm | expn | sel => exact .word (fun _ => rfl) (MacRest.word_ne_far _ _)
  | snop | ldv | st | cpy | movv | movsv | bcst | waitf => exact .word (fun _ => rfl) (ShortRest.word_ne_far _ _)
  | lnop | br | call | ret | addsi | alus | mova | movc | lds | sts | movvs | setdw =>
    exact .word (fun _ => rfl) (LongRest.word_ne_far _ _)
  | loop | loopi | seta | movi | seed | endEntry => exact .word (fun _ => rfl) nofun
  | far => exact .up (fun _ => rfl) issueRow_kept
  | crnSetTrapEscalation => exact .command (fun _ => rfl) bodyCrnSetTrapEscalation_keeps
  | crnGetStatus => exact .command (fun _ => rfl) bodyCrnGetStatus_keeps
  | crnReadMem => exact .command (fun _ => rfl) bodyCrnReadMem_keeps
  | illegalInstruction => exact .up (fun _ => rfl) issueRaw_kept
  -- Polestar
  | referenceValid => exact referenceValid_rowKept
  | referenceQualified => exact .polestar (fun _ => rfl) fun _ p => Pst.refQualified_refs p ..
  | referenceLost => exact .polestar (fun _ => rfl) fun _ p => Pst.refLost_refs p ..
  | acquireWindowExpiry => exact acquireWindowExpiry_rowKept
  | waitToRestoreExpiry => exact .polestar (fun _ => rfl) fun _ p => Pst.wtrExpiry_refs p ..
  | slewComplete => exact .up (fun _ => rfl) slewComplete_kept
  | holdoverSpecExpiry => exact .polestar (fun _ => rfl) fun _ p => Pst.specExpiry_refs p ..
  | holdoverHistorySecond => exact holdoverHistorySecond_rowKept
  | disagreeWindow => exact .polestar (fun _ => rfl) fun _ p => Pst.disagreeWindow_refs p ..
  | pstPtpNsRead => exact .up (fun _ => rfl) busRead_kept
  | clkGetStatus => exact .command (fun _ => rfl) bodyClkGetStatus_keeps
  | clkSetRate => exact .command (fun _ => rfl) bodyClkSetRate_keeps
  | clkRefConfig => exact .command (fun _ => rfl) bodyClkRefConfig_keeps
  | clkSelect => exact .command (fun _ => rfl) bodyClkSelect_keeps
  | clkSetTimers => exact .command (fun _ => rfl) bodyClkSetTimers_keeps
  | clkSetHoldover => exact .command (fun _ => rfl) bodyClkSetHoldover_keeps
  | clkSetTrim => exact .command (fun _ => rfl) bodyClkSetTrim_keeps
  | clkPhaseStep => exact .command (fun _ => rfl) bodyClkPhaseStep_keeps
  | clkRealign => exact .command (fun _ => rfl) bodyClkRealign_keeps
  | clkGetRef => exact .command (fun _ => rfl) bodyClkGetRef_keeps
  -- the fabric
  | sampleEdge => exact .up (fun _ => rfl) sampleEdge_kept
  | completionToken => exact .up (fun _ => rfl) tokenReturn_kept
  | outputGuard => exact .up (fun _ => rfl) outputGuard_kept
  | missBurst => exact .up (fun _ => rfl) missBurst_kept
  | fabricStall => exact .up (fun _ => rfl) fabricStall_kept
  | trapStall => exact .up (fun _ => rfl) trapStall_kept
  | governorUpdate => exact governorUpdate_rowKept
  | governorPoll => exact .up (fun _ => rfl) governorPoll_kept
  | governorWriteDone => exact .up (fun _ => rfl) governorDone_kept
  | coreUv => exact .up (fun _ => rfl) coreUnder_kept
  | histLatchRead => exact .up (fun _ => rfl) busRead_kept
  | fabSetGovernor => exact .command (fun _ => rfl) bodyFabSetGovernor_keeps
  | fabSetEscalation => exact .command (fun _ => rfl) bodyFabSetEscalation_keeps
  | fabSetTelemetry => exact .command (fun _ => rfl) bodyFabSetTelemetry_keeps
  | fabClearTelemetry => exact .command (fun _ => rfl) bodyFabClearTelemetry_keeps
  -- the graph
  | graphLoadChunk => exact .command (fun _ => rfl) bodyGraphLoadChunk_keeps
  | graphVerify => exact .command (fun _ => rfl) bodyGraphVerify_keeps
  | bankBuildComplete => exact .up (fun _ => rfl) buildComplete_kept
  | reservationExpiry => exact .up (fun _ => rfl) reservationExpiry_kept
  | graphCommit => exact .command (fun _ => rfl) bodyGraphCommit_keeps
  | graphCancel => exact .command (fun _ => rfl) bodyGraphCancel_keeps
  | graphStatus => exact .command (fun _ => rfl) bodyGraphStatus_keeps
  | graphGetLayout => exact .command (fun _ => rfl) bodyGraphGetLayout_keeps
  | graphSetReservation => exact .command (fun _ => rfl) bodyGraphSetReservation_keeps
  | graphHalt => exact .command (fun _ => rfl) bodyGraphHalt_keeps
  | crossfadeEnd => exact .up (fun _ => rfl) crossfadeEnd_kept
  | bankHaltEnd => exact .up (fun _ => rfl) bankHaltEnd_kept
  | nodeSetGain => exact .command (fun _ => rfl) bodyNodeSetGain_keeps
  | nodeSetTimeout => exact .command (fun _ => rfl) bodyNodeSetTimeout_keeps
  | gainZcTimeout => exact .up (fun _ => rfl) gainTimeout_kept
  -- Lookout
  | oscComparison => exact .up (fun _ => rfl) oscCompare_kept
  | sampleEdgeTimeout => exact .up (fun _ => rfl) edgeTimeout_kept
  | supWatchdog => exact .up (fun _ => rfl) supWatchdog_kept
  | lktSupKick | lktClaim | lktClear => exact .up (fun _ => rfl) busWrite_kept
  | supLockstep => exact .up (fun _ => rfl) reportOwn_kept
  | summitCoreStop => exact .up (fun _ => rfl) coreStop_kept
  | signalPath => exact .up (fun _ => rfl) signalPath_kept
  | sourceUnmask => exact .up (fun _ => rfl) sourceUnmask_kept
  | pairPulseTest => exact .up (fun _ => rfl) pulseTest_kept
  | faultReport => exact .up (fun _ => rfl) faultReport_kept
  | escalationExpiry => exact .up (fun _ => rfl) escalationExpiry_kept
  | claimTimeExpiry => exact .up (fun _ => rfl) claimTimeExpiry_kept
  | notedExpiry => exact .up (fun _ => rfl) notedExpiry_kept
  | coreRestartComplete => exact .up (fun _ => rfl) coreRestart_kept
  | fltGetStatus => exact .command (fun _ => rfl) bodyFltGetStatus_keeps
  | fltClaim => exact .command (fun _ => rfl) bodyFltClaim_keeps
  | fltClear => exact .command (fun _ => rfl) bodyFltClear_keeps
  | fltSetClass => exact .command (fun _ => rfl) bodyFltSetClass_keeps
  | fltSetTimers => exact .command (fun _ => rfl) bodyFltSetTimers_keeps
  | fltGetCounts => exact .command (fun _ => rfl) bodyFltGetCounts_keeps
  | coreWatchdogKick => exact .up (fun _ => rfl) coreKick_kept
  -- Meridian
  | mtxSetGains => exact .command (fun _ => rfl) bodyMtxSetGains_keeps
  | mtxBulkArm => exact .command (fun _ => rfl) bodyMtxBulkArm_keeps
  | bulkArmCheckDone => exact .up (fun _ => rfl) bulkCheckDone_kept
  | mtxBulkCancel => exact .command (fun _ => rfl) bodyMtxBulkCancel_keeps
  | mtxSetColumn => exact .command (fun _ => rfl) bodyMtxSetColumn_keeps
  | mtxGetGains => exact .command (fun _ => rfl) bodyMtxGetGains_keeps
  | mtxGetStatus => exact .command (fun _ => rfl) bodyMtxGetStatus_keeps
  | mtxSetQuota => exact .command (fun _ => rfl) bodyMtxSetQuota_keeps
  | mtxZcTimeout => exact .up (fun _ => rfl) zcExpire_kept
  | stagingWindowWrite => exact .up (fun _ => rfl) stagingWrite_kept
  -- memory and DMA
  | colPathTimeout => exact .up (fun _ => rfl) colTimeout_kept
  | patrolScrub => exact .up (fun _ => rfl) scrubWord_kept
  | colPortGate => exact .up (fun _ => rfl) gatePort_kept
  | dmaRun | dmaStop => exact .up (fun _ => rfl) busWrite_kept
  | dmaDescFetch => exact .up (fun _ => rfl) dmaFetch_kept
  | dmaBurst => exact .up (fun _ => rfl) dmaBurst_kept
  | dmaRequest => exact .up (fun _ => rfl) dmaRequest_kept
  | dmaTimerEvent => exact .up (fun _ => rfl) dmaTimer_kept
  | dmaMcntMatch => exact .up (fun _ => rfl) dmaMatch_kept
  | dmaCompletion => exact .up (fun _ => rfl) dmaComplete_kept
  | dmaErrorResponse => exact .up (fun _ => rfl) dmaError_kept
  | dmaResume => exact .command (fun _ => rfl) bodyDmaResume_keeps
  | memSetScrub => exact .command (fun _ => rfl) bodyMemSetScrub_keeps
  | memGetStatus => exact .command (fun _ => rfl) bodyMemGetStatus_keeps
  | pcieBar2Access => exact .up (fun _ => rfl) bar2Access_kept
  | dmaRequestWithdrawal => exact .up (fun _ => rfl) dmaWithdraw_kept
  -- the network ports
  | netSetPort => exact .command (fun _ => rfl) bodyNetSetPort_keeps
  | netSetSwitch => exact .command (fun _ => rfl) bodyNetSetSwitch_keeps
  | netFdbWrite => exact .command (fun _ => rfl) bodyNetFdbWrite_keeps
  | netVlanWrite => exact .command (fun _ => rfl) bodyNetVlanWrite_keeps
  | netSetFilter => exact .command (fun _ => rfl) bodyNetSetFilter_keeps
  | netSetRing => exact .command (fun _ => rfl) bodyNetSetRing_keeps
  | netTest => exact .command (fun _ => rfl) bodyNetTest_keeps
  | netGetStatus => exact .command (fun _ => rfl) bodyNetGetStatus_keeps
  | linkUp => exact .up (fun _ => rfl) linkUp_kept
  | linkLoss => exact .up (fun _ => rfl) linkLoss_kept
  | frameReceived => exact .up (fun _ => rfl) frameReceived_kept
  | frameTransmit => exact .up (fun _ => rfl) frameTransmit_kept
  | fdbAgeOut => exact .up (fun _ => rfl) fdbAgeOut_kept
  | preemptVerify => exact .up (fun _ => rfl) preemptVerify_kept
  | pauseReceived => exact .up (fun _ => rfl) pauseReceived_kept
  | pauseExpiry => exact .up (fun _ => rfl) pauseExpiry_kept
  | pauseWatchdog => exact .up (fun _ => rfl) pauseWatchdog_kept
  | pauseReleaseEnd => exact .up (fun _ => rfl) pauseReleaseEnd_kept
  | pauseTxRepeat => exact .up (fun _ => rfl) pauseTxRepeat_kept
  | rxRingDelivery => exact .up (fun _ => rfl) rxDeliver_kept
  | netRingDoorbell => exact .up (fun _ => rfl) busWrite_kept
  | txRingFrame => exact .up (fun _ => rfl) txFrame_kept
  -- the redundant pair
  | sadPathDown => exact .up (fun _ => rfl) pathDown_kept
  | redSetPair => exact .command (fun _ => rfl) bodyRedSetPair_keeps
  | redSetShared => exact .command (fun _ => rfl) bodyRedSetShared_keeps
  | sadSetPathdown => exact .command (fun _ => rfl) bodySadSetPathdown_keeps
  | redHandover => exact .command (fun _ => rfl) bodyRedHandover_keeps
  | redForceActive => exact .command (fun _ => rfl) bodyRedForceActive_keeps
  | redResync => exact .command (fun _ => rfl) bodyRedResync_keeps
  | redGetStatus => exact .command (fun _ => rfl) bodyRedGetStatus_keeps
  | claimWindowExpiry => exact .up (fun _ => rfl) claimExpiry_kept
  | heartbeatSend => exact .up (fun _ => rfl) heartbeatSend_kept
  | heartbeatReceived => exact .up (fun _ => rfl) heartbeatReceived_kept
  | silenceTimeout => exact .up (fun _ => rfl) silenceTimeout_kept
  | norilLinkUp => exact .up (fun _ => rfl) norilUp_kept
  | norilLinkDown => exact .up (fun _ => rfl) norilDown_kept
  | norilWaveSend => exact .up (fun _ => rfl) waveSend_kept
  | norilWaveReceived => exact .up (fun _ => rfl) waveReceived_kept
  | norilWaveMissing => exact .up (fun _ => rfl) waveMissing_kept
  | sharedChannelFade => exact .up (fun _ => rfl) sharedFade_kept
  | mirrorCmdReceived => exact .up (fun _ => rfl) mirrorCmd_kept
  | mirrorReplyTimeout | peerOutcomeReport => exact .up (fun _ => rfl) releaseReply_kept
  | mirrorPeriodBoundary => exact .up (fun _ => rfl) mirrorBoundary_kept
  | mirrorRecReceived => exact .up (fun _ => rfl) mirrorRec_kept
  | norilAckSend => exact .up (fun _ => rfl) ackSend_kept
  | norilAckReceived => exact .up (fun _ => rfl) ackReceived_kept
  | norilRetransmit => exact .up (fun _ => rfl) norilRetransmit_kept
  | joinReceived => exact .up (fun _ => rfl) joinReceived_kept
  | snapshotComplete => exact .up (fun _ => rfl) snapshotComplete_kept
  -- the power stage
  | pwsSetStage => exact .command (fun _ => rfl) bodyPwsSetStage_keeps
  | pwsSetChannel => exact .command (fun _ => rfl) bodyPwsSetChannel_keeps
  | pwsStart => exact .command (fun _ => rfl) bodyPwsStart_keeps
  | pwsStop => exact .command (fun _ => rfl) bodyPwsStop_keeps
  | pwsMute => exact .command (fun _ => rfl) bodyPwsMute_keeps
  | pwsClear => exact .command (fun _ => rfl) bodyPwsClear_keeps
  | pwsGetStatus => exact .command (fun _ => rfl) bodyPwsGetStatus_keeps
  | pwsPreReleaseCheck => exact .up (fun _ => rfl) preRelease_kept
  | pwsUnmuteStart => exact .up (fun _ => rfl) unmuteStart_kept
  | muteStep => exact .up (fun _ => rfl) muteStep_kept
  | pwsGatesOff => exact .up (fun _ => rfl) gatesOff_kept
  | currentLimit => exact .up (fun _ => rfl) currentLimit_kept
  | limitShutdown => exact .up (fun _ => rfl) limitShutdown_kept
  | retryDelayExpiry => exact .up (fun _ => rfl) retryExpiry_kept
  | retriesReset => exact .up (fun _ => rfl) retriesReset_kept
  | dcWindow => exact .up (fun _ => rfl) dcWindow_kept
  | busUndervoltage => exact .up (fun _ => rfl) busUnder_kept
  | busOvervoltage => exact .up (fun _ => rfl) busOver_kept
  | busRecovery => exact .up (fun _ => rfl) busRecovery_kept
  | staggerLock => exact .up (fun _ => rfl) staggerLock_kept
  -- the command interface and the register window
  | cmdDoorbell | cmdAckReply | cmdAckRing | cmdAckAlarm | mailboxPacketWrite | registerWrite | wideCounterLoWrite
  | wideCounterHiWrite | sysLock | cfgCrcCommit | cfgCrcEnable | indDataWrite => exact .up (fun _ => rfl) busWrite_kept
  | cmdRstatRead | wideLoRead | indDataRead => exact .up (fun _ => rfl) busRead_kept
  | spiFrame => exact .up (fun _ => rfl) spiFrame_kept
  | cfgCrcPass => exact .up (fun _ => rfl) crcPass_kept
  -- security
  | secGetStatus => exact .command (fun _ => rfl) bodySecGetStatus_keeps
  | secKeyProgram => exact .command (fun _ => rfl) bodySecKeyProgram_keeps
  | secKeyRevoke => exact .command (fun _ => rfl) bodySecKeyRevoke_keeps
  | secArbAdvance => exact .command (fun _ => rfl) bodySecArbAdvance_keeps
  | secFwErase => exact .command (fun _ => rfl) bodySecFwErase_keeps
  | secFwWrite => exact .command (fun _ => rfl) bodySecFwWrite_keeps
  | secFwVerify => exact .command (fun _ => rfl) bodySecFwVerify_keeps
  | secDebugChallenge => exact .command (fun _ => rfl) bodySecDebugChallenge_keeps
  | secDebugUnlock => exact .command (fun _ => rfl) bodySecDebugUnlock_keeps
  | secSetLock => exact .command (fun _ => rfl) bodySecSetLock_keeps
  | debugNonceExpiry => exact .up (fun _ => rfl) nonceExpiry_kept
  | drbgHealthFail => exact .up (fun _ => rfl) drbgFail_kept
  | privateJtagInstruction => exact privateJtagInstruction_rowKept
  | boundaryTestSelect => exact boundaryTestSelect_rowKept
  -- reset, boot and keep-alive
  | porstAssert => exact .always (fun _ => rfl) porstAssert_kept
  | porstRelease => exact .always (fun _ => rfl) porstRelease_kept
  | sysrstAssert => exact .always (fun _ => rfl) sysrstAssert_kept
  | sysrstRelease => exact .always (fun _ => rfl) sysrstRelease_kept
  | bootOtpSensed => exact .up (fun _ => rfl) otpSensed_kept
  | tarnZeroFillDone => exact .up (fun _ => rfl) tarnFilled_kept
  | dramTrainingDone => exact .up (fun _ => rfl) dramTraining_kept
  | dramEccInitDone => exact .up (fun _ => rfl) eccDone_kept
  | bootFwVerified => exact .up (fun _ => rfl) fwVerified_kept
  | bootProfileApplied => exact .up (fun _ => rfl) profileApplied_kept
  | bootCommandNext => exact .up (fun _ => rfl) bootNext_kept
  | bootAcquireWaitEnd => exact .up (fun _ => rfl) acquireWaitEnd_kept
  | kaDeepOff | kaRestart => exact .up (fun _ => rfl) kaWrite_kept
  | wake => exact .always (fun _ => rfl) wake_kept
  | pwrEnReassert => exact .always (fun _ => rfl) pwrReassert_kept
  | vkaPowerOn => exact .always (fun _ => rfl) vkaPowerOn_kept
  | testEn => exact .always (fun _ => rfl) testEnable_kept
  | pciePerst => exact .always (fun _ => rfl) pciePerst_kept
  | dramRetrain => exact .up (fun _ => rfl) dramRetrain_kept
  -- media streams
  | streamSetTx => exact .command (fun _ => rfl) bodyStreamSetTx_keeps
  | streamSetRx => exact .command (fun _ => rfl) bodyStreamSetRx_keeps
  | streamSetCs => exact .command (fun _ => rfl) bodyStreamSetCs_keeps
  | streamStart => exact .command (fun _ => rfl) bodyStreamStart_keeps
  | streamStop => exact .command (fun _ => rfl) bodyStreamStop_keeps
  | streamSetGroup => exact .command (fun _ => rfl) bodyStreamSetGroup_keeps
  | streamGetContext => exact .command (fun _ => rfl) bodyStreamGetContext_keeps
  | streamClear => exact .command (fun _ => rfl) bodyStreamClear_keeps
  | tapSet => exact .command (fun _ => rfl) bodyTapSet_keeps
  | tapGet => exact .command (fun _ => rfl) bodyTapGet_keeps
  | tapWindowEnd => exact .up (fun _ => rfl) tapWindowEnd_kept
  | packetLaunch => exact .up (fun _ => rfl) packetLaunch_kept
  | mediaPacketReceived => exact .up (fun _ => rfl) mediaPacket_kept
  | streamRxStopped => exact .up (fun _ => rfl) rxStopped_kept
  | stmCtxStatRead => exact .up (fun _ => rfl) busRead_kept
  -- system commands
  | sysHello => exact .command (fun _ => rfl) bodySysHello_keeps
  | sysGetInfo => exact .command (fun _ => rfl) bodySysGetInfo_keeps
  | sysGetOwnership => exact .command (fun _ => rfl) bodySysGetOwnership_keeps
  | sysProfileLoad => exact .command (fun _ => rfl) bodySysProfileLoad_keeps
  | sysProfileErase => exact .command (fun _ => rfl) bodySysProfileErase_keeps
  | sysProfileWrite => exact .command (fun _ => rfl) bodySysProfileWrite_keeps
  | sysProfileSeal => exact .command (fun _ => rfl) bodySysProfileSeal_keeps
  | sysProfileList => exact .command (fun _ => rfl) bodySysProfileList_keeps
  | teardownReset => exact .always (fun _ => rfl) teardownReset_kept
  | udpCommandReceived => exact .up (fun _ => rfl) udpCommand_kept
  | commandExecutionEnd => exact .up (fun _ => rfl) executionEnd_kept
  -- the TDM ports
  | tdmSetGroup => exact .command (fun _ => rfl) bodyTdmSetGroup_keeps
  | tdmSetPort => exact .command (fun _ => rfl) bodyTdmSetPort_keeps
  | tdmSetRing => exact .command (fun _ => rfl) bodyTdmSetRing_keeps
  | tdmStageMask => exact .command (fun _ => rfl) bodyTdmStageMask_keeps
  | tdmCommit => exact .command (fun _ => rfl) bodyTdmCommit_keeps
  | tdmStart => exact .command (fun _ => rfl) bodyTdmStart_keeps
  | tdmStop => exact .command (fun _ => rfl) bodyTdmStop_keeps
  | tdmGetStatus => exact .command (fun _ => rfl) bodyTdmGetStatus_keeps
  | tdmFrameReceived => exact .up (fun _ => rfl) tdmFrame_kept
  | fsyncTimeout => exact .up (fun _ => rfl) fsyncTimeout_kept
  | tdmSlaveLock => exact .up (fun _ => rfl) slaveLock_kept
  | tdmSyncLost => exact .up (fun _ => rfl) syncLost_kept
  | tdmGateTimeout => exact .up (fun _ => rfl) gateTimeout_kept
  | tdmFadeEnd => exact .up (fun _ => rfl) fadeEnd_kept
  | maskEpochChange => exact .up (fun _ => rfl) maskChange_kept
  | tdmPortRunning => exact .up (fun _ => rfl) portRunning_kept
  | tdmPortStopped => exact .up (fun _ => rfl) portStopped_kept
  | asrcLock => exact .up (fun _ => rfl) asrcLock_kept
  | asrcRateMeasure => exact .up (fun _ => rfl) asrcMeasure_kept
  -- network time
  | ptpSetInstance => exact .command (fun _ => rfl) bodyPtpSetInstance_keeps
  | ptpSetPortTs => exact .command (fun _ => rfl) bodyPtpSetPortTs_keeps
  | ptpSetMaster => exact .command (fun _ => rfl) bodyPtpSetMaster_keeps
  | ptpAcceptJump => exact .command (fun _ => rfl) bodyPtpAcceptJump_keeps
  | ptpSetTime => exact .command (fun _ => rfl) bodyPtpSetTime_keeps
  | ptpSetTimeApply => exact .up (fun _ => rfl) ptpSetTimeApply_kept
  | ptpSetAlarm => exact .command (fun _ => rfl) bodyPtpSetAlarm_keeps
  | ptpCancelAlarm => exact .command (fun _ => rfl) bodyPtpCancelAlarm_keeps
  | ptpGetStatus => exact .command (fun _ => rfl) bodyPtpGetStatus_keeps
  | announceReceived => exact .up (fun _ => rfl) announceReceived_kept
  | syncReceived => exact .up (fun _ => rfl) syncReceived_kept
  | followUpReceived => exact .up (fun _ => rfl) followUp_kept
  | followUpTimeout => exact .up (fun _ => rfl) followUpTimeout_kept
  | delayReqSend => exact .up (fun _ => rfl) delayReqSend_kept
  | delayRespReceived => exact .up (fun _ => rfl) delayResp_kept
  | delayRespTimeout => exact .up (fun _ => rfl) delayRespTimeout_kept
  | syncTimeout => exact .up (fun _ => rfl) syncTimeout_kept
  | announceTimeout => exact .up (fun _ => rfl) announceTimeout_kept
  | masterSyncSend => exact .up (fun _ => rfl) masterSync_kept
  | masterAnnounceSend => exact .up (fun _ => rfl) masterAnnounce_kept
  | masterDelayReqReceived => exact .up (fun _ => rfl) masterDelayReq_kept
  | ppsEdge => exact .up (fun _ => rfl) ppsEdge_kept
  | ppsCaptureRead => exact .up (fun _ => rfl) busRead_kept
  | alarmFire => exact .up (fun _ => rfl) alarmFire_kept
  -- two-wire
  | twGo | twAbort | twtAlert => exact .up (fun _ => rfl) busWrite_kept
  | twTransactionStart => exact .up (fun _ => rfl) twServe_kept
  | twTransactionEnd => exact .up (fun _ => rfl) twEnd_kept
  | twRetryDelay => exact .up (fun _ => rfl) twRetry_kept
  | twStretchTimeout => exact .up (fun _ => rfl) twStretch_kept
  | twSclStuckTimeout => exact .up (fun _ => rfl) twSclStuck_kept
  | twStuckRecoveryRepeat => exact .up (fun _ => rfl) twRepeat_kept
  | twAlertAssert => exact .up (fun _ => rfl) twAlert_kept
  | twAlertRelease => exact .up (fun _ => rfl) twAlertGone_kept
  | twAlertResponseRead => exact .up (fun _ => rfl) twAlertRead_kept
  | twtRead => exact .up (fun _ => rfl) twtReadPage_kept
  | twtWrite => exact .up (fun _ => rfl) twtWritePage_kept
  | twtProtocolError => exact .up (fun _ => rfl) twtError_kept
  | twtSclTimeout => exact .up (fun _ => rfl) twtTimeout_kept
  | twtAlertResponse => exact .up (fun _ => rfl) twtAlertResponse_kept
  | busStuckClear => exact .up (fun _ => rfl) twUnstick_kept

/-- A step keeps the invariant: it idles, or it runs one row. -/
theorem step_inv {s t : State} (hi : Inv s) (h : step s = .next t) : Inv t := by
  unfold step at h
  split at h
  · cases h
    exact hi
  next c rest _ =>
    have hq : Inv { s with pending := rest } := { hi with }
    exact (rowKept c _ _ h).inv hq

theorem reset_session_ne_zero : ∀ c ∈ State.reset.cmds, c.session ≠ 0 := by
  simp only [State.reset, List.forall_mem_cons]
  exact ⟨pickSession_ne_zero _ _, pickSession_ne_zero _ _, pickSession_ne_zero _ _, pickSession_ne_zero _ _,
    fun _ h => absurd h List.not_mem_nil⟩

/-- The invariant holds right after reset (R21, R34, R284, R408, R442, R493). -/
theorem reset_inv : Inv State.reset where
  tarn := rfl
  dram := rfl
  parts := rfl
  sessions := reset_session_ne_zero
  refs := rfl
  ports := rfl
  ctl := rfl
  locks := rfl

/-- Settles O59: a step runs the row at the front of the queue, and every row keeps the invariant. -/
theorem invariantKept : Obligations.InvariantKept := fun _ _ hi h => step_inv hi h

/-- Settles O48: each part of the state at reset is that part's initial value, and a drawn session is never zero. -/
theorem invariantAtReset : Obligations.InvariantAtReset := reset_inv

end Sys2Proof.Machine
end

section
/-! Commands that are accepted (R411), and the clock commands (R29, R39, R46, R48, R49, R56, R58): one rule for an accepted
command, whatever its row, what each clock command does with operands in range, and the obligation on them. -/

namespace Sys2Proof.Machine

section Accepted

variable {s : State} {q : Sender} {b : Body} {i : Instr} {r : Reply} {f : State → State}

@[simp] theorem opened_pst : (opened q b s).pst = s.pst := by rw [opened, takeSlotFor_frame]

@[simp] theorem opened_rdg : (opened q b s).rdg = s.rdg := by rw [opened, takeSlotFor_frame]

theorem loadBusy_of_not_refused {fwd : Bool} {p : Nat} (h : refusal s fwd p b = none) : loadBusy s b.opcode = false := by
  unfold refusal at h
  split at h
  · cases h
  next hl => exact Bool.eq_false_iff.2 hl

theorem Accepts.reaches (h : Accepts s q b) : Reaches s q b := by
  obtain ⟨hheld, hstart, hreach, hrefused, -⟩ := h
  exact ⟨hheld, hstart, hreach, (loadBusy_of_boot_eq opened_boot _).symm.trans (loadBusy_of_not_refused hrefused)⟩

/-- A row that runs its command, where it is accepted, has the command's own effect and reply, if a datagram can hold the
reply. -/
theorem runs_of_accepts (hrow : exec i s = .next (whenUp s (runCommand q b s))) (h : Accepts s q b)
    (hrun : b.run q.part.val (q.via == .udp) (opened q b s) = (f (opened q b s), r)) (hr : r.payload.length ≤ 1432) :
    Runs i q b s r f := by
  have hreaches := h.reaches
  obtain ⟨hheld, -, -, hrefused, hlimit⟩ := h
  have hran := perform_ran _ hrefused hrun (Nat.le_trans (Nat.add_le_add_left hr 40) hlimit)
  rw [Runs, hrow, whenUp_of_running _ hheld, runCommand_of_reaches hreaches, runInSlot]
  exact congrArg (fun x => Host.Outcome.next (slotRan q.part.val (q.via == .udp) b x.2 (opened q b s) x.1)) hran

end Accepted

section Rules

variable {s : State}

theorem later_outside_acquire (c : ClkApply) (h : s.pst.state ≠ .acquire) :
    later c s = { s with pst := { s.pst with waiting := s.pst.waiting ++ [c] } } := if_neg h

theorem clkGetStatus_reads : ∃ r, clkGetStatus s = (s, r) ∧ r.status = .ok ∧ r.payload.length ≤ 1432 := by
  refine ⟨_, rfl, rfl, ?_⟩
  cases s.pst.hoEstimate <;> simp [Reply.ok, le32, le64, le64s]

theorem clkGetRef_reads {index : Byte} (h : index.toNat ≤ 5) :
    ∃ r, clkGetRef index s = (s, r) ∧ r.status = .ok ∧ r.payload.length ≤ 1432 := by
  rw [clkGetRef, if_neg (by omega)]
  refine ⟨_, rfl, rfl, ?_⟩
  by_cases h2 : index.toNat < 2 <;> simp [Reply.ok, le32, le64, h2]

theorem clkSetRate_changes {code : Byte} (hc : code.toNat ≤ 4) (hn : code.toNat ≠ s.pst.rate)
    (hb : s.rdg.busyForRate = false) (hr : rateBreaksRef s.pst code.toNat = false) :
    clkSetRate code s = (later (.rate code.toNat) (rateAccepted s), Reply.ok []) := by
  simp [clkSetRate, Nat.not_lt.2 hc, hn, hb, hr]

theorem clkRefConfig_in_range {c : ClkRefConfig} (h : refConfigOk c s.pst.rate = true) :
    clkRefConfig c s = (later (.refConfig c.index.toNat (clkCfgOf c))
      (withPst (fun p => p.applyRank s.time c.index.toNat c.rank.toNat) s), Reply.ok []) := by simp [clkRefConfig, h]

theorem clkSelect_manual {c : ClkSelect} (hr : c.revertive.toNat ≤ 1) (hm : c.mode = 1) (hi : c.manual.toNat ≤ 5) :
    clkSelect c s
      = (later (.select .manual c.manual.toNat (decide (c.revertive.toNat = 1))) s, Reply.ok []) := by
  simp [clkSelect, Nat.not_lt.2 hr, hm, Nat.not_lt.2 hi]

theorem clkSetTimers_in_range {c : ClkSetTimers} (h : clkTimersOk c = true) :
    clkSetTimers c s = (later (.timers c) s, Reply.ok []) := if_pos h

theorem clkSetHoldover_in_range {c : ClkSetHoldover} (h : clkHoldoverOk c = true) :
    clkSetHoldover c s = (later (.holdover c) s, Reply.ok []) := if_pos h

/-- The trim waits for the next sample edge, since FREERUN is not ACQUIRE. -/
theorem clkSetTrim_in_freerun {ppt : Long} (hp : ppt.toInt.natAbs ≤ 100000000) (hs : s.pst.state = .freerun) :
    clkSetTrim ppt s
      = ({ s with pst := { s.pst with waiting := s.pst.waiting ++ [.trim ppt.toInt] } }, Reply.ok (le64 ppt)) := by
  rw [← later_outside_acquire _ (by simp [hs])]
  simp [clkSetTrim, Nat.not_lt.2 hp, hs]

theorem clkPhaseStep_in_range {ns : Word} (hs : s.pst.state ≠ .acquire)
    (hp : (phaseAhead s.pst + ns.toInt).natAbs ≤ 10000000) :
    clkPhaseStep ns s = ({ s with pst := { s.pst with waiting := s.pst.waiting ++ [.phaseStep ns.toInt] } },
      Reply.ok (le32 (BitVec.ofInt 32 (phaseAhead s.pst + ns.toInt)))) := by
  rw [← later_outside_acquire _ hs]
  simp [clkPhaseStep, hs, Nat.not_lt.2 hp]

theorem clkRealign_slews {c : ClkRealign} (hm : c.method = 0) (h0 : 1 ≤ c.arg.toNat) (h1 : c.arg.toNat ≤ 10000)
    (hh : s.pst.phaseHeld = true) (hr : realigning s.pst = false) :
    clkRealign c s = (later (.realign (.slew c.arg.toNat)) s, realignReply s.pst) := by
  simp [clkRealign, hm, hh, hr, Nat.not_lt.2 h1, Nat.one_le_iff_ne_zero.1 h0]

end Rules

/-- A command that reads leaves everything but its slot as it was. -/
theorem reads_of_accepts {s : State} {q : Sender} {b : Body} {i : Instr}
    (hrow : exec i s = .next (whenUp s (runCommand q b s))) (h : Accepts s q b)
    (hrun : ∃ r, b.run q.part.val (q.via == .udp) (opened q b s) = (opened q b s, r) ∧ r.status = .ok
      ∧ r.payload.length ≤ 1432) : Reads i q b s := by
  obtain ⟨r, hrun, hok, hr⟩ := hrun
  exact ⟨r, hok, runs_of_accepts hrow h hrun hr⟩

/-- Settles O2: each row runs its command through the checks of R411, and with its operands in range the command has the
effect of its own rule. What an accepted rate stops at once outside Polestar is the model's choice (log 58). -/
theorem clockCommandsComplete : Obligations.ClockCommandsComplete := by
  unfold Obligations.ClockCommandsComplete
  intro s q
  refine ⟨?status, ?ref, ?rate, ?config, ?select, ?timers, ?holdover, ?trim, ?step, ?realign⟩
  case status => exact fun h => reads_of_accepts rfl h clkGetStatus_reads
  case ref => exact fun index h hi => reads_of_accepts rfl h (clkGetRef_reads hi)
  case rate =>
    exact fun code h hc hn hb hr => runs_of_accepts rfl h
      (clkSetRate_changes hc (by simpa using hn) (by simpa using hb) (by simpa using hr)) (by simp [Reply.ok])
  case config =>
    exact fun c h hc => runs_of_accepts (f := fun t => later _ (withPst (fun p => p.applyRank t.time _ _) t)) rfl h
      (clkRefConfig_in_range (by simpa using hc)) (by simp [Reply.ok])
  case select =>
    exact fun c h hr hm hi => runs_of_accepts rfl h (clkSelect_manual hr hm hi) (by simp [Reply.ok])
  case timers => exact fun c h hc => runs_of_accepts rfl h (clkSetTimers_in_range hc) (by simp [Reply.ok])
  case holdover => exact fun c h hc => runs_of_accepts rfl h (clkSetHoldover_in_range hc) (by simp [Reply.ok])
  case trim =>
    exact fun ppt h hp hs => runs_of_accepts (f := fun t => { t with pst := _ }) rfl h
      (clkSetTrim_in_freerun hp (by simpa using hs)) (by simp [Reply.ok, le64])
  case step =>
    intro ns h hs hp
    have hrun := clkPhaseStep_in_range (s := opened q (bodyClkPhaseStep ns) s) (ns := ns) (by simpa using hs)
      (by simpa using hp)
    rw [congrArg phaseAhead opened_pst] at hrun
    exact runs_of_accepts (f := fun t => { t with pst := _ }) rfl h hrun (by simp [Reply.ok, le32])
  case realign =>
    intro c h hm h0 h1 hh hr
    have hrun := clkRealign_slews (s := opened q (bodyClkRealign c) s) hm h0 h1 (by simpa using hh) (by simpa using hr)
    rw [congrArg realignReply opened_pst] at hrun
    exact runs_of_accepts rfl h hrun (by simp [realignReply, Reply.ok, le32])

end Sys2Proof.Machine
end

section
/-! Polestar's own events (R36, R37, R40 to R44, R50, R52): what its operations leave of the references and of the state,
each event in the case in which it acts, and the obligation on them. -/

namespace Sys2Proof.Machine

section References

variable {s : State} {p : Pst} {i : Nat} {f : Pst → Pst × List Nat}

@[simp] theorem withPst_pst : (withPst f s).pst = (f s.pst).1 := by simp [withPst]

@[simp] theorem withPst_ptp : (withPst f s).ptp = s.ptp := by simp [withPst]

@[simp] theorem Pst.ref_setRef (r : RefSt) (h : i < p.refs.length) : (p.setRef i r).ref i = r := by
  simp [Pst.ref, Pst.setRef, h]

theorem Pst.ref_setRef_other {j : Nat} (r : RefSt) (h : j ≠ i) : (p.setRef i r).ref j = p.ref j := by
  simp [Pst.ref, Pst.setRef, List.getElem?_set_ne h.symm]

/-- A measurement sets the frequency and the phase of its reference, and nothing else of it. -/
theorem Pst.ref_measure (m : RefMeas) (h : i < p.refs.length) :
    (p.measure i m).ref i = { p.ref i with fofs := m.fofs, phase := m.phase.toInt * (slewUnit / 4 : Nat) } :=
  Pst.ref_setRef _ h

@[simp] theorem Pst.setRef_state (r : RefSt) : (p.setRef i r).state = p.state := rfl

@[simp] theorem Pst.setRef_mode (r : RefSt) : (p.setRef i r).mode = p.mode := rfl

@[simp] theorem Pst.measure_state (m : RefMeas) : (p.measure i m).state = p.state := rfl

@[simp] theorem Pst.measure_mode (m : RefMeas) : (p.measure i m).mode = p.mode := rfl

@[simp] theorem Pst.prunePairs_state : p.prunePairs.state = p.state := rfl

@[simp] theorem Pst.prunePairs_ref : p.prunePairs.ref i = p.ref i := rfl

@[simp] theorem Pst.refreshFreq_state : p.refreshFreq.1.state = p.state := rfl

@[simp] theorem Pst.refreshFreq_ref : p.refreshFreq.1.ref i = p.ref i := rfl

theorem Pst.ref_measure_other {j : Nat} (m : RefMeas) (h : j ≠ i) : (p.measure i m).ref j = p.ref j :=
  Pst.ref_setRef_other _ h

/-- With no reference to select, FREERUN stays: only the pairs and the frequency are brought up to date. -/
theorem Pst.settle_unselected (now : Nat) (hm : p.mode = .none) (hs : p.state = .freerun) :
    (p.settle now).1 = p.prunePairs.refreshFreq.1 := by
  simp [Pst.settle, Pst.evaluate, Pst.prunePairs, hm, hs]

end References

section Events

variable {s : State} {p : Pst} {i now : Nat}

theorem Pst.refValid_in_capture {m : RefMeas} (he : (p.ref i).cfg.enable = true) (hv : (p.ref i).valid = false)
    (hm : p.inCapture m = true) : p.refValid now i m
      = (p.setRef i { p.ref i with present := true, valid := true, validSince := now }).measure i m := by
  simp [Pst.refValid, he, hv, hm]

/-- A valid reference qualifies; with no reference to select, FREERUN stays. -/
theorem Pst.refQualified_unselected (m : RefMeas) (sec : BitVec 48) (ns : Word) (hm : p.mode = .none)
    (hs : p.state = .freerun) (he : (p.ref i).cfg.enable = true) (hv : (p.ref i).valid = true)
    (hq : (p.ref i).qualified = false) : (p.refQualified now i m sec ns).1
      = ((p.setRef i { p.ref i with qualified := true, qualSince := now }).measure i m).prunePairs.refreshFreq.1 := by
  refine Eq.trans ?_ (Pst.settle_unselected now hm hs)
  simp [Pst.refQualified, he, hv, hq, hs]

theorem Pst.refLost_not_valid (present : Bool) (hv : (p.ref i).valid = false) :
    p.refLost now i present = (p.setRef i { p.ref i with present := present }, []) := by simp [Pst.refLost, hv]

theorem Pst.wtrExpiry_unselected (hw : (p.ref i).wtrRun = true) (hm : p.mode = .none) (hs : p.state = .freerun) :
    (p.wtrExpiry now i).1
      = (p.setRef i { p.ref i with wtrRun := false, wtrDone := true }).prunePairs.refreshFreq.1 := by
  refine Eq.trans ?_ (Pst.settle_unselected now hm hs)
  simp [Pst.wtrExpiry, hw]

/-- ACQUIRE ends in FREERUN with MCNT 0 at the first edge, and the trim as it is (R40). -/
theorem Pst.toFreerun_of_acquire (h : p.state = .acquire) : p.toFreerun now
    = { p.leaveRef with mcnt := 0, firstEdge := true, state := .freerun, selref := 7 }.updateWtr now := by
  simp [Pst.toFreerun, Pst.endHoldover, h]

theorem Pst.slewDone_eq : p.slewDone
    = { p with resid := 0, stepLeft := 0, realign := p.slewDone.realign, phaseHeld := p.slewDone.phaseHeld } := by
  unfold Pst.slewDone
  split <;> rfl

/-- A slew that completes while no reference may be selected leaves no residual, and FREERUN as it is. -/
theorem Pst.slewComplete_unselected (hm : p.mode = .none) (hs : p.state = .freerun) :
    (p.slewComplete now).1 = (p.movePhase p.resid).slewDone.prunePairs.refreshFreq.1 := by
  rw [← Pst.settle_unselected now (by rw [Pst.slewDone_eq]; exact hm) (by rw [Pst.slewDone_eq]; exact hs)]
  simp [Pst.slewComplete, hs]

theorem slewComplete_pst (h : s.pst.state ≠ .acquire) :
    (slewComplete s).pst = (s.pst.slewComplete s.time).1.addPtp (s.pst.stepShare s.pst.resid) := by
  simp [slewComplete, h]

/-- The instances learn of the movement, the share of phase steps apart (R325). -/
theorem slewComplete_moved (h : s.pst.state ≠ .acquire) :
    (slewComplete s).ptp.moved = s.ptp.moved + (s.pst.resid - s.pst.stepShare s.pst.resid) := by
  simp [slewComplete, h]

theorem Pst.specExpiry_native (hs : p.state = .holdover) (hn : p.hoNative = true) (ho : p.outOfSpec = false) :
    p.specExpiry = ({ p with outOfSpec := true }, [0x028]) := by simp [Pst.specExpiry, hs, hn, ho]

/-- A second under a valid reference, with nothing else at work, is recorded. -/
theorem Pst.historySecond_recorded (w : Int) (hs : p.state = .locked) (hd : p.secDirty = false)
    (hl : p.slewing = false) (hv : (p.ref p.selref).valid = true) :
    (p.historySecond now w).hist = ((now, w) :: p.hist).take 256 ∧ (p.historySecond now w).loopWord = w := by
  simp [Pst.historySecond, hs, hd, hl, hv]

end Events

section Window

variable {p : Pst} {ms : List RefMeas} {i : Nat} {m : RefMeas}

/-- One reference of a 1 s window is measured, where the window measures it. -/
def Pst.measureFrom (ms : List RefMeas) (p : Pst) (i : Nat) : Pst :=
  match ms[i]? with
  | some m => p.measure i m
  | none => p

theorem Pst.measureFrom_frame : p.measureFrom ms i = { p with refs := (p.measureFrom ms i).refs } := by
  unfold Pst.measureFrom
  split <;> rfl

theorem Pst.foldl_measureFrom_frame (l : List Nat) :
    l.foldl (Pst.measureFrom ms) p = { p with refs := (l.foldl (Pst.measureFrom ms) p).refs } := by
  induction l generalizing p with
  | nil => rfl
  | cons j l ih =>
    rw [List.foldl_cons, ih, Pst.measureFrom_frame]

/-- A measurement of any reference leaves one that shows its own measurement as it is. -/
theorem Pst.measureFrom_fofs_kept {j : Nat} (hm : ms[i]? = some m) (hi : i < p.refs.length)
    (h : (p.ref i).fofs = m.fofs) : ((p.measureFrom ms j).ref i).fofs = m.fofs := by
  unfold Pst.measureFrom
  by_cases hj : i = j
  · subst hj
    rw [hm, Pst.ref_measure m hi]
  · split
    · rw [Pst.ref_measure_other _ hj, h]
    · exact h

theorem Pst.measureFrom_fofs (hm : ms[i]? = some m) (hi : i < p.refs.length) :
    ((p.measureFrom ms i).ref i).fofs = m.fofs := by
  rw [Pst.measureFrom, hm, Pst.ref_measure m hi]

@[simp] theorem Pst.measureFrom_refs (j : Nat) : (p.measureFrom ms j).refs.length = p.refs.length := by
  unfold Pst.measureFrom
  split <;> simp

theorem Pst.foldl_measureFrom_fofs {l : List Nat} (hm : ms[i]? = some m) (hi : i < p.refs.length)
    (h : i ∈ l ∨ (p.ref i).fofs = m.fofs) : ((l.foldl (Pst.measureFrom ms) p).ref i).fofs = m.fofs := by
  induction l generalizing p with
  | nil => simpa using h
  | cons j l ih =>
    refine ih (by simpa using hi) ?_
    obtain hmem | hdone := h
    · obtain rfl | hl := List.mem_cons.1 hmem
      · exact .inr (Pst.measureFrom_fofs hm hi)
      · exact .inl hl
    · exact .inr (Pst.measureFrom_fofs_kept hm hi hdone)

theorem Pst.foldl_eq_measureFrom {f : Pst → Nat → Pst} {l : List Nat} (h : ∀ q i, f q i = q.measureFrom ms i) :
    l.foldl f p = l.foldl (Pst.measureFrom ms) p := by
  rw [show f = Pst.measureFrom ms from funext fun q => funext (h q)]

/-- The window's measurements come first; then only the pairs are judged. -/
theorem Pst.disagreeWindow_refs_eq : (p.disagreeWindow ms).1.refs = ((List.range 6).foldl (Pst.measureFrom ms) p).refs := by
  unfold Pst.disagreeWindow
  generalize List.range 6 = l at *
  dsimp only
  exact congrArg Pst.refs (Pst.foldl_eq_measureFrom fun _ _ => rfl)

theorem Pst.disagreeWindow_state : (p.disagreeWindow ms).1.state = p.state := by
  have h := congrArg Pst.state (Pst.foldl_measureFrom_frame (p := p) (ms := ms) (List.range 6))
  unfold Pst.disagreeWindow
  generalize List.range 6 = l at *
  dsimp only
  exact (congrArg Pst.state (Pst.foldl_eq_measureFrom fun _ _ => rfl)).trans h

theorem Pst.disagreeWindow_mcnt : (p.disagreeWindow ms).1.mcnt = p.mcnt := by
  have h := congrArg Pst.mcnt (Pst.foldl_measureFrom_frame (p := p) (ms := ms) (List.range 6))
  unfold Pst.disagreeWindow
  generalize List.range 6 = l at *
  dsimp only
  exact (congrArg Pst.mcnt (Pst.foldl_eq_measureFrom fun _ _ => rfl)).trans h

end Window

/-- Settles O3: out of reset each row is its operation on Polestar, and the operation's rule for the case gives the next
state. That a completed slew tells the PTP instances of its movement is the model's choice (log 41). -/
theorem clockEventsComplete : Obligations.ClockEventsComplete := by
  unfold Obligations.ClockEventsComplete
  intro s hheld
  refine ⟨?valid, ?qualified, ?lost, ?window, ?restore, ?slewed, ?spec, ?second, ?disagree⟩
  case valid =>
    intro ref m he hv hlen hptp hm
    have hnot : ¬(ref.val < 2 ∧ (!ptpRefOk s ref.val) = true) := fun h => by simp [hptp h.1] at h
    have hrefs : ref.val < s.pst.refs.length := by omega
    refine ⟨{ s with pst := s.pst.refValid s.time ref.val m }, next_whenUp_of_eq hheld (if_neg hnot), ?_⟩
    rw [Pst.refValid_in_capture he hv (decide_eq_true hm)]
    simp [Pst.ref_measure, hrefs]
  case qualified =>
    intro ref m sec ns hmode hs hlen he hv hq
    have hrefs : ref.val < s.pst.refs.length := by omega
    refine ⟨_, next_whenUp_of_eq hheld rfl, ?_⟩
    rw [withPst_pst, Pst.refQualified_unselected m sec ns hmode hs he hv hq]
    simp [Pst.ref_measure, hrefs, hs]
  case lost =>
    intro ref present hv hlen
    refine ⟨{ s with pst := s.pst.setRef ref.val { s.pst.ref ref.val with present := present } },
      next_whenUp_of_eq hheld ?_, rfl, rfl⟩
    rw [withPst, Pst.refLost_not_valid present hv]
    rfl
  case window =>
    intro hs
    refine ⟨_, next_whenUp_of_eq hheld (if_pos hs), ?_⟩
    rw [withPst_pst, Pst.toFreerun_of_acquire hs]
    exact ⟨rfl, rfl, rfl, rfl, rfl⟩
  case restore =>
    intro ref hw hlen hmode hs
    have hrefs : ref.val < s.pst.refs.length := by omega
    refine ⟨_, next_whenUp_of_eq hheld rfl, ?_⟩
    rw [withPst_pst, Pst.wtrExpiry_unselected hw hmode hs]
    simp [hrefs]
  case slewed =>
    intro hs hmode
    have hnot : s.pst.state ≠ .acquire := by simp [hs]
    refine ⟨slewComplete s, next_whenUp_of_eq hheld rfl, ?_⟩
    rw [slewComplete_pst hnot, slewComplete_moved hnot, Pst.slewComplete_unselected hmode hs, Pst.slewDone_eq]
    exact ⟨rfl, rfl, Pst.refreshFreq_state.trans hs, rfl⟩
  case spec =>
    intro hs hn ho
    refine next_whenUp_of_eq hheld ?_
    rw [withPst, Pst.specExpiry_native hs hn ho]
    rfl
  case second =>
    intro mean hs hd hl hv
    obtain ⟨hhist, hword⟩ := Pst.historySecond_recorded (now := s.time) mean.toInt hs hd hl hv
    exact ⟨_, next_whenUp_of_eq hheld rfl, rfl, hhist, hword⟩
  case disagree =>
    intro ms hlen
    refine ⟨_, next_whenUp_of_eq hheld rfl, fun i m hm => ?_, ?_⟩
    · have hi : i.val < s.pst.refs.length := by omega
      rw [withPst_pst, Pst.ref, Pst.disagreeWindow_refs_eq]
      exact Pst.foldl_measureFrom_fofs hm hi (.inl (List.mem_range.2 i.isLt))
    · rw [withPst_pst]
      exact ⟨Pst.disagreeWindow_state, Pst.disagreeWindow_mcnt⟩

end Sys2Proof.Machine
end

section
/-! The fabric's events (R27, R62, R68, R72 to R77, R79, R81 to R85, R152): the sample edge while nothing waits for it, the
token, the guard and the governor, each in the case in which it acts, and the obligation on them. -/

namespace Sys2Proof.Machine

section Edge

variable {s : State} {p : Pst}

/-! A sample edge advances MCNT by one where no realignment is under way (R27). -/

theorem Pst.slewDone_idle (h : p.realign = .idle) :
    p.slewDone.realign = .idle ∧ p.slewDone.firstEdge = p.firstEdge ∧ p.slewDone.mcnt = p.mcnt := by
  simp [Pst.slewDone, h]

/-- A slew's advance leaves a realignment that is not under way, the edge that is next, and MCNT. -/
theorem Pst.slewEdge_idle (h : p.realign = .idle) :
    p.slewEdge.realign = .idle ∧ p.slewEdge.firstEdge = p.firstEdge ∧ p.slewEdge.mcnt = p.mcnt := by
  unfold Pst.slewEdge
  split
  · exact ⟨h, rfl, rfl⟩
  · dsimp only
    split
    · exact Pst.slewDone_idle h
    · exact ⟨h, rfl, rfl⟩

theorem Pst.nextMcnt_idle (hr : p.realign = .idle) (hf : p.firstEdge = false) :
    p.nextMcnt = { p with mcnt := p.mcnt + 1 } := by simp [Pst.nextMcnt, hr, hf]

theorem slewAtEdge_pst : (slewAtEdge s).pst = s.pst.slewEdge.refreshFreq.1.addPtp
    (s.pst.stepShare (if s.pst.resid = 0 then 0 else s.pst.slewStep)) := by simp [slewAtEdge]

theorem counterAtEdge_pst (hf : s.pst.firstEdge = false) :
    (counterAtEdge s).pst = s.pst.addPtp (tsUnits s.fs : Nat) := by simp [counterAtEdge, hf]

theorem mcntAtEdge_pst (hr : s.pst.realign = .idle) : (mcntAtEdge s).pst = s.pst.nextMcnt := by
  unfold mcntAtEdge
  rw [hr]

theorem polestarEdge_mcnt (hr : s.pst.realign = .idle) (hf : s.pst.firstEdge = false) :
    (polestarEdge s).mcnt = s.mcnt + 1 := by
  obtain ⟨hidle, hfirst, hmcnt⟩ := Pst.slewEdge_idle hr
  have hf1 : (slewAtEdge s).pst.firstEdge = false := by
    rw [slewAtEdge_pst]
    exact hfirst.trans hf
  have hf2 : (counterAtEdge (slewAtEdge s)).pst.firstEdge = false := by
    rw [counterAtEdge_pst hf1]
    exact hf1
  have hr2 : (counterAtEdge (slewAtEdge s)).pst.realign = .idle := by
    rw [counterAtEdge_pst hf1, slewAtEdge_pst]
    exact hidle
  have hm2 : (counterAtEdge (slewAtEdge s)).pst.mcnt = s.pst.mcnt := by
    rw [counterAtEdge_pst hf1, slewAtEdge_pst]
    exact hmcnt
  have hpst : (polestarEdge s).pst = (counterAtEdge (slewAtEdge s)).pst.nextMcnt.refreshFreq.1 := by
    rw [polestarEdge, withPst_pst, mcntAtEdge_pst hr2]
  rw [State.mcnt, hpst, Pst.nextMcnt_idle hr2 hf2]
  exact congrArg (· + 1) hm2

theorem applyWaiting_nothing (h : s.pst.waiting = []) : applyWaiting s = s := by
  have hpst : { s.pst with waiting := [] } = s.pst := by rw [← h]
  rw [applyWaiting, h, hpst]
  rfl

theorem sampleEdge_nothing_waits (hs : s.pst.state ≠ .acquire) (hw : s.pst.waiting = []) {u : State}
    (hu : u = polestarEdge { s with lkt := { s.lkt with edgeLoss := false } }) :
    sampleEdge s = txEdge u.mcnt (ingress u.mcnt (teardownEdge u.mcnt
      (waveEdge u.mcnt (adoptionEdge u.mcnt (inStepEdge (handoverEdge u)))))) := by
  subst hu
  have hwait : applyWaiting { s with lkt := { s.lkt with edgeLoss := false } }
      = { s with lkt := { s.lkt with edgeLoss := false } } := applyWaiting_nothing hw
  rw [sampleEdge, if_neg hs, hwait, if_neg hs]

end Edge

section Waves

variable {s : State} {k : Word} {slack : Word}

/-! The token of a wave (R62, R68, R73). -/

theorem Fab.emergency_slackLast (f : Fab) (now : Nat) : (f.emergency now).slackLast = f.slackLast := by
  have hwrite : (f.writeVout 850).slackLast = f.slackLast := by
    unfold Fab.writeVout
    split <;> rfl
  unfold Fab.emergency
  split
  · rfl
  · split
    · exact hwrite
    · exact hwrite
    · rfl

theorem tokenSlack_slackLast :
    (tokenSlack slack s).fab.slackLast = (s.fab.recordSlack s.time slack).slackLast := by
  unfold tokenSlack
  dsimp only
  split
  · exact Fab.emergency_slackLast _ _
  · rfl

/-- With no wave waiting, the token ends its wave and no other begins. -/
theorem completionToken_none_waits (hr : s.wave.running = some k) (hw : s.wave.waiting = none) :
    completionToken slack s = endWave (keepImage (decide (slack.toInt < 0)) (tokenSlack slack s)) := by
  unfold completionToken
  rw [hr]
  show launchWaiting _ = _
  unfold launchWaiting
  rw [show (endWave (keepImage (decide (slack.toInt < 0)) (tokenSlack slack s))).wave.waiting = none from hw]

/-- A late token gives the early transmit contexts nothing. -/
theorem tokenReturn_late (hr : s.wave.running = some k) (h : slack.toInt < 0) :
    tokenReturn slack s = completionToken slack s := by
  simp [tokenReturn, hr, keepImage, h]

theorem tokenReturn_in_time (hr : s.wave.running = some k) (ht : s.wave.trapped = false) (h : 0 ≤ slack.toInt) :
    tokenReturn slack s = txToken k (fun i => scale (imageWord (outputSnapshot s) i)
      (haltFactor (completionToken slack s) k)) (completionToken slack s) := by
  simp [tokenReturn, hr, keepImage, ht, Int.not_lt.2 h]

theorem outputGuard_of_expected {parity : List (Nat × Word)} (hs : s.pst.state ≠ .acquire)
    (hg : s.wave.guarded = false) (he : s.wave.expected = true) :
    outputGuard parity s = guardWave s.mcnt parity { s with wave := { s.wave with guarded := true } } := by
  simp [outputGuard, hs, hg, he]

end Waves

section Governor

variable {s : State} {f : Fab} {now fs : Nat}

/-! The voltage governor (R81 to R85, R90). -/

theorem Fab.law_no_wave (h : f.intervalMin = none) : f.law fs = f := by
  unfold Fab.law
  rw [h]

theorem Fab.regulate_no_wave (h : f.intervalMin = none) : f.regulate fs = f := by
  rw [Fab.regulate, Fab.law_no_wave h, ite_self]

/-- An interval in which no wave was counted leaves the governor as it is. -/
theorem Fab.update_no_wave (hs : f.govState = .tracking) (hp : f.newParams = none) (hi : f.intervalMin = none) :
    f.update now fs = f := by
  have htake : f.takeParams = f := by simp [Fab.takeParams, hp]
  rw [Fab.update, hs]
  show { f.takeParams.regulate fs with intervalMin := none } = f
  rw [htake, Fab.regulate_no_wave hi, ← hi]

theorem Fab.update_in_recovery (hs : f.govState = .emergency) (ht : now < f.emergAt + f.params.recovery * 1000) :
    f.update now fs = { f with intervalMin := none } := by
  simp [Fab.update, hs, ht]

/-- A reading that agrees with the command ends a mismatch, and no fault is found. -/
theorem Fab.poll_agrees {mv : Half} (hs : f.govState = .tracking) (h : mv.toNat = f.vcmd.toNat) :
    f.poll true mv.toNat = ({ f with
      failures := 0, busFault := false, vread := mv, mismatchRun := 0, voutMismatch := false }, []) := by
  simp [Fab.poll, Fab.compareVout, hs, ← h]

theorem Fab.xferDone_writeVout {data : Nat} (hx : f.xfer = some .writeVout) (hw : f.waitingV = none)
    (hq : f.queue = []) : f.xferDone now true data = ({ f with
      failures := 0, busFault := false, writes := f.writes + 1, settleUntil := now + f.params.settle * 10
      xfer := none }, []) := by
  simp [Fab.xferDone, Fab.nextXfer, hx, hw, hq]

/-- The governor's transaction over, the bus is the governor's no more. -/
theorem govLeavesBus_twc : ((govLeavesBus s).twc 0).bus ≠ .governor := by
  unfold govLeavesBus
  dsimp only
  split
  next h =>
    have hlen : 0 < s.tw.ctl.length := Nat.lt_of_not_le fun hnone => by
      simp [State.twc, List.getD, List.getElem?_eq_none hnone, TwCtl.init] at h
    rw [State.twc_setTwc (h := hlen)]
    nofun
  next h => exact h

end Governor

/-- Settles O4: out of reset each row is its operation on the fabric, and the operation's rule for the case gives the next
state. -/
theorem fabricEventsComplete : Obligations.FabricEventsComplete := by
  unfold Obligations.FabricEventsComplete
  intro s hheld
  refine ⟨?edge, ?late, ?inTime, ?guard, ?burst, ?stall, ?trap, ?noWave, ?recovery, ?poll, ?written, ?under⟩
  case edge =>
    intro hs hw hr hf
    exact ⟨polestarEdge { s with lkt := { s.lkt with edgeLoss := false } }, polestarEdge_mcnt hr hf, rfl,
      next_whenUp_of_eq hheld (sampleEdge_nothing_waits hs hw rfl)⟩
  case late =>
    intro slack k hr hw h
    refine ⟨tokenReturn slack s, next_whenUp_of_eq hheld rfl, ?_⟩
    rw [tokenReturn_late hr h, completionToken_none_waits hr hw, decide_eq_true h]
    exact ⟨rfl, rfl, rfl, tokenSlack_slackLast (s := s), rfl, rfl⟩
  case inTime =>
    exact fun slack k hr _ ht h => next_whenUp_of_eq hheld (tokenReturn_in_time hr ht h)
  case guard =>
    exact fun parity hs hg he => next_whenUp_of_eq hheld (outputGuard_of_expected hs hg he)
  case burst => exact fun h => next_whenUp_of_eq hheld (if_pos h)
  case stall => exact fun h => next_whenUp_of_eq hheld (if_pos h)
  case trap => exact fun h => next_whenUp_of_eq hheld (if_pos h)
  case noWave =>
    intro hs hp _ _ hi
    exact next_whenUp_of_eq hheld (congrArg (fun f => { s with fab := f }) (Fab.update_no_wave hs hp hi))
  case recovery =>
    intro hs ht
    exact next_whenUp_of_eq hheld (congrArg (fun f => { s with fab := f }) (Fab.update_in_recovery hs ht))
  case poll =>
    intro mv hs h
    refine next_whenUp_of_eq hheld ?_
    rw [governorPoll, Fab.poll_agrees hs h]
    rfl
  case written =>
    intro data hx hw hq
    refine ⟨{ govLeavesBus s with fab := (s.fab.xferDone s.time true data.toNat).1 }, next_whenUp_of_eq hheld ?_, ?_⟩
    · rw [governorDone, Fab.xferDone_writeVout hx hw hq]
      rfl
    · rw [Fab.xferDone_writeVout hx hw hq]
      exact ⟨rfl, rfl, rfl, rfl, govLeavesBus_twc⟩
  case under => exact ⟨_, next_whenUp_of_eq hheld rfl, rfl, by simp [coreUnder]⟩

end Sys2Proof.Machine
end

section
/-! The messages and timeouts of the PTP instances (R36, R317 to R321): how one reads after each of its operations, each
message where the reference it feeds is not valid, and the obligation on them. -/

namespace Sys2Proof.Machine

section Instances

variable {s : State} {i : Nat} {x y : PtpInst}

theorem State.setInst_inst : s.setInst i (s.inst i) = s := by
  unfold State.setInst State.inst
  split <;> rfl

theorem State.setInst_setInst : (s.setInst i x).setInst i y = s.setInst i y := by
  unfold State.setInst
  split <;> rfl

@[simp] theorem State.netPort_setInst (n : Nat) : (s.setInst i x).netPort n = s.netPort n := by simp [State.netPort]

theorem State.inst_of_ptp_eq {t : State} (h : t.ptp = s.ptp) : t.inst i = s.inst i := by
  unfold State.inst
  rw [h]

@[simp] theorem withPst_inst {f : Pst → Pst × List Nat} : (withPst f s).inst i = s.inst i :=
  State.inst_of_ptp_eq withPst_ptp

/-! A message that is sent leaves the port as one frame more (R289, R316). -/

variable {dport : Nat} {dst : Nat × Nat} {msg : List Byte}

@[simp] theorem sendPtp_inst : (sendPtp i dport dst msg s).inst i = { s.inst i with sent := msg } := by
  rw [sendPtp, State.inst_setInst]
  rfl

theorem sendPtp_txFrames (h : i < s.net.ports.length) :
    ((sendPtp i dport dst msg s).netPort i).txFrames = (s.netPort i).txFrames + 1 := by
  rw [sendPtp, State.netPort_setInst, State.netPort_setNetPort (h := h)]

/-! The loss of a reference that is not valid (R36). -/

theorem judgePtp_not_valid (h : (s.pst.ref i).valid = false) : judgePtp i s = s := by simp [judgePtp, h]

theorem Pst.setRef_out_of_range {p : Pst} {r : RefSt} (h : p.refs.length ≤ i) : p.setRef i r = p := by
  rw [Pst.setRef, List.set_eq_of_length_le h]

theorem Pst.refLost_leaves_not_valid {p : Pst} {now : Nat} (present : Bool) (h : (p.ref i).valid = false) :
    ((p.refLost now i present).1.ref i).valid = false := by
  rw [Pst.refLost_not_valid present h]
  by_cases hi : i < p.refs.length
  · rw [Pst.ref_setRef _ hi]
    exact h
  · rw [Pst.setRef_out_of_range (Nat.le_of_not_lt hi)]
    exact h

end Instances

section Decision

variable {s : State} {i : Nat} {x : PtpInst} {a : Announce}

/-! The state decision (R318, R320). -/

/-- Besides Polestar's state and selection, `capable` alone decides whether the port may be master. -/
theorem mayMaster_setInst (h : x.capable = (s.inst i).capable) : mayMaster (s.setInst i x) i = mayMaster s i := by
  simp [mayMaster, ptpSelected, h]

theorem decidePtp_hears_none (he : (s.inst i).enable = true) (hf : (s.inst i).foreign = []) :
    decidePtp s i = { s.inst i with state := if mayMaster s i then .master else .listening, chosen := none } := by
  simp only [decidePtp, he, hf, bestMaster]
  cases mayMaster s i <;> rfl

theorem decidePtp_hears_one (he : (s.inst i).enable = true) (hf : (s.inst i).foreign = [a])
    (hm : mayMaster s i = false) : decidePtp s i = (s.inst i).follow a := by
  simp [decidePtp, he, hf, bestMaster, hm]

@[simp] theorem PtpInst.follow_chosen : (x.follow a).chosen = some a := by
  simp only [PtpInst.follow]
  split <;> split <;> rfl

@[simp] theorem PtpInst.follow_lastGm : (x.follow a).lastGm = x.lastGm := by
  simp only [PtpInst.follow]
  split <;> split <;> rfl

theorem settlePtp_no_master (hv : (s.pst.ref i).valid = false) (hx : decidePtp s i = x) (hc : x.chosen = none) :
    settlePtp i s = s.setInst i x := by
  have hnow : x.chosen.map Announce.gmId = none := by rw [hc, Option.map_none]
  simp [settlePtp, hx, hnow, judgePtp_not_valid, hv]

/-- The first grandmaster ever selected is no change of grandmaster. -/
theorem settlePtp_first_master (hv : (s.pst.ref i).valid = false) (hx : decidePtp s i = x) (hc : x.chosen = some a)
    (hl : x.lastGm = none) : settlePtp i s = s.setInst i { x with lastGm := some a.gmId } := by
  simp [settlePtp, hx, hc, hl, judgePtp_not_valid, hv]

theorem announceReceived_first (he : (s.inst i).enable = true) (hd : a.domain = (s.inst i).domain)
    (hf : (s.inst i).foreign = []) (hl : (s.inst i).lastGm = none) (hm : mayMaster s i = false)
    (hv : (s.pst.ref i).valid = false) : announceReceived i a s = s.setInst i
      { ({ s.inst i with foreign := [a] } : PtpInst).follow a with lastGm := some a.gmId } := by
  have hhears : announceReceived i a s = settlePtp i (s.setInst i { s.inst i with foreign := [a] }) := by
    simp [announceReceived, he, hd, hf]
  have hdecide := decidePtp_hears_one (s := s.setInst i { s.inst i with foreign := [a] }) (i := i) (a := a)
    (by simpa using he) (by simp) (Eq.trans (mayMaster_setInst (x := { s.inst i with foreign := [a] }) rfl) hm)
  rw [State.inst_setInst] at hdecide
  rw [hhears, settlePtp_first_master (by simpa using hv) hdecide PtpInst.follow_chosen
    (PtpInst.follow_lastGm.trans hl), State.setInst_setInst]

/-- Where no master is heard the port listens, and the reference stays as it is but for its presence. -/
theorem announceTimeout_hears_none (he : (s.inst i).enable = true) (hc : (s.inst i).chosen = none)
    (hf : (s.inst i).foreign = []) (hm : mayMaster s i = false) (hv : (s.pst.ref i).valid = false) :
    announceTimeout i s = withPst (fun p => p.refLost s.time i false)
      (s.setInst i { s.inst i with state := .listening, chosen := none }) := by
  have hself : s.setInst i { s.inst i with foreign := [] } = s := by rw [← hf, State.setInst_inst]
  have hdecide := decidePtp_hears_none he hf
  rw [hm] at hdecide
  have hsettle := settlePtp_no_master hv hdecide rfl
  have hleft : announceTimeout i s = withPst (fun p => p.refLost s.time i false)
      (settlePtp i (s.setInst i { s.inst i with foreign := [] })) := by simp [announceTimeout, he, hc, hf]
  rw [hleft, hself, hsettle]
  rfl

theorem isMaster_iff : isMaster s i = true ↔
    (s.inst i).enable = true ∧ (s.inst i).state = .master ∧ mayMaster s i = true := by
  simp [isMaster, and_assoc]

/-- A MASTER that hears no other stays MASTER. -/
theorem settlePtp_master (h : isMaster s i = true) (hf : (s.inst i).foreign = []) (hc : (s.inst i).chosen = none)
    (hv : (s.pst.ref i).valid = false) : settlePtp i s = s := by
  obtain ⟨he, hs, hm⟩ := isMaster_iff.1 h
  have hdecide := decidePtp_hears_none he hf
  have hself : { s.inst i with state := .master, chosen := none } = s.inst i := by rw [← hs, ← hc]
  rw [hm, if_pos rfl, hself] at hdecide
  rw [settlePtp_no_master hv hdecide hc, State.setInst_inst]

end Decision

section Exchange

variable {s : State} {i : Nat}

/-! The exchange of Sync, Follow_Up, Delay_Req and Delay_Resp (R317, R319, R321). -/

theorem syncReceived_one_step {m : SyncMsg} (hm : fromMaster (s.inst i) m.domain m.source = true)
    (ht : m.twoStep = false) (hs : (s.inst i).sync = none) : syncReceived i m s = s.setInst i { s.inst i with
      twoStepGm := false, syncCnt := (s.inst i).syncCnt + 1
      sync := some { seq := m.seq, t1 := some (quartersOf m.origin + m.correction.toInt)
                     t2 := corrected (quartersOf m.ingress) (s.netPort i).tsIn - rounded (s.netPort i).asym 250 } } := by
  simp [syncReceived, hm, ht, hs]

theorem followUp_paired {m : SyncMsg} {w : SyncWait} (hs : (s.inst i).sync = some w)
    (hm : fromMaster (s.inst i) m.domain m.source = true) (ht : w.t1 = none) (hq : w.seq = m.seq) :
    followUp i m s = s.setInst i { s.inst i with
      sync := some { w with t1 := some (quartersOf m.origin + m.correction.toInt) }
      syncCnt := (s.inst i).syncCnt + 1 } := by
  simp [followUp, hs, hm, ht, hq]

theorem followUpTimeout_waiting {w : SyncWait} (hs : (s.inst i).sync = some w) (ht : w.t1 = none) :
    followUpTimeout i s
      = s.setInst i { s.inst i with sync := none, syncLostCnt := (s.inst i).syncLostCnt + 1 } := by
  simp [followUpTimeout, hs, ht]

theorem delayReqSend_inst {t : Stamp} (he : (s.inst i).enable = true) (hs : (s.inst i).state = .slave) :
    ((delayReqSend i t s).inst i).nextSeq = (s.inst i).nextSeq + 1
      ∧ ((delayReqSend i t s).inst i).request
        = some ((s.inst i).nextSeq, corrected (quartersOf t) (s.netPort i).tsOut) := by
  simp [delayReqSend, he, hs]

theorem delayRespTimeout_waiting (h : (s.inst i).request ≠ none) : delayRespTimeout i s
    = s.setInst i { s.inst i with request := none, drespCnt := (s.inst i).drespCnt + 1 } :=
  if_pos (Option.isSome_iff_ne_none.2 h)

/-- The delay of an exchange before the filter (R319). -/
def rawDelay (s : State) (i : Nat) (m : DelayResp) (w : SyncWait) (t1 t3 : Int) : Int :=
  rounded (w.t2 - t1 + (quartersOf m.receive - m.correction.toInt - t3 + rounded (s.netPort i).asym 250)) 2

variable {m : DelayResp} {w : SyncWait} {t1 t3 : Int}

/-- An outlier is counted, and the exchange is dropped. -/
theorem delayResp_outlier (hr : (s.inst i).request = some (m.seq, t3)) (hs : (s.inst i).sync = some w)
    (ht : w.t1 = some t1) (hm : fromMaster (s.inst i) m.domain m.source = true) (hd : (s.inst i).rawDelays ≠ [])
    (ho : 4 * ((s.inst i).outlier : Int) < rawDelay s i m w t1 t3 - meanOf (s.inst i).rawDelays) :
    ∃ granted, delayResp i m s = s.setInst i { s.inst i with
      request := none, granted := granted, outlierCnt := (s.inst i).outlierCnt + 1 } := by
  unfold rawDelay at ho
  simp only [delayResp, hr, hs, ht, hm]
  exact ⟨_, by simp [hd, ho]; rfl⟩

/-- Until the eighth exchange with a new grandmaster no offset is accepted, and none refused: what was measured stays. -/
theorem judgeOffset_measuring_inst {raw : Int} {x : PtpInst} (hgm : x.acceptedGm ≠ x.chosen.map Announce.gmId)
    (hn : x.measured < 8) : (judgeOffset i raw x s).inst i = x := by
  have hother : (x.acceptedGm != x.chosen.map Announce.gmId && decide (x.measured < 8)) = true := by simp [hgm, hn]
  rw [judgeOffset, if_pos hother]
  split
  · exact State.inst_setInst ..
  · exact (State.inst_of_ptp_eq rfl).trans (State.inst_setInst ..)

/-- The first exchange with a grandmaster gives the first of the measured delays. -/
theorem delayResp_first_inst (hr : (s.inst i).request = some (m.seq, t3)) (hs : (s.inst i).sync = some w)
    (ht : w.t1 = some t1) (hm : fromMaster (s.inst i) m.domain m.source = true) (hd : (s.inst i).rawDelays = [])
    (hn : (s.inst i).measured = 0) (hg : (s.inst i).acceptedGm = none) (hc : (s.inst i).chosen ≠ none) :
    ((delayResp i m s).inst i).outlierCnt = (s.inst i).outlierCnt ∧ ((delayResp i m s).inst i).measured = 1
      ∧ ((delayResp i m s).inst i).rawDelays = [rawDelay s i m w t1 t3] := by
  obtain ⟨a, ha⟩ := Option.ne_none_iff_exists'.1 hc
  have hjudge := @judgeOffset_measuring_inst s i
  simp [delayResp, hr, hs, ht, hm, hd, hn, hg, ha, hjudge, rawDelay]

end Exchange

section Master

variable {s : State} {i : Nat}

/-! What a MASTER sends (R320). -/

theorem masterSync_sends {t : Stamp} (h : isMaster s i = true) (hi : i < s.net.ports.length) :
    ((masterSync i t s).inst i).masterSeq = (s.inst i).masterSeq + 1 ∧ ((masterSync i t s).inst i).state = .master
      ∧ ((masterSync i t s).netPort i).txFrames = (s.netPort i).txFrames + 1 := by
  obtain ⟨-, hs, -⟩ := isMaster_iff.1 h
  simp [masterSync, h, hs, sendPtp_txFrames, hi]

theorem masterAnnounce_sends (h : isMaster s i = true) (hf : (s.inst i).foreign = []) (hc : (s.inst i).chosen = none)
    (hv : (s.pst.ref i).valid = false) (hi : i < s.net.ports.length) :
    ((masterAnnounce i s).inst i).masterSeq = (s.inst i).masterSeq + 1 ∧ ((masterAnnounce i s).inst i).state = .master
      ∧ ((masterAnnounce i s).netPort i).txFrames = (s.netPort i).txFrames + 1 := by
  obtain ⟨-, hs, -⟩ := isMaster_iff.1 h
  simp [masterAnnounce, settlePtp_master h hf hc hv, h, hs, sendPtp_txFrames, hi]

theorem masterDelayReq_sends {source : BitVec 80} {seq : Half} {correction : Long} {t : Stamp} (h : isMaster s i = true)
    (hi : i < s.net.ports.length) :
    ((masterDelayReq i (s.inst i).domain source seq correction t s).inst i).masterSeq = (s.inst i).masterSeq
      ∧ ((masterDelayReq i (s.inst i).domain source seq correction t s).netPort i).txFrames
        = (s.netPort i).txFrames + 1 := by
  simp [masterDelayReq, h, sendPtp_txFrames, hi]

end Master

/-- Settles O26: out of reset each row is its operation on the port, and the operation's rule for the case gives the next
state. How quotients are rounded, what the first selection takes up and the form of the delay are the model's choices
(logs 21, 40 and 63). -/
theorem timeMessagesComplete : Obligations.TimeMessagesComplete := by
  unfold Obligations.TimeMessagesComplete
  rintro s i x rfl hheld hports hv
  have hi : i.val < s.net.ports.length := by omega
  refine ⟨?announce, ?sync, ?follow, ?followTimeout, ?request, ?outlier, ?first, ?respTimeout, ?syncTimeout, ?silent,
    ?masterSync, ?masterAnnounce, ?masterResp⟩
  case announce =>
    exact fun a he hd hf hl hm => next_whenUp_of_eq hheld (announceReceived_first he hd hf hl hm hv)
  case sync => exact fun m hm ht hs => next_whenUp_of_eq hheld (syncReceived_one_step hm ht hs)
  case follow => exact fun m w hs hm ht hq => next_whenUp_of_eq hheld (followUp_paired hs hm ht hq)
  case followTimeout => exact fun w hs ht => next_whenUp_of_eq hheld (followUpTimeout_waiting hs ht)
  case request => exact fun st he hs => ⟨_, next_whenUp_of_eq hheld rfl, delayReqSend_inst he hs⟩
  case outlier =>
    rintro m w t1 t3 raw hr hs ht hm rfl hd ho
    obtain ⟨granted, heq⟩ := delayResp_outlier hr hs ht hm hd ho
    refine ⟨_, next_whenUp_of_eq hheld heq, ?_⟩
    simp
  case first =>
    exact fun m w t1 t3 hr hs ht hm hd _ hn hg hc =>
      ⟨_, next_whenUp_of_eq hheld rfl, delayResp_first_inst hr hs ht hm hd hn hg hc⟩
  case respTimeout => exact fun h => next_whenUp_of_eq hheld (delayRespTimeout_waiting h)
  case syncTimeout =>
    refine ⟨syncTimeout i.val s, next_whenUp_of_eq hheld rfl, ?_⟩
    rw [syncTimeout, withPst_pst, withPst_ptp]
    exact ⟨Pst.refLost_leaves_not_valid false hv, rfl⟩
  case silent =>
    intro he hc hf hm
    refine ⟨_, next_whenUp_of_eq hheld (announceTimeout_hears_none he hc hf hm hv), ?_⟩
    rw [withPst_inst, State.inst_setInst, withPst_pst, State.setInst_pst]
    exact ⟨rfl, Pst.refLost_leaves_not_valid false hv⟩
  case masterSync => exact fun st h => ⟨_, next_whenUp_of_eq hheld rfl, masterSync_sends h hi⟩
  case masterAnnounce =>
    exact fun hf hc h => ⟨_, next_whenUp_of_eq hheld rfl, masterAnnounce_sends h hf hc hv hi⟩
  case masterResp => exact fun source seq corr st h => ⟨_, next_whenUp_of_eq hheld rfl, masterDelayReq_sends h hi⟩

end Sys2Proof.Machine
end


section
/-! Reads of the direct window that latch (R55, R71, R327, R366, R436, R448): how a read runs, what each latching register
latches, and the obligation on them. -/

namespace Sys2Proof.Machine

section Rules

variable {s t : State} {q : Requester} {a b : Nat} {w : Word}

/-! How a read runs (R431, R432). -/

/-- A read of a register other than SYS_IND_DATA latches first, and then gives its word. -/
theorem read_runs_latchRead (h : MayRead s q) (ha : b / 4 * 4 % 0x1_0000 = a) (hi : a ≠ 0x0044) (hr : isReg a = true) :
    whenUp s (busRead q b s) = given q (readWord s (latchRead q a s) q a) (latchRead q a s) := by
  obtain ⟨hheld, hp⟩ := h
  simp [whenUp_of_running _ hheld, busRead, hp, ha, readReg, hi, hr, given]

/-- A register that shows no latch of its own and is no _HI word shows what it held before the read. -/
theorem readWord_unlatched (hc : a ≠ 0x6608) (hw : isWideLo (a - 4) = false) : readWord s t q a = regRead s q a := by
  simp [readWord, hc, hw]

/-- So a read of such a register gives what the register held. -/
theorem read_shows_register (h : MayRead s q) (ha : b / 4 * 4 % 0x1_0000 = a) (hi : a ≠ 0x0044) (hr : isReg a = true)
    (hc : a ≠ 0x6608) (hw : isWideLo (a - 4) = false) :
    whenUp s (busRead q b s) = given q (regRead s q a) (latchRead q a s) := by
  rw [read_runs_latchRead h ha hi hr, readWord_unlatched hc hw]

/-! What a read latches. -/

theorem read_ptpNs (h : MayRead s q) : whenUp s (busRead q 0x500C s)
    = given q s.pst.ptpNs (onShadow q (fun x => { x with ptpSec := s.pst.ptpSec, mcntLatch := s.mcnt }) s) :=
  read_shows_register h rfl (by decide) rfl (by decide) (by decide)

theorem read_hist (h : MayRead s q) : whenUp s (busRead q 0x5480 s)
    = given q (Store.look 0 s.fab.hist 0) (onShadow q (fun x => { x with hist := Store.slice 0 s.fab.hist 0 32 }) s) :=
  read_shows_register h rfl (by decide) rfl (by decide) (by decide)

theorem read_ppsCapture (h : MayRead s q) : whenUp s (busRead q 0x5FC0 s)
    = given q (regRead s q 0x5FC0) (onShadow q (fun x => { x with ppsSec := s.ptp.ppsSec }) s) :=
  read_shows_register h rfl (by decide) rfl (by decide) (by decide)

/-- CTX_STAT shows the window that this read has just latched (R366). -/
theorem read_ctxStat (h : MayRead s q) : whenUp s (busRead q 0x6608 s)
    = given q (readWord s (latchRead q 0x6608 s) q 0x6608) (onShadow q (fun x => { x with ctx := selectedWindow s }) s) :=
  read_runs_latchRead h rfl (by decide) rfl

/-! The _LO words of the wide values (R436). -/

theorem isReg_of_lt_5000 (h0 : 0x0800 ≤ a) (h1 : a < 0x5000) : isReg a = true := by
  unfold isReg
  rw [if_neg (by omega), if_neg (by omega), if_pos h1]

theorem isReg_network (h0 : 0x5800 ≤ a) (h1 : a < 0x6000) : isReg a = isNetReg a := by
  unfold isReg
  repeat rw [if_neg (by omega)]
  exact if_pos h1

theorem isReg_of_isWideLo (h : isWideLo a = true) : isReg a = true := by
  have hlisted : ∀ b ∈ [0x5010, 0x501C, 0x5024, 0x5584, 0x55BC, 0x55C8, 0x5FC4, 0x7034], isReg b = true := by decide
  simp only [isWideLo, Bool.or_eq_true, Bool.and_eq_true, decide_eq_true_eq, beq_iff_eq, List.contains_iff_mem] at h
  rcases h with ((((hmem | ⟨⟨h0, h1⟩, -⟩) | ⟨⟨h0, h1⟩, -⟩) | ⟨⟨h0, h1⟩, ho⟩) | ⟨⟨h0, h1⟩, ho⟩) | ⟨⟨h0, h1⟩, ho⟩
  · exact hlisted a hmem
  · exact isReg_of_lt_5000 h0 (by omega)
  · exact isReg_of_lt_5000 (by omega) h1
  · rw [isReg_network (by omega) (by omega), isNetReg, decide_eq_true_eq]
    omega
  · have ho' : a % 0x80 ≤ 0x3C := by
      simp only [List.mem_cons, List.not_mem_nil, or_false] at ho
      omega
    exact isReg_netPort h0 h1 ho'
  · rw [isReg_network (by omega) (by omega), isNetReg, decide_eq_true_eq]
    omega

/-- No _LO word is a mailbox's CMD_RSTAT. -/
theorem isRstat_of_isWideLo (h : isWideLo a = true) : isRstat q a = false := by
  have hnone : ∀ p : Fin 4, isWideLo (0x1000 + 0x1000 * p.val + 0xFE4) = false := by decide
  rw [isRstat, beq_eq_false_iff_ne]
  rintro rfl
  exact Bool.false_ne_true ((hnone q.part).symm.trans h)

theorem latchRead_wideLo (h : isWideLo a = true) : latchRead q a s
    = onShadow q (fun x => { x with wideAddr := some a, wideHi := regRead s q (a + 4) }) s := by
  have hne : ∀ b, isWideLo b = false → a ≠ b := by
    rintro b hb rfl
    exact Bool.false_ne_true (hb.symm.trans h)
  rw [latchRead, if_neg (hne _ (by decide)), if_neg (hne _ (by decide)), if_neg (hne _ (by decide)),
    if_neg (hne _ (by decide)), isRstat_of_isWideLo h, if_neg Bool.false_ne_true, if_pos h]

/-! SYS_IND_DATA by partition 0 (R448, R450). -/

theorem read_indData (h : MayRead s q) (hp0 : q.part = 0)
    (hi : indRead (s.shadow q.ix).indAddr.toNat s = some (w, t)) :
    whenUp s (busRead q 0x0044 s) = given q w (onShadow q Shadow.advance t) := by
  obtain ⟨hheld, hp⟩ := h
  simp [whenUp_of_running _ hheld, busRead, hp, readReg, indDataRead, hp0, hi, given]

theorem mayWrite_indData (h : MayRead s q) (hp0 : q.part = 0) : MayWrite s q 0x0044 := by
  obtain ⟨hheld, hp⟩ := h
  exact ⟨hheld, hp, by simp [regAllowed, hp0], by simp [regLocked, isRingBase]⟩

theorem regStore_indData (hi : indWrite (s.shadow q.ix).indAddr.toNat w s = some t) :
    regStore q 0x0044 w s = onShadow q Shadow.advance t := by
  simp [regStore, indDataWrite, hi]

end Rules

/-- Settles O37: a read of the window gives the word that its register's rule names, beside what it latches. The word of
CTX_STAT, which the statement only says to exist, is what the register shows once its window is latched. -/
theorem latchingReadsComplete : Obligations.LatchingReadsComplete := by
  unfold Obligations.LatchingReadsComplete
  intro s q h
  refine ⟨?ptpNs, ?hist, ?ppsCapture, ?ctxStat, ?wideLo, ?indRead, ?indWrite⟩
  case ptpNs => exact congrArg Host.Outcome.next (read_ptpNs h)
  case hist => exact congrArg Host.Outcome.next (read_hist h)
  case ppsCapture => exact congrArg Host.Outcome.next (read_ppsCapture h)
  case ctxStat => exact ⟨_, congrArg Host.Outcome.next (read_ctxStat h)⟩
  case wideLo =>
    intro addr hw
    have hne : addr.toNat / 4 * 4 ≠ 0x0044 := fun he => by simp [he, isWideLo] at hw
    refine congrArg Host.Outcome.next
      ((read_runs_latchRead h (half_word_mod_window addr) hne (isReg_of_isWideLo hw)).trans ?_)
    exact congrArg _ (latchRead_wideLo hw)
  case indRead => exact fun w t hp0 hi => congrArg Host.Outcome.next (read_indData h hp0 hi)
  case indWrite =>
    exact fun w t hp0 hi => congrArg Host.Outcome.next
      ((write_runs_regStore (mayWrite_indData h hp0) rfl rfl rfl).trans (regStore_indData hi))

end Sys2Proof.Machine
end

section
/-! The fabric's commands (R70, R76, R89, R90): what each one does with operands in range, and the obligation on them. -/

namespace Sys2Proof.Machine

section Rules

variable {s : State}

@[simp] theorem opened_fab {q : Sender} {b : Body} : (opened q b s).fab = s.fab := by rw [opened, takeSlotFor_frame]

theorem fabSetGovernor_in_range {c : FabSetGovernor} (h : fabGovernorOk c = true) :
    fabSetGovernor c s
      = ({ s with fab := s.fab.setGovernor (decide (c.mode.toNat = 1)) (govParamsOf c) }, Reply.ok []) := by
  simp [fabSetGovernor, h]

theorem fabSetEscalation_in_range {burst stall : Half} (hb0 : 1 ≤ burst.toNat) (hb1 : burst.toNat ≤ 1000)
    (hs0 : 2 ≤ stall.toNat) (hs1 : stall.toNat ≤ 4800) :
    fabSetEscalation burst stall s
      = ({ s with fab := { s.fab with burstTh := burst.toNat, stallTh := stall.toNat } }, Reply.ok []) :=
  if_neg (by omega)

/-- A change of N clears the histogram and the mean window in progress, whether or not W changes (R70). -/
theorem fabSetTelemetry_changes_n {n : Byte} {w : Half} (hn0 : 8 ≤ n.toNat) (hn1 : n.toNat ≤ 16) (hw0 : 2 ≤ w.toNat)
    (hw1 : w.toNat ≤ 4096) (hw : w.toNat % 2 = 0) (hne : n.toNat ≠ s.fab.n) :
    fabSetTelemetry n w s
      = ({ s with fab := { s.fab.clearWindow with n := n.toNat, w := w.toNat } }, Reply.ok []) := by
  rw [fabSetTelemetry, if_neg (by omega), if_neg fun h => hne h.1]

/-- An accepted row that answers its status alone: any datagram holds the reply. -/
theorem runs_status_only {q : Sender} {b : Body} {i : Instr} {f : State → State}
    (hrow : exec i s = .next (whenUp s (runCommand q b s))) (h : Accepts s q b)
    (hrun : b.run q.part.val (q.via == .udp) (opened q b s) = (f (opened q b s), Reply.ok [])) :
    Runs i q b s (Reply.ok []) f :=
  runs_of_accepts hrow h hrun (by decide)

end Rules

/-- Settles O1: each row runs its command through the checks of R411, and with its operands in range the command has the
effect of its own rule. -/
theorem fabricCommandsComplete : Obligations.FabricCommandsComplete := by
  unfold Obligations.FabricCommandsComplete
  intro s q
  refine ⟨?governor, ?escalation, ?telemetry, ?clear⟩
  case governor => exact fun c h hc => runs_status_only rfl h (fabSetGovernor_in_range hc)
  case escalation =>
    exact fun burst stall h hb0 hb1 hs0 hs1 => runs_status_only rfl h (fabSetEscalation_in_range hb0 hb1 hs0 hs1)
  case telemetry =>
    exact fun n w h hn0 hn1 hw0 hw1 hw hne =>
      runs_status_only rfl h (fabSetTelemetry_changes_n hn0 hn1 hw0 hw1 hw (by simpa using hne))
  case clear => exact fun h => runs_status_only rfl h rfl

end Sys2Proof.Machine
end

section
/-! The graph and node commands (R101, R103, R109 to R111, R115, R116, R122): what each one does where it is accepted, and
the obligation on them. -/

namespace Sys2Proof.Machine

section Opened

variable {s : State} {q : Sender} {b : Body}

/-! What a command that takes its slot leaves as it was. -/

@[simp] theorem opened_mcnt : (opened q b s).mcnt = s.mcnt := congrArg Pst.mcnt opened_pst

@[simp] theorem opened_fs : (opened q b s).fs = s.fs := by simp only [State.fs, opened_pst]

@[simp] theorem regionOf_opened (use : RegionUse) (part : Nat) :
    regionOf (opened q b s) use part = regionOf s use part := by simp only [regionOf, opened_own]

@[simp] theorem verifyBusy_opened (part : Nat) : verifyBusy (opened q b s) part = verifyBusy s part := by
  simp only [verifyBusy, opened_rdg]

@[simp] theorem ahead_opened (w : Word) : ahead (opened q b s) w = ahead s w := by simp only [ahead, opened_mcnt]

@[simp] theorem namedWave_opened (w : GraphWave) : namedWave (opened q b s) w = namedWave s w := by
  simp only [namedWave, opened_mcnt]

@[simp] theorem waveOk_opened (w : GraphWave) : waveOk (opened q b s) w = waveOk s w := by
  simp only [waveOk, ahead_opened]

@[simp] theorem liveNode_opened (part id : Nat) : liveNode (opened q b s) part id = liveNode s part id := by
  simp only [liveNode, opened_rdg]

/-- A layout says what Ridge holds, and no more. -/
theorem graphGetLayout_opened_reply (part : Nat) :
    (graphGetLayout part (opened q b s)).2 = (graphGetLayout part s).2 := by
  simp only [graphGetLayout, opened_rdg]

end Opened

section Rules

variable {s : State} {part : Nat}

theorem graphLoadChunk_in_region {c : GraphChunk} {r : Region} (hd : c.data.length = c.length.toNat)
    (h0 : 4 ≤ c.length.toNat) (h1 : c.length.toNat ≤ 4000) (h4 : c.length.toNat % 4 = 0)
    (hr : regionOf s .staging part = some r) (hfit : c.offset.toNat + c.length.toNat ≤ r.size) :
    graphLoadChunk part c s = ({ s with mem := s.mem.writeTarn (r.base + c.offset.toNat) c.data }, Reply.ok []) := by
  have hlen : ¬(c.length.toNat < 4 ∨ 4000 < c.length.toNat ∨ c.length.toNat % 4 ≠ 0) := by omega
  simp only [graphLoadChunk, hd, hr, hlen, Nat.not_lt.2 hfit, ne_eq, not_true_eq_false, decide_false,
    Bool.false_eq_true, if_false]

/-- With no other partition's READY bank in the way, no build is lost (R101). -/
theorem graphVerify_builds {udp : Bool} {length : Word} {r : Region} (hb : verifyBusy s part = false)
    (hr : regionOf s .staging part = some r) (hfit : length.toNat ≤ r.size) (hmax : length.toNat ≤ 0x100000)
    (hs : (s.rdg.bank s.rdg.shadow).state ≠ .ready) :
    graphVerify part udp length s = ({ s with
      rdg := { s.rdg.setBank s.rdg.shadow { s.rdg.bank s.rdg.shadow with state := .building } with
        build := some (buildOf part udp s.pst.rate
          (verifyImage (verifyCtx s part) (s.mem.readTarn r.base length.toNat) length.toNat))
        resPart := part, resRunning := false, lost := setBit s.rdg.lost part false } },
      { status := .pending, payload := [] }) := by
  have hsize : ¬(length.toNat ≤ 0x100000 ∧ r.size < length.toNat) := by omega
  have hlost : ¬((s.rdg.bank s.rdg.shadow).state = .ready ∧ s.rdg.resPart ≠ part) := fun h => hs h.1
  simp only [graphVerify, hb, hr, Option.getD_some, hsize, hlost, Nat.min_eq_left hmax, decide_false,
    Bool.false_eq_true, if_false]

/-- A READY bank that the partition holds, built for the present rate and within its load, waits for its wave (R109). -/
theorem graphCommit_ready {c : GraphWave} (hw : waveOk s c = true) (hc : s.rdg.commit = none) (hh : s.rdg.halt = none)
    (hp : stepWaiting s.pst = false) (hs : (s.rdg.bank s.rdg.shadow).state = .ready) (hown : s.rdg.resPart = part)
    (hrate : (s.rdg.bank s.rdg.shadow).rate = s.pst.rate)
    (hload : (s.rdg.bank s.rdg.shadow).corner.toNat ≤ loadCeiling s.fs) :
    graphCommit part c s = ({ s with
      rdg := { s.rdg.setBank s.rdg.shadow { s.rdg.bank s.rdg.shadow with state := .pending } with
        commit := some { m := namedWave s c, n := c.n.toNat, part := part }, commitM := namedWave s c
        resRunning := false } }, Reply.ok (le32 (namedWave s c))) := by
  simp [graphCommit, hw, hc, hh, hp, hs, hown, hrate, Nat.not_lt.2 hload]

theorem graphCancel_commit {c : Commit} (hc : s.rdg.commit = some c) (hp : c.part = part) (ha : 2 ≤ ahead s c.m) :
    graphCancel part s = ({ s with
      rdg := { s.rdg.setBank s.rdg.shadow { s.rdg.bank s.rdg.shadow with state := .ready } with
        commit := none, resRunning := true } }, Reply.ok []) := by
  simp [graphCancel, hc, hp, Int.not_lt.2 ha]

theorem graphSetReservation_in_range {ms : Half} (h0 : 100 ≤ ms.toNat) (h1 : ms.toNat ≤ 10000) :
    graphSetReservation ms s = ({ s with rdg := { s.rdg with resMs := ms.toNat } }, Reply.ok []) := by
  simp [graphSetReservation, Nat.not_lt.2 h0, Nat.not_lt.2 h1]

theorem graphHalt_live {c : GraphWave} (hw : waveOk s c = true) (hc : s.rdg.commit = none) (hx : s.rdg.xfade = none)
    (hh : s.rdg.halt = none) (hl : s.rdg.live.isSome = true) :
    graphHalt part c s = ({ s with
      rdg := { s.rdg with halt := some { h := namedWave s c, n := c.n.toNat, began := none } } },
      Reply.ok (le32 (namedWave s c))) := by
  obtain ⟨b, hb⟩ := Option.isSome_iff_exists.1 hl
  simp [graphHalt, hw, hc, hx, hh, hb]

/-- Without a mask a change is for every channel. -/
theorem gainChannels_unmasked {n : Node} {c : NodeSetGain} (h : c.maskFlag = 0) :
    gainChannels n c = List.range n.channels := by simp [gainChannels, h]

/-- One cell waits for the next window, for the wave 8 ahead, where no other cell waits (R115, R117). -/
theorem nodeSetGain_one_cell {c : NodeSetGain} {n : Node} (hn : liveNode s part c.node.toNat = some n)
    (hp : c.param.toNat < n.gainParams) (hf : c.maskFlag = 0) (ha : c.a = 0) (hch : n.channels = 1)
    (hw : s.rdg.cellWrites = []) :
    ∃ r, nodeSetGain part c s = ({ s with rdg := { s.rdg with cellWrites := [
        { engine := n.place, addr := n.cellAddr c.param.toNat 0, part := part, node := n.id, gain := c.gain
          a := s.mcnt + 8, t := samplesOfMs s.fs (timeoutOf s part n), held := false }] } }, r)
      ∧ r.status = .ok ∧ r.payload.length ≤ 1432 := by
  have hchs : gainChannels n c = [0] := by rw [gainChannels_unmasked hf, hch]; rfl
  refine ⟨(nodeSetGain part c s).2, ?_, ?_⟩ <;>
    simp [nodeSetGain, hn, hf, ha, hw, hchs, Nat.not_le.2 hp, Reply.ok, le32, le64]

theorem nodeSetTimeout_in_range {node ms : Half} {n : Node} (hn : liveNode s part node.toNat = some n)
    (hg : 0 < n.gainParams) (hms : ms.toNat ≤ 1000) :
    nodeSetTimeout part node ms s = ({ s with rdg := { s.rdg with timeouts := (part, n.id, ms.toNat) ::
      (s.rdg.timeouts.filter fun x => !(x.1 == part && x.2.1 == n.id)) } }, Reply.ok []) := by
  simp [nodeSetTimeout, hn, Nat.ne_of_gt hg, Nat.not_lt.2 hms]

end Rules

/-- Settles O5: each row runs its command through the checks of R411, and with its operands in range the command has the
effect of its own rule. Where the cells of a gain change lie (log 30), and the bytes of a layout (log 29), are the model's
choices. -/
theorem graphCommandsComplete : Obligations.GraphCommandsComplete := by
  unfold Obligations.GraphCommandsComplete
  intro s q
  refine ⟨?chunk, ?verify, ?commit, ?cancel, ?status, ?layout, ?reservation, ?halt, ?gain, ?timeout⟩
  case chunk =>
    exact fun c r h hd h0 h1 h4 hr hfit =>
      runs_status_only rfl h (graphLoadChunk_in_region hd h0 h1 h4 (by simpa using hr) hfit)
  case verify =>
    exact fun length r h hb hr hfit hmax hs => runs_of_accepts rfl h
      (graphVerify_builds (by simpa using hb) (by simpa using hr) hfit hmax (by simpa using hs)) (Nat.zero_le _)
  case commit =>
    intro c h hw hc hh hp hs hown hrate hload
    have hrun := graphCommit_ready (s := opened q (bodyGraphCommit c) s) (part := q.part.val) (c := c) (by simpa using hw)
      (by simpa using hc) (by simpa using hh) (by simpa using hp) (by simpa using hs) (by simpa using hown)
      (by simpa using hrate) (by simpa using hload)
    rw [namedWave_opened] at hrun
    exact runs_of_accepts rfl h hrun (by simp [Reply.ok, le32])
  case cancel =>
    exact fun c h hc hp ha =>
      runs_status_only rfl h (graphCancel_commit (by simpa using hc) hp (by simpa using ha))
  case status => exact fun h => reads_of_accepts rfl h ⟨_, rfl, rfl, by simp [Reply.ok, le32]⟩
  case layout =>
    intro h hl
    rw [← graphGetLayout_opened_reply (q := q) (b := bodyGraphGetLayout)] at hl
    exact reads_of_accepts rfl h ⟨_, rfl, rfl, hl⟩
  case reservation => exact fun ms h h0 h1 => runs_status_only rfl h (graphSetReservation_in_range h0 h1)
  case halt =>
    intro c h hw hc hx hh hl
    have hrun := graphHalt_live (s := opened q (bodyGraphHalt c) s) (part := q.part.val) (c := c) (by simpa using hw)
      (by simpa using hc) (by simpa using hx) (by simpa using hh) (by simpa using hl)
    rw [namedWave_opened] at hrun
    exact runs_of_accepts rfl h hrun (by simp [Reply.ok, le32])
  case gain =>
    intro c n h hn hp hf ha hch hw
    obtain ⟨r, hrun, hok, hr⟩ := nodeSetGain_one_cell (s := opened q (bodyNodeSetGain c) s) (by simpa using hn) hp hf ha
      hch (by simpa using hw)
    exact ⟨r, hok, runs_of_accepts rfl h hrun hr⟩
  case timeout =>
    exact fun node ms n h hn hg hms =>
      runs_status_only rfl h (nodeSetTimeout_in_range (by simpa using hn) hg hms)

end Sys2Proof.Machine
end

section
/-! Ridge's own events (R101, R111, R112, R116, R154): each event in the case in which it acts, and the obligation on them. -/

namespace Sys2Proof.Machine

section Banks

variable {r : Rdg} {b : Nat} {x : Bank}

@[simp] theorem Rdg.bank_setBank : (r.setBank b x).bank b = x := by
  unfold Rdg.bank Rdg.setBank
  split <;> rfl

@[simp] theorem Rdg.setBank_rejectCnt : (r.setBank b x).rejectCnt = r.rejectCnt := by
  unfold Rdg.setBank
  split <;> rfl

/-- The end of a crossfade retires the parts of the bank that plays. -/
theorem endCrossfade_live (h : r.live = some b) :
    endCrossfade r
      = { r.setBank b { r.bank b with parts := (r.bank b).parts.map BankPart.retire } with xfade := none } := by
  rw [endCrossfade, h]

@[simp] theorem endCrossfade_xfade : (endCrossfade r).xfade = none := by
  unfold endCrossfade
  split <;> rfl

theorem endCrossfade_retires (h : r.live = some b) :
    ((endCrossfade r).bank b).parts = (r.bank b).parts.map BankPart.retire := by
  rw [endCrossfade_live h]
  exact congrArg Bank.parts Rdg.bank_setBank

end Banks

section Events

variable {s : State} {b : Build}

/-! The end of a build (R101, R103). -/

theorem keepPrograms_rdg {part half : Nat} : (keepPrograms part half s).rdg = s.rdg :=
  ((keepPrograms_kept (χ := [.crn]) (fun _ h => h) (Kept.refl false _ s)).parts .rdg).resolve_left (by decide)

theorem giveResult_frame {p : Nat} {udp : Bool} {j : Job} {r : Reply} : giveResult p udp j r s
    = { s with cmds := (giveResult p udp j r s).cmds, boot := (giveResult p udp j r s).boot } := by
  unfold giveResult
  dsimp only
  split <;> rfl

/-- An image with no programs and no initial values to load makes its bank READY, and its partition's reservation begins. -/
theorem buildComplete_verified {parts : List BankPart} {corner : Word} {total : Nat} (hb : s.rdg.build = some b)
    (ho : b.outcome = some (parts, corner, total)) (hp : b.programs = []) (hi : b.inits = []) :
    buildComplete s = giveResult b.part b.udp .graphVerify
      (Reply.ok (leBytes 2 0 ++ [BitVec.ofNat 8 (0x41 + s.rdg.shadow)] ++ leBytes 2 total))
      { keepPrograms b.part s.rdg.shadow s with
        rdg := { s.rdg.setBank s.rdg.shadow { state := .ready, parts := parts, corner := corner, rate := b.rate } with
          build := none, resPart := b.part, resRunning := true } } := by
  simp only [buildComplete, hb, ho, hp, hi, List.foldl_nil, keepPrograms_rdg]

/-- An image that is turned away leaves its bank IDLE, and the refusal is counted (R119). -/
theorem buildComplete_rejected (hb : s.rdg.build = some b) (ho : b.outcome = none) (hn : b.rejectNotOwner = false)
    (hr : b.rejectNoRes = false) :
    buildComplete s = giveResult b.part b.udp .graphVerify { status := .graphReject, payload := leBytes 2 b.reason }
      { s with rdg := { s.rdg.setBank s.rdg.shadow { s.rdg.bank s.rdg.shadow with state := .idle } with
        build := none, rejectCnt := s.rdg.rejectCnt + 1, lastReject := b.reason, lastRejectPart := b.part } } := by
  simp only [buildComplete, hb, ho, hn, hr, graphRefuse, Rdg.setBank_rejectCnt, Bool.false_eq_true, if_false]

/-! The ends of a reservation, a crossfade and a halt (R101, R111, R112). -/

theorem reservationExpiry_eq : reservationExpiry s = { s with rdg := { s.rdg with resRunning := false } } := by
  unfold reservationExpiry
  split
  · rfl
  next h => rw [← Bool.eq_false_iff.2 h]

theorem crossfadeEnd_due (hx : s.rdg.xfade.isSome = true) (h : 0 ≤ serialDiff s.mcnt s.rdg.xfadeEnd) :
    crossfadeEnd s = { s with rdg := endCrossfade s.rdg } := if_pos ⟨hx, h⟩

/-- A halt is over N waves after its fade began. -/
theorem haltOver_faded {h : Halt} (hh : s.rdg.halt = some h) (hb : h.began = some (s.mcnt - BitVec.ofNat 32 h.n)) :
    haltOver s s.mcnt = true := by
  simp [haltOver, hh, hb, serialDiff]

theorem bankHaltEnd_over {l : Nat} (h : haltOver s s.mcnt = true) (hl : s.rdg.live = some l) :
    bankHaltEnd s = { s with rdg := { s.rdg.setBank l { s.rdg.bank l with state := .idle } with
      live := none, lastLive := some l, halt := none } } := by
  rw [bankHaltEnd, if_pos h, hl]

/-- A change that still waits for its zero crossing begins its ramp, with TMO set (R116, R154). -/
theorem gainTimeout_waiting {n addr : Nat} (hp : (s.engine n).pendValid addr = true)
    (hr : (s.engine n).ramping addr = false) :
    gainTimeout n addr s = s.setEngine n ((s.engine n).putMem 3 (addr / 4 + 3)
      (((s.engine n).cellWord addr 3 &&& 0xFC000000#32) ||| 0x82)) := by
  simp [gainTimeout, hp, hr]

end Events

/-- Settles O6: out of reset each row is its operation on Ridge or on the engine, and the operation's rule for the case gives
the next state. That the other partitions' programs go along with a build (log 17), and the bytes of its reply (log 29), are
the model's choices. -/
theorem graphEventsComplete : Obligations.GraphEventsComplete := by
  unfold Obligations.GraphEventsComplete
  intro s hheld
  refine ⟨?built, ?rejected, ?reservation, ?crossfade, ?halt, ?zeroCrossing⟩
  case built =>
    exact fun b parts corner total hb ho hp hi => next_whenUp_of_eq hheld (buildComplete_verified hb ho hp hi)
  case rejected =>
    intro b hb ho hn hr
    refine ⟨_, next_whenUp_of_eq hheld (buildComplete_rejected hb ho hn hr), ?_⟩
    rw [giveResult_frame]
    exact ⟨rfl, rfl, rfl, rfl, congrArg Bank.state Rdg.bank_setBank, rfl⟩
  case reservation => exact next_whenUp_of_eq hheld reservationExpiry_eq
  case crossfade =>
    exact fun hx h => ⟨_, next_whenUp_of_eq hheld (crossfadeEnd_due hx h), endCrossfade_xfade,
      fun _ hl => endCrossfade_retires hl⟩
  case halt =>
    exact fun h b hh hb hl => ⟨_, next_whenUp_of_eq hheld (bankHaltEnd_over (haltOver_faded hh hb) hl), rfl, rfl, rfl,
      congrArg Bank.state Rdg.bank_setBank⟩
  case zeroCrossing => exact fun e cell hp hr => next_whenUp_of_eq hheld (gainTimeout_waiting hp hr)

end Sys2Proof.Machine
end

section
/-! The lanes of the accumulators and of the V registers (R139 to R141, R167 to R170): a write of one lane reads back in that
lane alone, so a write of all four gives each lane its own value; and the obligation on those values. -/

namespace Sys2Proof.Machine

section Lanes

variable {α : Type} {e : Engine} {r j : Nat}

/-- An operation on each lane in turn leaves in every lane what it wrote there, where each turn is read back in its own lane
and in no other. -/
theorem foldl_lanes_read {step : Engine → Nat → Engine} {read : Engine → Nat → α} {val : Nat → α}
    (h : ∀ e i j, read (step e i) j = if j = i then val i else read e j) (hj : j < 4) :
    read (lanes.foldl step e) j = val j := by
  have hread : read (lanes.foldl step e) j
      = if j = 3 then val 3 else if j = 2 then val 2 else if j = 1 then val 1 else if j = 0 then val 0 else read e j := by
    simp only [lanes, List.foldl_cons, List.foldl_nil, h]
  have hlane : j = 0 ∨ j = 1 ∨ j = 2 ∨ j = 3 := by omega
  rw [hread]
  obtain rfl | rfl | rfl | rfl := hlane <;> rfl

theorem Engine.vreg_setLane (x : Word) (i : Nat) : (e.setLane r i x).vreg r j = if j = i then x else e.vreg r j := by
  simp [Engine.vreg, Engine.setLane, Store.look_put]

/-- A saturated lane is written by value; its flag is no part of the registers. -/
theorem Engine.vreg_setSat (x : Int) (i : Nat) : (e.setSat r i x).vreg r j = if j = i then satS32 x else e.vreg r j := by
  rw [← Engine.vreg_setLane]
  unfold Engine.setSat
  dsimp only
  split <;> rfl

theorem toInt_ofInt_clampInt (x : Int) :
    (BitVec.ofInt 80 (clampInt (-(2 ^ 79)) (2 ^ 79 - 1) x)).toInt = clampInt (-(2 ^ 79)) (2 ^ 79 - 1) x := by
  unfold clampInt
  exact BitVec.toInt_ofInt_eq_self (by decide) (by omega) (by omega)

theorem Engine.accReg_setAcc (x : Int) (i : Nat) : (e.setAcc r i x).accReg r j
    = if j = i then clampInt (-(2 ^ 79)) (2 ^ 79 - 1) x else e.accReg r j := by
  have hput : (e.setAcc r i x).acc
      = Store.put 0 e.acc (4 * r + i) (BitVec.ofInt 80 (clampInt (-(2 ^ 79)) (2 ^ 79 - 1) x)) := by
    unfold Engine.setAcc
    dsimp only
    split <;> rfl
  simp only [Engine.accReg, hput, Store.look_put, Nat.add_left_cancel_iff]
  split
  · exact toInt_ofInt_clampInt x
  · rfl

theorem Engine.accReg_accLanes (f : Nat → Int) (hj : j < 4) :
    (e.accLanes r f).accReg r j = clampInt (-(2 ^ 79)) (2 ^ 79 - 1) (f j) :=
  foldl_lanes_read (read := fun e => e.accReg r) (val := fun i => clampInt (-(2 ^ 79)) (2 ^ 79 - 1) (f i))
    (fun _ _ _ => Engine.accReg_setAcc _ _) hj

theorem Engine.vreg_satLanes (f : Nat → Int) (hj : j < 4) : (e.satLanes r f).vreg r j = satS32 (f j) :=
  foldl_lanes_read (read := fun e => e.vreg r) (val := fun i => satS32 (f i)) (fun _ _ _ => Engine.vreg_setSat _ _) hj

theorem Engine.vreg_setV (f : Lanes) (hj : j < 4) : (e.setV r f).vreg r j = f j :=
  foldl_lanes_read (read := fun e => e.vreg r) (val := f) (fun _ _ _ => Engine.vreg_setLane _ _) hj

end Lanes

/-- Settles O12: each operation writes all four lanes of its register, and each lane reads back its own value, saturated
where the operation saturates. -/
theorem cairnLaneValues : Obligations.CairnLaneValues := by
  unfold Obligations.CairnLaneValues
  intro e r0 r1 r2 j hj
  refine ⟨?mpy, ?mac, ?adda, ?nrw, ?add, ?sub, ?and, ?abs, ?shl, ?sel⟩
  case mpy | mac => exact fun _ _ _ _ => Engine.accReg_accLanes _ hj
  case adda => exact fun _ _ _ => Engine.accReg_accLanes _ hj
  case nrw | add | sub | shl => exact fun _ _ _ => Engine.vreg_satLanes _ hj
  case abs => exact fun _ _ => Engine.vreg_satLanes _ hj
  case and | sel => exact fun _ _ _ => Engine.vreg_setV _ hj

end Sys2Proof.Machine
end

section
/-! Instruction words that issue (R129, R147, R151, R159 to R172): a word that passes the checks runs, a word of format A or
B changes its engine alone, and the obligations on the MAC-class slot and on the moves. -/

namespace Sys2Proof.Machine

section Issue

variable {s t : State} {n : Nat} {w : CWord} {i : Instr} {e : Fin 24}

/-- What a word does once it has passed the checks before its issue. -/
def ran (n : Nat) (w : CWord) (s : State) : State :=
  match w with
  | .a _ _ _ _ v => runWait n v (s.setEngine n ((s.engine n).after w))
  | .b _ _ _ _ => s.setEngine n ((s.engine n).after w)
  | .c o => runC n o s

theorem issue_of_canIssue (h : CanIssue s n w) : issue n w s = checkPc n (ran n w s) := by
  obtain ⟨-, htrapped, hended, hprog, hlegal, hmova, hread⟩ := h
  unfold issue
  simp only [htrapped, hended, hprog, hlegal, hmova, hread, Bool.or_self, Bool.not_true, Bool.false_eq_true, if_false]
  cases w <;> rfl

theorem CanIssue.not_held (h : CanIssue s n w) : s.held = false := h.1

theorem CanIssue.not_trapped (h : CanIssue s n w) : (s.engine n).trapped = false := h.2.1

theorem checkPc_in_half (h : (s.engine n).pc < 2048) : checkPc n s = s := by
  simp [checkPc, Nat.not_le.2 h]

/-- A row that issues its word ends in the state that the word leaves, where that stays in the half (R174). -/
theorem exec_of_canIssue (hrow : exec i s = .next (whenUp s (issueRow e w s))) (h : CanIssue s e.val w)
    (hran : ran e.val w s = t) (hpc : (t.engine e.val).pc < 2048) : exec i s = .next t := by
  rw [hrow, issueRow, whenUp_of_running _ h.not_held, whenUp_of_running _ h.not_held, issue_of_canIssue h, hran,
    checkPc_in_half hpc]

theorem runWait_of_not_waits {m : MacOp} {x y z : Ag} {v : ShortMove} (h : wordWaits (.a m x y z v) = false) :
    runWait n v s = s := by
  cases v with
  | waitf => cases h
  | _ => rfl

theorem ran_of_not_waits (hf : ∀ o, w ≠ .c o) (h : wordWaits w = false) :
    ran n w s = s.setEngine n ((s.engine n).after w) := by
  cases w with
  | a m x y z v => exact runWait_of_not_waits h
  | b => rfl
  | c o => exact absurd rfl (hf o)

theorem issues_of_row (hf : ∀ o, w ≠ .c o) (hrow : exec i s = .next (whenUp s (issueRow e w s))) : Issues i e.val w s :=
  fun h hw hpc => exec_of_canIssue hrow h (ran_of_not_waits hf hw) (by rwa [State.engine_setEngine])

theorem macRow_issues {x : MacRest} {m : MacOp} (hrow : exec i s = .next (whenUp s (issueRow e (x.word m) s))) :
    Issues i e.val (x.word m) s := issues_of_row (fun _ => by cases x <;> exact nofun) hrow

theorem shortRow_issues {x : ShortRest} {v : ShortMove} (hrow : exec i s = .next (whenUp s (issueRow e (x.word v) s))) :
    Issues i e.val (x.word v) s := issues_of_row nofun hrow

theorem longRow_issues {x : LongRest} {v : LongMove} (hrow : exec i s = .next (whenUp s (issueRow e (x.word v) s))) :
    Issues i e.val (x.word v) s := issues_of_row nofun hrow

end Issue

section Waits

variable {s : State} {n : Nat} {e : Engine}

theorem finishFar_none (d : Bool) (h : (s.engine n).far = []) : finishFar n d s = s := by simp [finishFar, h]

/-! The MAC-class slot and the address generators leave the far ports alone. -/

theorem foldl_far {α : Type} {f : Engine → α → Engine} (l : List α) (h : ∀ e a, (f e a).far = e.far) :
    (l.foldl f e).far = e.far := by
  induction l generalizing e with
  | nil => rfl
  | cons a l ih => rw [List.foldl_cons, ih, h]

@[simp] theorem Engine.setAcc_far (a j : Nat) (x : Int) : (e.setAcc a j x).far = e.far := by
  unfold Engine.setAcc
  dsimp only
  split <;> rfl

@[simp] theorem Engine.setSat_far (d j : Nat) (x : Int) : (e.setSat d j x).far = e.far := by
  unfold Engine.setSat
  dsimp only
  split <;> rfl

@[simp] theorem Engine.setV_far (d : Nat) (f : Lanes) : (e.setV d f).far = e.far := foldl_far _ fun _ _ => rfl

@[simp] theorem Engine.accLanes_far (a : Nat) (f : Nat → Int) : (e.accLanes a f).far = e.far :=
  foldl_far _ fun _ _ => Engine.setAcc_far _ _ _

@[simp] theorem Engine.satLanes_far (d : Nat) (f : Nat → Int) : (e.satLanes d f).far = e.far :=
  foldl_far _ fun _ _ => Engine.setSat_far _ _ _

@[simp] theorem Engine.ditherLane_far (a d sh j : Nat) : (e.ditherLane a d sh j).far = e.far :=
  Engine.setSat_far _ _ _

theorem Engine.macSlot_far (r0 r1 r2 : Lanes) (m : MacOp) : (e.macSlot r0 r1 r2 m).far = e.far := by
  cases m with
  | dnrw => exact foldl_far _ fun _ _ => Engine.ditherLane_far _ _ _ _
  | _ => simp [Engine.macSlot]

@[simp] theorem Engine.postMod_far (g : Ag) : (e.postMod g).far = e.far := by
  unfold Engine.postMod
  split <;> rfl

theorem Engine.runA_waitf_far (m : MacOp) (x y z : Ag) (d : BitVec 2) : (e.runA m x y z (.waitf d)).far = e.far := by
  simp [Engine.runA, Engine.advanceFrom, Engine.shortMove, Engine.macSlot_far]

/-- A WAITF with no transfer in flight waits for nothing (R147). -/
theorem ran_waitf_idle {x : ShortRest} {d : BitVec 2} (h : (s.engine n).far = []) :
    ran n (x.word (.waitf d)) s = s.setEngine n ((s.engine n).after (x.word (.waitf d))) := by
  have hfar : ((s.setEngine n ((s.engine n).after (x.word (.waitf d)))).engine n).far = [] := by
    rw [State.engine_setEngine]
    exact (Engine.runA_waitf_far _ _ _ _ _).trans h
  change runWait n (.waitf d) _ = _
  simp [runWait, finishFar_none _ hfar]

end Waits

/-- Settles O7: each row issues a word of format A or B, which changes its engine alone. -/
theorem cairnAccumulatorRowsComplete : Obligations.CairnAccumulatorRowsComplete := by
  unfold Obligations.CairnAccumulatorRowsComplete
  intro s e
  refine ⟨?mnop, ?mpy, ?mac, ?lda, ?adda, ?sha, ?nrw, ?dnrw, ?nrwc, ?nrwe⟩
  case mnop => exact fun _ => macRow_issues rfl
  case sha | nrwe => exact fun _ _ _ => macRow_issues rfl
  case lda | adda | nrw | dnrw | nrwc => exact fun _ _ _ _ => macRow_issues rfl
  case mpy | mac => exact fun _ _ _ _ _ => macRow_issues rfl

/-- Settles O8: each row issues a word of format A or B, which changes its engine alone. -/
theorem cairnLaneRowsComplete : Obligations.CairnLaneRowsComplete := by
  unfold Obligations.CairnLaneRowsComplete
  intro s e
  refine ⟨?add, ?sub, ?max, ?min, ?abs, ?neg, ?and, ?or, ?xor, ?shl, ?shr, ?shv, ?norm, ?expn, ?sel⟩
  case abs | neg | norm | expn => exact fun _ _ _ => macRow_issues rfl
  case add | sub | max | min | and | or | xor | shl | shr | shv | sel => exact fun _ _ _ _ => macRow_issues rfl

/-- Settles O9: each row issues a word of format A or B, which changes its engine alone, a WAITF with no transfer in flight
too. -/
theorem cairnMoveRowsComplete : Obligations.CairnMoveRowsComplete := by
  unfold Obligations.CairnMoveRowsComplete
  intro s e
  refine ⟨?snop, ?ldv, ?st, ?cpy, ?movv, ?movsv, ?bcst, ?waitf, ?lnop, ?br, ?call, ?ret, ?addsi, ?alus, ?mova, ?movc, ?lds,
    ?sts, ?movvs, ?setdw⟩
  case snop | cpy => exact fun _ => shortRow_issues rfl
  case ldv => exact fun _ _ => shortRow_issues rfl
  case st | movv | bcst => exact fun _ _ _ => shortRow_issues rfl
  case movsv => exact fun _ _ _ _ => shortRow_issues rfl
  case waitf =>
    exact fun dirs rest h hfar hpc => exec_of_canIssue rfl h (ran_waitf_idle hfar) (by rwa [State.engine_setEngine])
  case lnop => exact fun _ => longRow_issues rfl
  case ret | lds | sts | setdw => exact fun _ _ => longRow_issues rfl
  case br | call | movc => exact fun _ _ _ => longRow_issues rfl
  case addsi | movvs => exact fun _ _ _ _ => longRow_issues rfl
  case alus | mova => exact fun _ _ _ _ _ => longRow_issues rfl

end Sys2Proof.Machine
end

section
/-! Control words and the engine's own events (R135, R144, R145, R147, R150, R151, R153, R161, R173): each in the case in
which it acts, and the obligation on them. -/

namespace Sys2Proof.Machine

section Rules

variable {s : State} {n : Nat} {e : Engine}

/-! Control words (R135, R145, R147, R150, R173). -/

/-- A loop that starts enters its body at the next instruction. -/
theorem Engine.openLoop_pc {count len : Nat} (hc : count ≠ 0) : (e.openLoop count len).pc = e.pc + 1 := by
  simp [Engine.openLoop, hc]

theorem runLoop_opens {count len : Nat} (hlevels : (s.engine n).loops.length < 3) (hend : (s.engine n).pc + len ≤ 2047) :
    runLoop n count len s = s.setEngine n ((s.engine n).openLoop count len) := by
  simp [runLoop, Nat.not_lt.2 hend, Nat.not_le.2 hlevels]

/-- Where an engine goes on does not depend on its address registers. -/
theorem Engine.advanceFrom_setAddr_pc (cls k i : Nat) (x : Int) :
    ((e.setAddr cls k x).advanceFrom i).pc = (e.advanceFrom i).pc := by
  unfold Engine.setAddr
  split <;> rfl

/-- A transfer inbound starts where none is in flight and nothing of R145 and R146 speaks against it. -/
theorem startFar_inbound {toY : Bool} {loc tarn words : Nat} (ht : (s.engine n).trapped = false)
    (hfar : (s.engine n).far = []) (hrange : farRangeOk tarn loc words = true) (hdeny : farDeny s n tarn words false = none)
    (hregion : farRegionOk s n tarn words = true) :
    startFar n false toY loc tarn words s = s.setEngine n { (s.engine n).advanceFrom (s.engine n).pc with
      far := [{ inbound := true, toY := toY, tarn := tarn, loc := loc, words := words }] } := by
  simp [startFar, finishFar_none _ hfar, ht, hfar, hrange, hdeny, hregion]

theorem runStop_idle (ht : (s.engine n).trapped = false) (hfar : (s.engine n).far = []) :
    runStop n s = s.setEngine n { s.engine n with ended := true } := by
  simp [runStop, finishFar_none _ hfar, ht]

/-! The engine's own events (R147, R150, R153, R161). -/

theorem issueRaw_undefined {word : Long} (ht : (s.engine n).trapped = false) (he : (s.engine n).ended = false)
    (hw : CWord.decode word = none) : issueRaw n word s = trap n .illegal s := by simp [issueRaw, hw, ht, he]

theorem Engine.setMem_far (m : Nat) (st : Store Word) : (e.setMem m st).far = e.far := by
  unfold Engine.setMem
  split
  · rfl
  · split <;> rfl

theorem Engine.putMem_far (m a : Nat) (x : Word) : (e.putMem m a x).far = e.far := Engine.setMem_far _ _

theorem Engine.land_far (m : Mem) (x : FarXfer) : (e.land m x).far = e.far :=
  foldl_far _ fun _ _ => Engine.putMem_far _ _ _

theorem farComplete_inbound {x : FarXfer} (hfar : (s.engine n).far = [x]) (hin : x.inbound = true)
    (hgood : s.mem.tarnBadIn x.tarn (4 * x.words) = false) :
    farComplete n true s = s.setEngine n { (s.engine n).land s.mem x with far := [] } := by
  simp [farComplete, finishFar, hfar, hin, hgood, Engine.land_far]

theorem paramWindow_nothing (hc : s.rdg.cells = []) (hw : s.rdg.cellWrites = []) : paramWindow n s = s := by
  simp [paramWindow, hc, hw]

theorem entryDispatch_ready {p i : Nat} {x : Entry} (hx : entryAt s p i = some x) (hr : entryReady s p i x = true)
    (ht : x.target ≠ 24) (htr : (s.engine x.target).trapped = false) (hidle : (s.engine x.target).entry = none) :
    entryDispatch p i s = (markDispatched s p i).setEngine x.target ((s.engine x.target).dispatch x.target p i x
      (s.wave.running.getD 0) (liveHalf s) (fadeIndex s (s.wave.running.getD 0)) s.rdg.xfadeN) := by
  simp [entryDispatch, hx, hr, ht, htr, hidle]

theorem entryCompletion_ended {p i : Nat} {x : Entry} (hx : entryAt s p i = some x)
    (hd : s.wave.dispatched.contains (p, i) = true) (hdone : s.entryDone p i = false) (ht : x.target ≠ 24)
    (hfar : (s.engine x.target).far = []) (htr : (s.engine x.target).trapped = false)
    (hend : (s.engine x.target).ended = true) : entryCompletion p i s
      = markDone (s.setEngine x.target ((s.engine x.target).complete s.time x.last)) [(p, i)] := by
  simp only [entryCompletion, hx, hd, hdone, ht, hend, htr, finishFar_none _ hfar, Bool.not_true, Bool.or_self,
    Bool.false_eq_true, if_false]

end Rules

/-- Settles O10: a control word that passes the checks ends in the state that its own rule gives, and out of reset each event
is its operation on the engine. -/
theorem cairnControlRowsComplete : Obligations.CairnControlRowsComplete := by
  unfold Obligations.CairnControlRowsComplete
  rintro s n e rfl hheld
  refine ⟨?loop, ?loopi, ?seta, ?movi, ?far, ?seed, ?stop, ?illegal, ?farDone, ?window, ?dispatch, ?completion⟩
  case loop =>
    exact fun ss len h hc hlevels hend => exec_of_canIssue rfl h (runLoop_opens hlevels hend)
      (by rw [State.engine_setEngine, Engine.openLoop_pc hc]; omega)
  case loopi =>
    exact fun count len h hc hlevels hend => exec_of_canIssue rfl h (runLoop_opens hlevels hend)
      (by rw [State.engine_setEngine, Engine.openLoop_pc hc]; omega)
  case seta =>
    exact fun cls i value h hpc => exec_of_canIssue rfl h rfl
      (by rwa [State.engine_setEngine, Engine.advanceFrom_setAddr_pc])
  case movi => exact fun sd imm h hpc => exec_of_canIssue rfl h rfl (by rwa [State.engine_setEngine])
  case far =>
    exact fun toY pn ss lines h hpc hfar hrange hdeny hregion =>
      exec_of_canIssue rfl h (startFar_inbound h.not_trapped hfar hrange hdeny hregion) (by rwa [State.engine_setEngine])
  case seed => exact fun ss h hpc => exec_of_canIssue rfl h rfl (by rwa [State.engine_setEngine])
  case stop =>
    exact fun h hfar hpc => exec_of_canIssue rfl h (runStop_idle h.not_trapped hfar) (by rwa [State.engine_setEngine])
  case illegal => exact fun word ht he hw => next_whenUp_of_eq hheld (issueRaw_undefined ht he hw)
  case farDone => exact fun x hfar hin hgood => next_whenUp_of_eq hheld (farComplete_inbound hfar hin hgood)
  case window => exact fun _ hc hw => next_whenUp_of_eq hheld (paramWindow_nothing hc hw)
  case dispatch =>
    intro p i x hx hr ht htr hidle
    rw [← ht] at htr hidle ⊢
    exact next_whenUp_of_eq hheld (entryDispatch_ready hx hr (by omega) htr hidle)
  case completion =>
    intro p i x hx hd hdone ht hfar htr hend
    rw [← ht] at hfar htr hend ⊢
    exact next_whenUp_of_eq hheld (entryCompletion_ended hx hd hdone (by omega) hfar htr hend)

end Sys2Proof.Machine
end

section
/-! The Cairn commands (R152, R157, R158): what each one does with operands in range, and the obligation on them. -/

namespace Sys2Proof.Machine

section Rules

variable {s : State}

@[simp] theorem opened_engine {q : Sender} {b : Body} (n : Nat) : (opened q b s).engine n = s.engine n := by
  rw [opened, takeSlotFor_frame, State.engine, State.engine]

theorem crnSetTrapEscalation_in_range {th : Half} (h0 : 2 ≤ th.toNat) (h1 : th.toNat ≤ 4800) :
    crnSetTrapEscalation th s = ({ s with crn := { s.crn with trapStallTh := th.toNat } }, Reply.ok []) :=
  if_neg (by omega)

/-- Pieces of one length, one after another. -/
theorem length_flatMap_of_length_eq {α β : Type} {f : α → List β} {k : Nat} (h : ∀ a, (f a).length = k) (l : List α) :
    (l.flatMap f).length = k * l.length := by
  induction l with
  | nil => rfl
  | cons a l ih => rw [List.flatMap_cons, List.length_append, h, ih, List.length_cons, Nat.mul_succ, Nat.add_comm]

theorem length_flatMap_le32_slice (st : Store Word) (a k : Nat) :
    ((Store.slice 0 st a k).flatMap le32).length = 4 * k := by
  rw [length_flatMap_of_length_eq (f := le32) (k := 4) (fun _ => rfl), Store.slice, List.length_map, List.length_range]

/-- The five shared registers, then two counters of each engine (R157). -/
theorem crnGetStatus_reads : ∃ r, crnGetStatus s = (s, r) ∧ r.status = .ok ∧ r.payload.length ≤ 1432 := by
  have hregs (a : Nat) : (le32 (crnRead s a)).length = 4 := rfl
  have hcounts (n : Nat) : (le32 (s.engine n).trapCnt ++ le32 (s.engine n).satCnt).length = 8 := rfl
  refine ⟨_, rfl, rfl, ?_⟩
  simp only [Reply.ok, List.length_append]
  rw [length_flatMap_of_length_eq hregs, length_flatMap_of_length_eq hcounts]
  decide

/-- A read of a local data memory in range (R157, R158). -/
theorem crnReadMem_data {engine mem : Byte} {addr count : Half} (he : engine.toNat ≤ 23) (hm : mem.toNat ≤ 2)
    (h0 : 1 ≤ count.toNat) (h1 : count.toNat ≤ 1000) (hfit : addr.toNat + count.toNat ≤ 16384) :
    crnReadMem engine mem addr count s = (s, Reply.ok
      ((Store.slice 0 ((s.engine engine.toNat).mem (mem.toNat + 1)) addr.toNat count.toNat).flatMap le32)) := by
  have hdata : mem.toNat < 3 := by omega
  simp only [crnReadMem, readLocal, hdata, Nat.ne_of_lt hdata, if_true, if_false]
  exact if_neg (by omega)

end Rules

/-- Settles O11: each row runs its command through the checks of R411, and with its operands in range the command has the
effect of its own rule. -/
theorem cairnCommandsComplete : Obligations.CairnCommandsComplete := by
  unfold Obligations.CairnCommandsComplete
  intro s q
  refine ⟨?escalation, ?status, ?readMem⟩
  case escalation => exact fun th h h0 h1 => runs_status_only rfl h (crnSetTrapEscalation_in_range h0 h1)
  case status => exact fun h => reads_of_accepts rfl h crnGetStatus_reads
  case readMem =>
    intro engine mem addr count h he hm h0 h1 hfit
    have hrun := crnReadMem_data (s := opened q (bodyCrnReadMem engine mem addr count) s) he hm h0 (by omega) hfit
    rw [opened_engine] at hrun
    exact runs_of_accepts rfl h hrun (le_of_eq_of_le (length_flatMap_le32_slice _ _ _) (by omega))

end Sys2Proof.Machine
end

section
/-! Stores (R145, R201, R204, R390, R414): a write of bytes reads back as before outside them, what FAR, a write through BAR2
and a record from the peer do to the memories, and the obligation that no other byte changes. -/

namespace Sys2Proof.Machine

section Bytes

variable {m : Mem} {a c : Nat} {bs : List Byte}

/-- Consecutive writes leave the entries outside their range alone. -/
theorem Store.look_putAll_outside {α : Type} [DecidableEq α] {d : α} {st : Store α} {vs : List α}
    (h : c < a ∨ a + vs.length ≤ c) : Store.look d (Store.putAll d st a vs) c = Store.look d st c := by
  induction vs generalizing st a with
  | nil => rfl
  | cons v vs ih =>
    rw [List.length_cons] at h
    rw [Store.putAll, ih (by omega), Store.look_put_other _ _ _ _ _ (by omega)]

theorem Memory.readBytes_writeBytes_outside {m : Memory} (h : c < a ∨ a + bs.length ≤ c) :
    Memory.readBytes (Memory.writeBytes m a bs) c 1 = Memory.readBytes m c 1 :=
  congrArg (fun b => [b]) (Store.look_putAll_outside h)

theorem Mem.readTarn_writeTarn_outside (h : c < a ∨ a + bs.length ≤ c) :
    (m.writeTarn a bs).readTarn c 1 = m.readTarn c 1 := Memory.readBytes_writeBytes_outside h

theorem Mem.readDram_writeDram_outside (h : c < a ∨ a + bs.length ≤ c) :
    (m.writeDram a bs).readDram c 1 = m.readDram c 1 := Memory.readBytes_writeBytes_outside h

theorem Mem.readDram_writeTarn : (m.writeTarn a bs).readDram c 1 = m.readDram c 1 := rfl

theorem Mem.readTarn_writeDram : (m.writeDram a bs).readTarn c 1 = m.readTarn c 1 := rfl

end Bytes

section Frames

variable {s t : State} {a c n : Nat}

theorem mem_of_kept {χ : List Part} (h : Kept false χ s t) (hc : Part.mem ∉ χ) : t.mem = s.mem :=
  (h.parts .mem).resolve_left hc

theorem sameTarn_of_mem_eq (h : t.mem = s.mem) : sameTarn c s t := by rw [sameTarn, h]

theorem sameDram_of_mem_eq (h : t.mem = s.mem) : sameDram c s t := by rw [sameDram, h]

/-- A row that acts out of reset leaves the state as it was or as its operation has it. -/
theorem eq_or_eq_of_next_whenUp {i : Instr} {u : State} (hrow : exec i s = .next (whenUp s u)) (h : exec i s = .next t) :
    t = s ∨ t = u := by
  rw [hrow] at h
  injection h with h
  rw [← h, whenUp]
  split
  · exact .inl rfl
  · exact .inr rfl

/-- `m'` is `m`, or, where `on` holds, `m` with `n` bytes written from `a` of Tarn. -/
def TarnStored (on : Bool) (a n : Nat) (m m' : Mem) : Prop :=
  m' = m ∨ on = true ∧ ∃ bs : List Byte, bs.length = n ∧ m' = m.writeTarn a bs

theorem TarnStored.sameTarn {on : Bool} (h : TarnStored on a n s.mem t.mem) (hc : on = false ∨ c < a ∨ a + n ≤ c) :
    sameTarn c s t := by
  obtain h | ⟨hon, bs, rfl, h⟩ := h
  · exact sameTarn_of_mem_eq h
  · rw [Machine.sameTarn, h, Mem.readTarn_writeTarn_outside (hc.resolve_left (by simp [hon]))]

theorem TarnStored.sameDram {on : Bool} (h : TarnStored on a n s.mem t.mem) : sameDram c s t := by
  obtain h | ⟨-, bs, -, h⟩ := h
  · exact sameDram_of_mem_eq h
  · rw [Machine.sameDram, h, Mem.readDram_writeTarn]

end Frames

section Far

variable {s : State} {n : Nat}

theorem trap_mem (c : Trap) : (trap n c s).mem = s.mem :=
  mem_of_kept (trap_kept (fun _ h => h) (Kept.refl _ _ s)) (by decide)

theorem finishFar_mem (inbound : Bool) : (finishFar n inbound s).mem = s.mem :=
  mem_of_kept (finishFar_kept (fun _ h => h) (Kept.refl _ _ s)) (by decide)

theorem checkPc_mem : (checkPc n s).mem = s.mem :=
  mem_of_kept (checkPc_kept (fun _ h => h) (Kept.refl _ _ s)) (by decide)

theorem colError_mem (master target kind : Nat) (write : Bool) (a : Nat) :
    (colError master target kind write a s).mem = s.mem := reportOwn_mem _ _

/-- A transfer that starts outbound writes its words, and every other outcome leaves memory as it was (R145). -/
theorem startFar_mem (out toY : Bool) (loc tarn words : Nat) :
    TarnStored out tarn (4 * words) s.mem (startFar n out toY loc tarn words s).mem := by
  rw [← finishFar_mem (s := s) (n := n) (!out)]
  unfold startFar
  dsimp only
  generalize finishFar n (!out) s = s1
  generalize (if toY = true then 2 else 1) = m
  split
  · exact .inl rfl
  split
  · exact .inl (trap_mem _)
  split
  · exact .inl ((trap_mem _).trans (colError_mem ..))
  split
  · exact .inl ((trap_mem _).trans (colError_mem ..))
  split
  · exact .inl (trap_mem _)
  cases out with
  | false => exact .inl rfl
  | true => exact .inr ⟨rfl, _, length_flatMap_le32_slice _ _ _, rfl⟩

theorem issue_far_mem (out toY : Bool) (p r : BitVec 3) (lines : Byte) :
    TarnStored out ((s.engine n).sreg r.toNat).toNat (16 * (lines.toNat + 1)) s.mem
      (issue n (.c (.far out toY p r lines)) s).mem := by
  unfold issue
  dsimp only
  split
  · exact .inl rfl
  split
  · exact .inl (trap_mem _)
  split
  · exact .inl (trap_mem _)
  split
  · exact .inl (trap_mem _)
  · have hbytes : 16 * (lines.toNat + 1) = 4 * (4 * (lines.toNat + 1)) := by omega
    rw [checkPc_mem, hbytes]
    exact startFar_mem ..

theorem issueRow_far_mem {e : Fin 24} (out toY : Bool) (p r : BitVec 3) (lines : Byte) :
    TarnStored out ((s.engine e.val).sreg r.toNat).toNat (16 * (lines.toNat + 1)) s.mem
      (issueRow e (.c (.far out toY p r lines)) s).mem := by
  rw [issueRow, whenUp]
  split
  · exact .inl rfl
  · exact issue_far_mem ..

end Far

section Bar2

variable {s t : State} {a c k : Nat} {bs : List Byte}

/-- `m'` is `m`, or `m` with `bs` written to the Col address `a` of target `k`, in Tarn or in DRAM (R199). -/
def ColStored (k a : Nat) (bs : List Byte) (m m' : Mem) : Prop :=
  m' = m ∨ (k < 16 ∧ m' = m.writeTarn a bs) ∨ (k = 16 ∧ m' = m.writeDram (a - dramBase) bs)

theorem ColStored.tarnStored (h : ColStored k a bs s.mem t.mem) (hk : k < 16) :
    TarnStored true a bs.length s.mem t.mem := by
  obtain h | ⟨-, h⟩ | ⟨hk', -⟩ := h
  · exact .inl h
  · exact .inr ⟨rfl, bs, rfl, h⟩
  · omega

theorem ColStored.sameDram (h : ColStored 16 a bs s.mem t.mem) (hc : c < a - dramBase ∨ a - dramBase + bs.length ≤ c) :
    sameDram c s t := by
  obtain h | ⟨hk, -⟩ | ⟨-, h⟩ := h
  · exact sameDram_of_mem_eq h
  · omega
  · rw [Machine.sameDram, h, Mem.readDram_writeDram_outside hc]

theorem ColStored.sameTarn (h : ColStored 16 a bs s.mem t.mem) : sameTarn c s t := by
  obtain h | ⟨hk, -⟩ | ⟨-, h⟩ := h
  · exact sameTarn_of_mem_eq h
  · omega
  · rw [Machine.sameTarn, h, Mem.readTarn_writeDram]

theorem dramBase_le_of_targetOf (h : targetOf s a = 16) : dramBase ≤ a := by
  unfold targetOf at h
  split at h
  · omega
  split at h
  · omega
  split at h
  · omega
  split at h
  · omega
  split at h
  next hdram => exact hdram.1
  · omega

theorem wakePorts_mem (master target : Nat) : (wakePorts master target s).mem = s.mem :=
  mem_of_kept (wakePorts_kept (fun _ h => h) (Kept.refl _ _ s)) (by decide)

theorem targetOf_wakePorts (master target : Nat) : targetOf (wakePorts master target s) a = targetOf s a := by
  unfold wakePorts
  split <;> rfl

theorem stagingWrite_mem (p offset : Nat) : (stagingWrite p offset bs s).mem = s.mem :=
  mem_of_kept (stagingWrite_kept (fun _ h => h) (Kept.refl _ _ s)) (by decide)

theorem tarnDbe_mem : (tarnDbe a s).mem = s.mem := reportOwn_mem _ _

theorem dramDbe_mem : (dramDbe a s).mem = s.mem := reportOwn_mem _ _

/-- A write over Col stores its bytes in the memory of its target, or no byte (R201, R204, R207). -/
theorem colWrite_mem (master : Nat) : ColStored (targetOf s a) a bs s.mem (colWrite master a bs s).1.mem := by
  rw [← wakePorts_mem (s := s) master (targetOf s a), ← targetOf_wakePorts (s := s) master (targetOf s a)]
  unfold colWrite
  dsimp only
  rw [targetOf_wakePorts]
  split
  · exact .inl (colError_mem ..)
  split
  next hk =>
    split
    · exact .inl ((colError_mem ..).trans tarnDbe_mem)
    · exact .inr (.inl ⟨hk, rfl⟩)
  split
  next hk =>
    split
    · exact .inl ((colError_mem ..).trans dramDbe_mem)
    · exact .inr (.inr ⟨hk, rfl⟩)
  split
  · exact .inl (stagingWrite_mem _ _)
  · exact .inl rfl

theorem bar2Access_write_mem (p : Fin 4) (n : Nat) (h : targetOf s a ≠ 17) :
    ColStored (targetOf s a) a bs s.mem (bar2Access p a n (some bs) s).mem := by
  unfold bar2Access bar2Write
  dsimp only
  rw [if_neg h]
  split
  · exact .inl rfl
  split
  · exact .inl (colError_mem ..)
  · exact colWrite_mem 11

theorem bar2Read_mem (p : Fin 4) (n : Nat) : (bar2Read p a n s).1.mem = s.mem :=
  mem_of_kept (bar2Read_kept (fun _ h => h) (Kept.refl _ _ s)) (by decide)

theorem bar2Access_read_mem (p : Fin 4) (n : Nat) : (bar2Access p a n none s).mem = s.mem := by
  unfold bar2Access
  split
  · rfl
  · exact bar2Read_mem p n

end Bar2

/-- A record from the peer lands in the inbox of its partition, or nowhere (R390). -/
theorem mirrorRec_mem {s : State} {m : MirrorRec} {r : Region} (hr : regionOf s .mirrorInbox m.part.val = some r) :
    TarnStored true (r.base + m.offset.toNat) m.bytes.length s.mem (mirrorRec m s).mem := by
  unfold mirrorRec
  dsimp only
  split
  · exact .inl rfl
  split
  next i o hi ho =>
    obtain rfl : i = r := Option.some.inj (hi.symm.trans hr)
    split
    · exact .inl rfl
    · exact .inr ⟨rfl, m.bytes, rfl, by split <;> rfl⟩
  · exact .inl rfl

/-- Settles O58: each row stores the bytes that it names or none, by the rule of its operation, and a store leaves every byte
outside it as it was. -/
theorem storesStayInside : Obligations.StoresStayInside := by
  unfold Obligations.StoresStayInside
  intro s t
  refine ⟨?far, ?write, ?read, ?mirror⟩
  case far =>
    intro e out toY p r lines a h
    have hstored : TarnStored out ((s.engine e.val).sreg r.toNat).toNat (16 * (lines.toNat + 1)) s.mem t.mem := by
      obtain rfl | rfl := eq_or_eq_of_next_whenUp rfl h
      · exact .inl rfl
      · exact issueRow_far_mem ..
    exact ⟨hstored.sameTarn, hstored.sameDram⟩
  case write =>
    intro p addr n bs a h
    have hstored (hk : targetOf s addr.toNat ≠ 17) : ColStored (targetOf s addr.toNat) addr.toNat bs s.mem t.mem := by
      obtain rfl | rfl := eq_or_eq_of_next_whenUp rfl h
      · exact .inl rfl
      · exact bar2Access_write_mem p _ hk
    refine ⟨fun hk => ?_, fun hk => ?_⟩
    · have htarn := (hstored (by omega)).tarnStored hk
      exact ⟨fun hc => htarn.sameTarn (.inr hc), htarn.sameDram⟩
    · have hbase := dramBase_le_of_targetOf hk
      have hdram := hstored (by omega)
      rw [hk] at hdram
      exact ⟨fun hc => hdram.sameDram (by omega), hdram.sameTarn⟩
  case read =>
    intro p addr n a h _
    have hmem : t.mem = s.mem := by
      obtain rfl | rfl := eq_or_eq_of_next_whenUp rfl h
      · rfl
      · exact bar2Access_read_mem p _
    exact ⟨sameTarn_of_mem_eq hmem, sameDram_of_mem_eq hmem⟩
  case mirror =>
    intro m r a h hr
    have hstored : TarnStored true (r.base + m.offset.toNat) m.bytes.length s.mem t.mem := by
      obtain rfl | rfl := eq_or_eq_of_next_whenUp rfl h
      · exact .inl rfl
      · exact mirrorRec_mem hr
    exact ⟨fun hc => hstored.sameTarn (.inr hc), hstored.sameDram⟩

end Sys2Proof.Machine
end

section
/-! Cairn's instruction words (R159 to R173): a word is laid out in slots, each of a width and a value, and a number holds a
layout just where it is the layout's value; so each slot of a word is spelled by one code, words and instructions spell each
other, and the obligation is assembled from the slots. -/

namespace Sys2Proof

/-! Layouts. -/

/-- The slots of a number, the most significant first: each a width in bits and a value. -/
abbrev Layout := List (Nat × Nat)

/-- The bits that the slots take together. -/
def Layout.width : Layout → Nat
  | [] => 0
  | (n, _) :: l => n + Layout.width l

/-- The number that the slots spell. -/
def Layout.value : Layout → Nat
  | [] => 0
  | (_, v) :: l => v * 2 ^ Layout.width l + Layout.value l

/-- Each value fits the width of its slot. -/
def Layout.Fits : Layout → Prop
  | [] => True
  | (n, v) :: l => v < 2 ^ n ∧ Layout.Fits l

/-- Each slot, read as a field of the number, has its value. -/
def Layout.Holds (x : Nat) : Layout → Prop
  | [] => True
  | (n, v) :: l => field x (Layout.width l) n = v ∧ Layout.Holds x l

/-! The equations of the two functions are proved by rewriting, so that `simp` takes them as steps of their own: the kernel
then compares no sum with another by unfolding the numerals in it. -/

theorem Layout.width_nil : Layout.width [] = 0 := by rw [Layout.width]

theorem Layout.width_cons (n v : Nat) (l : Layout) : Layout.width ((n, v) :: l) = n + l.width := by rw [Layout.width]

theorem Layout.value_nil : Layout.value [] = 0 := by rw [Layout.value]

theorem Layout.value_cons (n v : Nat) (l : Layout) : Layout.value ((n, v) :: l) = v * 2 ^ l.width + l.value := by
  rw [Layout.value]

theorem Layout.value_lt {l : Layout} (hf : l.Fits) : l.value < 2 ^ l.width := by
  induction l with
  | nil => exact Nat.one_pos
  | cons s l ih =>
    obtain ⟨hv, hl⟩ := hf
    rw [Layout.width, Layout.value, Nat.pow_add]
    calc s.2 * 2 ^ Layout.width l + Layout.value l
      _ < s.2 * 2 ^ Layout.width l + 2 ^ Layout.width l := Nat.add_lt_add_left (ih hl) _
      _ = (s.2 + 1) * 2 ^ Layout.width l := (Nat.succ_mul ..).symm
      _ ≤ 2 ^ s.1 * 2 ^ Layout.width l := Nat.mul_le_mul_right _ hv

/-- A number holds a layout just where its low bits are the layout's value. -/
theorem Layout.holds_iff {x : Nat} {l : Layout} (hf : l.Fits) : l.Holds x ↔ x % 2 ^ l.width = l.value := by
  induction l with
  | nil => simp [Layout.Holds, Layout.value, Layout.width, Nat.mod_one]
  | cons s l ih =>
    obtain ⟨-, hl⟩ := hf
    rw [Layout.Holds, ih hl, Layout.value, Layout.width, Nat.add_comm s.1, Nat.pow_add, Nat.mod_mul, ← field,
      Nat.mul_comm s.2, Nat.add_comm (_ * s.2)]
    constructor
    · rintro ⟨hv, hr⟩
      rw [hv, hr]
    · intro h
      have hr : x % 2 ^ Layout.width l = Layout.value l := by
        have hmod := congrArg (· % 2 ^ Layout.width l) h
        simp only [Nat.add_mul_mod_self_left, Nat.mod_mod] at hmod
        rwa [Nat.mod_eq_of_lt (Layout.value_lt hl)] at hmod
      rw [hr, Nat.add_left_cancel_iff] at h
      exact ⟨Nat.eq_of_mul_eq_mul_left (Nat.two_pow_pos _) h, hr⟩

theorem Layout.holds_value {l : Layout} (hf : l.Fits) : l.Holds l.value :=
  (Layout.holds_iff hf).mpr (Nat.mod_eq_of_lt (Layout.value_lt hf))

theorem Layout.value_eq_iff {x : Nat} {l : Layout} (hf : l.Fits) (hx : x < 2 ^ l.width) : l.value = x ↔ l.Holds x := by
  rw [Layout.holds_iff hf, Nat.mod_eq_of_lt hx, eq_comm]

/-! Values read from a field. -/

theorem field_lt (x lo n : Nat) : field x lo n < 2 ^ n := Nat.mod_lt _ (Nat.two_pow_pos n)

theorem ofNat_field_eq_iff {x lo n : Nat} {v : BitVec n} : BitVec.ofNat n (field x lo n) = v ↔ field x lo n = v.toNat := by
  rw [← BitVec.toNat_inj, BitVec.toNat_ofNat, Nat.mod_eq_of_lt (field_lt ..)]

theorem field_beq_one_eq_iff {x lo : Nat} {b : Bool} : (field x lo 1 == 1) = b ↔ field x lo 1 = b.toNat := by
  have hlt : field x lo 1 < 2 := field_lt x lo 1
  cases b
  · rw [beq_eq_false_iff_ne, Bool.toNat_false]
    omega
  · rw [beq_iff_eq, Bool.toNat_true]

theorem toNat_lt_two_pow_one (b : Bool) : b.toNat < 2 ^ 1 := b.toNat_lt

theorem toNat_beq_one (b : Bool) : (b.toNat == 1) = b := by cases b <;> rfl

/-- A flag placed at a bit is its slot's value. -/
theorem ite_eq_toNat_mul (b : Bool) (k : Nat) : (if b then k else 0) = b.toNat * k := by cases b <;> simp

/-- Where each value is read back from its code, a code that is read only when its value gives it back spells that value
alone. -/
theorem checked_eq_some_iff {α : Type} {read : Nat → α} {code : α → Nat} {x : Nat} {v : α}
    (h : ∀ v, read (code v) = v) : (if code (read x) = x then some (read x) else none) = some v ↔ code v = x := by
  rw [Option.ite_none_right_eq_some, Option.some.injEq]
  constructor
  · rintro ⟨hx, rfl⟩
    exact hx
  · rintro rfl
    exact ⟨congrArg code (h v), h v⟩

/-! Address-generator fields (R162). -/

/-- MEM, FORM, PTR and MOD, which is a modifier's bit and an immediate (R162). -/
def Ag.layout (g : Ag) : Layout :=
  [(2, g.mem.toNat), (1, g.form.toNat), (3, g.ptr.toNat)] ++ match g.mod with
    | .imm v => [(1, 0), (4, v.toNat)]
    | .m => [(1, 1), (4, 0)]

theorem Ag.layout_fits (g : Ag) : g.layout.Fits := by
  obtain ⟨mem, form, ptr, mod⟩ := g
  cases mod <;>
    simp +decide only [Ag.layout, List.cons_append, List.nil_append, Layout.Fits, BitVec.isLt, toNat_lt_two_pow_one]

theorem Ag.layout_width (g : Ag) : g.layout.width = 11 := by
  obtain ⟨mem, form, ptr, mod⟩ := g
  cases mod <;> rfl

theorem Ag.code_eq (g : Ag) : g.code = g.layout.value := by
  obtain ⟨mem, form, ptr, mod⟩ := g
  cases mod <;> simp only [Ag.code, Ag.layout, List.cons_append, List.nil_append, Layout.value_nil, Layout.value_cons,
    Layout.width_nil, Layout.width_cons, Nat.reduceAdd, Nat.reduceMul, Nat.reducePow, Nat.zero_mul, Nat.zero_add,
    Nat.add_zero, Nat.mul_one, Nat.add_assoc, ite_eq_toNat_mul]

theorem Ag.code_lt (g : Ag) : g.code < 2 ^ 11 := by
  rw [g.code_eq, ← g.layout_width]
  exact Layout.value_lt g.layout_fits

/-- A code of 11 bits reads as the one field that it spells, if that names an access or has FORM 0: the codes refused are
those of a reserved MOD and those of FORM 1 without an access. -/
theorem Ag.ofCode_eq_some_iff {x : Nat} {g : Ag} (hx : x < 2 ^ 11) : Ag.ofCode x = some g ↔ g.code = x ∧ g.ok = true := by
  rw [g.code_eq, Layout.value_eq_iff g.layout_fits (by rwa [g.layout_width])]
  obtain ⟨mem, form, ptr, mod⟩ := g
  have hmem : mem = 0#2 ↔ mem.toNat = 0 := BitVec.toNat_eq
  have hbit : field x 4 1 = 0 ∨ field x 4 1 = 1 := Nat.le_one_iff_eq_zero_or_eq_one.mp (Nat.lt_succ_iff.mp (field_lt x 4 1))
  simp only [Ag.ofCode, Option.ite_none_left_eq_some, Option.some.injEq, Ag.mk.injEq, ofNat_field_eq_iff, field_beq_one_eq_iff]
  cases form <;> cases mod <;> obtain hb | hb := hbit <;>
    simp [hb, Ag.ok, Ag.reads, Ag.layout, Layout.Holds, Layout.width_nil, Layout.width_cons, ofNat_field_eq_iff,
      hmem] <;> grind

/-! The MAC-class slot (R160, R167 to R170). -/

theorem MacOp.ofMop_fields (m : MacOp) : MacOp.ofMop m.fields = some m := by
  cases m <;> refine congrArg some ?_ <;> simp only [MacOp.fields, BitVec.ofNat_toNat, BitVec.setWidth_eq]

/-- Five fields read as an operation just where they are its own, so with zero in each that it does not use (R161). -/
theorem MacOp.ofFields_eq_some_iff {f : MacFields} {m : MacOp} : MacOp.ofFields f = some m ↔ m.fields = f := by
  unfold MacOp.ofFields
  constructor
  · intro h
    split at h
    · cases h
    next m' _ =>
      rw [Option.ite_none_right_eq_some, Option.some.injEq] at h
      obtain ⟨hf, rfl⟩ := h
      exact hf
  · rintro rfl
    simp [MacOp.ofMop_fields]

/-- MOP, ACC, VD, SA and SB (R160). -/
def MacFields.layout (f : MacFields) : Layout := [(5, f.mop), (2, f.acc), (3, f.vd), (4, f.sa), (4, f.sb)]

theorem MacOp.layout_fits (m : MacOp) : m.fields.layout.Fits := by
  cases m <;> simp +decide only [MacOp.fields, MacFields.layout, Layout.Fits, BitVec.isLt]

theorem MacOp.code_eq (m : MacOp) : m.code = m.fields.layout.value := by
  simp only [MacOp.code, MacFields.layout, Layout.value_nil, Layout.value_cons, Layout.width_nil, Layout.width_cons,
    Nat.reduceAdd, Nat.add_zero, Nat.pow_zero, Nat.mul_one, Nat.add_assoc]

theorem MacOp.code_lt (m : MacOp) : m.code < 2 ^ 18 := by
  rw [m.code_eq]
  exact Layout.value_lt m.layout_fits

theorem MacOp.ofCode_eq_some_iff {x : Nat} {m : MacOp} (hx : x < 2 ^ 18) : MacOp.ofCode x = some m ↔ m.code = x := by
  rw [m.code_eq, Layout.value_eq_iff m.layout_fits hx, MacOp.ofCode, MacOp.ofFields_eq_some_iff]
  obtain ⟨mop, acc, vd, sa, sb⟩ := m.fields
  simp [MacFields.layout, Layout.Holds, Layout.width_nil, Layout.width_cons, eq_comm]

/-! The short move (R171). -/

/-- SMOP and the operands at their places (R171). -/
def ShortMove.layout : ShortMove → Layout
  | .snop => [(3, 0), (8, 0)]
  | .ldv d => [(3, 1), (3, d.toNat), (5, 0)]
  | .st v j => [(3, 2), (3, v.toNat), (2, j.toNat), (3, 0)]
  | .cpy => [(3, 3), (8, 0)]
  | .movv d v => [(3, 4), (3, d.toNat), (3, v.toNat), (2, 0)]
  | .movsv d v j => [(3, 5), (3, d.toNat), (3, v.toNat), (2, j.toNat)]
  | .bcst d x => [(3, 6), (3, d.toNat), (3, x.toNat), (2, 0)]
  | .waitf d => [(3, 7), (6, 0), (2, d.toNat)]

theorem ShortMove.layout_fits (v : ShortMove) : v.layout.Fits := by
  cases v <;> simp +decide only [ShortMove.layout, Layout.Fits, BitVec.isLt]

theorem ShortMove.layout_width (v : ShortMove) : v.layout.width = 11 := by cases v <;> rfl

theorem ShortMove.code_eq (v : ShortMove) : v.code = v.layout.value := by
  cases v <;> simp only [ShortMove.code, ShortMove.layout, Layout.value_nil, Layout.value_cons, Layout.width_nil,
    Layout.width_cons, Nat.reduceAdd, Nat.reduceMul, Nat.reducePow, Nat.zero_mul, Nat.zero_add, Nat.add_zero, Nat.mul_one,
    Nat.add_assoc]

theorem ShortMove.code_lt (v : ShortMove) : v.code < 2 ^ 11 := by
  rw [v.code_eq, ← v.layout_width]
  exact Layout.value_lt v.layout_fits

theorem ShortMove.ofSmop_code (v : ShortMove) : ShortMove.ofSmop v.code = v := by
  rw [v.code_eq]
  have hread := Layout.holds_value v.layout_fits
  generalize v.layout.value = x at hread
  cases v <;> simp only [ShortMove.layout, Layout.Holds, Layout.width_nil, Layout.width_cons, Nat.reduceAdd] at hread <;>
    simp only [ShortMove.ofSmop, hread, BitVec.ofNat_toNat, BitVec.setWidth_eq]

theorem ShortMove.ofCode_eq_some_iff {x : Nat} {v : ShortMove} : ShortMove.ofCode x = some v ↔ v.code = x :=
  checked_eq_some_iff ShortMove.ofSmop_code

/-! The long move (R172). -/

/-- LOP and the operands at their places (R172). -/
def LongMove.layout : LongMove → Layout
  | .lnop => [(5, 0), (17, 0)]
  | .br k t => [(5, 1), (4, k.toNat), (2, 0), (11, t.toNat)]
  | .call d t => [(5, 2), (3, d.toNat), (3, 0), (11, t.toNat)]
  | .ret r => [(5, 3), (3, r.toNat), (14, 0)]
  | .addsi d r i => [(5, 4), (3, d.toNat), (3, r.toNat), (11, i.toNat)]
  | .alus d r t o => [(5, 5), (3, d.toNat), (3, r.toNat), (3, t.toNat), (5, 0), (3, o.toNat)]
  | .mova k n r w => [(5, 6), (2, k.toNat), (3, n.toNat), (3, r.toNat), (1, w.toNat), (8, 0)]
  | .movc d o => [(5, 7), (3, d.toNat), (10, 0), (4, o.toNat)]
  | .lds d => [(5, 8), (3, d.toNat), (14, 0)]
  | .sts r => [(5, 9), (3, r.toNat), (14, 0)]
  | .movvs d r j => [(5, 10), (3, d.toNat), (3, r.toNat), (9, 0), (2, j.toNat)]
  | .setdw b => [(5, 11), (11, 0), (6, b.toNat)]

theorem LongMove.layout_fits (v : LongMove) : v.layout.Fits := by
  cases v <;> simp +decide only [LongMove.layout, Layout.Fits, BitVec.isLt, toNat_lt_two_pow_one]

theorem LongMove.layout_width (v : LongMove) : v.layout.width = 22 := by cases v <;> rfl

theorem LongMove.code_eq (v : LongMove) : v.code = v.layout.value := by
  cases v <;> simp only [LongMove.code, LongMove.layout, Layout.value_nil, Layout.value_cons, Layout.width_nil,
    Layout.width_cons, Nat.reduceAdd, Nat.reduceMul, Nat.reducePow, Nat.zero_mul, Nat.zero_add, Nat.add_zero, Nat.mul_one,
    Nat.add_assoc, ite_eq_toNat_mul]

theorem LongMove.code_lt (v : LongMove) : v.code < 2 ^ 22 := by
  rw [v.code_eq, ← v.layout_width]
  exact Layout.value_lt v.layout_fits

theorem LongMove.ofLop_code (v : LongMove) : LongMove.ofLop v.code = v := by
  rw [v.code_eq]
  have hread := Layout.holds_value v.layout_fits
  generalize v.layout.value = x at hread
  cases v <;> simp only [LongMove.layout, Layout.Holds, Layout.width_nil, Layout.width_cons, Nat.reduceAdd] at hread <;>
    simp only [LongMove.ofLop, hread, BitVec.ofNat_toNat, BitVec.setWidth_eq, toNat_beq_one]

theorem LongMove.ofCode_eq_some_iff {x : Nat} {v : LongMove} : LongMove.ofCode x = some v ↔ v.code = x :=
  checked_eq_some_iff LongMove.ofLop_code

/-! The control operation (R173). -/

/-- COP and the operands at their places (R173). -/
def Control.layout : Control → Layout
  | .loop r n => [(6, 1), (3, r.toNat), (42, 0), (11, n.toNat)]
  | .loopi k n => [(6, 2), (28, 0), (16, k.toNat), (1, 0), (11, n.toNat)]
  | .seta k n v => [(6, 3), (2, k.toNat), (3, n.toNat), (35, 0), (16, v.toNat)]
  | .movi d i => [(6, 4), (3, d.toNat), (21, 0), (32, i.toNat)]
  | .far o y p r n => [(6, 5), (1, o.toNat), (1, y.toNat), (3, p.toNat), (3, r.toNat), (40, 0), (8, n.toNat)]
  | .seed r => [(6, 6), (3, r.toNat), (53, 0)]
  | .stop => [(6, 7), (56, 0)]

theorem Control.layout_fits (o : Control) : o.layout.Fits := by
  cases o <;> simp +decide only [Control.layout, Layout.Fits, BitVec.isLt, toNat_lt_two_pow_one]

theorem Control.layout_width (o : Control) : o.layout.width = 62 := by cases o <;> rfl

theorem Control.code_eq (o : Control) : o.code = o.layout.value := by
  cases o <;> simp only [Control.code, Control.layout, Layout.value_nil, Layout.value_cons, Layout.width_nil,
    Layout.width_cons, Nat.reduceAdd, Nat.zero_mul, Nat.zero_add, Nat.add_zero, Nat.pow_zero, Nat.mul_one, Nat.add_assoc,
    ite_eq_toNat_mul]

theorem Control.code_lt (o : Control) : o.code < 2 ^ 62 := by
  rw [o.code_eq, ← o.layout_width]
  exact Layout.value_lt o.layout_fits

theorem Control.ofCop_code (o : Control) : Control.ofCop o.code = o := by
  rw [o.code_eq]
  have hread := Layout.holds_value o.layout_fits
  generalize o.layout.value = x at hread
  cases o <;> simp only [Control.layout, Layout.Holds, Layout.width_nil, Layout.width_cons, Nat.reduceAdd] at hread <;>
    simp only [Control.ofCop, hread, BitVec.ofNat_toNat, BitVec.setWidth_eq, toNat_beq_one]

theorem Control.ofCode_eq_some_iff {x : Nat} {o : Control} : Control.ofCode x = some o ↔ o.code = x :=
  checked_eq_some_iff Control.ofCop_code

/-! The 64-bit word (R159 to R161). -/

/-- FMT and the slots of the format (R160). -/
def CWord.layout : CWord → Layout
  | .a m x y z v => [(2, 0), (18, m.code), (11, x.code), (11, y.code), (11, z.code), (11, v.code)]
  | .b m x y v => [(2, 1), (18, m.code), (11, x.code), (11, y.code), (22, v.code)]
  | .c o => [(2, 2), (62, o.code)]

theorem CWord.layout_fits (c : CWord) : c.layout.Fits := by
  cases c <;> simp +decide only [CWord.layout, Layout.Fits, MacOp.code_lt, Ag.code_lt, ShortMove.code_lt, LongMove.code_lt,
    Control.code_lt]

theorem CWord.layout_width (c : CWord) : c.layout.width = 64 := by cases c <;> rfl

theorem CWord.encode_eq (c : CWord) : c.encode = BitVec.ofNat 64 c.layout.value := by
  cases c <;> simp only [CWord.encode, CWord.layout, Layout.value_nil, Layout.value_cons, Layout.width_nil,
    Layout.width_cons, Nat.reduceAdd, Nat.zero_mul, Nat.zero_add, Nat.add_zero, Nat.pow_zero, Nat.mul_one, Nat.add_assoc]

theorem CWord.encode_eq_iff {w : Long} {c : CWord} : c.encode = w ↔ c.layout.Holds w.toNat := by
  have hlt : c.layout.value < 2 ^ 64 := c.layout_width ▸ Layout.value_lt c.layout_fits
  rw [c.encode_eq, ← BitVec.toNat_inj, BitVec.toNat_ofNat, Nat.mod_eq_of_lt hlt]
  exact Layout.value_eq_iff c.layout_fits (by rw [c.layout_width]; exact w.isLt)

/-- A word that reads as an instruction of format A has FMT 0, and its five slots read as those of the instruction. -/
theorem CWord.decode_eq_a_iff {w : Long} {m : MacOp} {x y z : Ag} {v : ShortMove} :
    CWord.decode w = some (.a m x y z v) ↔ field w.toNat 62 2 = 0 ∧ MacOp.ofCode (field w.toNat 44 18) = some m
      ∧ Ag.ofCode (field w.toNat 33 11) = some x ∧ Ag.ofCode (field w.toNat 22 11) = some y
      ∧ Ag.ofCode (field w.toNat 11 11) = some z ∧ ShortMove.ofCode (field w.toNat 0 11) = some v := by
  simp only [CWord.decode]
  split
  next hfmt => split <;> simp_all
  next hfmt => split <;> simp_all
  next hfmt => simp [hfmt]
  next hfmt _ _ => exact ⟨nofun, fun h => absurd h.left hfmt⟩

/-- A word that reads as an instruction of format B has FMT 1, and its four slots read as those of the instruction. -/
theorem CWord.decode_eq_b_iff {w : Long} {m : MacOp} {x y : Ag} {v : LongMove} :
    CWord.decode w = some (.b m x y v) ↔ field w.toNat 62 2 = 1 ∧ MacOp.ofCode (field w.toNat 44 18) = some m
      ∧ Ag.ofCode (field w.toNat 33 11) = some x ∧ Ag.ofCode (field w.toNat 22 11) = some y
      ∧ LongMove.ofCode (field w.toNat 0 22) = some v := by
  simp only [CWord.decode]
  split
  next hfmt => split <;> simp_all
  next hfmt => split <;> simp_all
  next hfmt => simp [hfmt]
  next _ hfmt _ => exact ⟨nofun, fun h => absurd h.left hfmt⟩

/-- A word that reads as an instruction of format C has FMT 2, and the rest of it reads as the operation. -/
theorem CWord.decode_eq_c_iff {w : Long} {o : Control} :
    CWord.decode w = some (.c o) ↔ field w.toNat 62 2 = 2 ∧ Control.ofCode (field w.toNat 0 62) = some o := by
  simp only [CWord.decode]
  split
  next hfmt => split <;> simp_all
  next hfmt => split <;> simp_all
  next hfmt => simp [hfmt]
  next _ _ hfmt => exact ⟨nofun, fun h => absurd h.left hfmt⟩

/-- A word reads as the one instruction that it spells, if each address-generator field that names no access has FORM 0. -/
theorem CWord.decode_eq_some_iff {w : Long} {c : CWord} :
    CWord.decode w = some c ↔ c.encode = w ∧ Machine.formsOk c = true := by
  rw [CWord.encode_eq_iff]
  cases c with
  | a m x y z v =>
    rw [CWord.decode_eq_a_iff, MacOp.ofCode_eq_some_iff (field_lt ..), Ag.ofCode_eq_some_iff (field_lt ..),
      Ag.ofCode_eq_some_iff (field_lt ..), Ag.ofCode_eq_some_iff (field_lt ..), ShortMove.ofCode_eq_some_iff]
    simp only [Machine.formsOk, Bool.and_eq_true]
    constructor
    · rintro ⟨hfmt, hm, ⟨hx, hxok⟩, ⟨hy, hyok⟩, ⟨hz, hzok⟩, hv⟩
      exact ⟨⟨hfmt, hm.symm, hx.symm, hy.symm, hz.symm, hv.symm, trivial⟩, ⟨hxok, hyok⟩, hzok⟩
    · rintro ⟨⟨hfmt, hm, hx, hy, hz, hv, -⟩, ⟨hxok, hyok⟩, hzok⟩
      exact ⟨hfmt, hm.symm, ⟨hx.symm, hxok⟩, ⟨hy.symm, hyok⟩, ⟨hz.symm, hzok⟩, hv.symm⟩
  | b m x y v =>
    rw [CWord.decode_eq_b_iff, MacOp.ofCode_eq_some_iff (field_lt ..), Ag.ofCode_eq_some_iff (field_lt ..),
      Ag.ofCode_eq_some_iff (field_lt ..), LongMove.ofCode_eq_some_iff]
    simp only [Machine.formsOk, Bool.and_eq_true]
    constructor
    · rintro ⟨hfmt, hm, ⟨hx, hxok⟩, ⟨hy, hyok⟩, hv⟩
      exact ⟨⟨hfmt, hm.symm, hx.symm, hy.symm, hv.symm, trivial⟩, hxok, hyok⟩
    · rintro ⟨⟨hfmt, hm, hx, hy, hv, -⟩, hxok, hyok⟩
      exact ⟨hfmt, hm.symm, ⟨hx.symm, hxok⟩, ⟨hy.symm, hyok⟩, hv.symm⟩
  | c o =>
    rw [CWord.decode_eq_c_iff, Control.ofCode_eq_some_iff]
    exact ⟨fun ⟨hfmt, ho⟩ => ⟨⟨hfmt, ho.symm, trivial⟩, rfl⟩, fun ⟨⟨hfmt, ho, _⟩, _⟩ => ⟨hfmt, ho.symm⟩⟩

/-- Settles O60: a word reads as an instruction just where it is that instruction's word, slot by slot. -/
theorem cairnWordsRoundTrip : Obligations.CairnWordsRoundTrip := by
  unfold Obligations.CairnWordsRoundTrip
  exact ⟨fun _ hc => CWord.decode_eq_some_iff.mpr ⟨rfl, hc⟩, fun _ _ => CWord.decode_eq_some_iff.mp⟩

end Sys2Proof
end

section
/-! Meridian's commands and events (R185 to R190, R198): what a command that takes its slot leaves of the matrix, each command
with operands in range, each event in the case in which it acts, and the obligation on them. -/

namespace Sys2Proof.Machine

section Opened

variable {s : State} {q : Sender} {b : Body}

@[simp] theorem opened_mtx : (opened q b s).mtx = s.mtx := by rw [opened, takeSlotFor_frame]

@[simp] theorem armedWave_opened (a : Word) : armedWave (opened q b s) a = armedWave s a := by
  simp only [armedWave, opened_mcnt, ahead_opened]

@[simp] theorem entryChange_opened (p : Nat) (bulk : Bool) (a : Word) (mode : MtxMode) (e : Long) :
    entryChange (opened q b s) p bulk a mode e = entryChange s p bulk a mode e := by
  simp only [entryChange, zcWaves, opened_fs, opened_mtx]

end Opened

section Commands

variable {s : State} {p : Nat} {a : Word} {mode : MtxMode}

/-- A change of a crosspoint on which no other waits or runs replaces none (R188). -/
theorem Mtx.accept_replaceCnt {m : Mtx} {c : Change} (h : m.chg c.key = false) :
    (m.accept c).replaceCnt = m.replaceCnt := if_neg (by simp [h])

/-- One entry, for a crosspoint on which no change waits or runs, within the partition's quota (R185, R187, R188). -/
theorem mtxSetGains_one_entry {c : MtxSetGains} {e : Long} (he : c.entries = [e]) (hr : c.reserved = 0)
    (hr2 : c.reserved2 = 0) (hm : mtxMode c.mode.toNat c.n.toNat = some mode) (ha : armedWave s c.a = some a)
    (hok : entryOk (meridianInputs s.pst.rate) e = true) (hchg : s.mtx.chg (entryKey e) = false)
    (hq : slotsAfter s.mtx p [entryChange s p false a mode e] ≤ s.mtx.quota p) :
    mtxSetGains p c s
      = ({ s with mtx := s.mtx.accept (entryChange s p false a mode e) }, Reply.ok (le32 a ++ leBytes 2 0)) := by
  have hcnt : (s.mtx.accept (entryChange s p false a mode e)).replaceCnt = s.mtx.replaceCnt := Mtx.accept_replaceCnt hchg
  simp [mtxSetGains, he, hr, hr2, hm, ha, hok, Nat.not_lt.2 hq, hcnt]

/-- With no arm in the partition, the check of this one begins (R190). -/
theorem mtxBulkArm_checks {udp : Bool} {c : MtxBulkArm} (hm : mtxMode c.mode.toNat c.n.toNat = some mode)
    (ha : armedWave s c.a = some a) (h0 : 1 ≤ c.count.toNat) (h1 : c.count.toNat ≤ 4096) (hr : c.reserved = 0)
    (hn : s.mtx.arm p = none) :
    mtxBulkArm p udp c s = ({ s with
      mtx := s.mtx.setArm p (some { a := a, mode := mode, count := c.count.toNat, checking := true, udp := udp }) },
      { status := .pending, payload := [] }) := by
  simp [mtxBulkArm, hm, ha, hr, hn, Nat.not_lt.2 h1, Nat.one_le_iff_ne_zero.1 h0]

/-- An armed update that is at least two waves away is cancelled: its entries that have not begun go with it (R190). -/
theorem mtxBulkCancel_armed {x : Arm} (hx : s.mtx.arm p = some x) (hc : x.checking = false) (ha : 2 ≤ ahead s x.a) :
    mtxBulkCancel p s = ({ s with
      mtx := ({ s.mtx with changes := s.mtx.changes.filter fun (c : Change) =>
        !(c.bulk && c.part == p && c.phase == .ahead) } : Mtx).setArm p none }, Reply.ok []) := by
  simp [mtxBulkCancel, hx, hc, Int.not_lt.2 ha]

theorem mtxSetColumn_in_range {col ms : Half} (hcol : col.toNat < 512) (hms : ms.toNat ≤ 1000) :
    mtxSetColumn col ms s
      = ({ s with mtx := { s.mtx with zcTimeout := Store.put 10 s.mtx.zcTimeout col.toNat ms.toNat } }, Reply.ok []) :=
  if_neg (by omega)

theorem mtxGetGains_in_range {col first count : Half} (hcol : col.toNat < 512) (h0 : 1 ≤ count.toNat)
    (h1 : count.toNat ≤ 960) (hfit : first.toNat + count.toNat ≤ meridianInputs s.pst.rate) :
    mtxGetGains col first count s = (s, Reply.ok ((List.range count.toNat).flatMap fun i =>
      le32 (s.mtx.word (2048 * col.toNat + first.toNat + i)))) :=
  if_neg (by omega)

/-- Six words (R198). -/
theorem mtxGetStatus_reads : ∃ r, mtxGetStatus p s = (s, r) ∧ r.status = .ok ∧ r.payload.length ≤ 1432 :=
  ⟨_, rfl, rfl, by simp [Reply.ok, le32]⟩

/-- Quotas within the 8192 slots, none below what its partition holds (R187). -/
theorem mtxSetQuota_in_range {q0 q1 q2 q3 : Half} (hsum : q0.toNat + q1.toNat + q2.toNat + q3.toNat ≤ 8192)
    (hheld : ∀ n, n < 4 → s.mtx.slotsOf n ≤ [q0.toNat, q1.toNat, q2.toNat, q3.toNat].getD n 0) :
    mtxSetQuota [q0, q1, q2, q3] s
      = ({ s with mtx := { s.mtx with quotas := [q0.toNat, q1.toNat, q2.toNat, q3.toNat] } }, Reply.ok []) := by
  have hnone : ((List.range 4).any fun n =>
      decide ([q0.toNat, q1.toNat, q2.toNat, q3.toNat].getD n 0 < s.mtx.slotsOf n)) = false :=
    List.any_eq_false.2 fun n hn => by simpa using hheld n (List.mem_range.1 hn)
  have hfits : ¬([q0.toNat, q1.toNat, q2.toNat, q3.toNat].length ≠ 4
      ∨ 8192 < [q0.toNat, q1.toNat, q2.toNat, q3.toNat].sum) := by simp [← Nat.add_assoc, hsum]
  exact (if_neg hfits).trans (if_neg (Bool.eq_false_iff.1 hnone))

end Commands

section Events

variable {s : State} {p : Nat}

/-- The check of an arm finds every entry sound and the slots free: the entries are accepted in window order, and the arm is
armed (R188, R190). -/
theorem bulkCheckDone_passes {x : Arm} (hx : s.mtx.arm p = some x) (hc : x.checking = true)
    (hf : firstFailing s p x.count = none)
    (hq : slotsAfter s.mtx p ((List.range x.count).map fun i =>
      entryChange s p true x.a x.mode (stagedEntry s.mtx p i)) ≤ s.mtx.quota p) :
    bulkCheckDone p s = giveResult p x.udp .bulkArm (Reply.ok (le32 x.a)) { s with
      mtx := (((List.range x.count).map fun i =>
        entryChange s p true x.a x.mode (stagedEntry s.mtx p i)).foldl Mtx.accept s.mtx).setArm p
          (some { x with checking := false }) } := by
  simp only [bulkCheckDone, bulkCheck, hx, hc, hf, Nat.not_lt.2 hq, Bool.not_true, Bool.false_eq_true, if_false]

/-- The one change there is has timed out: it ramps over 32 waves from wave a + T, from the gain in effect (R186). -/
theorem zcExpire_expired {col input : Nat} {c : Change} (hch : s.mtx.changes = [c]) (hkey : c.key = 2048 * col + input)
    (hrun : s.wave.running = none) (hexp : c.expired s.mtx = true) :
    zcExpire col input s = { s with mtx := { s.mtx with
      zcCnt := s.mtx.zcCnt + 1
      changes := [{ c with
        phase := .ramping (c.a + BitVec.ofNat 32 c.timeout) 32 (s.mtx.inEffect c.key) }] } } := by
  simp [zcExpire, hch, ← hkey, hrun, hexp]

/-- No arm locks the window, and all the bytes lie in it (R189). -/
theorem stagingWrite_unarmed {offset : Nat} {bs : List Byte} (hn : s.mtx.arm p = none)
    (hfit : offset + bs.length ≤ 0x8000) :
    stagingWrite p offset bs s = { s with mtx := { s.mtx with
      staging := Store.putAll 0 s.mtx.staging (0x8000 * p + offset) bs } } := by
  have hkept : bs.take (0x8000 - min 0x8000 offset) = bs := List.take_of_length_le (by omega)
  simp only [stagingWrite, hn, hkept, Bool.false_eq_true, if_false]

end Events

/-- Settles O13: each command row runs its command through the checks of R411 and each event row is its operation on the
matrix, and the operation's rule for the case gives the next state. That the check of an arm judges the staging window as it
stands when the check ends is the model's choice (log 72). -/
theorem matrixRowsComplete : Obligations.MatrixRowsComplete := by
  unfold Obligations.MatrixRowsComplete
  intro s q
  refine ⟨?setGains, ?bulkArm, ?checkDone, ?bulkCancel, ?setColumn, ?getGains, ?status, ?setQuota, ?zcTimeout, ?staging⟩
  case setGains =>
    exact fun c a mode e h he hr hr2 hm ha hok hchg hq => runs_of_accepts rfl h
      (mtxSetGains_one_entry he hr hr2 hm (by simpa using ha) (by simpa using hok) (by simpa using hchg)
        (by simpa using hq)) (by simp [Reply.ok, le32])
  case bulkArm =>
    exact fun c a mode h hm ha h0 h1 hr hn => runs_of_accepts rfl h
      (mtxBulkArm_checks hm (by simpa using ha) h0 h1 hr (by simpa using hn)) (Nat.zero_le _)
  case checkDone => exact fun p x hheld hx hc hf hq => next_whenUp_of_eq hheld (bulkCheckDone_passes hx hc hf hq)
  case bulkCancel =>
    exact fun x h hx hc ha => runs_status_only rfl h
      (mtxBulkCancel_armed (by simpa using hx) hc (by simpa using ha))
  case setColumn => exact fun col ms h hcol hms => runs_status_only rfl h (mtxSetColumn_in_range hcol hms)
  case getGains =>
    intro col first count h hcol h0 h1 hfit
    have hrun := mtxGetGains_in_range (s := opened q (bodyMtxGetGains col first count) s) hcol h0 (by omega)
      (by simpa using hfit)
    rw [opened_mtx] at hrun
    have hlen := length_flatMap_of_length_eq (f := fun i => le32 (s.mtx.word (2048 * col.toNat + first.toNat + i)))
      (fun _ => leBytes_length 4 _) (List.range count.toNat)
    exact runs_of_accepts rfl h hrun (le_of_eq_of_le hlen (by rw [List.length_range]; omega))
  case status => exact fun h => reads_of_accepts rfl h mtxGetStatus_reads
  case setQuota =>
    exact fun a b c d h hsum hheld => runs_status_only rfl h (mtxSetQuota_in_range hsum (by simpa using hheld))
  case zcTimeout =>
    exact fun col input c hheld hch hkey hrun hexp => next_whenUp_of_eq hheld (zcExpire_expired hch hkey hrun hexp)
  case staging => exact fun p offset bytes hheld hn hfit => next_whenUp_of_eq hheld (stagingWrite_unarmed hn hfit)

end Sys2Proof.Machine
end

section
/-! Tarn, Col and the DMA engine (R199 to R230, R414): a Col access that nothing stands against, the scrub and the port gate,
a channel's control register, each event of the engine in the case in which it acts, the memory commands, and the
obligations on them. -/

namespace Sys2Proof.Machine

section Access

variable {s : State} {m : Mem} {master a n : Nat} {bs : List Byte}

/-- Nothing stands against an access at `a`: the address is Tarn's, no port is gated, no target is fenced and no word holds a
double-bit error (R201, R206, R207, R210, R211). -/
structure TarnOpen (s : State) (a : Nat) : Prop where
  inTarn : targetOf s a < 16
  masters : s.col.gatedMasters = 0
  targets : s.col.gatedTargets = 0
  fenced : s.col.fenced = 0
  sound : s.mem.tarnBad = []

theorem wakePorts_of_ungated {target : Nat} (hm : s.col.gatedMasters = 0) (ht : s.col.gatedTargets = 0) :
    wakePorts master target s = s := by simp [wakePorts, hm, ht]

/-- Every master of Col has a path to Tarn, for reads and writes (R206). -/
theorem pathOk_tarn {target : Nat} (ht : target < 16) (hm : master ≤ 12) (write : Bool) :
    pathOk master target a write = true := by
  rw [pathOk, if_pos ht]
  exact decide_eq_true hm

theorem TarnOpen.colDeny_eq_none (h : TarnOpen s a) (hm : master ≤ 12) (write : Bool) :
    colDeny s master a write = none := by
  have hlt := h.inTarn
  have hdef : targetOf s a ≠ 31 := by omega
  simp [colDeny, hdef, pathOk_tarn hlt hm, h.fenced]

theorem firstBadTarn_of_sound (h : m.tarnBad = []) : firstBadTarn m a n = none := by simp [firstBadTarn, h]

theorem partialBad_of_sound (h : m.tarnBad = []) : partialBad m a n = none := by simp [partialBad, h]

/-- A read of Tarn that nothing stands against answers its bytes and changes nothing. -/
theorem TarnOpen.colRead_eq (h : TarnOpen s a) (hm : master ≤ 12) (n : Nat) :
    colRead master a n s = (s, some (s.mem.readTarn a n)) := by
  simp only [colRead, wakePorts_of_ungated h.masters h.targets, h.colDeny_eq_none hm, h.inTarn, if_true,
    firstBadTarn_of_sound h.sound]

/-- A write to Tarn that nothing stands against stores its bytes and changes nothing else. -/
theorem TarnOpen.colWrite_eq (h : TarnOpen s a) (hm : master ≤ 12) (bs : List Byte) :
    colWrite master a bs s = ({ s with mem := s.mem.writeTarn a bs }, true) := by
  simp only [colWrite, wakePorts_of_ungated h.masters h.targets, h.colDeny_eq_none hm, h.inTarn, if_true,
    partialBad_of_sound h.sound]

theorem bar2Denied_of_region {p : Nat} (h : inHostRegion s p a n = true) : bar2Denied p a n s = false := by
  simp [bar2Denied, h]

theorem bar2Access_write_tarn {p : Fin 4} (hp : present s (.pf p) = true)
    (hr : inHostRegion s p.val a bs.length = true) (h : TarnOpen s a) (n : Nat) :
    bar2Access p a n (some bs) s = { s with mem := s.mem.writeTarn a bs } := by
  have hreg : targetOf s a ≠ 17 := by have := h.inTarn; omega
  simp [bar2Access, bar2Write, hp, hreg, bar2Denied_of_region hr, h.colWrite_eq]

theorem bar2Access_read_tarn {p : Fin 4} (hp : present s (.pf p) = true) (hr : inHostRegion s p.val a n = true)
    (h : TarnOpen s a) :
    bar2Access p a n none s = onShadow (.pf p) (fun x => { x with
      rdata := busWords (((s.mem.readTarn a n).length + 3) / 4) (s.mem.readTarn a n) }) s := by
  have hreg : targetOf s a ≠ 17 := by have := h.inTarn; omega
  simp [bar2Access, bar2Read, hp, hreg, bar2Denied_of_region hr, h.colRead_eq]

end Access

section Events

variable {s : State}

/-! The patrol scrub, where no word is known to hold a double-bit error (R202). -/

theorem scrubWord_single {w : Nat} (h : s.mem.tarnBad = []) :
    scrubWord w .single s = reportOwn 0x060 { s with col := { s.col with corrCnt := s.col.corrCnt + 1 } } := by
  simp [scrubWord, h]

theorem scrubWord_none {w : Nat} (h : s.mem.tarnBad = []) : scrubWord w .none s = s := by simp [scrubWord, h]

/-! With no wave running, no port is held awake (R211). -/

theorem gatePort_target {id : Nat} (h : s.wave.running = none) :
    gatePort true id s = { s with col := { s.col with gatedTargets := setBit s.col.gatedTargets id true } } := by
  simp [gatePort, h]

theorem gatePort_master {id : Nat} (h : s.wave.running = none) :
    gatePort false id s = { s with col := { s.col with gatedMasters := setBit s.col.gatedMasters id true } } := by
  simp [gatePort, h]

/-- A path timeout records the error response and fences the target; then the fault is reported and the master meets the
response (R207, R210). -/
theorem colTimeout_records (master target a : Nat) (write : Bool) (s : State) :
    ∃ u, colTimeout master target a write s
        = masterError master target a write (reportFault (if target < 16 ∨ target = 19 then 0x064 else 0x065)
            (BitVec.ofNat 16 target) u)
      ∧ u.col.timeoutCnt = s.col.timeoutCnt + 1 ∧ u.col.fenced = setBit s.col.fenced target true
      ∧ u.col.errTarget = target ∧ u.col.errMaster = master ∧ u.col.errKind = 3 ∧ u.col.errCnt = s.col.errCnt + 1 := by
  refine ⟨_, rfl, ?_⟩
  simp [colError]

end Events

/-- Settles O14: out of reset each row is its operation on Tarn or Col, and the operation's rule for the case gives the next
state. -/
theorem memoryRowsComplete : Obligations.MemoryRowsComplete := by
  unfold Obligations.MemoryRowsComplete
  intro s hheld
  refine ⟨?double, ?single, ?clean, ?gateTarget, ?gateMaster, ?timeout, ?write, ?read⟩
  case double => exact fun word => next_whenUp_of_eq hheld rfl
  case single => exact fun word h => next_whenUp_of_eq hheld (scrubWord_single h)
  case clean => exact fun word h => next_whenUp_of_eq hheld (scrubWord_none h)
  case gateTarget => exact fun port h => next_whenUp_of_eq hheld (gatePort_target h)
  case gateMaster => exact fun port h => next_whenUp_of_eq hheld (gatePort_master h)
  case timeout =>
    intro m t addr write
    obtain ⟨u, hu, hrecorded⟩ := colTimeout_records m.val t.val addr.toNat write s
    exact ⟨u, next_whenUp_of_eq hheld hu, hrecorded⟩
  case write =>
    exact fun p addr n bs hp ht hr hgm hgt hf hb =>
      next_whenUp_of_eq hheld (bar2Access_write_tarn hp hr ⟨ht, hgm, hgt, hf, hb⟩ _)
  case read =>
    exact fun p addr n hp ht hr hgm hgt hf hb =>
      next_whenUp_of_eq hheld (bar2Access_read_tarn hp hr ⟨ht, hgm, hgt, hf, hb⟩)

section Control

variable {s : State} {q : Requester} {a n : Nat} {w ctrl k : Word}

theorem regStore_dmaBlock (h0 : 0x0800 ≤ a) (h1 : a < 0x1000) : regStore q a w s = dmaWrite a w s := by
  unfold regStore
  rw [if_neg (by omega), if_neg (by omega), if_pos h1]

theorem dmaWrite_ctrl (ho : (a - 0x0800) % 0x40 = 0) (hn : (a - 0x0800) / 0x40 = n) :
    dmaWrite a w s = dmaCtrlWrite n w s := by
  unfold dmaWrite dmaChWrite
  rw [ho, hn]
  rfl

/-- An accepted write of a channel's control register (R212, R227). -/
theorem write_dmaCtrl (hn : n < 32) (h : MayWrite s q (0x0800 + 0x40 * n)) :
    whenUp s (busWrite q (0x0800 + 0x40 * n) w true s) = dmaCtrlWrite n w s := by
  rw [write_runs_regStore h (isReg_of_lt_5000 (by omega) (by omega)) (decide_eq_false (by omega)) (by omega),
    regStore_dmaBlock (by omega) (by omega), dmaWrite_ctrl (n := n) (by omega) (by omega)]

/-- RUN and STOP lie outside the fields that the register stores. -/
theorem ctrlFields_or (hk : k &&& 0x0FFC#32 = 0#32) : ((ctrl &&& 0x0FFC#32) ||| k) &&& 0x0FFC#32 = ctrl &&& 0x0FFC#32 := by
  rw [BitVec.and_or_distrib_right, hk, BitVec.and_assoc, BitVec.and_self, BitVec.or_zero]

theorem dmaCtrlWrite_run : dmaCtrlWrite n ((ctrl &&& 0x0FFC#32) ||| 1) s
    = dmaRun n (s.setDmaCh n { s.dmaCh n with ctrl := ctrl &&& 0x0FFC#32 }) := by
  simp [dmaCtrlWrite, ctrlFields_or]

theorem dmaCtrlWrite_stop : dmaCtrlWrite n ((ctrl &&& 0x0FFC#32) ||| 2) s
    = dmaStop n (s.setDmaCh n { s.dmaCh n with ctrl := ctrl &&& 0x0FFC#32 }) := by
  simp [dmaCtrlWrite, ctrlFields_or]

theorem dmaRun_idle (h : (s.dmaCh n).running = false) : dmaRun n s = s.setDmaCh n ((s.dmaCh n).start n) := by
  simp [dmaRun, h]

/-- A channel started from its registers has no descriptor to write back (R225). -/
theorem dmaStop_unlinked (hr : (s.dmaCh n).running = true) (hl : (s.dmaCh n).linked = false) :
    dmaStop n s = s.setDmaCh n ((s.dmaCh n).halt 2) := by simp [dmaStop, hr, hl]

end Control

section Transfers

variable {s u : State} {n : Nat} {c : DmaCh}

theorem dmaFetch_tarn (hc : c = s.dmaCh n) (hs : s.dma.stopped = false) (hp : c.phase = .fetch)
    (hr : dmaRangeOk s n c.cur.toNat 32 false = true) (h : TarnOpen s c.cur.toNat) :
    dmaFetch n s = takeDesc n (s.mem.readTarn c.cur.toNat 32) s := by
  subst hc
  have htarn : ¬16 < targetOf s (s.dmaCh n).cur.toNat := by have := h.inTarn; omega
  simp [dmaFetch, hs, hp, hr, htarn, h.colRead_eq]

/-- A burst of `len` bytes at offset `done` whose pieces all move (R217, R218). -/
theorem dmaBurst_moves {done len : Nat} (hc : c = s.dmaCh n) (hready : burstReady s n = true) (hbad : c.badCode = none)
    (hdone : c.mCount - c.remain.toNat = done) (hlen : min c.burstBytes c.remain.toNat = len)
    (hsrc : dmaRangeOk s n (c.mSrc + done) len false = true) (hdst : dmaRangeOk s n (c.mDst + done) len true = true)
    (hmove : movePieces 4 (c.mSrc + done) (c.mDst + done) len (takeRequest c s) = (u, none)) :
    dmaBurst n s = u.setDmaCh n { c with
      remain := c.remain - BitVec.ofNat 32 len
      phase := if c.remain - BitVec.ofNat 32 len = 0 then .complete else .move } := by
  subst hc
  simp [dmaBurst, hready, hbad, hdone, hlen, hsrc, hdst, hmove]

/-- With no channel configured, none has a burst that waits for the line (R218). -/
theorem dmaWithdraw_no_channels {line : Nat} (hline : s.dma.lines.getLsbD line = true) (hch : s.dma.ch = []) :
    dmaWithdraw line s = { s with dma := { s.dma with lines := setBit s.dma.lines line false } } := by
  simp [dmaWithdraw, hline, hch, Store.mapAll]

theorem dmaTimer_timed (hc : c = s.dmaCh n) (h : c.evtKind = 0) : dmaTimer n s = s.setDmaCh n c.event := by
  subst hc
  exact if_pos h

theorem dmaMatch_reached (hc : c = s.dmaCh n) (hr : c.running = true) (hk : c.evtKind = 1) (ht : c.tArmed = true)
    (hm : 0 ≤ serialDiff s.mcnt c.t) :
    dmaMatch n s = s.setDmaCh n { c.event with t := c.t + BitVec.ofNat 32 c.period, tArmed := decide (c.period ≠ 0) } := by
  subst hc
  simp [dmaMatch, hr, hk, ht, hm]

/-- A transfer of COUNT 0 reads nothing back and has no descriptor: the channel stops, and the end is signalled (R213, R221). -/
theorem dmaComplete_empty (hc : c = s.dmaCh n) (hs : s.dma.stopped = false) (hp : c.phase = .complete)
    (hn : c.mCount = 0) (hl : c.linked = false) : dmaComplete n s = signalDone n (s.setDmaCh n (c.halt 1)) := by
  subst hc
  simp [dmaComplete, hs, hp, hn, hl]

end Transfers

/-- Settles O15: a start and a stop are writes of the control register, so the window's checks decide first; out of reset every
other row is its operation on the engine, and the operation's rule for the case gives the next state. -/
theorem dmaRowsComplete : Obligations.DmaRowsComplete := by
  unfold Obligations.DmaRowsComplete
  intro s q ch c hc hheld
  refine ⟨?run, ?stop, ?fetch, ?burst, ?request, ?withdrawal, ?timer, ?mcnt, ?completion, ?error⟩
  case run =>
    intro ctrl h hr
    subst hc
    refine congrArg Host.Outcome.next ((write_dmaCtrl ch.isLt h).trans ?_)
    rw [dmaCtrlWrite_run, dmaRun_idle (by simpa using hr), State.dmaCh_setDmaCh]
  case stop =>
    intro ctrl h hr hl
    subst hc
    refine congrArg Host.Outcome.next ((write_dmaCtrl ch.isLt h).trans ?_)
    rw [dmaCtrlWrite_stop, dmaStop_unlinked (by simpa using hr) (by simpa using hl), State.dmaCh_setDmaCh]
  case fetch =>
    exact fun hs hp hr ht hb hf hgm hgt =>
      next_whenUp_of_eq hheld (dmaFetch_tarn hc hs hp hr ⟨ht, hgm, hgt, hf, hb⟩)
  case burst =>
    exact fun u hready hbad hsrc hdst hmove =>
      next_whenUp_of_eq hheld (dmaBurst_moves hc hready hbad rfl rfl hsrc hdst hmove)
  case request => exact fun line => next_whenUp_of_eq hheld rfl
  case withdrawal => exact fun line hline hch => next_whenUp_of_eq hheld (dmaWithdraw_no_channels hline hch)
  case timer => exact fun h => next_whenUp_of_eq hheld (dmaTimer_timed hc h)
  case mcnt => exact fun hr hk ht hm => next_whenUp_of_eq hheld (dmaMatch_reached hc hr hk ht hm)
  case completion => exact fun hs hp hn hl => next_whenUp_of_eq hheld (dmaComplete_empty hc hs hp hn hl)
  case error => exact fun addr write => next_whenUp_of_eq hheld rfl

section Commands

variable {s : State}

@[simp] theorem opened_dma {q : Sender} {b : Body} : (opened q b s).dma = s.dma := by rw [opened, takeSlotFor_frame]

/-- With no channel configured, none had stopped with BUS_ERR (R223). -/
theorem dmaResume_no_channels (hs : s.dma.stopped = true) (hch : s.dma.ch = []) :
    dmaResume s = ({ s with dma := { s.dma with stopped := false } }, Reply.ok (leBytes 4 0)) := by
  simp [dmaResume, hs, hch, Store.mapAll]

theorem memSetScrub_in_range {period timeout : Half} (hp0 : 1 ≤ period.toNat) (hp1 : period.toNat ≤ 600)
    (ht0 : 2 ≤ timeout.toNat) (ht1 : timeout.toNat ≤ 1000) :
    memSetScrub period timeout s
      = ({ s with col := { s.col with scrubPeriod := period.toNat, pathTimeout := timeout.toNat } }, Reply.ok []) :=
  if_neg (by omega)

/-- Ten words, and a byte for each of the partition's channels, of which there are at most 32 (R230). -/
theorem memGetStatus_reads {p : Nat} :
    ∃ r, memGetStatus p s = (s, r) ∧ r.status = .ok ∧ r.payload.length ≤ 1432 := by
  refine ⟨_, rfl, rfl, ?_⟩
  have hmine := List.length_filter_le (fun n => ownerOf s (.dmaCh n) == p) (List.range 32)
  rw [List.length_range] at hmine
  simp only [Reply.ok, le32, List.length_append, List.length_map, leBytes_length]
  omega

end Commands

/-- Settles O16: each row runs its command through the checks of R411, and with its operands in range the command has the
effect of its own rule. -/
theorem memoryCommandsComplete : Obligations.MemoryCommandsComplete := by
  unfold Obligations.MemoryCommandsComplete
  intro s q
  refine ⟨?resume, ?setScrub, ?status⟩
  case resume =>
    exact fun h hs hch => runs_of_accepts rfl h (dmaResume_no_channels (by simpa using hs) (by simpa using hch)) (by decide)
  case setScrub =>
    exact fun period timeout h hp0 hp1 ht0 ht1 => runs_status_only rfl h (memSetScrub_in_range hp0 hp1 ht0 ht1)
  case status => exact fun h => reads_of_accepts rfl h memGetStatus_reads

end Sys2Proof.Machine
end

section
/-! The TDM commands (R232 to R236, R241, R246 to R249, R258): what a command that takes its slot leaves of the ports, what
each one does where it is accepted, and the obligation on them. -/

namespace Sys2Proof.Machine

section Opened

variable {s : State} {q : Sender} {b : Body}

@[simp] theorem opened_tdm : (opened q b s).tdm = s.tdm := by rw [opened, takeSlotFor_frame]

@[simp] theorem opened_port (n : Nat) : (opened q b s).port n = s.port n := by simp only [State.port, opened_tdm]

@[simp] theorem opened_group (g : Nat) : (opened q b s).group g = s.group g := by simp only [State.group, opened_tdm]

@[simp] theorem portRate_opened (n : Nat) : portRate (opened q b s) n = portRate s n := by
  simp only [portRate, opened_group, opened_pst]

@[simp] theorem masksDue_opened : masksDue (opened q b s) = masksDue s := by
  funext n
  simp only [masksDue, opened_port]

@[simp] theorem portParamsOk_opened (c : TdmSetPort) : portParamsOk (opened q b s) c = portParamsOk s c := by
  simp only [portParamsOk, portRate_opened]

@[simp] theorem inOwnRegion_opened (part a n : Nat) : inOwnRegion (opened q b s) part a n = inOwnRegion s part a n := by
  simp only [inOwnRegion, opened_own]

@[simp] theorem startOk_opened (n : Nat) : startOk (opened q b s) n = startOk s n := by
  simp only [startOk, opened_port, opened_group, portRate_opened, opened_pst]

end Opened

section Rules

variable {s : State}

/-- A group made synchronous, its ports at rest: the rate needs no ratio to the media rate (R232, R251). -/
theorem tdmSetGroup_synchronous {c : TdmSetGroup} (hg : c.group.toNat ≤ 7) (hf : c.foreign = 0) (hr : c.rate.toNat ≤ 4)
    (hstopped : ∀ n, n ∈ portsOf c.group.toNat → (s.port n).state = .stopped)
    (hfits : asrcFits (fun h => if h = c.group.toNat then false else (s.group h).foreign) (masksDue s) = true) :
    tdmSetGroup c s = (s.setGroup c.group.toNat { s.group c.group.toNat with
      foreign := false, frate := c.rate.toNat, asrcLock := false, fadeLeft := 0 }, Reply.ok []) := by
  have hidle : ((portsOf c.group.toNat).any fun n => (s.port n).state != .stopped) = false :=
    List.any_eq_false.2 fun n hn => by simp [hstopped n hn]
  simp [tdmSetGroup, hf, Nat.not_lt.2 hg, Nat.not_lt.2 hr, hidle, hfits, -Bool.if_false_left]

theorem tdmSetPort_stopped {c : TdmSetPort} (hok : portParamsOk s c = true)
    (hmasks : masksWithin (s.port c.port.toNat) c.n.toNat = true) (hs : (s.port c.port.toNat).state = .stopped) :
    tdmSetPort c s = (s.setPort c.port.toNat (withParams (s.port c.port.toNat) c), Reply.ok []) := by
  simp [tdmSetPort, hok, hmasks, hs]

/-- The smallest ring: two entries of one slot, 32 bytes each (R241). -/
theorem tdmSetRing_smallest {part : Nat} {c : TdmSetRing} (hport : c.port.toNat < 64) (hslots : c.ringSlots = 1)
    (hdepth : c.depth = 2) (halign : c.base.toNat % 16 = 0) (hdma : c.dmaReqEn = 0) (hframes : c.reqFrames = 1)
    (hrx : popcount (s.port c.port.toNat).rxMask ≤ 1) (hstage : popcount (s.port c.port.toNat).stageRx ≤ 1)
    (hdue : popcount (s.port c.port.toNat).due.1 ≤ 1) (hend : c.base.toNat + 64 ≤ 0x0200_0000)
    (hregion : inOwnRegion s part c.base.toNat 64 = true) (hs : (s.port c.port.toNat).state = .stopped) :
    tdmSetRing part c s = (s.setPort c.port.toNat { s.port c.port.toNat with
      ringSet := true, ringBase := c.base.toNat, ringSlots := 1, depth := 2, dmaReqEn := false, reqFrames := 1
      reqCount := 0 }, Reply.ok []) := by
  have hsize : 2 * entrySize 1 = 64 := rfl
  simp [tdmSetRing, hport, hslots, hdepth, halign, hdma, hframes, hrx, hstage, hdue, hsize, Nat.not_lt.2 hend, hregion, hs]

theorem tdmStageMask_in_range {c : TdmStageMask} (hport : c.port.toNat ≤ 63)
    (hrx : maskOver c.rx (s.port c.port.toNat).n = false) (htx : maskOver c.tx (s.port c.port.toNat).n = false)
    (hrxMax : popcount c.rx ≤ maxSlots (portRate s c.port.toNat))
    (htxMax : popcount c.tx ≤ maxSlots (portRate s c.port.toNat))
    (hring : (s.port c.port.toNat).ringSet = true → popcount c.rx ≤ (s.port c.port.toNat).ringSlots) :
    tdmStageMask c s
      = (s.setPort c.port.toNat { s.port c.port.toNat with stageRx := c.rx, stageTx := c.tx }, Reply.ok []) := by
  refine if_neg ?_
  rintro (h | h | h | h | h | ⟨hset, h⟩)
  · omega
  · simp [hrx] at h
  · simp [htx] at h
  · omega
  · omega
  · exact Nat.not_lt.2 (hring hset) h

theorem any_busy_eq_false {ns : List Nat} (h : ∀ n, n ∈ ns → (s.port n).busy = false) :
    (ns.any fun n => (s.port n).busy) = false := List.any_eq_false.2 fun n hn => by simp [h n hn]

theorem tdmCommit_none_busy {mask : Long} (hidle : ∀ n, n ∈ bitsOf mask → (s.port n).busy = false)
    (hfits : asrcFits (fun g => (s.group g).foreign) (fun n =>
      if (bitsOf mask).contains n then ((s.port n).stageRx, (s.port n).stageTx) else masksDue s n) = true) :
    tdmCommit mask s = ((bitsOf mask).foldl commitPort s, Reply.ok []) := by
  simp only [tdmCommit, any_busy_eq_false hidle, hfits]
  rfl

theorem tdmStart_none_busy {mask : Long}
    (hready : ∀ n, n ∈ bitsOf mask → (s.port n).busy = false ∧ startOk s n = true) :
    tdmStart mask s = ((bitsOf mask).foldl startPort s, Reply.ok []) := by
  have hok : ((bitsOf mask).any fun n => !startOk s n) = false :=
    List.any_eq_false.2 fun n hn => by simp [(hready n hn).2]
  simp only [tdmStart, hok, any_busy_eq_false fun n hn => (hready n hn).1]
  rfl

theorem tdmStop_none_busy {mask : Long} (hidle : ∀ n, n ∈ bitsOf mask → (s.port n).busy = false) :
    tdmStop mask s = ((bitsOf mask).foldl stopPort s, Reply.ok []) := by
  simp only [tdmStop, any_busy_eq_false hidle]
  rfl

/-- The four registers of the port and the four of its group (R258). -/
theorem tdmGetStatus_reads {port : Byte} (h : port.toNat ≤ 63) :
    ∃ r, tdmGetStatus port s = (s, r) ∧ r.status = .ok ∧ r.payload.length ≤ 1432 := by
  rw [tdmGetStatus, if_neg (by omega)]
  exact ⟨_, rfl, rfl, by simp [Reply.ok, le32]⟩

end Rules

/-- Settles O17: each row runs its command through the checks of R411, and with its operands in range the command has the
effect of its own rule. -/
theorem tdmCommandsComplete : Obligations.TdmCommandsComplete := by
  unfold Obligations.TdmCommandsComplete
  intro s q
  refine ⟨?setGroup, ?setPort, ?setRing, ?stageMask, ?commit, ?start, ?stop, ?status⟩
  case setGroup =>
    exact fun c h hg hf hr hstopped hfits => runs_status_only rfl h
      (tdmSetGroup_synchronous hg hf hr (by simpa using hstopped) (by simpa using hfits))
  case setPort =>
    exact fun c h hok hmasks hs => runs_status_only rfl h
      (tdmSetPort_stopped (by simpa using hok) (by simpa using hmasks) (by simpa using hs))
  case setRing =>
    exact fun c h hport hslots hdepth halign hdma hframes hrx hstage hdue hend hregion hs => runs_status_only rfl h
      (tdmSetRing_smallest hport hslots hdepth halign hdma hframes (by simpa using hrx) (by simpa using hstage)
        (by simpa using hdue) hend (by simpa using hregion) (by simpa using hs))
  case stageMask =>
    exact fun c h hport hrx htx hrxMax htxMax hring => runs_status_only rfl h
      (tdmStageMask_in_range hport (by simpa using hrx) (by simpa using htx) (by simpa using hrxMax)
        (by simpa using htxMax) (by simpa using hring))
  case commit =>
    exact fun mask h hidle hfits => runs_status_only rfl h
      (tdmCommit_none_busy (by simpa using hidle) (by simpa using hfits))
  case start => exact fun mask h hready => runs_status_only rfl h (tdmStart_none_busy (by simpa using hready))
  case stop => exact fun mask h hidle => runs_status_only rfl h (tdmStop_none_busy (by simpa using hidle))
  case status => exact fun port h hport => reads_of_accepts rfl h (tdmGetStatus_reads hport)

end Sys2Proof.Machine
end

section
/-! The TDM ports' own events (R240, R242, R246 to R249, R253, R254): each event in the case in which it acts, and the
obligation on them assembled from these. -/

namespace Sys2Proof.Machine

theorem Store.look_upd_same {α : Type} [DecidableEq α] (d : α) (st : Store α) (i : Nat) (f : α → α) :
    Store.look d (Store.upd d st i f) i = f (Store.look d st i) := Store.look_put_same d st i _

section Frames

variable {s : State} {n : Nat} {p : Port}

/-- A running master takes every frame as it comes (R237, R242). -/
theorem tdmFrame_master {f : TdmFrame} (hp : p = s.port n) (hs : p.state = .running) (hm : isSlave s n = false) :
    tdmFrame n f s = passFrame n f s := by
  subst hp
  simp [tdmFrame, hs, hm]

/-- A frame of the right length out of phase is a phase error to a locked slave (R239, R240). -/
theorem tdmFrame_out_of_phase {f : TdmFrame} (hp : p = s.port n) (hs : p.state = .running) (hm : isSlave s n = true)
    (hl : p.locked = true) (hb : f.bitClocks.toNat = p.l) (hphase : inPhase s n f.phase = false) :
    tdmFrame n f s = frameError n f.k true s := by
  subst hp
  simp [tdmFrame, hs, hm, hl, hb, hphase]

theorem fsyncTimeout_locked (hp : p = s.port n) (hm : isSlave s n = true) (hs : p.state = .running)
    (hl : p.locked = true) : fsyncTimeout n s = frameError n (s.mcnt - 1) false s := by
  subst hp
  simp [fsyncTimeout, hs, hm, hl]

/-- A port of a synchronous group opens its gates as it locks: no converter has to lock before it (R240, R253). -/
theorem slaveLock_synchronous (hp : p = s.port n) (hm : isSlave s n = true) (hs : p.state = .starting)
    (hl : p.locked = false) (hr : 4 ≤ p.goodRun) (hg : (s.group (groupOfPort n)).foreign = false) :
    slaveLock n s = s.setPort n
      (({ p with locked := true, errRun := 0, searchCount := 32, txHold := false } : Port).openGates) := by
  subst hp
  simp [slaveLock, inSearch, hm, hs, hl, hr, hg]

/-- The loss of a port's sync in a synchronous group unlocks no converter (R240, R247). -/
theorem syncLost_synchronous (hp : p = s.port n) (hm : isSlave s n = true) (hl : p.locked = true) (hr : 4 ≤ p.errRun)
    (hg : (s.group (groupOfPort n)).foreign = false) :
    syncLost n s = reportFault (0x080 + groupOfPort n) (BitVec.ofNat 16 n) (s.setPort n { p.shutGates with
      locked := false, goodRun := 0, searchCount := 0, txHold := false, syncLost := satInc p.syncLost
      commit := p.commit.map fun c => (c.1, c.2.1, MaskWhen.relock) }) := by
  subst hp
  simp [syncLost, hm, hl, hr, hg]

end Frames

section Gates

variable {s : State} {n j : Nat} {p : Port}

/-- A start gate that no crossing has opened fades in (R248). -/
theorem gateTimeout_tx_opening (hp : p = s.port n) (hg : (p.txSlot j).gate = .opening) :
    gateTimeout n .tx j s
      = (s.setPort n { p with tx := Store.put Slot.init p.tx j { p.txSlot j with gate := .fadeIn 0 } }).setGroup
          (groupOfPort n)
          { s.group (groupOfPort n) with zcCnt := (s.group (groupOfPort n)).zcCnt + 1 } := by
  subst hp
  simp [gateTimeout, hg]

/-- A fade out that has played its last sample closes the gate of its own slot (R248). -/
theorem fadeEnd_rx_faded (hp : p = s.port n) (hg : (p.rxSlot j).gate = .fadeOut 32) :
    ∃ q, fadeEnd n .rx j s = s.setPort n q ∧ q.rxSlot j = { p.rxSlot j with gate := .closed } := by
  subst hp
  refine ⟨_, rfl, ?_⟩
  rw [if_pos rfl, Port.rxSlot, Store.look_upd_same, ← Port.rxSlot, hg]
  rfl

end Gates

section Changes

variable {s : State} {n g : Nat} {p : Port}

theorem maskChange_silenced {rx tx : Word} (hp : p = s.port n) (hc : p.commit = some (rx, tx, .silencing))
    (hrx : allClosed p.rx (p.rxMask &&& ~~~rx) = true) (htx : allClosed p.tx (p.txMask &&& ~~~tx) = true) :
    maskChange n s = s.setPort n (p.takeMasks rx tx) := by
  subst hp
  simp [maskChange, hc, hrx, htx]

theorem portRunning_all_open (hp : p = s.port n) (hs : p.state = .starting) (hsearch : inSearch s n = false)
    (hrx : allOpen p.rx p.rxMask = true) (htx : allOpen p.tx p.txMask = true) :
    portRunning n s = s.setPort n { p with state := .running } := by
  subst hp
  simp [portRunning, hs, hsearch, hrx, htx]

/-- The stop ends; masks that wait now wait for the next start (R247, R249). -/
theorem portStopped_all_closed (hp : p = s.port n) (hs : p.state = .stopping)
    (hrx : allClosed p.rx p.rxMask = true) (htx : allClosed p.tx p.txMask = true) :
    portStopped n s = s.setPort n { p with
      state := .stopped, locked := false, goodRun := 0, errRun := 0, txHold := false
      commit := p.commit.map fun c => (c.1, c.2.1, MaskWhen.atStart) } := by
  subst hp
  simp [portStopped, hs, hrx, htx]

/-- The converter locks to its group's timing port, and the locked ports of the group open their gates (R251, R253). -/
theorem asrcLock_timed (hp : p = s.port n) (hf : (s.group g).foreign = true) (hl : (s.group g).asrcLock = false)
    (ht : timingPort s g = some n) (hlocked : p.locked = true) :
    asrcLock g s = (portsOf g).foldl (fun t m => if (t.port m).locked then t.setPort m (t.port m).openGates else t)
      (s.setGroup g { s.group g with asrcLock := true, fadeLeft := 0 }) := by
  subst hp
  simp [asrcLock, hf, hl, ht, hlocked]

/-- A measurement of a synchronous group is recorded, and unlocks nothing (R254). -/
theorem asrcMeasure_synchronous {ofs : Word} (hf : (s.group g).foreign = false) :
    asrcMeasure g ofs s = s.setGroup g { s.group g with ofs := ofs } := by simp [asrcMeasure, hf]

end Changes

/-- Settles O18: out of reset each row is its operation on the ports, and the operation's rule for the case gives the next
state. That both committed masks take effect in one frame, which counts one epoch, is the model's choice (log 60). -/
theorem tdmEventsComplete : Obligations.TdmEventsComplete := by
  unfold Obligations.TdmEventsComplete
  intro s n p hp hheld
  refine ⟨?master, ?phase, ?fsync, ?lock, ?lost, ?gate, ?fade, ?masks, ?running, ?stopped, ?asrc, ?measure⟩
  case master => exact fun f hs hm => next_whenUp_of_eq hheld (tdmFrame_master hp hs hm)
  case phase => exact fun f hs hm hl hb hphase => next_whenUp_of_eq hheld (tdmFrame_out_of_phase hp hs hm hl hb hphase)
  case fsync => exact fun hm hs hl => next_whenUp_of_eq hheld (fsyncTimeout_locked hp hm hs hl)
  case lock => exact fun hm hs hl hr hg => next_whenUp_of_eq hheld (slaveLock_synchronous hp hm hs hl hr hg)
  case lost => exact fun hm hl hr hg => next_whenUp_of_eq hheld (syncLost_synchronous hp hm hl hr hg)
  case gate => exact fun slot hg => next_whenUp_of_eq hheld (gateTimeout_tx_opening hp hg)
  case fade =>
    intro slot hg
    obtain ⟨q, hq, hslot⟩ := fadeEnd_rx_faded hp hg
    refine ⟨s.setPort n.val q, next_whenUp_of_eq hheld hq, ?_, ?_, fun m hm => State.port_setPort_other _ _ _ _ hm⟩ <;>
      rw [State.port_setPort, hslot]
  case masks =>
    intro rx tx hc hrx htx
    refine ⟨_, next_whenUp_of_eq hheld (maskChange_silenced hp hc hrx htx), rfl, ?_⟩
    rw [State.port_setPort]
    exact ⟨rfl, rfl, rfl, rfl⟩
  case running =>
    exact fun hs hsearch hrx htx => next_whenUp_of_eq hheld (portRunning_all_open hp hs hsearch hrx htx)
  case stopped => exact fun hs hrx htx => next_whenUp_of_eq hheld (portStopped_all_closed hp hs hrx htx)
  case asrc => exact fun g hf hl ht hlocked => next_whenUp_of_eq hheld (asrcLock_timed hp hf hl ht hlocked)
  case measure => exact fun g ofs hf => next_whenUp_of_eq hheld (asrcMeasure_synchronous hf)

end Sys2Proof.Machine
end

section
/-! The bus conditions (R271, R278): what an operation on one channel leaves of the power stage, the channels that a
condition acts on one after another, and the obligation on the conditions. -/

namespace Sys2Proof.Machine

/-- The power stage of `t` is that of `s` but for the channels `cs`. -/
def SameBut (cs : List Nat) (s t : State) : Prop :=
  t.pws = { s.pws with ch := t.pws.ch } ∧ ∀ d, d ∉ cs → t.pwsCh d = s.pwsCh d

section Channels

variable {s t u : State} {c : Nat} {cs ds : List Nat} {f : State → Nat → State}

theorem State.pwsCh_of_pws_eq (h : t.pws = s.pws) (d : Nat) : t.pwsCh d = s.pwsCh d :=
  congrArg (fun p : Pws => Store.look PwsCh.init p.ch d) h

@[simp] theorem pwsCh_reportFault (src : Nat) (inst : Half) (d : Nat) : (reportFault src inst s).pwsCh d = s.pwsCh d :=
  State.pwsCh_of_pws_eq (reportFault_pws src inst s) d

@[simp] theorem pwsCh_reportOwn (src d : Nat) : (reportOwn src s).pwsCh d = s.pwsCh d :=
  State.pwsCh_of_pws_eq (reportOwn_pws src s) d

@[simp] theorem pwsCh_latch (cause : Nat) :
    (latch c cause s).pwsCh c = { (s.pwsCh c).gatesLow .latched with latchCause := cause } := by simp [latch]

theorem SameBut.refl (cs : List Nat) (s : State) : SameBut cs s s := ⟨rfl, fun _ _ => rfl⟩

theorem SameBut.trans (hst : SameBut cs s t) (htu : SameBut ds t u) : SameBut (cs ++ ds) s u := by
  obtain ⟨hp, hch⟩ := hst
  obtain ⟨hp', hch'⟩ := htu
  refine ⟨hp'.trans (by rw [hp]), fun d hd => ?_⟩
  rw [List.mem_append, not_or] at hd
  exact (hch' d hd.2).trans (hch d hd.1)

theorem sameBut_setPwsCh (x : PwsCh) : SameBut [c] s (s.setPwsCh c x) :=
  ⟨rfl, fun _ hd => State.pwsCh_setPwsCh_other _ _ _ _ (List.ne_of_not_mem_cons hd)⟩

theorem SameBut.reportFault (h : SameBut cs s t) (src : Nat) (inst : Half) :
    SameBut cs s (Machine.reportFault src inst t) := by
  obtain ⟨hp, hch⟩ := h
  exact ⟨by rw [reportFault_pws]; exact hp, fun d hd => (pwsCh_reportFault src inst d).trans (hch d hd)⟩

theorem sameBut_latch (cause : Nat) : SameBut [c] s (latch c cause s) := (sameBut_setPwsCh _).reportFault _ _

theorem sameBut_beginStart : SameBut [c] s (beginStart s c) := sameBut_setPwsCh _

theorem sameBut_retryStart : SameBut [c] s (retryStart s c) := by
  obtain ⟨hp, hch⟩ := (sameBut_beginStart (s := s) (c := c)).trans (sameBut_setPwsCh _)
  exact ⟨hp, fun d hd => hch d (by simpa using hd)⟩

theorem SameBut.ite {p : Prop} [Decidable p] (ht : SameBut cs s t) (hu : SameBut cs s u) :
    SameBut cs s (if p then t else u) := by
  split
  · exact ht
  · exact hu

theorem sameBut_beginStop (aim : StopTo) : SameBut [c] s (beginStop aim s c) := by
  refine .ite (sameBut_setPwsCh _) ?_
  cases aim with
  | off => exact sameBut_setPwsCh _
  | busWait => exact sameBut_setPwsCh _
  | latchedDc => exact sameBut_latch 2

theorem sameBut_uvChannel : SameBut [c] s (uvChannel s c) := .ite (.refl _ s) (sameBut_beginStop .busWait)

theorem sameBut_ovChannel : SameBut [c] s (ovChannel s c) := .ite (sameBut_latch 2) (sameBut_setPwsCh _)

theorem sameBut_recoverChannel : SameBut [c] s (recoverChannel s c) :=
  .ite (.ite (sameBut_setPwsCh _) sameBut_beginStart) (.ite sameBut_retryStart (.refl _ s))

/-- Operations on single channels, one after another, leave the channels that they do not name. -/
theorem sameBut_foldl (hf : ∀ s c, SameBut [c] s (f s c)) (cs : List Nat) (s : State) : SameBut cs s (cs.foldl f s) := by
  induction cs generalizing s with
  | nil => exact .refl _ s
  | cons c cs ih => exact (hf s c).trans (ih (f s c))

/-- Where no channel comes twice, a channel's own operation finds it as it was and is the last to change it. -/
theorem foldl_pwsCh_of_mem (hf : ∀ s c, SameBut [c] s (f s c)) (hnodup : cs.Nodup) (hc : c ∈ cs) :
    ∃ t ds, SameBut ds s t ∧ t.pwsCh c = s.pwsCh c ∧ (cs.foldl f s).pwsCh c = (f t c).pwsCh c := by
  obtain ⟨before, after, rfl⟩ := List.append_of_mem hc
  obtain ⟨-, hrest, hapart⟩ := List.nodup_append.1 hnodup
  have hbefore : c ∉ before := fun h => hapart c h c List.mem_cons_self rfl
  have hafter : c ∉ after := (List.nodup_cons.1 hrest).1
  have hfold := sameBut_foldl hf before s
  refine ⟨before.foldl f s, before, hfold, hfold.2 c hbefore, ?_⟩
  rw [List.foldl_append, List.foldl_cons]
  exact (sameBut_foldl hf after _).2 c hafter

end Channels

section Conditions

variable {s : State} {v : Half} {c : Nat} {x : PwsCh}

theorem beginStart_state (hbus : busBad s = false) : ((beginStart s c).pwsCh c).state = .starting := by
  simp [beginStart, hbus]

theorem mem_busChannels : c ∈ busChannels s ↔ c < 16 ∧ busActs (s.pwsCh c) = true := by simp [busChannels]

theorem nodup_busChannels : (busChannels s).Nodup := List.Pairwise.filter _ List.nodup_range

theorem sameBut_busUnder :
    SameBut (busChannels s) { s with pws := { s.pws with vbus := v, busUv := true, busOv := false } } (busUnder v s) :=
  (sameBut_foldl (fun _ _ => sameBut_uvChannel) _ _).reportFault _ _

/-- An undervoltage does not touch a channel that is OFF (R278). -/
theorem busUnder_pwsCh_off (h : (s.pwsCh c).state = .off) : (busUnder v s).pwsCh c = s.pwsCh c :=
  sameBut_busUnder.2 c fun hc => by simp [mem_busChannels, busActs, h] at hc

theorem sameBut_busOver :
    SameBut (busChannels s) { s with pws := { s.pws with vbus := v, busUv := false, busOv := true } } (busOver v s) :=
  (sameBut_foldl (fun _ _ => sameBut_ovChannel) _ _).reportFault _ _

/-- An overvoltage takes the gates of a playing channel low at once (R278). -/
theorem ovChannel_playing (h : (s.pwsCh c).state = .playing) :
    (ovChannel s c).pwsCh c = { (s.pwsCh c).gatesLow .busWait with wasStopping := false } := by
  simp [ovChannel, PwsCh.goesOff, h]

theorem busOver_pwsCh_playing (hc : c < 16) (h : (s.pwsCh c).state = .playing) :
    (busOver v s).pwsCh c = { (s.pwsCh c).gatesLow .busWait with wasStopping := false } := by
  have hmem : c ∈ busChannels s := mem_busChannels.2 ⟨hc, by simp [busActs, h]⟩
  obtain ⟨t, -, -, hsame, hlast⟩ := foldl_pwsCh_of_mem
    (s := { s with pws := { s.pws with vbus := v, busUv := false, busOv := true } })
    (fun _ _ => sameBut_ovChannel) nodup_busChannels hmem
  have hch : t.pwsCh c = s.pwsCh c := hsame
  calc (busOver v s).pwsCh c = (ovChannel t c).pwsCh c := (pwsCh_reportOwn _ _).trans hlast
    _ = _ := by rw [ovChannel_playing (by rw [hch, h]), hch]

theorem sameBut_busRecovery :
    SameBut (List.range 16) { s with pws := { s.pws with vbus := v, busUv := false, busOv := false } }
      (busRecovery v s) := sameBut_foldl (fun _ _ => sameBut_recoverChannel) _ _

/-- With the bus back in range, a channel that waits for it starts, unless it was stopping (R271). -/
theorem recoverChannel_waiting (h : (s.pwsCh c).state = .busWait) (hw : (s.pwsCh c).wasStopping = false) :
    recoverChannel s c = beginStart s c := by simp [recoverChannel, h, hw]

theorem busRecovery_state_waiting (hc : c < 16) (h : (s.pwsCh c).state = .busWait)
    (hw : (s.pwsCh c).wasStopping = false) : ((busRecovery v s).pwsCh c).state = .starting := by
  obtain ⟨t, -, ⟨hpws, -⟩, hsame, hlast⟩ := foldl_pwsCh_of_mem
    (s := { s with pws := { s.pws with vbus := v, busUv := false, busOv := false } })
    (fun _ _ => sameBut_recoverChannel) List.nodup_range (List.mem_range.2 hc)
  have hch : t.pwsCh c = s.pwsCh c := hsame
  have hbus : busBad t = false := by rw [busBad, hpws]; rfl
  rw [busRecovery, hlast, recoverChannel_waiting (by rw [hch, h]) (by rw [hch, hw]), beginStart_state hbus]

end Conditions

/-- Settles O21: each condition sets its own flags and the measured voltage, and takes the channels one after another, each
of which its operation finds as it was. That a recovery clears both flags is the model's choice (log 61). -/
theorem powerBusEventsComplete : Obligations.PowerBusEventsComplete := by
  unfold Obligations.PowerBusEventsComplete
  intro s v hheld
  refine ⟨⟨_, next_whenUp_of_eq hheld rfl, ?uv⟩, ⟨_, next_whenUp_of_eq hheld rfl, ?ov⟩,
    ⟨_, next_whenUp_of_eq hheld rfl, ?recovery⟩⟩
  case uv =>
    have hpws := (sameBut_busUnder (s := s) (v := v)).1
    exact ⟨by rw [hpws], by rw [hpws], fun _ => busUnder_pwsCh_off⟩
  case ov =>
    have hpws := (sameBut_busOver (s := s) (v := v)).1
    refine ⟨by rw [hpws], by rw [hpws], fun c hc h => ?_⟩
    rw [busOver_pwsCh_playing hc h]
    exact ⟨rfl, rfl⟩
  case recovery =>
    have hpws := (sameBut_busRecovery (s := s) (v := v)).1
    exact ⟨by rw [hpws], by rw [hpws], by rw [hpws], fun _ => busRecovery_state_waiting⟩

end Sys2Proof.Machine
end

section
/-! The power-stage commands (R271 to R273, R279, R283): what each one does where it is accepted, and the obligation on
them. -/

namespace Sys2Proof.Machine

section Opened

variable {s : State} {q : Sender} {b : Body}

@[simp] theorem opened_pws : (opened q b s).pws = s.pws := by rw [opened, takeSlotFor_frame]

@[simp] theorem opened_pwsCh (c : Nat) : (opened q b s).pwsCh c = s.pwsCh c := State.pwsCh_of_pws_eq opened_pws c

end Opened

section Rules

variable {s : State}

theorem not_at_rest_eq_false {st : PwsState} (h : st = .off ∨ st = .latched) :
    (!(st == .off || st == .latched)) = false := by
  obtain rfl | rfl := h <;> rfl

/-- The frequency, the divider and the thresholds change while every channel is at rest (R283). -/
theorem pwsSetStage_at_rest {c : PwsSetStage} (hf0 : 350 ≤ c.f0.toNat) (hf1 : c.f0.toNat ≤ 600)
    (hu0 : 100 ≤ c.uv.toNat) (hu1 : c.uv.toNat ≤ 1400) (ho0 : 200 ≤ c.ov.toNat) (ho1 : c.ov.toNat ≤ 1600)
    (hgap : c.uv.toNat + 100 ≤ c.ov.toNat)
    (hrest : ∀ n, n < 16 → (s.pwsCh n).state = .off ∨ (s.pwsCh n).state = .latched) :
    pwsSetStage c s = ({ s with pws := { s.pws with
      idleKhz := c.f0.toNat, divider := c.divider.toNat, uv := c.uv.toNat, ov := c.ov.toNat } }, Reply.ok []) := by
  have hidle : ((List.range 16).any fun n => !((s.pwsCh n).state == .off || (s.pwsCh n).state == .latched)) = false :=
    List.any_eq_false.2 fun n hn => Bool.eq_false_iff.1 (not_at_rest_eq_false (hrest n (List.mem_range.1 hn)))
  rw [pwsSetStage, if_neg (by omega), hidle]
  rfl

theorem pwsSetChannel_at_rest {c : PwsSetChannel} (hch : c.channel.toNat < 16) (hr : c.retries.toNat < 16)
    (hd0 : 1000 ≤ c.d.toNat) (hd1 : c.d.toNat ≤ 17000) (hl0 : 50 ≤ c.limit.toNat) (hl1 : c.limit.toNat ≤ 780)
    (hth0 : 50 ≤ c.dcTh.toNat) (hth1 : c.dcTh.toNat ≤ 2000) (ht0 : 50 ≤ c.dcTime.toNat) (ht1 : c.dcTime.toNat ≤ 2000)
    (ht10 : c.dcTime.toNat % 10 = 0) (hdelay0 : 100 ≤ c.retryDelay.toNat) (hdelay1 : c.retryDelay.toNat ≤ 10000)
    (hrest : (s.pwsCh c.channel.toNat).state = .off ∨ (s.pwsCh c.channel.toNat).state = .latched) :
    pwsSetChannel c s = (s.setPwsCh c.channel.toNat { s.pwsCh c.channel.toNat with
      maxRetries := c.retries.toNat, d := c.d.toNat, limit := c.limit.toNat, dcTh := c.dcTh.toNat
      dcTime := c.dcTime.toNat, retryDelay := c.retryDelay.toNat }, Reply.ok []) := by
  simp only [pwsSetChannel]
  rw [if_neg (by omega), not_at_rest_eq_false hrest]
  rfl

/-- Where every named channel is in one state, none is in another. -/
theorem any_state_ne_eq_false {cs : List Nat} {st : PwsState} (h : ∀ n, n ∈ cs → (s.pwsCh n).state = st) :
    (cs.any fun n => (s.pwsCh n).state != st) = false := List.any_eq_false.2 fun n hn => by simp [h n hn]

theorem pwsStart_all_off {mask : Half} (h : ∀ n, n ∈ bitsOf mask → (s.pwsCh n).state = .off) :
    pwsStart mask s = ((bitsOf mask).foldl beginStart s, { status := .pending, payload := [] }) := by
  rw [pwsStart, channelsOf, any_state_ne_eq_false h]
  rfl

theorem pwsMute_in_range {mask : Half} {m : Byte} (hm : m.toNat ≤ 1) :
    pwsMute mask m s
      = ((bitsOf mask).foldl (fun u c => u.setPwsCh c { u.pwsCh c with hostMute := m == 1 }) s, Reply.ok []) := by
  have hone : decide (m.toNat = 1) = (m == 1) := decide_eq_decide.2 (BitVec.toNat_inj (y := 1))
  rw [pwsMute, if_neg (by omega), channelsOf, hone]

theorem pwsClear_all_latched {mask : Half} (h : ∀ n, n ∈ bitsOf mask → (s.pwsCh n).state = .latched) :
    pwsClear mask s = ((bitsOf mask).foldl
      (fun u c => u.setPwsCh c { (u.pwsCh c).gatesLow .off with retries := 0, latchCause := 0 }) s, Reply.ok []) := by
  rw [pwsClear, channelsOf, any_state_ne_eq_false h]
  rfl

/-- The two words of the stage and the four of the channel (R283). -/
theorem pwsGetStatus_reads {c : Byte} (h : c.toNat < 16) :
    ∃ r, pwsGetStatus c s = (s, r) ∧ r.status = .ok ∧ r.payload.length ≤ 1432 := by
  rw [pwsGetStatus, if_neg (by omega)]
  exact ⟨_, rfl, rfl, by simp [Reply.ok, le32]⟩

end Rules

/-- Settles O19: each row runs its command through the checks of R411, and with its operands in range the command has the
effect of its own rule. -/
theorem powerCommandsComplete : Obligations.PowerCommandsComplete := by
  unfold Obligations.PowerCommandsComplete
  intro s q
  refine ⟨?setStage, ?setChannel, ?start, ?stop, ?mute, ?clear, ?status⟩
  case setStage =>
    exact fun c h hf0 hf1 hu0 hu1 ho0 ho1 hgap hrest => runs_status_only rfl h
      (pwsSetStage_at_rest hf0 hf1 hu0 hu1 ho0 ho1 hgap (by simpa using hrest))
  case setChannel =>
    rintro c x rfl h hch hr hd0 hd1 hl0 hl1 hth0 hth1 ht0 ht1 ht10 hdelay0 hdelay1 hrest
    have hrun := pwsSetChannel_at_rest (s := opened q (bodyPwsSetChannel c) s) hch hr hd0 hd1 hl0 hl1 hth0 hth1 ht0 ht1
      ht10 hdelay0 hdelay1 (by simpa using hrest)
    rw [opened_pwsCh] at hrun
    exact runs_status_only rfl h hrun
  case start =>
    exact fun mask h hoff => runs_of_accepts rfl h (pwsStart_all_off (by simpa using hoff)) (Nat.zero_le _)
  case stop => exact fun mask h => runs_status_only rfl h rfl
  case mute => exact fun mask m h hm => runs_status_only rfl h (pwsMute_in_range hm)
  case clear =>
    exact fun mask h hlatched => runs_status_only rfl h (pwsClear_all_latched (by simpa using hlatched))
  case status => exact fun c h hc => reads_of_accepts rfl h (pwsGetStatus_reads hc)

end Sys2Proof.Machine
end

section
/-! The power stage's own events (R268, R269, R272 to R275, R277, R278): each event in the case in which it acts, and the
obligation on them assembled from these. -/

namespace Sys2Proof.Machine

section Sequences

variable {s : State} {c : Nat} {x : PwsCh}

/-- The differences are in bounds: the gates are released, and the stagger reference runs from now on (R268, R272). -/
theorem preRelease_in_bounds {fb isense : Int} (hx : x = s.pwsCh c) (hs : x.state = .starting) (hg : x.stage = .check)
    (hfb : fb.natAbs ≤ 50) (hi : (isense - 900).natAbs ≤ 50) :
    preRelease c fb isense s =
      let s1 := s.setPwsCh c { x with stage := .hold, released := true, dcOver := 0 }
      { s1 with pws := { s1.pws with staggerRef := true } } := by
  subst hx
  simp [preRelease, hs, hg, hfb, hi]

theorem preRelease_out_of_bounds {fb isense : Int} (hx : x = s.pwsCh c) (hs : x.state = .starting) (hg : x.stage = .check)
    (hfb : 50 < fb.natAbs) :
    preRelease c fb isense s = s.setPwsCh c { x.gatesLow .off with startFailed := true } := by
  subst hx
  simp [preRelease, hs, hg, Nat.not_le.2 hfb]

theorem unmuteStart_held (hx : x = s.pwsCh c) (hs : x.state = .starting) (hg : x.stage = .hold) :
    unmuteStart c s = s.setPwsCh c { x with stage := .unmute } := by
  subst hx
  simp [unmuteStart, hs, hg]

/-- A muted channel's gain falls by one step, and the channel goes on playing (R269). -/
theorem muteStep_muted (hx : x = s.pwsCh c) (hr : x.released = true) (hs : x.state = .playing)
    (hm : muteHeldOn s c = true) (hg : 0 < x.gain) : muteStep c s = s.setPwsCh c { x with gain := x.gain - 1 } := by
  subst hx
  have ht : gainTarget s c = 0 := by simp [gainTarget, hm]
  simp [muteStep, hr, hs, ht, hg]

/-- The last step of the gain ends the start (R269, R272). -/
theorem muteStep_last_of_start (hx : x = s.pwsCh c) (hr : x.released = true) (hs : x.state = .starting)
    (hg : x.stage = .unmute) (hm : muteHeldOn s c = false) (hgain : x.gain = 31) :
    muteStep c s = s.setPwsCh c { x with gain := 32, state := .playing } := by
  subst hx
  have ht : gainTarget s c = 32 := by simp [gainTarget, hs, hg, hm]
  simp [muteStep, hr, hs, ht, hgain]

theorem gatesOff_to_off (hx : x = s.pwsCh c) (hs : x.state = .stopping) (hg : x.gain = 0) (ht : x.stopTo = .off) :
    gatesOff c s = s.setPwsCh c (x.gatesLow .off) := by
  subst hx
  simp [gatesOff, hs, hg, ht]

theorem gatesOff_to_latched (hx : x = s.pwsCh c) (hs : x.state = .stopping) (hg : x.gain = 0)
    (ht : x.stopTo = .latchedDc) : gatesOff c s = latch c 2 s := by
  subst hx
  simp [gatesOff, hs, hg, ht]

end Sequences

section Protection

variable {s : State} {c : Nat} {x : PwsCh}

theorem currentLimit_released (hx : x = s.pwsCh c) (hr : x.released = true) :
    currentLimit c s = s.setPwsCh c { x with halfOff := true, limiting := true } := by
  subst hx
  exact if_pos hr

/-- With retries left a shutdown waits for the next one (R275). -/
theorem limitShutdown_pwsCh_retries_left (hx : x = s.pwsCh c) (hr : x.released = true) (hs : x.state = .playing)
    (hleft : x.retries < x.maxRetries) :
    (limitShutdown c s).pwsCh c
      = ({ x with limitShutCnt := x.limitShutCnt + 1 } : PwsCh).gatesLow .retryWait := by
  subst hx
  simp [limitShutdown, hr, hs, Nat.not_le.2 hleft]

/-- With no retry left a shutdown latches the channel, cause 1 (R275, R276). -/
theorem limitShutdown_pwsCh_retries_used (hx : x = s.pwsCh c) (hr : x.released = true) (hs : x.state = .playing)
    (hused : x.maxRetries ≤ x.retries) :
    (limitShutdown c s).pwsCh c
      = { ({ x with limitShutCnt := x.limitShutCnt + 1 } : PwsCh).gatesLow .latched with latchCause := 1 } := by
  subst hx
  simp [limitShutdown, hr, hs, hused]

theorem retryExpiry_bus_in_range (hx : x = s.pwsCh c) (hs : x.state = .retryWait) (hb : busBad s = false) :
    retryExpiry c s = retryStart s c := by
  subst hx
  simp [retryExpiry, hs, hb]

/-- A retry is a start that counts (R275). -/
theorem retryStart_pwsCh (hx : x = s.pwsCh c) (hb : busBad s = false) :
    ((retryStart s c).pwsCh c).state = .starting ∧ ((retryStart s c).pwsCh c).retries = x.retries + 1 := by
  subst hx
  simp [retryStart, beginStart, hb]

theorem retriesReset_playing (hx : x = s.pwsCh c) (hs : x.state = .playing) :
    retriesReset c s = s.setPwsCh c { x with retries := 0 } := by
  subst hx
  simp [retriesReset, hs]

/-- A window within the threshold ends the run of windows beyond it (R277). -/
theorem dcWindow_within {mv : Word} {limited : Bool} (hx : x = s.pwsCh c) (hr : x.released = true)
    (hmv : mv.toInt.natAbs ≤ 10 * x.dcTh) (ht : 0 < x.dcTime) :
    dcWindow c mv limited s = s.setPwsCh c { x with dc := mv, dcOver := 0, limiting := limited, halfOff := false } := by
  subst hx
  simp [dcWindow, hr, Nat.not_lt.2 hmv, Nat.ne_of_gt ht]

theorem staggerLock_released {lock : Bool} (hx : x = s.pwsCh c) (hr : x.released = true) :
    staggerLock c lock s = s.setPwsCh c { x with staggerLock := lock } := by
  subst hx
  exact if_pos hr

end Protection

/-- Settles O20: out of reset each row is its operation on the channel, and the operation's rule for the case gives the next
state. That a DC fault takes its channel through STOPPING to LATCHED, that the first release of a channel starts the stagger
reference, and that a DC window without a limited cycle clears LIMITING and the held gates, are the model's choices
(log 61). -/
theorem powerEventsComplete : Obligations.PowerEventsComplete := by
  unfold Obligations.PowerEventsComplete
  intro s c x hx hheld
  refine ⟨?release, ?failed, ?unmute, ?fall, ?rise, ?off, ?latched, ?limit, ?retry, ?used, ?expiry, ?reset, ?dc, ?stagger⟩
  case release =>
    intro fb isense hs hg hfb hi
    exact ⟨_, next_whenUp_of_eq hheld (preRelease_in_bounds hx hs hg hfb hi), rfl, State.pwsCh_setPwsCh _ _ _⟩
  case failed =>
    exact fun fb isense hs hg hfb => next_whenUp_of_eq hheld (preRelease_out_of_bounds hx hs hg hfb)
  case unmute => exact fun hs hg => next_whenUp_of_eq hheld (unmuteStart_held hx hs hg)
  case fall => exact fun hr hs hm hg => next_whenUp_of_eq hheld (muteStep_muted hx hr hs hm hg)
  case rise => exact fun hr hs hg hm hgain => next_whenUp_of_eq hheld (muteStep_last_of_start hx hr hs hg hm hgain)
  case off => exact fun hs hg ht => next_whenUp_of_eq hheld (gatesOff_to_off hx hs hg ht)
  case latched => exact fun hs hg ht => next_whenUp_of_eq hheld (gatesOff_to_latched hx hs hg ht)
  case limit => exact fun hr => next_whenUp_of_eq hheld (currentLimit_released hx hr)
  case retry =>
    intro hr hs hleft
    refine ⟨_, next_whenUp_of_eq hheld rfl, ?_⟩
    rw [limitShutdown_pwsCh_retries_left hx hr hs hleft]
    exact ⟨rfl, rfl, rfl, rfl⟩
  case used =>
    intro hr hs hused
    refine ⟨_, next_whenUp_of_eq hheld rfl, ?_⟩
    rw [limitShutdown_pwsCh_retries_used hx hr hs hused]
    exact ⟨rfl, rfl⟩
  case expiry =>
    intro hs hb
    obtain ⟨hstate, hretries⟩ := retryStart_pwsCh hx hb
    exact ⟨_, next_whenUp_of_eq hheld (retryExpiry_bus_in_range hx hs hb), hstate, hretries,
      fun d hd => sameBut_retryStart.2 d (by simpa using hd)⟩
  case reset => exact fun hs => next_whenUp_of_eq hheld (retriesReset_playing hx hs)
  case dc => exact fun mv limited hr hmv ht => next_whenUp_of_eq hheld (dcWindow_within hx hr hmv ht)
  case stagger => exact fun lock hr => next_whenUp_of_eq hheld (staggerLock_released hx hr)

end Sys2Proof.Machine
end

section
/-! What every row keeps: the frame of its parts, the one-time-programmable store, and what only a reset undoes (R21, R442,
R457, R460 to R462, R471, R481, R483, R506, R512), each read off the one fact `rowKept`; and the queue (log 2). -/

namespace Sys2Proof.Machine

/-- Settles O55: the frame of a row is a part of what `rowKept` says of it. -/
theorem rowsTouchOnly : Obligations.RowsTouchOnly := fun i s t h =>
  have hkept := rowKept i s t h
  ⟨hkept.pending, fun p hp => (hkept.parts p).resolve_left hp⟩

/-- Settles O56: the growth of the store is a part of what `rowKept` says of a row. -/
theorem fusesStayBlown : Obligations.FusesStayBlown := fun i s t h => (rowKept i s t h).otp

/-- Settles O57: a row that is no reset keeps the lock bits and fail-silent. -/
theorem onlyResetsUndo : Obligations.OnlyResetsUndo := fun i s t hr h => (rowKept i s t h).lock hr

/-- Settles O47: a step looks at the queue alone before it runs its command. The queue, and idling on an empty one, are the
model's choice (log 2). -/
theorem stepRunsTheFront : Obligations.StepRunsTheFront := by
  unfold Obligations.StepRunsTheFront
  refine ⟨?front, ?empty⟩
  case front =>
    intro c rest s h
    simp only [step, h]
  case empty =>
    intro s h
    simp only [step, h]

end Sys2Proof.Machine
end

section
/-! SYS_LOCK (R411, R442, R444, R448 to R450): the commands and the register writes that its bits cover, and the obligation on
them. -/

namespace Sys2Proof.Machine

/-- SYS_LOCK[`n`] covers an opcode: its own rows of R442, and for FREEZE every command that changes covered configuration
(R444). -/
def lockCovers (n op : Nat) : Bool := lockBit op == some n || (n == 8 && coversConfig op)

section Rules

variable {s : State} {q : Sender} {i : Instr} {b : Body} {n : Nat}

@[simp] theorem opened_sys : (opened q b s).sys = s.sys := by rw [opened, takeSlotFor_frame]

theorem commandLocked_of_covers {fwd : Bool} {op : Nat} (hl : s.sys.lock.getLsbD n = true) (hc : lockCovers n op = true) :
    commandLocked s fwd op = true := by
  rw [lockCovers, Bool.or_eq_true, beq_iff_eq, Bool.and_eq_true, beq_iff_eq] at hc
  obtain hbit | ⟨rfl, hconfig⟩ := hc
  · simp [commandLocked, hbit, hl]
  · simp [commandLocked, hconfig, hl]

/-- Step 8 of R411 refuses what steps before it have let through. -/
theorem refusal_locked {fwd : Bool} {p : Nat} (hload : loadBusy s b.opcode = false) (h0 : b.only0 = true → p = 0)
    (ho : ownsAll s p b.units = true) (hl : commandLocked s fwd b.opcode = true) : refusal s fwd p b = some .locked := by
  have h0' : (b.only0 && p != 0) = false := by simpa using h0
  simp [refusal, hload, h0', ho, hl]

/-- A row that runs its command, and does nothing else, is refused while a lock bit covers its opcode. -/
theorem covered_of_lockCovers (hrow : exec i s = .next (whenUp s (runCommand q b s))) (hc : lockCovers n b.opcode = true) :
    Covered s q n i b := by
  intro hl h h0 ho
  obtain ⟨hheld, -, -, hload⟩ := id h
  have hr : refusal (opened q b s) false q.part.val b = some .locked :=
    refusal_locked ((loadBusy_of_boot_eq opened_boot _).trans hload) (fun h1 => by rw [h0 h1]; rfl)
      ((ownsAll_of_own_eq opened_own _ _).trans ho) (commandLocked_of_covers (by simpa using hl) hc)
  rw [hrow, whenUp_of_running _ hheld, runCommand_refused h hr]

end Rules

section Registers

variable {s : State} {q : Requester} {a b : Nat} {w : Word}

theorem indWrite_locked {n : Nat} (hn : n = 7 ∨ n = 8) (hl : s.sys.lock.getLsbD n = true) : indWrite a w s = none := by
  obtain rfl | rfl := hn <;> simp [indWrite, hl]

/-- A write of SYS_IND_DATA that a lock bit covers is counted as refused and recorded with reason 2 (R450). -/
theorem indDataWrite_locked {n : Nat} (hn : n = 7 ∨ n = 8 ∧ indCovered (s.shadow q.ix).indAddr.toNat = true)
    (hl : s.sys.lock.getLsbD n = true) :
    indDataWrite q w s = onShadow q Shadow.advance (ignoreWrite q 0x0044 2 (indRefused s)) := by
  have hnone := indWrite_locked (a := (s.shadow q.ix).indAddr.toNat) (w := w) (hn.imp_right And.left) hl
  have hcov : (s.sys.lock.getLsbD 7 || (s.sys.lock.getLsbD 8 && indCovered (s.shadow q.ix).indAddr.toNat)) = true := by
    obtain rfl | ⟨rfl, hcov⟩ := hn
    · simp [hl]
    · simp [hl, hcov]
  simp only [indDataWrite, hnone, hcov, if_true]

theorem write_indData (h : MayRead s q) (hp0 : q.part = 0) :
    whenUp s (busWrite q 0x0044 w true s) = indDataWrite q w s :=
  write_runs_regStore (mayWrite_indData h hp0) rfl rfl rfl

/-- FREEZE ignores a write of CFG_CRC_CTRL (R442). -/
theorem write_crcCtrl_frozen (h : MayRead s q) (hp0 : q.part = 0) (hl : s.sys.lock.getLsbD 8 = true) :
    whenUp s (busWrite q 0x0020 w true s) = ignoreWrite q 0x0020 2 s := by
  obtain ⟨hheld, hp⟩ := h
  have ho : regAllowed s q 0x0020 = true := by simp [regAllowed, hp0]
  have hk : regLocked s 0x0020 = true := by simp [regLocked, hl]
  have hr : isReg 0x0020 = true := rfl
  rw [whenUp_of_running _ hheld, busWrite_of_present hp]
  show writeReg q 0x0020 w true s = _
  simp [writeReg, hr, ho, hk]

theorem write_lock (h : MayRead s q) (hp0 : q.part = 0) : whenUp s (busWrite q 0x0010 w true s) = sysLockWrite w s := by
  obtain ⟨hheld, hp⟩ := h
  have hm : MayWrite s q 0x0010 := ⟨hheld, hp, by simp [regAllowed, hp0], by simp [regLocked, isRingBase]⟩
  exact (write_runs_regStore hm rfl rfl rfl).trans regStore_lock

/-- The nine bits of SYS_LOCK (R442). -/
theorem getLsbD_lockMask (n : Nat) : (0x1FF#32).getLsbD n = decide (n < 9) := by
  rw [show 0x1FF#32 = BitVec.setWidth 32 (BitVec.allOnes 9) from rfl, BitVec.getLsbD_setWidth, BitVec.getLsbD_allOnes,
    ← Bool.decide_and]
  exact decide_eq_decide.2 (by omega)

theorem sysLockWrite_getLsbD (n : Nat) :
    (sysLockWrite w s).sys.lock.getLsbD n = (s.sys.lock.getLsbD n || (w.getLsbD n && decide (n < 9))) := by
  show (s.sys.lock ||| (w &&& 0x1FF#32)).getLsbD n = _
  rw [BitVec.getLsbD_or, BitVec.getLsbD_and, getLsbD_lockMask]

end Registers

/-- Settles O51: a row that a bit covers reaches step 8 of R411 and is refused there; a covered write of a register is
ignored with reason 2. That FREEZE covers the commands that change covered configuration is read from R444 (its dynamic
NET_FDB_WRITE and CRN_SET_TRAP_ESCALATION among them), the error count and the pointer from R448 and R450. -/
theorem locksRefuse : Obligations.LocksRefuse := by
  unfold Obligations.LocksRefuse
  refine ⟨rfl, fun s q b => turnedAway_frame, ?commands, ?registers⟩
  case commands =>
    intro s q
    and_intros <;> intros <;> exact covered_of_lockCovers rfl rfl
  case registers =>
    intro s q hheld hp hp0
    have h : MayRead s q := ⟨hheld, hp⟩
    refine ⟨?ind7, ?ind8, ?read, ?crc, ?lock⟩
    case ind7 =>
      intro w hl
      have hw := (write_indData (w := w) h hp0).trans (indDataWrite_locked (.inl rfl) hl)
      exact ⟨congrArg Host.Outcome.next hw, congrArg Host.Outcome.next hw⟩
    case ind8 =>
      exact fun w hl hcov => congrArg Host.Outcome.next
        ((write_indData h hp0).trans (indDataWrite_locked (.inr ⟨rfl, hcov⟩) hl))
    case read => exact fun w t hi => congrArg Host.Outcome.next (read_indData h hp0 hi)
    case crc =>
      intro hl
      exact ⟨fun w => congrArg Host.Outcome.next (write_crcCtrl_frozen h hp0 hl),
        congrArg Host.Outcome.next (write_crcCtrl_frozen h hp0 hl),
        fun on => congrArg Host.Outcome.next (write_crcCtrl_frozen h hp0 hl)⟩
    case lock =>
      exact fun bits n => ⟨_, congrArg Host.Outcome.next (write_lock h hp0), sysLockWrite_getLsbD n⟩

end Sys2Proof.Machine
end

section
/-! A fault that arrives while its group's record is open (R461): what merging it changes, and what the hardware action that
may follow leaves of that. -/

namespace Sys2Proof.Machine

section Rules

variable {s : State} {src : Nat} {inst : Half} {c : Cls} {a : Act} {g : Nat} {r : Record}

theorem getLsbD_setBit_or {w : Nat} (x : BitVec w) (n i : Nat) (hn : n < w) :
    (setBit x n true).getLsbD i = (x.getLsbD i || i == n) := by
  have htwo : BitVec.ofNat w (2 ^ n) = BitVec.twoPow w n :=
    BitVec.eq_of_toNat_eq (by rw [BitVec.toNat_ofNat, BitVec.toNat_twoPow])
  have hn' : (decide (n < w) && decide (n = i)) = (i == n) := by
    rw [decide_eq_true hn, Bool.true_and, beq_eq_decide]
    exact decide_eq_decide.2 eq_comm
  rw [setBit, if_pos rfl, BitVec.getLsbD_or, htwo, BitVec.getLsbD_twoPow, ← hn']

theorem satInc_word (x : Word) : satInc x = if x = 0xFFFF_FFFF#32 then 0xFFFF_FFFF#32 else x + 1 := by
  have hones : BitVec.allOnes 32 = 0xFFFF_FFFF#32 := rfl
  rw [satInc, hones]
  split
  · assumption
  · rfl

/-- An action changes of its own record only what it notes and holds (R457). -/
theorem runAction_record (a : Act) (g : Nat) (s : State) :
    ∃ actions held mute, (runAction a g s).record g
      = { s.record g with actions := actions, muteHeld := held, chMute := mute } := by
  cases a with
  | none => exact ⟨_, _, _, rfl⟩
  | mute => exact ⟨_, _, _, State.record_setRecord _ _ _⟩
  | chMute => exact ⟨_, _, _, State.record_setRecord _ _ _⟩
  | domainReset => exact ⟨_, _, _, State.record_setRecord _ _ _⟩
  | failSilent => exact ⟨_, _, _, State.record_setRecord _ _ _⟩

theorem runAction_faultCnt (a : Act) (g : Nat) (s : State) : (runAction a g s).lkt.faultCnt = s.lkt.faultCnt := by
  cases a <;> rfl

theorem runAction_srcCnt (a : Act) (g : Nat) (s : State) : (runAction a g s).lkt.srcCnt = s.lkt.srcCnt := by
  cases a <;> rfl

/-- A fault on an open record merges into it; the transition of R462 sets beside that only the record's state and what goes
with it. -/
theorem faultRecord_open (h : r.state ≠ .idle) :
    ∃ st by_ ex esc ssc irq act, faultRecord s src inst c r = ({ mergeRecord s src inst c r with
      state := st, claimedBy := by_, claimExpired := ex, escEnd := esc, serviceSinceClaim := ssc, irq := irq }, act) := by
  unfold faultRecord
  cases hst : r.state with
  | idle => exact absurd hst h
  | noted => cases c <;> exact ⟨_, _, _, _, _, _, _, rfl⟩
  | raised => cases c <;> exact ⟨_, _, _, _, _, _, _, rfl⟩
  | acted => cases c <;> exact ⟨_, _, _, _, _, _, _, rfl⟩
  | claimed =>
    cases c with
    | notice | severe => exact ⟨_, _, _, _, _, _, _, rfl⟩
    | service => dsimp only; split <;> exact ⟨_, _, _, _, _, _, _, rfl⟩

/-- A fault that is seen and has a class, by its parts: the record is put, the fault counted, the alert noted, and the action
may run. -/
theorem reportFault_counted (hm : s.lkt.srcMask.getLsbD src = false) (hc : classOf s src = some (c, a)) :
    (reportFault src inst s).lkt.faultCnt = s.lkt.faultCnt + 1
      ∧ (reportFault src inst s).lkt.srcCnt = Store.upd 0 s.lkt.srcCnt src satInc := by
  simp only [reportFault, hm, recordFault, hc]
  rw [if_neg Bool.false_ne_true]
  split
  · rw [runAction_faultCnt, runAction_srcCnt, noteAlert_lkt]
    exact ⟨rfl, rfl⟩
  · rw [noteAlert_lkt]
    exact ⟨rfl, rfl⟩

/-- The record of a seen fault's group, but for what an action notes. -/
theorem reportFault_record (hm : s.lkt.srcMask.getLsbD src = false) (hc : classOf s src = some (c, a)) :
    ∃ actions held mute, (reportFault src inst s).record (groupOf src)
      = { (faultRecord s src inst c (s.record (groupOf src))).1 with actions := actions, muteHeld := held, chMute := mute } := by
  simp only [reportFault, hm, recordFault, hc]
  rw [if_neg Bool.false_ne_true]
  have hput : ∀ old new r, (noteAlert old new (countFault src (s.setRecord (groupOf src) r))).record (groupOf src) = r := by
    intro old new r
    rw [State.record, noteAlert_lkt]
    exact State.record_setRecord _ _ r
  split
  · obtain ⟨x, y, z, h⟩ := runAction_record a (groupOf src) (noteAlert (s.record (groupOf src)).state
      (faultRecord s src inst c (s.record (groupOf src))).1.state
      (countFault src (s.setRecord (groupOf src) (faultRecord s src inst c (s.record (groupOf src))).1)))
    exact ⟨x, y, z, h.trans (by rw [hput])⟩
  · exact ⟨_, _, _, hput _ _ _⟩

end Rules

/-- Settles O52: a seen fault is counted before its action runs, and neither the transition of its record nor the action
touches what the merge sets. -/
theorem faultMerges : Obligations.FaultMerges := by
  unfold Obligations.FaultMerges
  intro s src inst c a hheld hm hc
  obtain ⟨hcnt, hsrc⟩ := reportFault_counted (inst := inst) hm hc
  refine ⟨reportFault src.toNat inst s, congrArg Host.Outcome.next (whenUp_of_running _ hheld), hcnt, ?counters, ?record⟩
  case counters =>
    intro n
    rw [hsrc, Store.upd, Store.look_put]
    split
    · rw [‹n = src.toNat›]
    · rfl
  case record =>
    intro hopen
    obtain ⟨x, y, z, hrec⟩ := reportFault_record (inst := inst) hm hc
    obtain ⟨_, _, _, _, _, _, act, hmerge⟩ := faultRecord_open (s := s) (src := src.toNat) (inst := inst) (c := c) hopen
    rw [groupOf, hmerge] at hrec
    rw [hrec]
    refine ⟨fun b => getLsbD_setBit_or _ _ _ (Nat.mod_lt _ (by decide)), satInc_word _, rfl, rfl, rfl, rfl⟩

end Sys2Proof.Machine
end

section
/-! The network commands (R284, R291, R292, R299, R302, R306, R308, R313): each with its operands in range, and the obligation
on them. -/

namespace Sys2Proof.Machine

section Opened

variable {s : State} {q : Sender} {b : Body}

@[simp] theorem opened_net : (opened q b s).net = s.net := by rw [opened, takeSlotFor_frame]

@[simp] theorem opened_netPort (n : Nat) : (opened q b s).netPort n = s.netPort n := by
  rw [State.netPort, opened_net, State.netPort]

@[simp] theorem opened_rxRing (r : Nat) : (opened q b s).rxRing r = s.rxRing r := by
  rw [State.rxRing, opened_net, State.rxRing]

@[simp] theorem netRingOk_opened (c : NetSetRing) : netRingOk c (opened q b s) = netRingOk c s := by
  rw [netRingOk, opened_net, netRingOk]

end Opened

section Rules

variable {s : State}

/-- A byte is 1 as a number exactly when it is the byte 1. -/
theorem decide_toNat_eq_one (x : Byte) : decide (x.toNat = 1) = (x == 1) := by
  rw [beq_eq_decide]
  exact decide_eq_decide.2 ⟨fun h => BitVec.eq_of_toNat_eq h, fun h => h ▸ rfl⟩

/-- With the link down nothing has to be flushed. -/
theorem netSetPort_link_down {c : NetSetPort} (hc : netPortOk c = true) (hd : (s.netPort c.port.toNat).linkUp = false) :
    netSetPort c s = (pauseCheck (s.setNetPort c.port.toNat { s.netPort c.port.toNat with
      enabled := c.enable.toNat == 1, speed := c.speed.toNat, fec := c.fec.toNat, maxFrame := c.maxFrame.toNat
      preempt := c.preempt.toNat == 1
      preemptActive := (s.netPort c.port.toNat).preemptActive && c.preempt.toNat == 1, addFrag := c.addFrag.toNat
      pauseMode := c.pauseMode.toNat
      paused := (s.netPort c.port.toNat).paused && decide (c.pauseMode.toNat ≠ 0), domain := c.domain.toNat
      pvid := c.pvid.toNat, holdDown := c.holdDown.toNat, watchdog := c.watchdog.toNat
      release := c.release.toNat }), Reply.ok []) := by
  simp only [netSetPort, hc, hd, Bool.false_and, Bool.not_true, if_neg Bool.false_ne_true]

theorem netSetSwitch_in_range {c : NetSetSwitch} (he : c.express = 176000) (hs : c.share = 131072) (hh : c.high = 75)
    (hl : c.low = 25) (hcs : c.causes.toNat ≤ 7) (hu : c.unknown.toNat ≤ 1) (ha : 10 ≤ c.ageing.toNat)
    (ha' : c.ageing.toNat ≤ 3600) (hm : memoryFits 176000 131072 (s.net.rx.map Ring.queueKiB) = true) :
    netSetSwitch c s = (pauseCheck { s with net := { s.net with
      expressLimit := 176000, share := 131072, high := 75, low := 25, causes := c.causes.setWidth 3
      dropUnknown := c.unknown == 1, ageing := c.ageing.toNat } }, Reply.ok []) := by
  simp [netSetSwitch, he, hs, hh, hl, hcs, hu, ha, ha', hm, decide_toNat_eq_one]

theorem netFdbWrite_in_free_table {c : NetFdbWrite} (hv : c.vlan.toNat ≤ 4094) (hd : c.domain.toNat ≤ 1)
    (hm : c.mask.toNat ≤ 63) (hf : c.flags.toNat ≤ 1) (hfree : s.net.fdb.length < 4096) :
    netFdbWrite c s = ({ s with net := { s.net with
      fdb := Store.put none s.net.fdb (fdbKey c.addr.toNat c.vlan.toNat c.domain.toNat)
        (some { mask := c.mask.setWidth 6, isStatic := c.flags.getLsbD 0 }) } }, Reply.ok []) := by
  have hflag : c.flags.getLsbD 1 = false := by
    rw [BitVec.getLsbD, Nat.testBit_lt_two_pow (by omega)]
  have hrange : ¬(4094 < c.vlan.toNat ∨ 1 < c.domain.toNat ∨ 63 < c.mask.toNat ∨ 3 < c.flags.toNat) := by omega
  simp only [netFdbWrite, if_neg hrange, hflag, if_neg Bool.false_ne_true, hfree, decide_true, Bool.or_true, if_true]

theorem netVlanWrite_in_free_table {vid : Half} {mem tag : Byte} (hv : vid.toNat ≤ 4094) (hm : mem.toNat ≤ 63)
    (ht : tag.toNat ≤ 63) (hfree : s.net.vlans.length < 64) :
    netVlanWrite vid mem tag s = ({ s with net := { s.net with
      vlans := Store.put none s.net.vlans vid.toNat (some { members := mem.setWidth 6, tagged := tag.setWidth 6 }) } },
      Reply.ok []) := by
  have hrange : ¬(4094 < vid.toNat ∨ 63 < mem.toNat ∨ 63 < tag.toNat) := by omega
  simp [netVlanWrite, hrange, Nat.not_le.2 hfree]

theorem netSetFilter_enables {c : NetSetFilter} (hi : c.index.toNat ≤ 31) (he : c.enable = 1) (hr : c.ring.toNat ≤ 7)
    (hk : c.kind.toNat ≤ 3) (hv : c.vlan = 0xFFFF) :
    netSetFilter c s = ({ s with net := { s.net with
      filters := Store.put Filter.init s.net.filters c.index.toNat
        { enable := true, ring := c.ring.toNat, kind := c.kind.toNat, etherType := c.etherType, proto := c.proto
          dstPort := c.dstPort, vlan := 0xFFFF } } }, Reply.ok []) := by
  simp [netSetFilter, he, hv, Nat.not_lt.2 hi, Nat.not_lt.2 hr, Nat.not_lt.2 hk]

/-- A disabled receive ring has no frame to discard. -/
theorem netSetRing_rx_disabled {c : NetSetRing} (hc : netRingOk c s = true) (hd : c.dir = 0)
    (he : (s.rxRing c.ring.toNat).enable = false) :
    netSetRing c s = (s.setRxRing c.ring.toNat { (s.rxRing c.ring.toNat).configured c with queue := [] }, Reply.ok []) := by
  simp [netSetRing, hc, hd, he, Ring.configured]

theorem netTest_no_count {port mode : Byte} (hp : port.toNat ≤ 3) (hm : mode.toNat ≤ 1) :
    netTest port mode s
      = (pauseCheck (s.setNetPort port.toNat { s.netPort port.toNat with test := mode.toNat }), Reply.ok []) := by
  rw [netTest, if_neg (by omega), if_pos (by omega)]

theorem netGetStatus_reads {port : Byte} (hp : port.toNat ≤ 3) :
    ∃ r, netGetStatus port s = (s, r) ∧ r.status = .ok ∧ r.payload.length ≤ 1432 := by
  rw [netGetStatus, if_neg (by omega)]
  refine ⟨_, rfl, rfl, ?_⟩
  simp [Reply.ok, le32, length_flatMap_of_length_eq fun a => leBytes_length 4 _]

end Rules

/-- Settles O22: each row runs its command through the checks of R411, and with its operands in range the command has the
effect of its own rule. -/
theorem networkCommandsComplete : Obligations.NetworkCommandsComplete := by
  unfold Obligations.NetworkCommandsComplete
  intro s q
  refine ⟨?port, ?switch, ?fdb, ?vlan, ?filter, ?ring, ?test, ?status⟩
  case port =>
    exact fun c h hc hd => runs_status_only rfl h (netSetPort_link_down hc (by simpa using hd))
  case switch =>
    exact fun c h he hs hh hl hcs hu ha ha' hm => runs_status_only rfl h
      (netSetSwitch_in_range he hs hh hl hcs hu ha ha' (by simpa using hm))
  case fdb =>
    exact fun c h hv hd hm hf hfree => runs_status_only rfl h
      (netFdbWrite_in_free_table hv hd hm hf (by simpa using hfree))
  case vlan =>
    exact fun vid mem tag h hv hm ht hfree => runs_status_only rfl h
      (netVlanWrite_in_free_table hv hm ht (by simpa using hfree))
  case filter =>
    exact fun c h hi he hr hk hv => runs_status_only rfl h (netSetFilter_enables hi he hr hk hv)
  case ring =>
    exact fun c h hc hd he => runs_status_only rfl h (netSetRing_rx_disabled (by simpa using hc) hd (by simpa using he))
  case test => exact fun port mode h hp hm => runs_status_only rfl h (netTest_no_count hp hm)
  case status => exact fun port h hp => reads_of_accepts rfl h (netGetStatus_reads hp)

end Sys2Proof.Machine
end

section
/-! The ports' own events (R285, R286, R290, R292, R296 to R298, R300): each in the case in which it acts, and the obligation on
them. -/

namespace Sys2Proof.Machine

section Rules

variable {s : State} {n : Nat}

/-- A port whose link is up is one of the four: the reset value that stands for any other has its link down. -/
theorem lt_ports_of_linkUp (h : (s.netPort n).linkUp = true) : n < s.net.ports.length := by
  by_contra hn
  rw [State.netPort, List.getD_eq_default _ _ (Nat.le_of_not_lt hn)] at h
  exact Bool.false_ne_true h

@[simp] theorem State.setNetPort_setNetPort (x y : NetPort) : (s.setNetPort n x).setNetPort n y = s.setNetPort n y := by
  simp [State.setNetPort]

theorem linkUp_enabled {remote : Bool} (h : (s.netPort n).enabled = true) :
    linkUp n remote s = pauseCheck (s.setNetPort n { s.netPort n with
      localFault := false, remoteFault := remote, linkUp := true }) := by
  simp [linkUp, h]

theorem linkLoss_up {fault : Bool} (h : (s.netPort n).linkUp = true) :
    linkLoss n fault s = pauseCheck (dropLink n (s.setNetPort n { s.netPort n with localFault := fault })) := by
  simp [linkLoss, h]

theorem frameReceived_bad_fcs {bs : List Byte} {t : Stamp} (h : (s.netPort n).linkUp = true) :
    frameReceived n bs false t s = s.setNetPort n { s.netPort n with errFcs := satInc (s.netPort n).errFcs } := by
  simp [frameReceived, h]

theorem frameReceived_too_long {bs : List Byte} {t : Stamp} (h : (s.netPort n).linkUp = true) (h60 : 60 ≤ bs.length)
    (hlong : (s.netPort n).maxFrame < bs.length + 4) :
    frameReceived n bs true t s = s.setNetPort n { s.netPort n with errOver := satInc (s.netPort n).errOver } := by
  have hrunt : ¬bs.length + 4 < 64 := by omega
  simp [frameReceived, wireLen, h, hrunt, hlong]

/-- A good frame that is no MAC Control frame is counted and forwarded. -/
theorem frameReceived_good {bs : List Byte} {t : Stamp} (h : (s.netPort n).linkUp = true) (h60 : 60 ≤ bs.length)
    (hlong : bs.length + 4 ≤ (s.netPort n).maxFrame) (htype : etherType bs ≠ 0x8808) :
    frameReceived n bs true t s = pauseCheck (forwardFrame n bs (corrected (quartersOf t) (s.netPort n).tsIn)
      (s.setNetPort n { s.netPort n with
        rxFrames := (s.netPort n).rxFrames + 1, rxBytes := (s.netPort n).rxBytes + BitVec.ofNat 64 (bs.length + 4) })) := by
  have hrunt : ¬bs.length + 4 < 64 := by omega
  simp [frameReceived, countRx, wireLen, h, hrunt, Nat.not_lt.2 hlong, htype]

theorem NetPort.next_express {p : NetPort} {f : QFrame} {fs : List QFrame} (hp : p.paused = false) (hq : p.express = f :: fs) :
    p.next = some (f, { p with express := fs }) := by
  simp [NetPort.next, hp, hq]

/-- A media frame that asked for no timestamp leaves as it is. -/
theorem frameTransmit_media {t : Stamp} {frags : Nat} {f : QFrame} {fs : List QFrame} (h : (s.netPort n).linkUp = true)
    (hp : (s.netPort n).paused = false) (hq : (s.netPort n).express = f :: fs) (hc : f.cls = .media)
    (hd : f.tsDesc = none) :
    frameTransmit n false t frags s = pauseCheck (s.setNetPort n { s.netPort n with
      express := fs, sent := f.bytes, txFrames := (s.netPort n).txFrames + 1
      txBytes := (s.netPort n).txBytes + BitVec.ofNat 64 (f.bytes.length + 4) }) := by
  have hcls : (f.cls == FrameClass.ptp) = false := by rw [hc]; rfl
  have hexp : f.cls.express = true := by rw [hc]; rfl
  simp [frameTransmit, NetPort.next_express hp hq, wireLen, h, hd, hcls, hexp]

theorem preemptVerify_passed (h : (s.netPort n).linkUp = true) (hp : (s.netPort n).preempt = true) :
    preemptVerify n .passed s = s.setNetPort n { s.netPort n with preemptActive := true } := by
  simp [preemptVerify, h, hp]

/-- A PAUSE frame is counted as received, with 64 bytes (log 35), and pauses the port. -/
theorem pauseReceived_pauses {quanta : Half} (h : (s.netPort n).linkUp = true) (hm : (s.netPort n).pauseMode ≠ 0)
    (hb : (s.netPort n).pauseBlocked = false) (hq : quanta ≠ 0) :
    pauseReceived n 1 quanta s = s.setNetPort n { s.netPort n with
      rxFrames := (s.netPort n).rxFrames + 1, rxBytes := (s.netPort n).rxBytes + 64
      rxPause := (s.netPort n).rxPause + 1, paused := true, quanta := quanta } := by
  have hport := fun x => State.netPort_setNetPort s n x (lt_ports_of_linkUp h)
  have hq0 : quanta ≠ 0#16 := hq
  simp [pauseReceived, obeyPause, countRx, hport, h, hm, hb, hq0]

theorem pauseWatchdog_paused (h : (s.netPort n).paused = true) :
    pauseWatchdog n s = reportOwn (0x0B4 + n) (s.setNetPort n { s.netPort n with
      paused := false, pauseBlocked := true, wdogCnt := (s.netPort n).wdogCnt + 1 }) := by
  simp [pauseWatchdog, h]

theorem beBytes_length (k x : Nat) : (beBytes k x).length = k := by simp [beBytes]

theorem wireLen_pauseFrame (src quanta : Nat) : wireLen (pauseFrame src quanta) = 64 := by
  simp [wireLen, pauseFrame, beBytes_length]

/-- Above the low watermark the test sends nothing of its own. -/
theorem pauseCheckPort_above_low (hon : (s.netPort n).pauseTxOn = true) (hw : pauseWindow s = true)
    (hocc : s.net.share * s.net.low < 100 * occupancy s n) : pauseCheckPort s n = s := by
  simp [pauseCheckPort, hon, hw, Nat.not_le.2 hocc]

theorem pauseTxRepeat_above_low (h : (s.netPort n).linkUp = true) (hon : (s.netPort n).pauseTxOn = true)
    (hw : pauseWindow s = true) (hocc : s.net.share * s.net.low < 100 * occupancy s n) :
    pauseTxRepeat n s = s.setNetPort n { s.netPort n with
      txPause := (s.netPort n).txPause + 1, txFrames := (s.netPort n).txFrames + 1, txBytes := (s.netPort n).txBytes + 64
      sent := pauseFrame ((s.own.station.toNat + 1 + n) % 2 ^ 48) 65535 } := by
  simp [pauseTxRepeat, pauseCheckPort_above_low hon hw hocc, sendPause, wireLen_pauseFrame, h, hon]

theorem fdbAgeOut_dynamic {addr : BitVec 48} {vlan : Half} {domain : Bool} {e : FdbEntry}
    (h : fdbFind s addr.toNat vlan.toNat (if domain then 1 else 0) = some e) (hs : e.isStatic = false) :
    fdbAgeOut addr vlan domain s = { s with net := { s.net with
      fdb := Store.put none s.net.fdb (fdbKey addr.toNat vlan.toNat (if domain then 1 else 0)) none } } := by
  rw [fdbFind] at h
  simp [fdbAgeOut, h, hs]

end Rules

/-- Settles O23: each event, where it acts, has the effect of its own rule. That a PAUSE frame counts as one of 64 bytes is
the model's choice (log 35). -/
theorem networkEventsComplete : Obligations.NetworkEventsComplete := by
  unfold Obligations.NetworkEventsComplete
  rintro s n p rfl hheld
  refine ⟨?up, ?loss, ?fcs, ?long, ?good, ?transmit, ?verify, ?pause, ?expiry, ?watchdog, ?release, ?again, ?age⟩
  case up => exact fun remote he => next_whenUp_of_eq hheld (linkUp_enabled he)
  case loss => exact fun fault h => next_whenUp_of_eq hheld (linkLoss_up h)
  case fcs => exact fun frame st h => next_whenUp_of_eq hheld (frameReceived_bad_fcs h)
  case long => exact fun frame st h h60 hl => next_whenUp_of_eq hheld (frameReceived_too_long h h60 hl)
  case good => exact fun frame st h h60 hl ht => next_whenUp_of_eq hheld (frameReceived_good h h60 hl ht)
  case transmit =>
    exact fun st frags f fs h hp hq hc hd => next_whenUp_of_eq hheld (frameTransmit_media h hp hq hc hd)
  case verify => exact fun h hp => next_whenUp_of_eq hheld (preemptVerify_passed h hp)
  case pause => exact fun quanta h hm hb hq => next_whenUp_of_eq hheld (pauseReceived_pauses h hm hb hq)
  case expiry => exact next_whenUp_of_eq hheld rfl
  case watchdog => exact fun h => next_whenUp_of_eq hheld (pauseWatchdog_paused h)
  case release => exact next_whenUp_of_eq hheld rfl
  case again => exact fun h hon hw hocc => next_whenUp_of_eq hheld (pauseTxRepeat_above_low h hon hw hocc)
  case age =>
    exact fun addr vlan domain e h hs => ⟨_, next_whenUp_of_eq hheld (fdbAgeOut_dynamic h hs),
      Store.look_put_same _ _ _ _, fun k hk => Store.look_put_other _ _ _ _ _ hk⟩

end Sys2Proof.Machine
end

section
/-! The host rings' rows (R301, R303 to R307): a whole frame delivered, a whole frame sent, the doorbell, and the obligation on
them. -/

namespace Sys2Proof.Machine

section Rules

variable {s s1 : State} {r : Nat}

theorem rxDeliver_whole {f : RxFrame} {rest : List RxFrame} {done : List (Nat × Nat)}
    (he : (s.rxRing r).enable = true) (hs : (s.rxRing r).regionStop = false) (hq : (s.rxRing r).queue = f :: rest)
    (hw : fillRx (ownerOf s (.rxRing r)) (s.rxRing r) (s.rxRing r).count (s.rxRing r).head f.bytes [] s = (s1, .whole, done)) :
    rxDeliver r s = ringDone (ownerOf s (.rxRing r)) (s.rxRing r).irqEn
      ((backAllRx (s.rxRing r) f false done s1).setRxRing r { s1.rxRing r with
        queue := rest, frames := (s1.rxRing r).frames + 1, head := ((s.rxRing r).head + done.length) % (s.rxRing r).count }) := by
  simp [rxDeliver, he, hs, hq, hw]

theorem txFrame_whole {t : TxWalk} (he : (s.txRing r).enable = true) (hs : (s.txRing r).regionStop = false)
    (hw : walkTx (ownerOf s (.txRing r)) (s.txRing r) (s.txRing r).count { count := 0, data := [], ctrl := 0, mask := 0 } s
      = (s1, .whole, t)) :
    txFrame r s = sendTx r (s.txRing r) t s1 := by
  simp [txFrame, he, hs, hw]

/-- The address of a ring's DOORBELL (R310). -/
def doorbellAddr (tx : Bool) (r : Nat) : Nat := (if tx then 0x5A0C else 0x590C) + 0x20 * r

/-- What the window finds at a doorbell: a register that is no ring base, in the word of its own address. -/
theorem doorbellAddr_register (tx : Bool) (r : Fin 8) : isReg (doorbellAddr tx r) = true
    ∧ isRingBase (doorbellAddr tx r) = false ∧ doorbellAddr tx r / 4 * 4 % 0x1_0000 = doorbellAddr tx r := by
  revert tx r
  decide

theorem regStore_doorbell (q : Requester) (tx : Bool) (r : Fin 8) :
    regStore q (doorbellAddr tx r) 1 s = ringDoorbell tx r s := by
  fin_cases r <;> cases tx <;> rfl

end Rules

/-- Settles O24: a walk that finds its frame whole completes it, and the doorbell is a write of the window. -/
theorem ringEventsComplete : Obligations.RingEventsComplete := by
  unfold Obligations.RingEventsComplete
  intro s r x hheld
  refine ⟨?deliver, ?send, ?doorbell⟩
  case deliver =>
    rintro f rest s1 done rfl he hs hq hw
    exact next_whenUp_of_eq hheld (rxDeliver_whole he hs hq hw)
  case send =>
    rintro s1 t rfl he hs hw
    exact next_whenUp_of_eq hheld (txFrame_whole he hs hw)
  case doorbell =>
    intro q tx h
    obtain ⟨hr, hb, ha⟩ := doorbellAddr_register tx r
    exact congrArg Host.Outcome.next ((write_runs_regStore h hr hb ha).trans (regStore_doorbell q tx r))

end Sys2Proof.Machine
end

section
/-! The network-time commands (R316, R320, R321, R326, R329, R332, R335): each with its operands in range, and the obligation on
them. -/

namespace Sys2Proof.Machine

section Opened

variable {s : State} {q : Sender} {b : Body}

@[simp] theorem opened_lkt : (opened q b s).lkt = s.lkt := by rw [opened, takeSlotFor_frame]

@[simp] theorem opened_ptp : (opened q b s).ptp = s.ptp := by rw [opened, takeSlotFor_frame]

@[simp] theorem opened_time : (opened q b s).time = s.time := congrArg Lkt.now opened_lkt

@[simp] theorem opened_inst (i : Nat) : (opened q b s).inst i = s.inst i := State.inst_of_ptp_eq opened_ptp

@[simp] theorem opened_alarm (a : Nat) : (opened q b s).alarm a = s.alarm a := by simp only [State.alarm, opened_ptp]

@[simp] theorem movedQuarters_opened : movedQuarters (opened q b s) = movedQuarters s := by
  simp only [movedQuarters, opened_ptp]

@[simp] theorem mcntAt_opened (sec : BitVec 48) : mcntAt (opened q b s) sec = mcntAt s sec := by
  simp only [mcntAt, opened_fs]

@[simp] theorem ptpSelected_opened : ptpSelected (opened q b s) = ptpSelected s := by
  simp only [ptpSelected, opened_pst]

@[simp] theorem bankBusy_opened : bankBusy (opened q b s) = bankBusy s := by simp only [bankBusy, opened_rdg]

@[simp] theorem alarmNow_opened (ptp : Bool) : alarmNow (opened q b s) ptp = alarmNow s ptp := by
  simp only [alarmNow, now32, opened_pst, opened_mcnt]

end Opened

section Rules

variable {s : State}

/-- What PTP_SET_INSTANCE makes of the clock that it configures (R316, R332). -/
def PtpInst.configured (x : PtpInst) (c : PtpSetInstance) : PtpInst :=
  { x with
    enable := c.enable == 1, profile := c.profile.toNat, domain := c.domain, logSync := c.logSync
    logAnnounce := c.logAnnounce, logDelay := c.logDelay, timeout := c.timeout, unicast := c.unicast == 1
    capable := c.master == 1, jump := c.jump.toNat, outlier := c.outlier.toNat
    state := if c.enable = 1 then .initializing else .disabled
    jumpRefused := false, foreign := [], chosen := none, sync := none, request := none, rawOffsets := []
    rawDelays := [], measured := 0, accepted := [], acceptedGm := none, granted := c.logDelay }

theorem toNat_eq_one_iff (x : Byte) : x.toNat = 1 ↔ x = 1 := ⟨fun h => BitVec.eq_of_toNat_eq h, fun h => h ▸ rfl⟩

theorem ptpSetInstance_in_range {c : PtpSetInstance} (h : ptpInstanceOk c = true) :
    ∃ t, ptpSetInstance c s = (t, Reply.ok []) ∧ t.inst c.inst.toNat = (s.inst c.inst.toNat).configured c := by
  rw [ptpSetInstance, h, Bool.not_true, if_neg Bool.false_ne_true]
  refine ⟨_, rfl, ?_⟩
  rw [withPst_inst, State.inst_setInst]
  simp only [PtpInst.configured, toNat_eq_one_iff, beq_eq_decide]

theorem ptpSetPortTs_in_range {c : PtpSetPortTs} (hp : c.port.toNat ≤ 3) (hi : c.ingress.toInt.natAbs ≤ 100000)
    (he : c.egress.toInt.natAbs ≤ 100000) (ha : c.asym.toInt.natAbs ≤ 100000) :
    ptpSetPortTs c s = (s.setNetPort c.port.toNat { s.netPort c.port.toNat with
      tsIn := c.ingress.toInt, tsOut := c.egress.toInt, asym := c.asym.toInt }, Reply.ok []) := by
  simp [ptpSetPortTs, psOk, hp, hi, he, ha]

/-- The master attributes as PTP_SET_MASTER gives them (R320). -/
def PtpInst.HasMaster (x : PtpInst) (c : PtpSetMaster) : Prop :=
  x.priority1 = c.priority1 ∧ x.priority2 = c.priority2 ∧ x.accuracy = c.accuracy ∧ x.variance = c.variance
    ∧ x.utcOfs = c.utcOfs ∧ x.utcFlag = c.flags.getLsbD 0 ∧ x.timeSource = c.timeSource

theorem ptpSetMaster_in_range {c : PtpSetMaster} (hi : c.inst.toNat ≤ 1) (hf : c.flags.toNat ≤ 1) :
    ∃ t, ptpSetMaster c s = (t, Reply.ok []) ∧ (t.inst c.inst.toNat).HasMaster c := by
  rw [ptpSetMaster, if_neg (by omega)]
  refine ⟨_, rfl, ?_⟩
  rw [withPst_inst, State.inst_setInst]
  exact ⟨rfl, rfl, rfl, rfl, rfl, rfl, rfl⟩

/-- A jump taken over restarts the accepted offsets with the present one (R332). -/
theorem ptpAcceptJump_chosen {inst : Byte} {gm : Long} (hi : inst.toNat ≤ 1)
    (hgm : (s.inst inst.toNat).chosen.map Announce.gmId = some gm) :
    ∃ t, ptpAcceptJump inst gm s = (t, Reply.ok (le32 (nsWord (s.inst inst.toNat).ofs 4)))
      ∧ (t.inst inst.toNat).state = .slave ∧ (t.inst inst.toNat).jumpRefused = false
      ∧ (t.inst inst.toNat).accepted
          = [{ time := s.time, offset := (s.inst inst.toNat).ofs, moved := movedQuarters s }] := by
  have hok : ¬(1 < inst.toNat ∨ (s.inst inst.toNat).chosen.map Announce.gmId ≠ some gm) := by
    rintro (h | h)
    · omega
    · exact h hgm
  rw [ptpAcceptJump, if_neg hok]
  refine ⟨_, rfl, ?_⟩
  rw [State.inst_of_ptp_eq (t := ite _ _ _) (s := s.setInst inst.toNat _) (by split <;> rfl), State.inst_setInst]
  exact ⟨rfl, rfl, rfl⟩

theorem ptpSetTime_accepted {sec : Long} (h : sec.toNat < 2 ^ 48) (hs : ptpSelected s = false) (hb : bankBusy s = false) :
    ptpSetTime sec s
      = ({ s with ptp := { s.ptp with setTime := some (sec.setWidth 48) } }, Reply.ok (le32 (mcntAt s (sec.setWidth 48)))) := by
  rw [ptpSetTime, if_neg (by omega), hs, hb]
  rfl

theorem ptpSetAlarm_ahead {c : PtpSetAlarm} (ha : c.alarm.toNat ≤ 7) (hu : c.unit.toNat ≤ 1) (hp : c.period.toNat < 2 ^ 31)
    (hd : 1 ≤ serialDiff c.target (alarmNow s (c.unit.toNat == 1))) :
    ptpSetAlarm c s = (s.setAlarm c.alarm.toNat { s.alarm c.alarm.toNat with
      armed := true, ptp := c.unit.toNat == 1, target := c.target, period := c.period }, Reply.ok []) := by
  rw [ptpSetAlarm, if_neg (by omega)]

theorem ptpCancelAlarm_in_range {a : Byte} (ha : a.toNat ≤ 7) :
    ptpCancelAlarm a s = (s.setAlarm a.toNat { s.alarm a.toNat with armed := false }, Reply.ok []) := by
  rw [ptpCancelAlarm, if_neg (by omega)]

theorem ptpGetStatus_reads {inst : Byte} (hi : inst.toNat ≤ 1) :
    ∃ r, ptpGetStatus inst s = (s, r) ∧ r.status = .ok ∧ r.payload.length ≤ 1432 := by
  rw [ptpGetStatus, if_neg (by omega)]
  refine ⟨_, rfl, rfl, ?_⟩
  simp [Reply.ok, le32, length_flatMap_of_length_eq fun a => leBytes_length 4 _]

end Rules

/-- A command that runs to a state that is known only by what it holds: it answers with that state. -/
theorem closed_of_accepts {s t : State} {q : Sender} {b : Body} {i : Instr} {r : Reply}
    (hrow : exec i s = .next (whenUp s (runCommand q b s))) (h : Accepts s q b)
    (hrun : b.run q.part.val (q.via == .udp) (opened q b s) = (t, r)) (hr : r.payload.length ≤ 1432) :
    exec i s = .next (closed q b r s t) :=
  runs_of_accepts (f := fun _ => t) hrow h hrun hr

/-- Settles O25: each row runs its command through the checks of R411, and with its operands in range the command has the
effect of its own rule. -/
theorem timeCommandsComplete : Obligations.TimeCommandsComplete := by
  unfold Obligations.TimeCommandsComplete
  intro s q
  refine ⟨?inst, ?portTs, ?master, ?jump, ?time, ?alarm, ?cancel, ?status⟩
  case inst =>
    intro c h hc
    obtain ⟨t, hrun, ht⟩ := ptpSetInstance_in_range (s := opened q (bodyPtpSetInstance c) s) hc
    exact ⟨t, closed_of_accepts rfl h hrun (by simp [Reply.ok]), ht.trans (by rw [opened_inst]; rfl)⟩
  case portTs =>
    exact fun c h hp hi he ha => runs_status_only rfl h (ptpSetPortTs_in_range hp hi he ha)
  case master =>
    intro c h hi hf
    obtain ⟨t, hrun, ht⟩ := ptpSetMaster_in_range (s := opened q (bodyPtpSetMaster c) s) hi hf
    exact ⟨t, closed_of_accepts rfl h hrun (by simp [Reply.ok]), ht⟩
  case jump =>
    rintro inst gm x rfl h hi hgm
    obtain ⟨t, hrun, hstate, hrefused, haccepted⟩ :=
      ptpAcceptJump_chosen (s := opened q (bodyPtpAcceptJump inst gm) s) hi (by simpa using hgm)
    rw [opened_inst] at hrun
    refine ⟨t, closed_of_accepts rfl h hrun (by simp [Reply.ok, le32]), hstate, hrefused, ?_⟩
    rw [haccepted, opened_inst, opened_time, movedQuarters_opened]
  case time =>
    intro sec h hsec hs hb
    refine runs_of_accepts rfl h ((ptpSetTime_accepted hsec (by simpa using hs) (by simpa using hb)).trans ?_)
      (by simp [Reply.ok, le32])
    rw [mcntAt_opened]
  case alarm =>
    exact fun c h ha hu hp hd => runs_status_only rfl h (ptpSetAlarm_ahead ha hu hp (by simpa using hd))
  case cancel => exact fun a h ha => runs_status_only rfl h (ptpCancelAlarm_in_range ha)
  case status => exact fun inst h hi => reads_of_accepts rfl h (ptpGetStatus_reads hi)

end Sys2Proof.Machine
end

section
/-! The application of PTP_SET_TIME, the PPS capture and the alarms (R326 to R329), and the obligations on them. -/

namespace Sys2Proof.Machine

section Rules

variable {s : State}

/-- Moved by what it lacks to a whole second, the counter shows that second (R27, R325). -/
theorem Pst.ptpSec_addPtp_to (p : Pst) (sec : BitVec 48) :
    (p.addPtp ((sec.toNat * 1000000000 * slewUnit : Nat) - p.ptpUnits)).ptpSec = sec := by
  have hunit : ((1000000000 * slewUnit : Nat) : Int) ≠ 0 := by decide
  have htotal : (p.ptpSec.toNat : Int) * (1000000000 * slewUnit : Nat) + p.ptpFrac
      + ((sec.toNat * 1000000000 * slewUnit : Nat) - p.ptpUnits) = sec.toNat * (1000000000 * slewUnit : Nat) := by
    rw [Pst.ptpUnits]
    push_cast
    ring
  show BitVec.ofInt 48 (Int.fdiv _ _) = sec
  rw [htotal, Int.mul_fdiv_cancel _ hunit, BitVec.ofInt_natCast, BitVec.ofNat_toNat, BitVec.setWidth_eq]

/-- PTP_SET_TIME takes effect: the counter, the wave number, and nothing left to apply (R326). -/
theorem ptpSetTimeApply_named {sec : BitVec 48} (h : s.ptp.setTime = some sec) :
    (ptpSetTimeApply s).pst.ptpSec = sec ∧ (ptpSetTimeApply s).ptp.setTime = none
      ∧ (ptpSetTimeApply s).mcnt = mcntAt s sec := by
  simp only [ptpSetTimeApply, h]
  exact ⟨Pst.ptpSec_addPtp_to { s.pst with mcnt := mcntAt s sec } sec, rfl, rfl⟩

theorem alarmFire_once {a : Nat} (harm : (s.alarm a).armed = true) (hp : (s.alarm a).period = 0)
    (hd : 0 ≤ serialDiff (alarmNow s (s.alarm a).ptp) (s.alarm a).target) :
    alarmFire a s = (s.setPart (ownerOf s (.alarm a)) { s.part (ownerOf s (.alarm a)) with alarmEvent := true }).setAlarm a
      { s.alarm a with armed := false, fireMcnt := s.mcnt } := by
  have hnow : (!(s.alarm a).armed
      || decide (serialDiff (alarmNow s (s.alarm a).ptp) (s.alarm a).target < 0)) = false := by
    simp [harm, hd]
  simp only [alarmFire, hnow, hp, if_neg Bool.false_ne_true, if_true]

/-- An alarm that fires in its own wave has missed none, and moves on by one period (R329). -/
theorem alarmFire_on_time {a : Nat} (harm : (s.alarm a).armed = true) (hp : (s.alarm a).period ≠ 0)
    (hd : serialDiff (alarmNow s (s.alarm a).ptp) (s.alarm a).target = 0) :
    alarmFire a s = (s.setPart (ownerOf s (.alarm a)) { s.part (ownerOf s (.alarm a)) with alarmEvent := true }).setAlarm a
      { s.alarm a with target := (s.alarm a).target + (s.alarm a).period, fireMcnt := s.mcnt } := by
  have hp0 : (s.alarm a).period ≠ 0#32 := hp
  simp [alarmFire, harm, hd, hp0, Nat.repeat]

end Rules

/-- Settles O27: the counter is moved by exactly what it lacks, an edge captures it, and an alarm that is due fires. -/
theorem timeEventsComplete : Obligations.TimeEventsComplete := by
  unfold Obligations.TimeEventsComplete
  intro s hheld
  refine ⟨?time, ?edge, ?once, ?again⟩
  case time => exact fun sec h => ⟨_, next_whenUp_of_eq hheld rfl, ptpSetTimeApply_named h⟩
  case edge => exact fun after => next_whenUp_of_eq hheld rfl
  case once =>
    rintro a x rfl harm hp hd
    exact next_whenUp_of_eq hheld (alarmFire_once harm hp hd)
  case again =>
    rintro a x rfl harm hd hp
    exact next_whenUp_of_eq hheld (alarmFire_on_time harm hp hd)

section Registers

variable {s : State} {q : Requester}

theorem regRead_ppsNs : regRead s q 0x5FC0 = s.ptp.ppsNs := rfl

theorem regRead_ppsSecLo : regRead s q 0x5FC4 = (s.shadow q.ix).ppsSec.setWidth 32 := rfl

theorem regRead_ppsSecHi : regRead s q 0x5FC8 = ((s.shadow q.ix).ppsSec >>> 32).setWidth 32 := rfl

/-- The state after a read of PTP_PPS_NS: the requester holds the word, and the seconds beside it. -/
def ppsLatched (q : Requester) (s : State) : State :=
  given q (regRead s q 0x5FC0) (onShadow q (fun x => { x with ppsSec := s.ptp.ppsSec }) s)

theorem ppsLatched_shadow : (ppsLatched q s).shadow q.ix
    = { s.shadow q.ix with ppsSec := s.ptp.ppsSec, rdata := [s.ptp.ppsNs] } := by
  rw [ppsLatched, given, shadow_onShadow, shadow_onShadow, regRead_ppsNs]

theorem exec_ppsCaptureRead (h : MayRead s q) : exec (.ppsCaptureRead q) s = .next (ppsLatched q s) :=
  congrArg Host.Outcome.next (read_ppsCapture h)

theorem exec_ppsEdge (after : Word) (hheld : s.held = false) : exec (.ppsEdge after) s = .next (ppsEdge after s) :=
  next_whenUp_of_eq hheld rfl

theorem ppsLatched_held : (ppsLatched q s).held = s.held := rfl

/-! The capture, stated for any values captured, so that no counter is unfolded. -/

theorem shadow_with_ptp (x : Ptp) (n : Nat) : ({ s with ptp := x } : State).shadow n = s.shadow n := rfl

theorem ppsEdge_shadow (after : Word) (n : Nat) : (ppsEdge after s).shadow n = s.shadow n := shadow_with_ptp _ n

theorem ppsEdge_ppsNs (after : Word) :
    (ppsEdge after s).ptp.ppsNs = (s.pst.addPtp (after.toNat * slewUnit : Nat)).ptpNs := by rw [ppsEdge]

theorem ppsEdge_ppsSec (after : Word) :
    (ppsEdge after s).ptp.ppsSec = (s.pst.addPtp (after.toNat * slewUnit : Nat)).ptpSec := by rw [ppsEdge]

/-- The seconds registers show a requester what its shadow holds. -/
theorem regRead_ppsSec {x : BitVec 48} (h : (s.shadow q.ix).ppsSec = x) :
    regRead s q 0x5FC4 = x.setWidth 32 ∧ regRead s q 0x5FC8 = (x >>> 32).setWidth 32 := by
  rw [regRead_ppsSecLo, regRead_ppsSecHi, h]
  exact ⟨rfl, rfl⟩

theorem ppsLatched_ppsSec : ((ppsLatched q s).shadow q.ix).ppsSec = s.ptp.ppsSec := by rw [ppsLatched_shadow]

end Registers

/-- Settles O53: an edge writes the capture alone, a read of PTP_PPS_NS the requester's shadow alone, so an edge after the read
leaves what was latched. -/
theorem ppsCapture : Obligations.PpsCapture := by
  unfold Obligations.PpsCapture
  intro s hheld
  refine ⟨?edge, ?read⟩
  case edge =>
    intro after
    refine ⟨ppsEdge after s, exec_ppsEdge after hheld, fun q => ⟨?_, fun h => ?_⟩⟩
    · rw [regRead_ppsNs, ppsEdge_ppsNs]
    · refine ⟨ppsLatched q (ppsEdge after s), exec_ppsCaptureRead h, regRead_ppsSec ?_⟩
      rw [ppsLatched_ppsSec, ppsEdge_ppsSec]
  case read =>
    intro q h
    refine ⟨ppsLatched q s, exec_ppsCaptureRead h, by rw [ppsLatched_shadow], fun after => ?_⟩
    refine ⟨ppsEdge after (ppsLatched q s), exec_ppsEdge after (ppsLatched_held.trans hheld), regRead_ppsSec ?_⟩
    rw [ppsEdge_shadow, ppsLatched_ppsSec]

end Sys2Proof.Machine
end

section
/-! Writes of wide values (R437): a 64-bit counter of a network port through its requester's shadow, the source address of a
DMA channel word by word, and the obligation on them. -/

namespace Sys2Proof.Machine

section Counters

variable {s : State} {q : Requester} {a lo n : Nat} {w : Word}

/-- The _LO word of a transmit byte counter is staged for its requester. -/
theorem netPortWrite_txBytesLo (ho : (a - 0x5C00) % 0x80 = 0x14) :
    netPortWrite q a w s = onShadow q (fun y => { y with stagedAddr := some a, stagedLo := w }) s := by
  unfold netPortWrite
  rw [ho]
  rfl

/-- What the _HI word `w` of a 64-bit counter loads, beside the _LO word that `x` has staged for the address `lo`, if it has. -/
def Shadow.wideCounter (x : Shadow) (lo : Nat) (w : Word) (old : Long) : Long :=
  (w.setWidth 64 <<< 32) ||| (if x.stagedAddr = some lo then x.stagedLo.setWidth 64 else old &&& 0xFFFF_FFFF#64)

theorem Shadow.wideCounter_eq (x : Shadow) (old : Long) :
    (if x.stagedAddr = some lo then loadBoth w x.stagedLo else loadHi old w) = x.wideCounter lo w old := by
  unfold Shadow.wideCounter
  split <;> rfl

/-- The _HI word of a receive byte counter loads what is staged, or the half of its own. -/
theorem netPortWrite_rxBytesHi_loads (hn : (a - 0x5C00) / 0x80 = n) (ho : (a - 0x5C00) % 0x80 = 0x0C) (hlo : a - 4 = lo) :
    netPortWrite q a w s = onShadow q (fun y => { y with stagedAddr := none }) (s.setNetPort n { s.netPort n with
      rxBytes := (s.shadow q.ix).wideCounter lo w (s.netPort n).rxBytes }) := by
  rw [← Shadow.wideCounter_eq]
  unfold netPortWrite
  rw [ho, hn, hlo]
  rfl

/-- The _HI word of a transmit byte counter, likewise. -/
theorem netPortWrite_txBytesHi_loads (hn : (a - 0x5C00) / 0x80 = n) (ho : (a - 0x5C00) % 0x80 = 0x18) (hlo : a - 4 = lo) :
    netPortWrite q a w s = onShadow q (fun y => { y with stagedAddr := none }) (s.setNetPort n { s.netPort n with
      txBytes := (s.shadow q.ix).wideCounter lo w (s.netPort n).txBytes }) := by
  rw [← Shadow.wideCounter_eq]
  unfold netPortWrite
  rw [ho, hn, hlo]
  rfl

theorem netPort_onShadow {f : Shadow → Shadow} : (onShadow q f s).netPort n = s.netPort n := rfl

end Counters

section Addresses

variable {s : State} {q : Requester} {ch o : Nat} {w : Word}

theorem loWord_withLo (x : BitVec 40) (w : Word) : (withLo x w).setWidth 32 = w := by
  ext i hi
  simp [withLo]

theorem hiBits_withLo (x : BitVec 40) (w : Word) : withLo x w >>> 32 = x >>> 32 := by
  ext i hi
  simpa [withLo] using BitVec.lt_of_getLsbD

theorem loWord_withHi (x : BitVec 40) (w : Word) : (withHi x w).setWidth 32 = x.setWidth 32 := by
  ext i hi
  simp [withHi, loWord]

/-- Of a high word only the byte that the address has room for is kept. -/
theorem hiBits_withHi (x : BitVec 40) (w : Word) : withHi x w >>> 32 = (w.setWidth 8).setWidth 40 := by
  ext i hi
  have hroom : 32 + i < 40 ↔ i < 8 := by omega
  simp [withHi, loWord, hroom, hi]

theorem setWidth_lowByte (w : Word) : (w &&& 0xFF#32).setWidth 8 = w.setWidth 8 := by
  rw [BitVec.setWidth_and]
  exact BitVec.and_allOnes

/-- The owner of a DMA channel may write its block, which no lock covers (R226, R433, R442). -/
theorem mayWrite_dmaCh (hheld : s.held = false) (hp : present s q = true) (hch : ch < 32) (ho : o < 0x40)
    (hown : ownerOf s (.dmaCh ch) = q.part.val) : MayWrite s q (0x0800 + 0x40 * ch + o) := by
  have hm : mboxAt (0x0800 + 0x40 * ch + o) = none := by
    unfold mboxAt
    exact if_neg (by omega)
  have hn : (0x0800 + 0x40 * ch + o - 0x0800) / 0x40 = ch := by omega
  have hu : unitAt (0x0800 + 0x40 * ch + o) = some (.dmaCh ch) := by
    unfold unitAt
    rw [if_pos (by omega), hn]
  have hb : isRingBase (0x0800 + 0x40 * ch + o) = false := decide_eq_false (by omega)
  have h20 : 0x0800 + 0x40 * ch + o ≠ 0x0020 := by omega
  refine ⟨hheld, hp, ?_, by simp [regLocked, hb, h20]⟩
  unfold regAllowed
  rw [if_neg (by omega), if_neg (by omega), if_neg (by omega), hm]
  simp only [hu, hown, beq_self_eq_true]

/-- A write to a DMA channel's block that reaches the window. -/
theorem write_dmaCh (hheld : s.held = false) (hp : present s q = true) (hch : ch < 32) (ho : o < 0x40) (h4 : o % 4 = 0)
    (hown : ownerOf s (.dmaCh ch) = q.part.val) :
    whenUp s (busWrite q (BitVec.ofNat 16 (0x0800 + 0x40 * ch + o)).toNat w true s)
      = dmaWrite (0x0800 + 0x40 * ch + o) w s := by
  have hb : isRingBase (0x0800 + 0x40 * ch + o) = false := decide_eq_false (by omega)
  rw [write_runs_regStore (mayWrite_dmaCh hheld hp hch ho hown) (isReg_of_lt_5000 (by omega) (by omega)) hb
    (by rw [BitVec.toNat_ofNat]; omega)]
  unfold regStore
  repeat rw [if_neg (by omega)]
  rw [if_pos (by omega)]

theorem dmaWrite_srcLo : dmaWrite (0x0800 + 0x40 * ch + 8) w s
    = s.setDmaCh ch { s.dmaCh ch with src := withLo (s.dmaCh ch).src w } := by
  have ho : (0x0800 + 0x40 * ch + 8 - 0x0800) % 0x40 = 8 := by omega
  have hn : (0x0800 + 0x40 * ch + 8 - 0x0800) / 0x40 = ch := by omega
  unfold dmaWrite dmaChWrite
  rw [ho, hn]
  rfl

theorem dmaWrite_srcHi : dmaWrite (0x0800 + 0x40 * ch + 0x0C) w s
    = s.setDmaCh ch { s.dmaCh ch with src := withHi (s.dmaCh ch).src (w &&& 0xFF#32) } := by
  have ho : (0x0800 + 0x40 * ch + 0x0C - 0x0800) % 0x40 = 0x0C := by omega
  have hn : (0x0800 + 0x40 * ch + 0x0C - 0x0800) / 0x40 = ch := by omega
  unfold dmaWrite dmaChWrite
  rw [ho, hn]
  rfl

end Addresses

/-- Settles O54: a write of the window reaches its register's own rule, which stages, loads both halves or the high one, or
sets its own field of an address. -/
theorem wideWrites : Obligations.WideWrites := by
  unfold Obligations.WideWrites
  intro s q hheld hp
  refine ⟨?lo, ?hi, ?address⟩
  case lo =>
    rintro n lo w (rfl | rfl)
    · exact congrArg Host.Outcome.next ((write_netPort hheld hp (by omega) (by omega) (by omega) (by omega)).trans
        (netPortWrite_rxBytesLo (by omega)))
    · exact congrArg Host.Outcome.next ((write_netPort hheld hp (by omega) (by omega) (by omega) (by omega)).trans
        (netPortWrite_txBytesLo (by omega)))
  case hi =>
    intro n w hn
    have hrx := (write_netPort (w := w) hheld hp (a := 0x5C0C + 0x80 * n.val) (by omega) (by omega) (by omega)
      (by omega)).trans (netPortWrite_rxBytesHi_loads (n := n.val) (lo := 0x5C08 + 0x80 * n.val) (by omega) (by omega) (by omega))
    have htx := (write_netPort (w := w) hheld hp (a := 0x5C18 + 0x80 * n.val) (by omega) (by omega) (by omega)
      (by omega)).trans (netPortWrite_txBytesHi_loads (n := n.val) (lo := 0x5C14 + 0x80 * n.val) (by omega) (by omega) (by omega))
    refine ⟨_, _, congrArg Host.Outcome.next hrx, congrArg Host.Outcome.next htx, ?_⟩
    simp only [netPort_onShadow, State.netPort_setNetPort s n.val _ hn, Shadow.wideCounter, and_self]
  case address =>
    intro ch w hown
    have hlo := (write_dmaCh (w := w) (o := 8) hheld hp ch.isLt (by decide) rfl hown).trans dmaWrite_srcLo
    have hhi := (write_dmaCh (w := w) (o := 0x0C) hheld hp ch.isLt (by decide) rfl hown).trans dmaWrite_srcHi
    have h08 : 0x0808 + 0x40 * ch.val = 0x0800 + 0x40 * ch.val + 8 := by omega
    have h0C : 0x080C + 0x40 * ch.val = 0x0800 + 0x40 * ch.val + 0x0C := by omega
    rw [h08, h0C]
    refine ⟨_, _, congrArg Host.Outcome.next hlo, congrArg Host.Outcome.next hhi, ?_⟩
    simp only [State.dmaCh_setDmaCh]
    exact ⟨loWord_withLo _ w, hiBits_withLo _ w, loWord_withHi _ _, (hiBits_withHi _ _).trans (by rw [setWidth_lowByte])⟩

end Sys2Proof.Machine
end

section
/-! The stream and tap commands (R337, R343, R345, R348, R349, R357, R362 to R364, R366, R368): what a command that takes its
slot leaves of the contexts, what each one does where it is accepted, and the obligation on them. -/

namespace Sys2Proof.Machine

section Opened

variable {s : State} {q : Sender} {b : Body}

@[simp] theorem opened_stm : (opened q b s).stm = s.stm := by rw [opened, takeSlotFor_frame]

@[simp] theorem opened_txCtx (n : Nat) : (opened q b s).txCtx n = s.txCtx n := by simp only [State.txCtx, opened_stm]

@[simp] theorem opened_rxCtx (n : Nat) : (opened q b s).rxCtx n = s.rxCtx n := by simp only [State.rxCtx, opened_stm]

@[simp] theorem opened_tap (n : Nat) : (opened q b s).tap n = s.tap n := by simp only [State.tap, opened_stm]

@[simp] theorem ownerOf_opened (r : Res) : ownerOf (opened q b s) r = ownerOf s r := ownerOf_of_own_eq opened_own r

@[simp] theorem payloadOk_opened (c : TxCfg) : payloadOk (opened q b s) c = payloadOk s c := by
  simp only [payloadOk, opened_pst, opened_net]

@[simp] theorem txCfgOk_opened (c : TxCfg) : txCfgOk (opened q b s) c = txCfgOk s c := by
  simp only [txCfgOk, payloadOk_opened]

@[simp] theorem rxCfgOk_opened (c : RxCfg) : rxCfgOk (opened q b s) c = rxCfgOk s c := by
  simp only [rxCfgOk, rxPathOk, opened_own]

@[simp] theorem startWave_opened (w : Word) : startWave (opened q b s) w = startWave s w := by
  simp only [startWave, opened_mcnt]

@[simp] theorem startWaveOk_opened (w : Word) : startWaveOk (opened q b s) w = startWaveOk s w := by
  simp only [startWaveOk, startWave_opened, ahead_opened]

@[simp] theorem stopWave_opened (old : Option Word) (w : Word) : stopWave (opened q b s) old w = stopWave s old w := by
  simp only [stopWave, ahead_opened, opened_mcnt]

@[simp] theorem txLoad_opened : txLoad (opened q b s) = txLoad s := by simp only [txLoad, opened_stm]

@[simp] theorem rxLoad_opened : rxLoad (opened q b s) = rxLoad s := by simp only [rxLoad, opened_stm]

@[simp] theorem rxSamples_opened (c : RxCfg) : rxSamples (opened q b s) c = rxSamples s c := by
  simp only [rxSamples, opened_pst]

@[simp] theorem rxDelay_opened (c : RxCfg) : rxDelay (opened q b s) c = rxDelay s c := by
  simp only [rxDelay, rxSamples_opened, opened_stm]

@[simp] theorem rxStartOk_opened (n : Nat) (c : RxCfg) : rxStartOk (opened q b s) n c = rxStartOk s n c := by
  rw [rxStartOk, rxSamples_opened, rxDelay_opened, inOwnRegion_opened, ownerOf_opened, rxStartOk]

@[simp] theorem groupBusy_opened (g : Nat) : groupBusy (opened q b s) g = groupBusy s g := by
  simp only [groupBusy, opened_stm]

end Opened

section Rules

variable {s : State} {n : Nat}

theorem streamSetTx_stopped {ctx : Byte} {c : TxCfg} (hc : txCfgOk s c = true)
    (hs : (s.txCtx ctx.toNat).state = .stopped) :
    streamSetTx ctx c s = (s.setTxCtx ctx.toNat { s.txCtx ctx.toNat with cfg := some c }, Reply.ok []) := by
  simp [streamSetTx, hc, hs]

theorem streamSetRx_stopped {ctx : Byte} {c : RxCfg} (hc : rxCfgOk s c = true)
    (hs : (s.rxCtx ctx.toNat).state = .stopped) :
    streamSetRx ctx c s = (s.setRxCtx ctx.toNat { s.rxCtx ctx.toNat with cfg := some c }, Reply.ok []) := by
  simp [streamSetRx, hc, hs]

theorem streamSetCs_stopped {ctx : Byte} {block : List Byte} (hb : block.length = 24)
    (hs : (s.txCtx ctx.toNat).state = .stopped) :
    streamSetCs ctx block s = (s.setTxCtx ctx.toNat { s.txCtx ctx.toNat with cs := block }, Reply.ok []) := by
  simp [streamSetCs, hb, hs]

theorem startTx_accepted {q0 : Half} {w : Word} {c : TxCfg} (hc : (s.txCtx n).cfg = some c)
    (hs : (s.txCtx n).state = .stopped) (hp : payloadOk s c = true) (hw : startWaveOk s w = true)
    (hload : txLoad s + c.channels.toNat ≤ channelBudget s.pst.rate) :
    startTx n q0 w s = (s.setTxCtx n { s.txCtx n with
      state := .armed, start := startWave s w, first := startWave s w, seq := q0, stop := none, gathered := []
      live := true }, Reply.ok (le32 (startWave s w))) := by
  simp [startTx, hc, hs, hp, hw, Nat.not_lt.2 hload]

/-- A receive context that starts is armed and muted, whatever its jitter buffer held (R352, R359). -/
theorem startRx_accepted {w : Word} {c : RxCfg} (hc : (s.rxCtx n).cfg = some c) (hs : (s.rxCtx n).state = .stopped)
    (hok : rxStartOk s n c = true) (hw : startWaveOk s w = true)
    (hload : rxLoad s + c.channels.toNat ≤ channelBudget s.pst.rate) :
    ∃ t, startRx n w s = (t, Reply.ok (le32 (startWave s w))) ∧ (t.rxCtx n).state = .armed
      ∧ (t.rxCtx n).start = startWave s w ∧ (t.rxCtx n).conceal = .muted ∧ (t.rxCtx n).stop = none := by
  simp only [startRx, hc, hok, hw, hs, Bool.not_true, Bool.or_false, if_neg Bool.false_ne_true, ne_eq, not_true_eq_false,
    if_false, Nat.not_lt.2 hload]
  refine ⟨_, rfl, ?_⟩
  rw [State.rxCtx_setRxCtx]
  exact ⟨rfl, rfl, rfl, rfl⟩

theorem streamStop_tx_running {ctx : Byte} {e : Word} (hs : (s.txCtx ctx.toNat).state = .running) :
    streamStop 0 ctx e s = (s.setTxCtx ctx.toNat { s.txCtx ctx.toNat with
      stop := some (stopWave s (s.txCtx ctx.toNat).stop e) }, Reply.ok []) := by
  simp [streamStop, hs]

theorem streamStop_rx_running {ctx : Byte} {e : Word} (hs : (s.rxCtx ctx.toNat).state = .running) :
    streamStop 1 ctx e s = (s.setRxCtx ctx.toNat { s.rxCtx ctx.toNat with
      stop := some (stopWave s (s.rxCtx ctx.toNat).stop e) }, Reply.ok []) := by
  simp [streamStop, hs]

theorem streamSetGroup_idle {g : Byte} {p : Half} (hg : g.toNat ≤ 31) (h4 : 4 ≤ p.toNat) (hp : p.toNat ≤ 4096)
    (hb : groupBusy s g.toNat = false) :
    streamSetGroup g p s
      = ({ s with stm := { s.stm with groups := Store.put none s.stm.groups g.toNat (some p.toNat) } }, Reply.ok []) := by
  rw [streamSetGroup, if_neg (by omega), hb, if_neg Bool.false_ne_true]

/-- A window is of thirteen words (R366). -/
theorem streamGetContext_reads {dir ctx : Byte} (hd : dir.toNat ≤ 1) :
    ∃ r, streamGetContext dir ctx s = (s, r) ∧ r.status = .ok ∧ r.payload.length ≤ 1432 := by
  rw [streamGetContext, if_neg (Nat.not_lt.2 hd)]
  split
  · exact ⟨_, rfl, rfl, by simp [Reply.ok, le32, txWindow]⟩
  · exact ⟨_, rfl, rfl, by simp [Reply.ok, le32, rxWindow]⟩

theorem streamClear_tx {ctx : Byte} :
    streamClear 0 ctx s = (s.setTxCtx ctx.toNat { s.txCtx ctx.toNat with pkts := 0, stepDrop := 0 }, Reply.ok []) := by
  simp [streamClear]

/-- A one-shot tap on a receive context, without an expected CRC (R363, R364). -/
theorem tapSet_rx {c : TapSet} (ht : c.tap.toNat ≤ 15) (hf : c.flags = 0) (hk : c.kind = 2) (hu : c.unit.toNat ≤ 255)
    (hch : c.channel.toNat ≤ 63) (hn : c.n ≠ 0) (ho : ownerOf s (.rxCtx c.unit.toNat) = ownerOf s (.tap c.tap.toNat)) :
    tapSet c s = (s.setTap c.tap.toNat { Tap.init with
      armed := true, kind := 2, unit := c.unit.toNat, channel := c.channel.toNat, n := c.n.toNat, m := c.m
      result := (s.tap c.tap.toNat).result, startOf := (s.tap c.tap.toNat).startOf
      doneCnt := (s.tap c.tap.toNat).doneCnt }, Reply.ok []) := by
  have hn0 : c.n ≠ 0#16 := hn
  simp [tapSet, hf, hk, tapRes, ho, hn0, Nat.not_lt.2 ht, Nat.not_lt.2 hu, Nat.not_lt.2 hch, Tap.init]

theorem tapGet_reads {tap : Byte} (ht : tap.toNat ≤ 15) :
    ∃ r, tapGet tap s = (s, r) ∧ r.status = .ok ∧ r.payload.length ≤ 1432 := by
  rw [tapGet, if_neg (Nat.not_lt.2 ht)]
  refine ⟨_, rfl, rfl, ?_⟩
  simp [Reply.ok, le32, length_flatMap_of_length_eq fun a => leBytes_length 4 _]

end Rules

/-- Settles O28: each row runs its command through the checks of R411, and with its operands in range the command has the
effect of its own rule. -/
theorem streamCommandsComplete : Obligations.StreamCommandsComplete := by
  unfold Obligations.StreamCommandsComplete
  intro s q
  refine ⟨?setTx, ?setRx, ?setCs, ?startTx, ?startRx, ?stopTx, ?stopRx, ?group, ?get, ?clear, ?tap, ?tapGet⟩
  case setTx =>
    exact fun ctx c h hc hs => runs_status_only rfl h (streamSetTx_stopped (by simpa using hc) (by simpa using hs))
  case setRx =>
    exact fun ctx c h hc hs => runs_status_only rfl h (streamSetRx_stopped (by simpa using hc) (by simpa using hs))
  case setCs => exact fun ctx block h hb hs => runs_status_only rfl h (streamSetCs_stopped hb (by simpa using hs))
  case startTx =>
    intro ctx q0 w c h hc hs hp hw hload
    refine runs_of_accepts rfl h ((startTx_accepted (n := ctx.toNat) (q0 := q0) (by simpa using hc) (by simpa using hs)
      (by simpa using hp) (by simpa using hw) (by simpa using hload)).trans ?_) (by simp [Reply.ok, le32])
    rw [startWave_opened]
  case startRx =>
    intro ctx w c h hc hs hok hw hload
    obtain ⟨t, hrun, harmed, hstart, hrest⟩ := startRx_accepted (s := opened q (bodyStreamStart 1 ctx 0 w) s)
      (n := ctx.toNat) (w := w) (by simpa using hc) (by simpa using hs) (by simpa using hok) (by simpa using hw)
      (by simpa using hload)
    rw [startWave_opened] at hrun hstart
    exact ⟨t, closed_of_accepts rfl h hrun (by simp [Reply.ok, le32]), harmed, hstart, hrest⟩
  case stopTx =>
    intro ctx w h hs
    refine runs_status_only rfl h ((streamStop_tx_running (by simpa using hs)).trans ?_)
    rw [stopWave_opened, opened_txCtx]
  case stopRx =>
    intro ctx w h hs
    refine runs_status_only rfl h ((streamStop_rx_running (by simpa using hs)).trans ?_)
    rw [stopWave_opened, opened_rxCtx]
  case group =>
    exact fun g p h hg h4 hp hb => runs_status_only rfl h (streamSetGroup_idle hg h4 hp (by simpa using hb))
  case get => exact fun dir ctx h hd => reads_of_accepts rfl h (streamGetContext_reads hd)
  case clear => exact fun ctx h => runs_status_only rfl h streamClear_tx
  case tap =>
    intro c h ht hf hk hu hch hn ho
    have hrun := tapSet_rx (s := opened q (bodyTapSet c) s) ht hf hk hu hch hn (by simpa using ho)
    rw [opened_tap] at hrun
    exact ⟨_, closed_of_accepts rfl h hrun (by simp [Reply.ok]), State.tap_setTap _ _ _⟩
  case tapGet => exact fun tap h ht => reads_of_accepts rfl h (tapGet_reads ht)

end Sys2Proof.Machine
end

section
/-! The stream events (R345 to R347, R350, R360, R364, R395): each in the case in which it acts, and the obligation on them. -/

namespace Sys2Proof.Machine

section Rules

variable {s : State} {n c : Nat}

/-- A whole window, with nothing expected of it, is stored without a mismatch. -/
theorem Tap.store_unexpected {t : Tap} {start crc : Word} (h : t.ended = some (start, crc, false)) (he : t.expected = none) :
    t.store = ({ t with
      ended := none, done := true, incomplete := false, result := crc, startOf := start, doneCnt := t.doneCnt + 1
      mismatch := false }, false) := by
  simp [Tap.store, h, he]

/-- A whole window whose CRC is not the expected one is a mismatch. -/
theorem Tap.store_mismatch {t : Tap} {start crc e : Word} (h : t.ended = some (start, crc, false))
    (he : t.expected = some e) (hne : e ≠ crc) :
    t.store = ({ t with
      ended := none, done := true, incomplete := false, result := crc, startOf := start, doneCnt := t.doneCnt + 1
      mismatch := true }, true) := by
  simp [Tap.store, h, he, hne]

theorem tapWindowEnd_unexpected {start crc : Word} (h : (s.tap n).ended = some (start, crc, false))
    (he : (s.tap n).expected = none) :
    tapWindowEnd n s = s.setTap n { s.tap n with
      ended := none, done := true, incomplete := false, result := crc, startOf := start, doneCnt := (s.tap n).doneCnt + 1
      mismatch := false } := by
  simp [tapWindowEnd, Tap.store_unexpected h he]

theorem tap_reportFault {src : Nat} {inst : Half} : (reportFault src inst s).tap n = s.tap n := by
  simp only [State.tap, reportFault_stm]

/-- The mismatch is stored before it is reported, and the report leaves the taps. -/
theorem tapWindowEnd_mismatch {start crc e : Word} (h : (s.tap n).ended = some (start, crc, false))
    (he : (s.tap n).expected = some e) (hne : e ≠ crc) :
    ((tapWindowEnd n s).tap n).mismatch = true ∧ ((tapWindowEnd n s).tap n).result = crc := by
  simp [tapWindowEnd, Tap.store_mismatch h he hne, tap_reportFault]

theorem packetLaunch_sends {cfg : TxCfg} {k : TxPacket} {rest : List TxPacket} (hc : (s.txCtx c).cfg = some cfg)
    (hk : (s.txCtx c).closed = k :: rest) (hdue : launchDue s cfg k = true) (hf : s.lkt.failSilent = false)
    (hl : k.allLive = true) (ho : launchOf s k.closing c (cfg.launch.toNat == 1) (crc32c k.payload) = .send) :
    packetLaunch c s = sendPacket c cfg k (s.setTxCtx c ({ s.txCtx c with closed := rest } : TxCtx).atStop) := by
  simp only [packetLaunch, hc, hk, hdue, hf, hl, ho, Bool.not_true, Bool.or_false, if_neg Bool.false_ne_true]

/-- A packet that holds a wave without a live bank is dropped in silence (R347). -/
theorem packetLaunch_not_live {cfg : TxCfg} {k : TxPacket} {rest : List TxPacket} (hc : (s.txCtx c).cfg = some cfg)
    (hk : (s.txCtx c).closed = k :: rest) (hdue : launchDue s cfg k = true) (hl : k.allLive = false) :
    packetLaunch c s = s.setTxCtx c ({ s.txCtx c with closed := rest } : TxCtx).atStop := by
  simp only [packetLaunch, hc, hk, hdue, hl, Bool.not_true, Bool.not_false, Bool.or_true, if_neg Bool.false_ne_true, if_true]

/-- A frame on a port whose link is up goes to Saddle once for each context that it matches. -/
theorem mediaPacket_up {bs : List Byte} {st : Stamp} (h : (s.netPort n).linkUp = true) :
    mediaPacket n bs st s = ((s.stm.rx.filter fun e => e.2.takes (s.netPort n).domain bs).map Prod.fst).foldl
      (saddle ((s.netPort n).domain == 1) bs ((corrected (quartersOf st) (s.netPort n).tsIn).toNat / 4)) s :=
  if_pos h

theorem saddle_malformed {pathB : Bool} {bs : List Byte} {ns : Nat} {cfg : RxCfg} (hc : (s.rxCtx c).cfg = some cfg)
    (hbad : checkPacket s cfg bs = none) :
    saddle pathB bs ns s c = s.setRxCtx c { s.rxCtx c with fmtErr := satInc (s.rxCtx c).fmtErr } := by
  simp only [saddle, hc, hbad]

theorem mediaPacket_malformed {bs : List Byte} {st : Stamp} {x : RxCtx} {cfg : RxCfg} (h : (s.netPort n).linkUp = true)
    (hone : s.stm.rx = [(c, x)]) (hc : x.cfg = some cfg) (ht : x.takes (s.netPort n).domain bs = true)
    (hbad : checkPacket s cfg bs = none) :
    mediaPacket n bs st s = s.setRxCtx c { x with fmtErr := satInc x.fmtErr } := by
  have hx : s.rxCtx c = x := by simp [State.rxCtx, hone, Store.look]
  have hhits : (s.stm.rx.filter fun e => e.2.takes (s.netPort n).domain bs).map Prod.fst = [c] := by simp [hone, ht]
  rw [mediaPacket_up h, hhits, List.foldl_cons, List.foldl_nil, saddle_malformed (by rw [hx, hc]) hbad, hx]

theorem rxStopped_faded (hs : (s.rxCtx c).state = .running) (hst : (s.rxCtx c).stopping = true)
    (hg : (s.rxCtx c).gain = 0) :
    rxStopped c s = s.setRxCtx c { s.rxCtx c with state := .stopped, stopping := false, stop := none } :=
  if_pos ⟨hs, hst, hg⟩

end Rules

/-- Settles O29: each event, where it acts, has the effect of its own rule. -/
theorem streamEventsComplete : Obligations.StreamEventsComplete := by
  unfold Obligations.StreamEventsComplete
  intro s hheld
  refine ⟨?window, ?mismatch, ?launch, ?notLive, ?malformed, ?packet, ?stopped⟩
  case window =>
    rintro n x start crc rfl h he
    exact next_whenUp_of_eq hheld (tapWindowEnd_unexpected h he)
  case mismatch =>
    rintro n x start crc e rfl h he hne
    exact ⟨_, next_whenUp_of_eq hheld rfl, tapWindowEnd_mismatch h he hne⟩
  case launch =>
    rintro c x cfg k rest rfl hc hk hdue hf hl ho
    exact next_whenUp_of_eq hheld (packetLaunch_sends hc hk hdue hf hl ho)
  case notLive =>
    rintro c x cfg k rest rfl hc hk hdue hl
    exact next_whenUp_of_eq hheld (packetLaunch_not_live hc hk hdue hl)
  case malformed =>
    exact fun n frame st c x cfg h hone hc ht hbad => next_whenUp_of_eq hheld (mediaPacket_malformed h hone hc ht hbad)
  case packet => exact fun n frame st h => next_whenUp_of_eq hheld (mediaPacket_up h)
  case stopped =>
    rintro c x rfl hs hst hg
    exact next_whenUp_of_eq hheld (rxStopped_faded hs hst hg)

end Sys2Proof.Machine
end

section
/-! The pair's commands (R373, R375, R378, R384, R391, R402): each where it is accepted with its operands in range, and the
obligation on them. -/

namespace Sys2Proof.Machine

section Opened

variable {s : State} {q : Sender} {b : Body}

@[simp] theorem opened_red : (opened q b s).red = s.red := by rw [opened, takeSlotFor_frame]

@[simp] theorem redPairOk_opened (c : RedSetPair) : redPairOk (opened q b s) c = redPairOk s c := by
  simp only [redPairOk, opened_netPort]

@[simp] theorem handoverBusy_opened : handoverBusy (opened q b s) = handoverBusy s := by
  simp only [handoverBusy, opened_rdg, opened_mtx, opened_red]

end Opened

section Rules

variable {s : State}

/-- The identity that RED_SET_PAIR gives a node, and the state that it begins (R375, R378). -/
def Red.PairedBy (x : Red) (c : RedSetPair) : Prop :=
  x.pairId = c.pair ∧ x.nodeId = c.node.toNat ∧ x.preferred = (c.preferred == 1) ∧ x.claimMs = c.claim.toNat
    ∧ x.hbAddr = c.addr ∧ x.hbVlan = c.vlan ∧ x.state = (if c.pair = 0 then .unpaired else .claiming)

theorem redSetPair_in_range {c : RedSetPair} (hok : redPairOk s c = true) (hb : s.rdg.busyForRate = false)
    (hs : s.red.state ≠ .failSilent) :
    ∃ t, redSetPair c s = (t, Reply.ok []) ∧ t.red.PairedBy c ∧ t.red.epoch = s.red.epoch := by
  rw [redSetPair, hok, hb, Bool.not_true, if_neg Bool.false_ne_true, if_neg Bool.false_ne_true]
  exact ⟨_, rfl, ⟨rfl, rfl, decide_toNat_eq_one _, rfl, rfl, rfl, if_neg hs⟩, rfl⟩

theorem redSetShared_in_range {first : Half} {es : List SharedEntry} (h1 : 1 ≤ es.length) (h2 : es.length ≤ 480)
    (hok : es.all sharedOk = true) (hl : first.toNat + es.length ≤ sharedLimit s.pst.rate) :
    redSetShared first es s = ({ s with red := { s.red with
      shared := Store.putAll none s.red.shared first.toNat (es.map some) } }, Reply.ok []) := by
  have hin : ¬(es.length < 1 ∨ 480 < es.length ∨ (!(es.all sharedOk)) = true) := by
    rw [hok]
    rintro (h | h | h)
    · omega
    · omega
    · cases h
  rw [redSetShared, if_neg hin, if_neg (Nat.not_lt.2 hl)]

theorem sadSetPathdown_in_range {n : Half} (h2 : 2 ≤ n.toNat) (h1000 : n.toNat ≤ 1000) :
    sadSetPathdown n s = ({ s with stm := { s.stm with pathDown := n.toNat } }, Reply.ok []) := if_neg (by omega)

theorem redHandover_named {w : Word} (hw : w ≠ 0) (h8 : 8 ≤ ahead s w) (hs : s.red.state = .active)
    (hp : s.red.peerState = 3) (hb : handoverBusy s = false) :
    redHandover w s = ({ s with red := { s.red with handover := some w } }, Reply.ok (le32 w)) := by
  have hok : ¬(ahead s w < 8 ∨ s.red.state ≠ .active ∨ s.red.peerState ≠ 3) := by
    rintro (h | h | h)
    · omega
    · exact h hs
    · exact h hp
  simp only [redHandover, if_neg hw, if_neg hok, hb, if_neg Bool.false_ne_true]

/-- With no path to the peer left, the confirmed epoch makes an observer ACTIVE with an epoch above all heard. -/
theorem redForceActive_alone (hs : s.red.state = .observer) (hn : s.red.nrlOk = false) (ht : s.red.netOk = false) :
    redForceActive s.red.epoch s = (claim (BitVec.ofNat 32 (1 + max s.red.epoch.toNat s.red.heardEpoch.toNat)) s,
      Reply.ok (le32 (BitVec.ofNat 32 (1 + max s.red.epoch.toNat s.red.heardEpoch.toNat)))) := by
  simp [redForceActive, hs, hn, ht]

theorem redResync_observer (hs : s.red.state = .observer) : redResync s = (startJoin s, Reply.ok []) := by
  rw [redResync, hs]

theorem redResync_standby (hs : s.red.state = .standby) : redResync s = (startJoin (leaveStep 7 s), Reply.ok []) := by
  rw [redResync, hs]

theorem redGetStatus_reads : ∃ r, redGetStatus s = (s, r) ∧ r.status = .ok ∧ r.payload.length ≤ 1432 := by
  refine ⟨_, rfl, rfl, ?_⟩
  simp [Reply.ok, le32]

end Rules

/-- Settles O30: each row runs its command through the checks of R411, and with its operands in range the command has the
effect of its own rule. That RED_SET_PAIR begins CLAIMING again, and keeps the epoch, on a node already paired is the model's
choice (log 65). -/
theorem pairCommandsComplete : Obligations.PairCommandsComplete := by
  unfold Obligations.PairCommandsComplete
  intro s q
  refine ⟨?pair, ?shared, ?pathdown, ?handover, ?force, ?observer, ?standby, ?status⟩
  case pair =>
    intro c h hok hb hs
    obtain ⟨t, hrun, ⟨hpair, hnode, hpref, hclaim, haddr, hvlan, hstate⟩, hepoch⟩ :=
      redSetPair_in_range (s := opened q (bodyRedSetPair c) s) (c := c) (by simpa using hok) (by simpa using hb)
        (by simpa using hs)
    rw [opened_red] at hepoch
    exact ⟨t, closed_of_accepts rfl h hrun (by decide), hpair, hnode, hpref, hclaim, haddr, hvlan, hstate, hepoch⟩
  case shared =>
    exact fun first es h h1 h2 hok hl => runs_status_only rfl h (redSetShared_in_range h1 h2 hok (by simpa using hl))
  case pathdown => exact fun n h h2 h1000 => runs_status_only rfl h (sadSetPathdown_in_range h2 h1000)
  case handover =>
    exact fun w h hw h8 hs hp hb => runs_of_accepts rfl h (redHandover_named hw (by simpa using h8) (by simpa using hs)
      (by simpa using hp) (by simpa using hb)) (by simp [Reply.ok, le32])
  case force =>
    rintro e rfl h hs hn ht
    have hrun := redForceActive_alone (s := opened q (bodyRedForceActive s.red.epoch) s) (by simpa using hs)
      (by simpa using hn) (by simpa using ht)
    rw [opened_red] at hrun
    exact runs_of_accepts rfl h hrun (by simp [Reply.ok, le32])
  case observer => exact fun h hs => runs_status_only rfl h (redResync_observer (by simpa using hs))
  case standby =>
    exact fun h hs => runs_status_only (f := fun t => startJoin (leaveStep 7 t)) rfl h
      (redResync_standby (by simpa using hs))
  case status => exact fun h => reads_of_accepts rfl h redGetStatus_reads

end Sys2Proof.Machine
end

section
/-! The events of a pair's roles (R373, R378, R379, R385 to R387, R395, R396): each in the case in which it acts, and the
obligation on them. -/

namespace Sys2Proof.Machine

section Rules

variable {s : State} {path : HbPath} {h : Heartbeat}

theorem pathDown_pathB {c : Nat} (hs : (s.rxCtx c).state = .running) (hu : (s.rxCtx c).b.up = true) :
    pathDown c true s = reportFault 0x0E5 (BitVec.ofNat 16 c)
      (s.setRxCtx c { s.rxCtx c with b := { (s.rxCtx c).b with up := false } }) := by
  simp [pathDown, hs, hu]

theorem claimExpiry_unheard (hs : s.red.state = .claiming) (hh : s.red.heard = false) : claimExpiry s = claim 1 s := by
  simp [claimExpiry, hs, hh]

theorem winsTie_peerPreferred (hp : s.red.preferred = false) (hq : s.red.peerPreferred = true) :
    winsTie s = (false, s) := by
  simp [winsTie, hp, hq]

theorem claimExpiry_lost (hs : s.red.state = .claiming) (hh : s.red.heard = true) (hp : s.red.preferred = false)
    (hq : s.red.peerPreferred = true) : claimExpiry s = { s with red := { s.red with lostTie := true } } := by
  simp [claimExpiry, hs, hh, winsTie_peerPreferred hp hq]

theorem heartbeatSend_paired (hp : paired s = true) :
    heartbeatSend s = (enqueue s.red.hbB
      { bytes := hbFrame s (ownHeartbeat s), ingress := 6, cls := .heartbeat, stamp := none, tsDesc := none }
      (enqueue s.red.hbA
        { bytes := hbFrame s (ownHeartbeat s), ingress := 6, cls := .heartbeat, stamp := none, tsDesc := none }
        { s with red := { s.red with hseq := s.red.hseq + 1 } }).1).1 := by
  simp only [heartbeatSend, hp, Bool.not_true, if_neg Bool.false_ne_true]

theorem heartbeatReceived_invalid (hp : paired s = true) (hv : hbValid s path h = false) :
    heartbeatReceived path h s
      = { s with red := { s.red with nrl := { s.red.nrl with hbBad := s.red.nrl.hbBad + 1 } } } := by
  simp [heartbeatReceived, hp, hv]

theorem hearPeer_state : (hearPeer path h s).red.state = s.red.state := rfl

theorem hearPeer_epoch : (hearPeer path h s).red.epoch = s.red.epoch := rfl

theorem heartbeatReceived_standby (hp : paired s = true) (hv : hbValid s path h = true) (hs : s.red.state = .standby) :
    heartbeatReceived path h s = hearPeer path h s := by
  simp [heartbeatReceived, hp, hv, hearPeer_state, hs]

/-- An ACTIVE node gives way to an ACTIVE peer of a later epoch (R378, R379). -/
theorem heartbeatReceived_outranked (hp : paired s = true) (hv : hbValid s path h = true) (hs : s.red.state = .active)
    (h4 : h.state = 4) (he : s.red.epoch.toNat < h.epoch.toNat) :
    heartbeatReceived path h s = demote (hearPeer path h s) := by
  simp [heartbeatReceived, hp, hv, hearPeer_state, hearPeer_epoch, hs, h4, he]

theorem heartbeatReceived_claiming (hp : paired s = true) (hv : hbValid s path h = true) (hs : s.red.state = .claiming)
    (he : h.epoch ≠ 0) : heartbeatReceived path h s = toObserver (hearPeer path h s) := by
  have he0 : h.epoch ≠ 0#32 := he
  simp [heartbeatReceived, hp, hv, hearPeer_state, hs, he0]

/-- The last path to the active is silent, and the standby takes over (R378, R387). -/
theorem silenceTimeout_last (hp : paired s = true) (hs : s.red.state = .standby) (hn : s.red.nrlOk = true)
    (ht : s.red.netOk = false) :
    silenceTimeout .noril s = reportOwn 0x0E0 (toActive (s.red.epoch + 1) { s with red := { s.red with
      nrlOk := false, failover := s.red.failover + 1, lastFailover := s.mcnt } }) := by
  simp [silenceTimeout, hp, hn, ht, peerFailed, hs, State.mcnt]

theorem silenceTimeout_network (hp : paired s = true) (hn : s.red.nrlOk = true) (ht : s.red.netOk = true) :
    silenceTimeout .network s = reportOwn 0x0E7 { s with red := { s.red with netOk := false } } := by
  have hpath : (HbPath.network != .noril) = true := rfl
  simp [silenceTimeout, hp, hn, ht, hpath]

end Rules

/-- Settles O31: each event, where it acts, has the effect of its own rule. Within these effects the tag that an unkeyed pair
checks and the leave cause of a demotion are the model's choices (logs 43, 65). -/
theorem pairRoleEventsComplete : Obligations.PairRoleEventsComplete := by
  unfold Obligations.PairRoleEventsComplete
  intro s hheld
  refine ⟨?path, ?claim, ?tie, ?send, ?bad, ?standby, ?demoted, ?claiming, ?takeover, ?network⟩
  case path =>
    rintro c x rfl hs hu
    exact next_whenUp_of_eq hheld (pathDown_pathB hs hu)
  case claim => exact fun hs hh => next_whenUp_of_eq hheld (claimExpiry_unheard hs hh)
  case tie => exact fun hs hh hp hq => next_whenUp_of_eq hheld (claimExpiry_lost hs hh hp hq)
  case send => exact fun hp => next_whenUp_of_eq hheld (heartbeatSend_paired hp)
  case bad => exact fun path h hp hv => next_whenUp_of_eq hheld (heartbeatReceived_invalid hp hv)
  case standby => exact fun path h hp hv hs => next_whenUp_of_eq hheld (heartbeatReceived_standby hp hv hs)
  case demoted => exact fun path h hp hv hs h4 he => next_whenUp_of_eq hheld (heartbeatReceived_outranked hp hv hs h4 he)
  case claiming =>
    exact fun path h hp hv hs he => ⟨_, next_whenUp_of_eq hheld (heartbeatReceived_claiming hp hv hs he), rfl, rfl⟩
  case takeover => exact fun hp hs hn ht => next_whenUp_of_eq hheld (silenceTimeout_last hp hs hn ht)
  case network => exact fun hp hn ht => next_whenUp_of_eq hheld (silenceTimeout_network hp hn ht)

end Sys2Proof.Machine
end

section
/-! The Noril link's events (R380, R382 to R384, R389 to R391, R393, R394): each in the case in which it acts, and the
obligation on them. -/

namespace Sys2Proof.Machine

/-- A wave ahead by less than half the circle is that many waves ahead. -/
theorem serialDiff_add_left (a : Word) {n : Nat} (h : n < 2 ^ 31) : serialDiff (a + BitVec.ofNat 32 n) a = n := by
  have hsub : a + BitVec.ofNat 32 n - a = BitVec.ofNat 32 n := by rw [BitVec.add_comm, BitVec.add_sub_cancel]
  rw [serialDiff, hsub, BitVec.toInt_eq_toNat_cond, BitVec.toNat_ofNat, Nat.mod_eq_of_lt (by omega)]
  omega

theorem mirrorPeriod_pos (rate : Nat) : 0 < mirrorPeriod rate := by
  unfold mirrorPeriod
  split
  · decide
  · split <;> decide

section Rules

variable {s : State}

theorem norilUp_active (hs : s.red.state = .active) :
    norilUp s = { s with red := { s.red with nrl := { s.red.nrl with up := true } } } := by
  simp only [norilUp, hs]

/-- The WAVE frame that a node sends carries its own wave and state (R383). -/
theorem waveSend_up (hp : paired s = true) (hu : s.red.nrl.up = true) :
    ∃ f, (waveSend s).red.nrl.sentWave = some f ∧ f.p = s.mcnt ∧ f.state = BitVec.ofNat 8 s.red.state.code
      ∧ waveSend s = { s with red := (waveSend s).red } := by
  simp only [waveSend, hp, hu, Bool.not_true, Bool.or_false, if_neg Bool.false_ne_true]
  exact ⟨_, rfl, rfl, rfl, trivial⟩

/-- A frame of this very wave, from a peer that is not ACTIVE, is taken in and judges nothing (R393, R394). -/
theorem waveReceived_from_standby {f : WaveFrame} (hp : paired s = true) (hu : s.red.nrl.up = true) (hw : f.p = s.mcnt)
    (hf : f.state = 3) :
    waveReceived f s = { s with red := (waveReceived f s).red } ∧ (waveReceived f s).red.skewFree = s.red.skewFree + 1
      ∧ (waveReceived f s).red.waveSeen = some f.p ∧ (waveReceived f s).red.missing = none
      ∧ (waveReceived f s).red.state = s.red.state := by
  have hskew : (f.p != s.mcnt) = false := by simp [hw]
  have h4 : ¬f.state.toNat = 4 := by simp [hf]
  simp only [waveReceived, hp, hu, hskew, h4, false_and, Bool.not_true, Bool.or_false, if_neg Bool.false_ne_true, if_false,
    and_self]

theorem judgeEarly_not_standby {c : Word} (hs : s.red.state ≠ .standby) : judgeEarly c s = s := if_pos hs

theorem waveMissing_not_standby (hp : paired s = true) (hs : s.red.state ≠ .standby) :
    waveMissing s = { s with red := { s.red with
      missing := some (s.red.missing.getD false), nrl := { s.red.nrl with waveMiss := s.red.nrl.waveMiss + 1 } } } := by
  simp only [waveMissing, hp, Bool.not_true, if_neg Bool.false_ne_true]
  exact judgeEarly_not_standby hs

theorem sharedFade_due {i : Nat} (hg : (s.sharedCh i).gate = .isOpen)
    (hm : holdLimit s.pst.rate ≤ (s.sharedCh i).missing) :
    sharedFade i s = s.setSharedCh i { s.sharedCh i with gate := .fadeOut 0 } := if_pos ⟨hg, hm⟩

theorem tookFrame_join : (tookFrame s).red.join = s.red.join := rfl

/-- A node with its own configuration in step applies a forwarded command at once (R389). -/
theorem mirrorCmd_applies {m : MirrorCmd} (hp : paired s = true) (hu : s.red.nrl.up = true) (hf : follows s = true)
    (hj : ∀ w snap, s.red.join ≠ .adopting w snap) : mirrorCmd m s = applyForwarded m (tookFrame s) := by
  simp only [mirrorCmd, hp, hu, hf, Bool.not_true, Bool.or_false, if_neg Bool.false_ne_true]
  split
  next w snap h => exact absurd (tookFrame_join.symm.trans h) (hj w snap)
  next => rfl

/-- A node that waits for its adoption keeps the command (R391). -/
theorem mirrorCmd_recorded {m : MirrorCmd} {w : Word} {snap : Snapshot} (hp : paired s = true) (hu : s.red.nrl.up = true)
    (hf : follows s = true) (hj : s.red.join = .adopting w snap) :
    mirrorCmd m s = { tookFrame s with red := { (tookFrame s).red with recorded := s.red.recorded ++ [m] } } := by
  simp only [mirrorCmd, hp, hu, hf, Bool.not_true, Bool.or_false, if_neg Bool.false_ne_true, tookFrame_join, hj]
  rfl

theorem peerFollows_standby (hs : s.red.state = .standby) : peerFollows s = false := by simp [peerFollows, hs]

/-- Without mirror regions a standby numbers the period, and no more. -/
theorem mirrorBoundary_standby {k : Nat} (hk : k * mirrorPeriod s.pst.rate < 2 ^ 31)
    (hm : s.mcnt = s.red.mirrorFrom + BitVec.ofNat 32 (k * mirrorPeriod s.pst.rate)) (hr : s.own.regions = [])
    (hs : s.red.state = .standby) :
    mirrorBoundary s = { s with red := { s.red with mirrorNo := BitVec.ofNat 32 k } } := by
  have hd : serialDiff s.mcnt s.red.mirrorFrom = (k * mirrorPeriod s.pst.rate : Nat) := hm ▸ serialDiff_add_left _ hk
  have hdue : ¬(((k * mirrorPeriod s.pst.rate : Nat) : Int) < 0
      ∨ ((k * mirrorPeriod s.pst.rate : Nat) : Int).toNat % mirrorPeriod s.pst.rate ≠ 0) := by
    rintro (h | h)
    · omega
    · exact h (by rw [Int.toNat_natCast, Nat.mul_mod_left])
  simp only [mirrorBoundary, hd]
  rw [if_neg hdue, Int.toNat_natCast, Nat.mul_div_cancel _ (mirrorPeriod_pos _), hr, List.filter_nil, List.foldl_nil]
  exact if_pos (congrArg Bool.not (peerFollows_standby hs))

theorem regionOf_tookFrame (use : RegionUse) (part : Nat) : regionOf (tookFrame s) use part = regionOf s use part := rfl

/-- A record equal to the bytes of this node's outbox lands in the inbox and counts no difference (R390). -/
theorem mirrorRec_same {m : MirrorRec} {i o : Region} (hp : paired s = true) (hu : s.red.nrl.up = true)
    (hi : regionOf s .mirrorInbox m.part.val = some i) (ho : regionOf s .mirrorOutbox m.part.val = some o)
    (hfit : m.offset.toNat + m.bytes.length ≤ i.size)
    (hown : s.mem.readTarn (o.base + m.offset.toNat) m.bytes.length = m.bytes) :
    mirrorRec m s = { tookFrame s with mem := s.mem.writeTarn (i.base + m.offset.toNat) m.bytes } := by
  simp only [mirrorRec, hp, hu, regionOf_tookFrame, hi, ho, Nat.not_lt.2 hfit, Bool.not_true, Bool.or_false,
    if_neg Bool.false_ne_true, if_false]
  exact if_pos hown

/-- With the link down nothing waiting is sent in the place of what the ACK releases. -/
theorem ackReceived_down {seq : Word} (hd : s.red.nrl.up = false) :
    ackReceived seq s = { s with red := { s.red with nrl := { s.red.nrl with
      unacked := s.red.nrl.unacked.filter fun f => decide (0 < serialDiff f.seq seq) } } } := by
  simp only [ackReceived, Nrl.pump, hd, if_neg Bool.false_ne_true]

theorem joinReceived_first (hs : s.red.state = .active) (hp : paired s = true) (hn : s.red.nrl.snapshot = false) :
    joinReceived s = { s with red := { s.red with
      peerJoined := false, recorded := [], adoption := none, nrl := { s.red.nrl with snapshot := true } } } := by
  have hok : ¬(s.red.state ≠ .active ∨ (!paired s) = true) := by simp [hs, hp]
  simp only [joinReceived, if_neg hok, hn, if_neg Bool.false_ne_true]

theorem snapshotComplete_asked {w : Word} {snap : Snapshot} (hs : s.red.state = .observer) (hj : s.red.join = .asked)
    (h8 : 8 ≤ ahead s w) :
    snapshotComplete w snap s = { s with red := { s.red with
      join := .adopting w snap, nrl := { s.red.nrl with snapshot := false }, recorded := [], mirrorFrom := w } } := by
  simp only [snapshotComplete, if_neg (Int.not_lt.2 h8), hs, hj]

end Rules

/-- Settles O32: each event, where it acts, has the effect of its own rule. The numbering of the mirror periods, from the wave
of the claim or of the adoption on, is the model's choice (log 45). -/
theorem linkEventsComplete : Obligations.LinkEventsComplete := by
  unfold Obligations.LinkEventsComplete
  intro s hheld
  refine ⟨?up, ?down, ?send, ?receive, ?missing, ?fade, ?apply, ?record, ?timeout, ?outcome, ?boundary, ?mirror, ?ackSend,
    ?ack, ?retransmit, ?join, ?snapshot⟩
  case up => exact fun hs => next_whenUp_of_eq hheld (norilUp_active hs)
  case down => exact ⟨_, next_whenUp_of_eq hheld rfl, rfl⟩
  case send =>
    intro hp hu
    obtain ⟨f, hsent, hwave, hstate, hframe⟩ := waveSend_up hp hu
    exact ⟨_, f, next_whenUp_of_eq hheld rfl, hsent, hwave, hstate, hframe⟩
  case receive => exact fun f hp hu hw hf => ⟨_, next_whenUp_of_eq hheld rfl, waveReceived_from_standby hp hu hw hf⟩
  case missing => exact fun hp hs => next_whenUp_of_eq hheld (waveMissing_not_standby hp hs)
  case fade =>
    rintro i x rfl hg hm
    exact next_whenUp_of_eq hheld (sharedFade_due hg hm)
  case apply => exact fun m hp hu hf hj => next_whenUp_of_eq hheld (mirrorCmd_applies hp hu hf hj)
  case record =>
    exact fun m w snap hp hu hf hj => ⟨_, next_whenUp_of_eq hheld (mirrorCmd_recorded hp hu hf hj), rfl, rfl⟩
  case timeout => exact fun q => next_whenUp_of_eq hheld rfl
  case outcome => exact fun q => next_whenUp_of_eq hheld rfl
  case boundary => exact fun k hk hm hr hs => next_whenUp_of_eq hheld (mirrorBoundary_standby hk hm hr hs)
  case mirror => exact fun m i o hp hu hi ho hfit hown => next_whenUp_of_eq hheld (mirrorRec_same hp hu hi ho hfit hown)
  case ackSend => exact next_whenUp_of_eq hheld rfl
  case ack => exact fun seq hd => next_whenUp_of_eq hheld (ackReceived_down hd)
  case retransmit => exact next_whenUp_of_eq hheld rfl
  case join => exact fun hs hp hn => next_whenUp_of_eq hheld (joinReceived_first hs hp hn)
  case snapshot => exact fun w snap hs hj h8 => next_whenUp_of_eq hheld (snapshotComplete_asked hs hj h8)

end Sys2Proof.Machine
end

section
/-! The system commands (R410, R424, R428, R430): what a command that takes its slot leaves of a partition's session, what each
command does where it is accepted, and the obligation on them. -/

namespace Sys2Proof.Machine

section Parts

variable {s : State} {p n : Nat} {α : Type} {π : PartCmd → α}

/-- What a change of a partition's command state leaves of it, the change leaves of every partition's. -/
theorem State.map_part_setPart {c : PartCmd} (h : π c = π (s.part p)) : π ((s.setPart p c).part n) = π (s.part n) := by
  by_cases hn : n = p
  · subst hn
    by_cases hlt : n < s.cmds.length
    · rw [State.part_setPart _ _ _ hlt, h]
    · rw [State.setPart, List.set_eq_of_length_le (Nat.not_lt.1 hlt)]
  · rw [State.part_setPart_other _ _ _ _ hn]

theorem map_part_onSlot {udp : Bool} {f : CmdSlot → CmdSlot}
    (hπ : ∀ c m u, π { c with mbox := m, udp := u } = π c) : π ((onSlot p udp f s).part n) = π (s.part n) := by
  refine State.map_part_setPart ?_
  cases udp
  · exact hπ (s.part p) _ (s.part p).udp
  · exact hπ (s.part p) (s.part p).mbox _

/-- A command that takes its slot changes the slot and the packet area alone. -/
theorem map_part_opened {q : Sender} {b : Body} (hπ : ∀ c a m u, π { c with area := a, mbox := m, udp := u } = π c) :
    π ((opened q b s).part n) = π (s.part n) := by
  have hslot : ∀ c m u, π { c with mbox := m, udp := u } = π c := fun c m u => hπ c c.area m u
  simp only [opened, takeSlotFor]
  split
  · rfl
  · split
    · exact map_part_onSlot hslot
    · exact (State.map_part_setPart (hπ _ _ _ _)).trans (map_part_onSlot hslot)

@[simp] theorem opened_session {q : Sender} {b : Body} : ((opened q b s).part n).session = (s.part n).session :=
  map_part_opened (π := PartCmd.session) fun _ _ _ _ => rfl

@[simp] theorem opened_lastCtr {q : Sender} {b : Body} : ((opened q b s).part n).lastCtr = (s.part n).lastCtr :=
  map_part_opened (π := PartCmd.lastCtr) fun _ _ _ _ => rfl

@[simp] theorem State.cmds_length_setPart {c : PartCmd} : (s.setPart p c).cmds.length = s.cmds.length :=
  List.length_set

@[simp] theorem cmds_length_opened {q : Sender} {b : Body} : (opened q b s).cmds.length = s.cmds.length := by
  simp only [opened, takeSlotFor]
  split
  · rfl
  · split
    · exact State.cmds_length_setPart
    · exact State.cmds_length_setPart.trans State.cmds_length_setPart

end Parts

section Opened

variable {s : State} {q : Sender} {b : Body}

@[simp] theorem opened_sec : (opened q b s).sec = s.sec := by rw [opened, takeSlotFor_frame]

@[simp] theorem opened_flash : (opened q b s).flash = s.flash := by rw [opened, takeSlotFor_frame]

@[simp] theorem opened_ka : (opened q b s).ka = s.ka := by rw [opened, takeSlotFor_frame]

@[simp] theorem opened_pins : (opened q b s).pins = s.pins := by rw [opened, takeSlotFor_frame]

@[simp] theorem paired_opened : paired (opened q b s) = paired s := by simp only [paired, opened_red, opened_lkt]

@[simp] theorem loadSlot_opened (c : ProfileLoad) : loadSlot (opened q b s) c = loadSlot s c := by
  simp only [loadSlot, opened_pins]

@[simp] theorem isSealed_opened (n : Nat) : isSealed (opened q b s) n = isSealed s n := by
  simp only [isSealed, opened_flash]

@[simp] theorem eraseGuarded_opened (n : Nat) : eraseGuarded (opened q b s) n = eraseGuarded s n := by
  simp only [eraseGuarded, nextBootSlot, opened_ka, opened_pins, opened_boot]

@[simp] theorem flashBlank_opened (a n : Nat) : flashBlank (opened q b s) a n = flashBlank s a n := by
  simp only [flashBlank, opened_flash]

@[simp] theorem flashWriteOk_opened (base : Nat) (w : FlashWrite) :
    flashWriteOk (opened q b s) base w = flashWriteOk s base w := by
  simp only [flashWriteOk, flashBlank_opened]

end Opened

section Rules

variable {s : State}

/-- A drawn session is not the one it replaces (R408). -/
theorem pickSession_ne_old (old w : Word) : pickSession old w ≠ old := by
  unfold pickSession
  split
  next h => exact h.2
  next h =>
    split
    next k => exact k.2
    next k =>
      rintro rfl
      have hw : w = 0 := by_contra fun hne => h ⟨hne, by bv_omega⟩
      exact k ⟨by bv_omega, by bv_omega⟩

theorem sysHello_same {p : Nat} :
    sysHello p false s = (s, Reply.ok (le32 (s.part p).session ++ le64 (s.part p).lastCtr)) := rfl

/-- A new session is unlike the old one, and its counter begins at 0. -/
theorem sysHello_new {p : Nat} (hd : s.sec.drbgStopped = false) (hp : p < s.cmds.length) :
    ∃ t w, sysHello p true s = (t, Reply.ok (le32 w ++ le64 0)) ∧ (t.part p).session = w ∧ (t.part p).lastCtr = 0
      ∧ w ≠ (s.part p).session := by
  simp only [sysHello, hd, Bool.and_false, if_neg Bool.false_ne_true, if_true]
  refine ⟨_, _, rfl, ?_, ?_, pickSession_ne_old _ (draw s).1⟩
  · exact congrArg PartCmd.session (State.part_setPart (draw s).2 _ _ hp)
  · exact congrArg PartCmd.lastCtr (State.part_setPart (draw s).2 _ _ hp)

theorem sysGetInfo_reads : ∃ r, sysGetInfo s = (s, r) ∧ r.status = .ok ∧ r.payload.length ≤ 1432 := by
  refine ⟨_, rfl, rfl, ?_⟩
  simp [Reply.ok, le32, le16]

theorem sysGetOwnership_reads : ∃ r, sysGetOwnership s = (s, r) ∧ r.status = .ok ∧ r.payload.length ≤ 1432 := by
  refine ⟨_, rfl, rfl, ?_⟩
  simp only [Reply.ok]
  rw [length_flatMap_of_length_eq (k := 1) fun i => leBytes_length 1 _, List.length_range]
  decide

theorem flashRead_length {f : Flash} {a n : Nat} : (flashRead f a n).length = n := by
  rw [flashRead, Store.slice, List.length_map, List.length_range]

theorem profHead_name_length {n : Nat} {h : ProfHead} (hh : profHead s n = some h) : h.name.length = 32 := by
  unfold profHead at hh
  simp only at hh
  split at hh
  · cases hh
    rw [List.length_take, List.length_drop, flashRead_length]
    rfl
  · cases hh

theorem profileEntry_length (n : Nat) : (profileEntry s n).length = 41 := by
  unfold profileEntry
  split
  next h _ hh => simp [le32, profHead_name_length hh]
  next => exact List.length_replicate

theorem sysProfileList_reads : ∃ r, sysProfileList s = (s, r) ∧ r.status = .ok ∧ r.payload.length ≤ 1432 := by
  refine ⟨_, rfl, rfl, ?_⟩
  simp only [Reply.ok]
  rw [length_flatMap_of_length_eq profileEntry_length, List.length_range]
  decide

theorem sysProfileLoad_alone {c : ProfileLoad} (hn : loadSlot s c ≤ 7) (hf : c.flags.toNat ≤ 7)
    (ht : s.boot.teardown = none) (hj : (runningJobs s).any Job.editsProfile = false) (hp : paired s = false) :
    sysProfileLoad c s = (s, Reply.code .pending) := by
  rw [sysProfileLoad, if_neg (by omega), ht, hj, hp]
  rfl

theorem sysProfileErase_unguarded {c : ProfileErase} (hn : c.slot.toNat ≤ 7) (hf : c.flags &&& 0xFD = 0)
    (hg : eraseGuarded s c.slot.toNat = false) : sysProfileErase c s = (s, Reply.code .pending) := by
  rw [sysProfileErase, if_neg (not_or.2 ⟨Nat.not_lt.2 hn, not_not.2 hf⟩), hg]
  rfl

theorem sysProfileWrite_erased {c : FlashWrite} (hn : c.unit.toNat ≤ 7) (hl : c.data.length = c.length.toNat)
    (hs : isSealed s c.unit.toNat = false) (hw : flashWriteOk s (slotBase c.unit.toNat) c = true) :
    sysProfileWrite c s = (flashWrite (slotBase c.unit.toNat + c.offset.toNat) c.data s, Reply.ok []) := by
  simp [sysProfileWrite, hl, Nat.not_lt.2 hn, hs, hw]

theorem sysProfileSeal_unsealed {n : Byte} (hn : n.toNat ≤ 7) (hs : isSealed s n.toNat = false) :
    sysProfileSeal n s = (s, Reply.code .pending) := by
  simp [sysProfileSeal, Nat.not_lt.2 hn, hs]

end Rules

/-- A command whose work goes on answers PENDING and has changed its slot alone. -/
theorem runs_pending {s : State} {q : Sender} {b : Body} {i : Instr}
    (hrow : exec i s = .next (whenUp s (runCommand q b s))) (h : Accepts s q b)
    (hrun : b.run q.part.val (q.via == .udp) (opened q b s) = (opened q b s, Reply.code .pending)) :
    Runs i q b s (Reply.code .pending) id := runs_of_accepts hrow h hrun (by decide)

/-- Settles O33: each row runs its command through the checks of R411, and with its operands in range the command has the
effect of its own rule. -/
theorem systemCommandsComplete : Obligations.SystemCommandsComplete := by
  unfold Obligations.SystemCommandsComplete
  intro s q
  refine ⟨?hello, ?new, ?info, ?ownership, ?load, ?erase, ?write, ?slotSeal, ?list⟩
  case hello =>
    intro h
    refine runs_of_accepts rfl h (sysHello_same.trans ?_) (by simp [Reply.ok, le32, le64])
    rw [opened_session, opened_lastCtr, id]
  case new =>
    intro h hd hlen
    obtain ⟨t, w, hrun, hsession, hctr, hne⟩ := sysHello_new (s := opened q (bodySysHello true) s) (p := q.part.val)
      (by simpa using hd) (by rw [cmds_length_opened, hlen]; exact q.part.isLt)
    rw [opened_session] at hne
    exact ⟨t, w, closed_of_accepts rfl h hrun (by simp [Reply.ok, le32, le64]), hsession, hctr, hne⟩
  case info => exact fun h => reads_of_accepts rfl h sysGetInfo_reads
  case ownership => exact fun h => reads_of_accepts rfl h sysGetOwnership_reads
  case load =>
    exact fun c h hn hf ht hj hp =>
      runs_pending rfl h (sysProfileLoad_alone (by simpa using hn) hf (by simpa using ht) hj (by simpa using hp))
  case erase => exact fun c h hn hf hg => runs_pending rfl h (sysProfileErase_unguarded hn hf (by simpa using hg))
  case write =>
    exact fun c h hn hl hs hw =>
      runs_status_only rfl h (sysProfileWrite_erased hn hl (by simpa using hs) (by simpa using hw))
  case slotSeal => exact fun n h hn hs => runs_pending rfl h (sysProfileSeal_unsealed hn (by simpa using hs))
  case list => exact fun h => reads_of_accepts rfl h sysProfileList_reads

end Sys2Proof.Machine
end

section
/-! The ends of commands, of datagrams and of a teardown (R411, R413, R416, R417, R428, R430, R520): what entering reset leaves,
what an erase that ends leaves, and the obligation on these events. -/

namespace Sys2Proof.Machine

section Rules

variable {s : State}

/-- A part outside those that may change is the same. -/
theorem Kept.flash_eq {r : Bool} {c : List Part} {t : State} (h : Kept r c s t) (hc : .flash ∉ c) : t.flash = s.flash :=
  (h.parts .flash).resolve_left hc

/-! What the domains leave as they enter reset (R512, R523). -/

/-- An erase that a reset interrupts touches the flash alone. -/
theorem abandonJob_frame (j : Job) : abandonJob s j = { s with flash := (abandonJob s j).flash } := by
  cases j <;> rfl

theorem foldl_abandonJob_frame (l : List Job) : l.foldl abandonJob s = { s with flash := (l.foldl abandonJob s).flash } := by
  induction l generalizing s with
  | nil => rfl
  | cons j l ih =>
    rw [List.foldl_cons, ih, abandonJob_frame]

theorem resetDomains_ka : (resetDomains s).ka = { s.ka with reassert := s.ka.deepOff && s.ka.reassert } := by
  have h : ((runningJobs s).foldl abandonJob s).ka = s.ka := by rw [foldl_abandonJob_frame]
  rw [← h]
  rfl

/-- The teardown of a deep-off drops PWR_EN and holds the domains in reset (R520). -/
theorem teardownReset_deepOff (sel : BitVec 3) (h : s.boot.teardown = some .deepOff) :
    (teardownReset sel s).ka.deepOff = true ∧ (teardownReset sel s).ka.pwrEn = false := by
  simp only [teardownReset, h, dropShadow, resetDomains_ka, and_self]

theorem teardownReset_load {sel : BitVec 3} {n : Nat} (h : s.boot.teardown = some (.load n)) :
    teardownReset sel s = beginBoot 3 sel (resetDomains s) := by
  simp only [teardownReset, h]

/-- A fragment is taken from the host ring, and counted as dropped (R416). -/
theorem udpCommand_fragment {n : Nat} {bs : List Byte} (h4 : isIpv4 bs = true) (hp : ipProto bs = 17)
    (hd : ipDst bs = s.own.hostIp.toNat) (hc : s.lkt.coresRun = true) (hh : s.boot.halted = false)
    (hf : isFragment bs = true) :
    udpCommand n bs s = udpDropped (s.setRxRing 0 { s.rxRing 0 with
      queue := (s.rxRing 0).queue.filter fun f => f.bytes != bs }) := by
  simp [udpCommand, h4, hp, hd, hc, hh, hf]

section Ends

variable {q : Sender} (hx : (slotOf q s).executing = true)
  (hs : serves s q.part.val (q.via == .udp) (slotOf q s).hdr.opcode.toNat = true)

include hx hs

/-- A result that is not held for the peer is answered (R413). -/
theorem executionEnd_result {r : Reply} (hh : (slotOf q s).held = false) (hr : (slotOf q s).result = some r) :
    executionEnd q s = answer q.part.val (q.via == .udp) r s := by
  rw [slotOf] at hx hs hh hr
  simp [executionEnd, hx, hs, hh, hr]

/-- An erase that ends leaves the flash erased, whatever becomes of its reply (R417, R430). -/
theorem executionEnd_profileErase {n : Nat} (hr : (slotOf q s).result = none)
    (hj : (slotOf q s).job = some (.profileErase n)) : (executionEnd q s).flash = (profileEraseEnd n s).1.flash := by
  rw [slotOf] at hx hs hr hj
  have hgiven : Kept false [.lkt, .cmds, .boot, .tdm, .net, .red, .tw] (profileEraseEnd n s).1
      (giveResult q.part.val (q.via == .udp) (.profileErase n) (profileEraseEnd n s).2
        (noteEval s (profileEraseEnd n s).1)) :=
    giveResult_kept (.of (fun _ h => h) rfl) (noteEval_kept (fun _ h => h) (Kept.refl _ _ _))
  simp only [executionEnd, hx, hs, hr, hj, jobEnd, Bool.not_true, Bool.or_false, if_neg Bool.false_ne_true]
  split
  · exact hgiven.flash_eq (by decide)
  · split
    · exact hgiven.flash_eq (by decide)
    · exact (answer_kept (fun _ h => h) hgiven).flash_eq (by decide)

end Ends

theorem getLsbD_setBit_false {w : Nat} (x : BitVec w) (n : Nat) : (setBit x n false).getLsbD n = false := by
  have htwo : BitVec.ofNat w (2 ^ n) = BitVec.twoPow w n :=
    BitVec.eq_of_toNat_eq (by rw [BitVec.toNat_ofNat, BitVec.toNat_twoPow])
  rw [setBit, if_neg Bool.false_ne_true, htwo, BitVec.getLsbD_and, BitVec.getLsbD_not, BitVec.getLsbD_twoPow]
  simp

theorem Store.look_filter_outside {α : Type} {d : α} {p : Nat → Bool} {i : Nat} (hp : p i = false) (st : Store α) :
    Store.look d (st.filter fun c => p c.1) i = d := by
  induction st with
  | nil => rfl
  | cons e st ih =>
    by_cases he : p e.1 = true
    · have hne : i ≠ e.1 := by rintro rfl; rw [hp] at he; cases he
      rw [List.filter_cons_of_pos (p := fun c : Nat × α => p c.1) he, Store.look, if_neg hne, ih]
    · rw [List.filter_cons_of_neg (p := fun c : Nat × α => p c.1) he, ih]

/-- An erased range is blank (R424). -/
theorem flashBlank_flashErase (a n : Nat) : flashBlank (flashErase a n s) a n = true := by
  rw [flashBlank, List.all_eq_true]
  intro b hb
  obtain ⟨j, hj, rfl⟩ := List.mem_map.1 hb
  have hin : (!decide (a ≤ a + j ∧ a + j < a + n)) = false := by
    have := List.mem_range.1 hj
    simp
    omega
  rw [beq_iff_eq]
  exact Store.look_filter_outside (p := fun k => !decide (a ≤ k ∧ k < a + n)) hin _

theorem flashBlank_of_bytes_eq {t : State} (h : t.flash.bytes = s.flash.bytes) (a n : Nat) :
    flashBlank t a n = flashBlank s a n := by
  simp only [flashBlank, flashRead, h]

/-- An erased slot has no seal and no contents (R425, R430). -/
theorem profileEraseEnd_erases {n : Nat} {t : State} (h : t.flash = (profileEraseEnd n s).1.flash) :
    isSealed t n = false ∧ flashBlank t (slotBase n) slotBytes = true := by
  refine ⟨?_, (flashBlank_of_bytes_eq (congrArg Flash.bytes h) _ _).trans (flashBlank_flashErase _ _)⟩
  rw [isSealed, h]
  exact getLsbD_setBit_false _ _

end Rules

/-- Settles O34: each event, where it acts, has the effect of its own rule. That a load begins its boot as a restart does, with
LAST_START 3 and the fuse shadow kept, is the model's choice (log 68). -/
theorem systemEventsComplete : Obligations.SystemEventsComplete := by
  unfold Obligations.SystemEventsComplete
  intro s
  refine ⟨?deepOff, ?load, ?fragment, ?result, ?erase⟩
  case deepOff => exact fun sel h => ⟨_, rfl, teardownReset_deepOff sel h⟩
  case load => exact fun sel n h => congrArg Host.Outcome.next (teardownReset_load h)
  case fragment =>
    intro n frame hheld h4 hp hd hc hh hf
    exact ⟨_, next_whenUp_of_eq hheld (udpCommand_fragment h4 hp hd hc hh hf), rfl, rfl⟩
  case result => exact fun q r hheld hx hh hr hs => next_whenUp_of_eq hheld (executionEnd_result hx hs hh hr)
  case erase =>
    exact fun q n hheld hx _ hr hj hs =>
      ⟨_, next_whenUp_of_eq hheld rfl, profileEraseEnd_erases (executionEnd_profileErase hx hs hr hj)⟩

end Sys2Proof.Machine
end

section
/-! The mailbox rows (R412, R413, R415, R422): the doorbell, CMD_RSTAT, CMD_ACK, the packet area and SPI frames, and the
obligation on them. -/

namespace Sys2Proof.Machine

section Rules

variable {s : State} {q : Requester} {a m o : Nat} {w : Word}

theorem regStore_mbox (hm : m < 4) (ho : o < 0x1000) :
    regStore q (0x1000 + 0x1000 * m + o) w s = mboxWrite m o w s := by
  have hm' : (0x1000 + 0x1000 * m + o - 0x1000) / 0x1000 = m := by omega
  have ho' : (0x1000 + 0x1000 * m + o) % 0x1000 = o := by omega
  rw [regStore, if_neg (by omega), if_neg (by omega), if_neg (by omega), if_pos (by omega), hm', ho']

/-- An accepted write to a mailbox has the mailbox's own effect (R412). -/
theorem write_mbox (h : MayWrite s q a) (hm : m < 4) (ho : o < 0x1000) (h4 : o % 4 = 0) (ha : 0x1000 + 0x1000 * m + o = a) :
    whenUp s (busWrite q a w true s) = mboxWrite m o w s := by
  rw [write_runs_regStore h (isReg_of_lt_5000 (by omega) (by omega)) (decide_eq_false (by omega)) (by omega), ← ha,
    regStore_mbox hm ho]

/-- The row of such a write answers the state after it. -/
theorem next_write_mbox {t : State} (h : MayWrite s q a) (hm : m < 4) (ho : o < 0x1000) (h4 : o % 4 = 0)
    (ha : 0x1000 + 0x1000 * m + o = a) (ht : mboxWrite m o w s = t) :
    (.next (whenUp s (busWrite q a w true s)) : Host.Outcome State Fault Refusal) = .next t :=
  congrArg Host.Outcome.next ((write_mbox h hm ho h4 ha).trans ht)

theorem mboxWrite_doorbell : mboxWrite m 0xFE0 w s = doorbell m s := rfl

theorem mboxWrite_ackReply (h : (s.part m).mbox.state = .ready) : mboxWrite m 0xFE8 1 s = emptyMbox m s := if_pos h

theorem mboxWrite_ackRing : mboxWrite m 0xFE8 0x10 s = ackRing m s := rfl

theorem mboxWrite_ackAlarm : mboxWrite m 0xFE8 0x20 s = ackAlarm m s := rfl

theorem mboxWrite_packet (ho : o < 0xFE0) (h : (s.part m).mbox.state = .empty) :
    mboxWrite m o w s = s.setPart m { s.part m with area := Store.putAll 0 (s.part m).area o (le32 w) } := by
  simp only [mboxWrite, if_pos ho, packetWrite, h]
  rfl

theorem isRstat_own (q : Requester) : isRstat q (0x1FE4 + 0x1000 * q.part.val) = true := by
  have hplace : 0x1FE4 + 0x1000 * q.part.val = 0x1000 + 0x1000 * q.part.val + 0xFE4 := by omega
  rw [isRstat, hplace, beq_self_eq_true]

theorem latchRead_rstat : latchRead q (0x1FE4 + 0x1000 * q.part.val) s = markRead q.part.val s := by
  have hp := q.part.isLt
  rw [latchRead, if_neg (by omega), if_neg (by omega), if_neg (by omega), if_neg (by omega), isRstat_own, if_pos rfl]

theorem regRead_rstat : regRead s q (0x1FE4 + 0x1000 * q.part.val) = rstat (s.part q.part.val) := by
  have hp := q.part.isLt
  have hm : (0x1FE4 + 0x1000 * q.part.val - 0x1000) / 0x1000 = q.part.val := by omega
  have ho : (0x1FE4 + 0x1000 * q.part.val) % 0x1000 = 0xFE4 := by omega
  rw [regRead, isReg_of_lt_5000 (by omega) (by omega), Bool.not_true, if_neg Bool.false_ne_true, if_neg (by omega),
    if_neg (by omega), if_neg (by omega), if_pos (by omega), hm, ho, if_pos rfl]
  rfl

/-- The word after the doorbell is no _HI word. -/
theorem isWideLo_doorbell (p : Fin 4) : isWideLo (0x1FE4 + 0x1000 * p.val - 4) = false := by decide +revert

/-- A read of a partition's own CMD_RSTAT gives the word from before the read marks the reply as read (R413). -/
theorem read_rstat (h : MayRead s q) :
    whenUp s (busRead q (0x1FE4 + 0x1000 * q.part.val) s)
      = given q (rstat (s.part q.part.val)) (markRead q.part.val s) := by
  have hp := q.part.isLt
  rw [read_shows_register h (by omega) (by omega) (isReg_of_lt_5000 (by omega) (by omega)) (by omega)
    (isWideLo_doorbell q.part), regRead_rstat, latchRead_rstat]

theorem spiWrites_one {bs : List Byte} :
    spiWrites q 1 a bs s = busWrite q a (BitVec.ofNat 32 (leAt bs 0 4)) true s := rfl

/-- A write frame of one word writes it for the partition that the frame names (R415). -/
theorem spiFrame_word (p : Fin 4) (hi lo b0 b1 b2 b3 : Byte) :
    spiFrame [0x02, BitVec.ofNat 8 p.val, hi, lo, b0, b1, b2, b3] s
      = busWrite (.spi p) (beNat [hi, lo] / 4 * 4) (BitVec.ofNat 32 (leNat [b0, b1, b2, b3])) true s := by
  have hp : Fin.ofNat 4 (leNat [BitVec.ofNat 8 p.val]) = p := by
    refine Fin.ext ?_
    simp [leNat]
  have hop : leNat [0x02] = 2 := rfl
  have hwrite : ¬(2 : Nat) = 0x0B := by decide
  have hone : ([0x02, BitVec.ofNat 8 p.val, hi, lo, b0, b1, b2, b3].length - 4) / 4 = 1 := by simp
  simp only [spiFrame, hp, hop, if_neg hwrite, if_true, hone, spiWrites_one, leAt, List.drop_succ_cons, List.drop_zero,
    List.take_succ_cons, List.take_zero]

end Rules

/-- Settles O35: each write of a mailbox runs through the checks of R433 to the register's own effect, and the rows of CMD_RSTAT
and of SPI frames are accesses of the same window. -/
theorem mailboxRowsComplete : Obligations.MailboxRowsComplete := by
  unfold Obligations.MailboxRowsComplete
  intro s q m
  refine ⟨?doorbell, ?rstat, ?reply, ?ring, ?alarm, ?packet, ?spi⟩
  case doorbell => exact fun h => next_write_mbox (o := 0xFE0) h m.isLt (by decide) rfl (by omega) mboxWrite_doorbell
  case rstat =>
    rintro h rfl
    exact congrArg Host.Outcome.next (read_rstat h)
  case reply =>
    exact fun h hready => next_write_mbox (o := 0xFE8) h m.isLt (by decide) rfl (by omega) (mboxWrite_ackReply hready)
  case ring => exact fun h => next_write_mbox (o := 0xFE8) h m.isLt (by decide) rfl (by omega) mboxWrite_ackRing
  case alarm => exact fun h => next_write_mbox (o := 0xFE8) h m.isLt (by decide) rfl (by omega) mboxWrite_ackAlarm
  case packet =>
    intro word w h hempty
    have hword := word.isLt
    exact next_write_mbox (o := 4 * word.val) h m.isLt (by omega) (by omega) (by omega)
      (mboxWrite_packet (by omega) hempty)
  case spi => exact fun p hi lo b0 b1 b2 b3 hheld => next_whenUp_of_eq hheld (spiFrame_word p hi lo b0 b1 b2 b3)

end Sys2Proof.Machine
end

section
/-! Fault reports, the records' timers, claims and clears (R456 to R464, R468), the fault commands (R453, R456, R459, R462, R464,
R470), and the obligations on them. -/

namespace Sys2Proof.Machine

section Opened

variable {s : State} {q : Sender} {b : Body}

@[simp] theorem opened_record (g : Nat) : (opened q b s).record g = s.record g := by simp only [State.record, opened_lkt]

/-- The command slots hold no cause of a fault (R458). -/
@[simp] theorem clearBlock_opened (g : Nat) : clearBlock (opened q b s) g = clearBlock s g := by
  rw [opened, takeSlotFor_frame]
  rfl

end Opened

section Rules

variable {s : State} {g : Nat}

theorem reportFault_masked {src : Nat} {inst : Half} (hm : s.lkt.srcMask.getLsbD src = true) :
    reportFault src inst s = s := if_pos hm

/-- A first NOTICE fault opens its group's record as NOTED (R460, R462). -/
theorem reportFault_opens_noted {src : Nat} {inst : Half} {a : Act} (hm : s.lkt.srcMask.getLsbD src = false)
    (hc : classOf s src = some (.notice, a)) (hs : (s.record (groupOf src)).state = .idle) :
    reportFault src inst s
      = countFault src (s.setRecord (groupOf src) (openRecord s src inst .notice .noted)) := by
  simp [reportFault, hm, recordFault, hc, hs, faultRecord, noteAlert, openRecord]

theorem escalationExpiry_raised (hs : (s.record g).state = .raised) : escalationExpiry g s = escalate g s := if_pos hs

theorem claimTimeExpiry_quiet (hs : (s.record g).state = .claimed) (hq : (s.record g).serviceSinceClaim = false) :
    claimTimeExpiry g s = s.setRecord g { s.record g with claimExpired := true } := by
  simp [claimTimeExpiry, hs, hq]

theorem notedExpiry_quiet (hs : (s.record g).state = .noted) (hb : clearBlock s g = none) :
    notedExpiry g s = s.setRecord g Record.init := if_pos ⟨hs, by rw [hb]; rfl⟩

theorem claimRecord_raised {who : Nat} (hs : (s.record g).state = .raised) :
    claimRecord g who s = s.setRecord g { s.record g with
      claimedBy := who, irq := false, state := .claimed, claimEnd := s.time + 1000 * s.lkt.claimTime
      claimExpired := false, serviceSinceClaim := false } := by
  simp only [claimRecord, hs]

theorem supClear_free (hb : clearBlock s g = none) :
    supClear g s = clearRecord g { s with lkt := { s.lkt with clearRefused := false, clearSource := 0 } } := by
  rw [supClear, hb]

theorem supClear_blocked {src : Nat} (hb : clearBlock s g = some src) :
    supClear g s = { s with lkt := { s.lkt with clearRefused := true, clearSource := src } } := by
  rw [supClear, hb]

/-! The supervisor's registers (R468). -/

section Registers

variable {q : Requester}

theorem write_supKick {w : Word} (h : MayWrite s q 0x0410) : whenUp s (busWrite q 0x0410 w true s) = supKick s :=
  write_runs_regStore h rfl rfl rfl

/-- A record's number survives the register's field. -/
theorem toNat_ofNat_mod_eight (g : Fin 8) : (BitVec.ofNat 32 g.val).toNat % 8 = g.val := by
  rw [BitVec.toNat_ofNat]
  omega

theorem regStore_claim {w : Word} : regStore q 0x0414 w s = claimRecord (w.toNat % 8) 4 s := rfl

theorem regStore_clear {w : Word} : regStore q 0x0418 w s = supClear (w.toNat % 8) s := rfl

theorem write_claim {g : Fin 8} (h : MayWrite s q 0x0414) :
    whenUp s (busWrite q 0x0414 (BitVec.ofNat 32 g.val) true s) = claimRecord g.val 4 s := by
  rw [write_runs_regStore h rfl rfl rfl, regStore_claim, toNat_ofNat_mod_eight]

theorem write_clear {g : Fin 8} (h : MayWrite s q 0x0418) :
    whenUp s (busWrite q 0x0418 (BitVec.ofNat 32 g.val) true s) = supClear g.val s := by
  rw [write_runs_regStore h rfl rfl rfl, regStore_clear, toNat_ofNat_mod_eight]

end Registers

/-! The commands. -/

theorem le32_length (w : Word) : (le32 w).length = 4 := leBytes_length 4 _

/-- A partition sees at most the eight records, of eight words each (R470). -/
theorem fltGetStatus_reads {p : Nat} : ∃ r, fltGetStatus p s = (s, r) ∧ r.status = .ok ∧ r.payload.length ≤ 1432 := by
  refine ⟨_, rfl, rfl, ?_⟩
  have hwords : ∀ g, ((List.range 8).flatMap fun i => le32 (recordRead s g (4 * i))).length = 32 := fun g =>
    (length_flatMap_of_length_eq (fun _ => le32_length _) _).trans rfl
  have hmine := List.length_filter_le (fun g => (s.record g).route.getLsbD p) (List.range 8)
  have hpend : ((List.range 8).flatMap fun w => le32 (srcPend s w)).length = 32 :=
    (length_flatMap_of_length_eq (fun _ => le32_length _) _).trans rfl
  simp only [Reply.ok, List.length_append, length_flatMap_of_length_eq hwords, hpend, le32_length]
  rw [List.length_range] at hmine
  omega

theorem fltClaim_routed {p : Nat} {rec : Byte} (hg : rec.toNat ≤ 7) (hs : (s.record rec.toNat).state ≠ .idle)
    (hr : (s.record rec.toNat).route.getLsbD p = true) : fltClaim p rec s = (claimRecord rec.toNat p s, Reply.ok []) := by
  rw [fltClaim, if_neg (not_or.2 ⟨Nat.not_lt.2 hg, hs⟩), hr]
  rfl

theorem fltClear_routed {p : Nat} {rec : Byte} (hg : rec.toNat ≤ 7) (hr : (s.record rec.toNat).route.getLsbD p = true)
    (hb : clearBlock s rec.toNat = none) : fltClear p rec s = (clearRecord rec.toNat s, Reply.ok []) := by
  rw [fltClear, if_neg (Nat.not_lt.2 hg), hr, hb]
  rfl

theorem fltSetClass_configurable {src cls act : Byte} {c c0 : Cls} {a a0 : Act}
    (hi : sourceInfo src.toNat = some (c0, a0, false)) (hc : clsOf cls.toNat = some c) (ha : actOf act.toNat = some a)
    (hne : a ≠ .chMute) :
    fltSetClass src cls act s = ({ s with lkt := { s.lkt with
      classes := Store.put none s.lkt.classes src.toNat (if c = c0 ∧ a = a0 then none else some (c, a)) } },
      Reply.ok []) := by
  simp only [fltSetClass, hi, hc, ha]
  exact if_neg fun h => hne h.1

theorem fltSetTimers_in_range {esc sup : Word} {claim : Half} (he : 100 ≤ esc.toNat) (he' : esc.toNat ≤ 100000)
    (hc : 10 ≤ claim.toNat) (hc' : claim.toNat ≤ 60000) (hs : 100 ≤ sup.toNat) (hs' : sup.toNat ≤ 100000) :
    fltSetTimers esc claim sup s
      = ({ s with lkt := { s.lkt with escTime := esc.toNat, claimTime := claim.toNat, supWdog := sup.toNat } },
        Reply.ok []) := if_neg (by omega)

theorem fltGetCounts_reads {first : Byte} {count : Half} (h1 : 1 ≤ count.toNat) (h : first.toNat + count.toNat ≤ 256) :
    ∃ r, fltGetCounts first count s = (s, r) ∧ r.status = .ok ∧ r.payload.length ≤ 1432 := by
  rw [fltGetCounts, if_neg (by omega)]
  refine ⟨_, rfl, rfl, ?_⟩
  simp only [Reply.ok, Store.slice, List.length_map, List.length_range]
  omega

end Rules

/-- Settles O39: each row, where it acts, has the effect of its own rule. That a cleared record returns to its reset value (log
67), and which causes hold a record open (log 70), are the model's choices. -/
theorem recordEventsComplete : Obligations.RecordEventsComplete := by
  unfold Obligations.RecordEventsComplete
  intro s hheld
  refine ⟨?report, ?masked, ?escalation, ?claimTime, ?noted, ?kick, ?claim, ?clear, ?refused⟩
  case report => exact fun src inst a hm hc hs => next_whenUp_of_eq hheld (reportFault_opens_noted hm hc hs)
  case masked => exact fun src inst hm => next_whenUp_of_eq hheld (reportFault_masked hm)
  case escalation => exact fun g hs => next_whenUp_of_eq hheld (escalationExpiry_raised hs)
  case claimTime =>
    rintro g r rfl hs hq
    exact next_whenUp_of_eq hheld (claimTimeExpiry_quiet hs hq)
  case noted => exact fun g hs hb => next_whenUp_of_eq hheld (notedExpiry_quiet hs hb)
  case kick => exact fun q w h => congrArg Host.Outcome.next (write_supKick h)
  case claim =>
    rintro q g r rfl h hs
    exact congrArg Host.Outcome.next ((write_claim h).trans (claimRecord_raised hs))
  case clear => exact fun q g h hb => congrArg Host.Outcome.next ((write_clear h).trans (supClear_free hb))
  case refused => exact fun q g src h hb => congrArg Host.Outcome.next ((write_clear h).trans (supClear_blocked hb))

/-- Settles O40: each row runs its command through the checks of R411, and with its operands in range the command has the
effect of its own rule. -/
theorem faultCommandsComplete : Obligations.FaultCommandsComplete := by
  unfold Obligations.FaultCommandsComplete
  intro s q
  refine ⟨?status, ?claim, ?clear, ?setClass, ?timers, ?counts⟩
  case status => exact fun h => reads_of_accepts rfl h fltGetStatus_reads
  case claim =>
    exact fun g h hg hs hr => runs_status_only rfl h (fltClaim_routed hg (by simpa using hs) (by rw [opened_record]; exact hr))
  case clear =>
    exact fun g h hg hr hb =>
      runs_status_only rfl h (fltClear_routed hg (by rw [opened_record]; exact hr) (by rw [clearBlock_opened]; exact hb))
  case setClass =>
    exact fun src cls act c a c0 a0 h hi hc ha hne => runs_status_only rfl h (fltSetClass_configurable hi hc ha hne)
  case timers =>
    exact fun esc claim sup h he he' hc hc' hs hs' => runs_status_only rfl h (fltSetTimers_in_range he he' hc hc' hs hs')
  case counts => exact fun first count h h1 hsum => reads_of_accepts rfl h (fltGetCounts_reads h1 hsum)

end Sys2Proof.Machine
end

section
/-! The security commands (R473, R474, R476, R479, R481, R484, R490, R491) and events (R482 to R485): each where it acts, and the
obligations on them. -/

namespace Sys2Proof.Machine

section Opened

variable {s : State} {q : Sender} {b : Body}

@[simp] theorem opened_fresh : (opened q b s).fresh = s.fresh := by rw [opened, takeSlotFor_frame]

@[simp] theorem revokeRefused_opened (c : SecKeyRevoke) : revokeRefused (opened q b s) c = revokeRefused s c := by
  simp only [revokeRefused, opened_sec]

@[simp] theorem arbCounter_opened : arbCounter (opened q b s) = arbCounter s := by
  simp only [arbCounter, opened_ka, opened_sec]

@[simp] theorem copyRuns_opened (c : Nat) : copyRuns (opened q b s) c = copyRuns s c := by
  simp only [copyRuns, opened_sec]

@[simp] theorem unlockOk_opened (block : List Byte) : unlockOk (opened q b s) block = unlockOk s block := by
  simp only [unlockOk, opened_sec]

@[simp] theorem evalExpect_opened : evalExpect (opened q b s) = evalExpect s := by simp only [evalExpect, opened_sec]

end Opened

section Rules

variable {s : State}

theorem secGetStatus_reads : ∃ r, secGetStatus s = (s, r) ∧ r.status = .ok ∧ r.payload.length ≤ 1432 := by
  refine ⟨_, rfl, rfl, ?_⟩
  simp only [Reply.ok, length_flatMap_of_length_eq fun _ => le32_length _]
  decide

/-- An unused key slot is programmed through a mailbox, with a value no wider than its kind (R473). -/
theorem secKeyProgram_unused {c : SecKeyProgram} (hl : s.sec.lock.getLsbD 1 = false)
    (hk : keySlotOk c.kind.toNat c.index.toNat c.slot.toNat = true) (hv : c.kind.toNat < 2 → c.value >>> 256 = 0)
    (hu : keySlotUsed s.sec.otp c.kind.toNat c.index.toNat c.slot.toNat = false) :
    secKeyProgram false c s = ({ s with sec := { s.sec with otp := s.sec.otp.program c } }, Reply.ok []) := by
  have hfree : ¬((false = true) ∨ s.sec.lock.getLsbD 1 = true) := by simp only [hl]; decide
  have hok : ¬((!keySlotOk c.kind.toNat c.index.toNat c.slot.toNat) = true
      ∨ (c.kind.toNat < 2 ∧ c.value >>> 256 ≠ 0)
      ∨ keySlotUsed s.sec.otp c.kind.toNat c.index.toNat c.slot.toNat = true) := by
    rw [hk, hu]
    rintro (h | ⟨h2, hne⟩ | h)
    · cases h
    · exact hne (hv h2)
    · cases h
  rw [secKeyProgram, if_neg hfree, if_neg hok]

theorem secKeyRevoke_allowed {c : SecKeyRevoke} (hl : s.sec.lock.getLsbD 1 = false)
    (hk : keySlotOk c.kind.toNat c.index.toNat c.slot.toNat = true) (hr : revokeRefused s c = false) :
    secKeyRevoke c s
      = ({ s with sec := { s.sec with otp := s.sec.otp.revoke c.kind.toNat c.index.toNat c.slot.toNat } },
        Reply.ok []) := by
  simp only [secKeyRevoke, hl, hk, hr, Bool.not_true, Bool.false_eq_true, or_self, if_false]

/-- An advance in the keep-alive domain leaves the fuses; the counter is then the value named, since the floor was below it
(R481). -/
theorem secArbAdvance_unfused {c : SecArbAdvance} (hl : s.sec.lock.getLsbD 2 = false) (hf : c.flags = 0)
    (hlow : arbCounter s ≤ c.value.toNat)
    (hhigh : c.value.toNat ≤ min s.sec.fwRollback.toNat s.boot.profileRollback.toNat) (hb : arbBusy s = false) :
    secArbAdvance c s = ({ s with ka := { s.ka with arbCount := c.value } },
      Reply.ok (le32 c.value ++ le32 (BitVec.ofNat 32 s.sec.otp.floor))) := by
  have hok : ¬(1 < c.flags.toNat ∨ c.value.toNat < arbCounter s
      ∨ min s.sec.fwRollback.toNat s.boot.profileRollback.toNat < c.value.toNat) := by
    have h0 : c.flags.toNat = 0 := by rw [hf]; rfl
    omega
  have hflag : c.flags.getLsbD 0 = false := by rw [hf]; rfl
  have hfloor : max c.value.toNat s.sec.otp.floor = c.value.toNat :=
    max_eq_left ((le_max_right _ _).trans hlow)
  simp only [secArbAdvance, hl, if_neg hok, hb, hflag, if_neg Bool.false_ne_true]
  simp only [arbCounter, hfloor, BitVec.ofNat_toNat, BitVec.setWidth_eq]

theorem secFwErase_idle {copy : Byte} (hl : s.sec.lock.getLsbD 0 = false) (hc : copy.toNat ≤ 1)
    (hr : copyRuns s copy.toNat = false) (hv : fwVerifying s copy.toNat = false) :
    secFwErase copy s = (s, Reply.code .pending) := by
  rw [secFwErase, hl, if_neg Bool.false_ne_true, if_neg (not_or.2 ⟨Nat.not_lt.2 hc, Bool.eq_false_iff.1 hr⟩), hv]
  rfl

theorem secFwWrite_idle {c : FlashWrite} (hl : s.sec.lock.getLsbD 0 = false) (hc : c.unit.toNat ≤ 1)
    (hr : copyRuns s c.unit.toNat = false) (hlen : c.data.length = c.length.toNat)
    (hw : flashWriteOk s (copyBase c.unit.toNat) c = true) (hv : fwVerifying s c.unit.toNat = false) :
    secFwWrite c s = (flashWrite (copyBase c.unit.toNat + c.offset.toNat) c.data s, Reply.ok []) := by
  simp only [secFwWrite, hlen, hl, Nat.not_lt.2 hc, hr, hw, hv, ne_eq, not_true_eq_false, Bool.not_true,
    Bool.false_eq_true, or_self, if_false]

theorem secFwVerify_in_range {copy : Byte} (hc : copy.toNat ≤ 1) : secFwVerify copy s = (s, Reply.code .pending) :=
  if_neg (Nat.not_lt.2 hc)

/-- A challenge draws the 8 words of its nonce (R482, R484). -/
theorem secDebugChallenge_draws (hd : s.sec.drbgStopped = false) :
    ∃ t n, secDebugChallenge s = (t, Reply.ok (leBytes 32 n.toNat ++ le64 s.sec.otp.deviceId))
      ∧ t.sec = { s.sec with nonce := some n, nonceAt := s.time } ∧ t.fresh = s.fresh + 8 := by
  rw [secDebugChallenge, hd, if_neg Bool.false_ne_true]
  exact ⟨_, _, rfl, rfl, rfl⟩

theorem secDebugUnlock_verified {block : List Byte} (hlen : block.length = 256) (hu : unlockOk s block = true)
    (he : evalExpect s = false) :
    secDebugUnlock block s = ({ s with sec := { s.sec with nonce := none, debugOpen := true } }, Reply.ok []) := by
  rw [secDebugUnlock, if_neg (not_not.2 hlen), hu, he]
  rfl

/-- The node is silent before the boundary cells take its pins (R485). -/
theorem boundarySelect_silent :
    (boundarySelect s).pins.boundary = true ∧ (boundarySelect s).lkt.failSilent = true := ⟨rfl, rfl⟩

end Rules

/-- Settles O41: each row runs its command through the checks of R411, and with its operands in range the command has the
effect of its own rule. -/
theorem securityCommandsComplete : Obligations.SecurityCommandsComplete := by
  unfold Obligations.SecurityCommandsComplete
  intro s q
  refine ⟨?status, ?program, ?revoke, ?advance, ?erase, ?write, ?verify, ?challenge, ?unlock, ?lock⟩
  case status => exact fun h => reads_of_accepts rfl h secGetStatus_reads
  case program =>
    intro c h hvia hl hk hv hu
    refine runs_status_only rfl h (Eq.trans ?_ (secKeyProgram_unused (by simpa using hl) hk hv (by simpa using hu)))
    rw [hvia]
    rfl
  case revoke =>
    exact fun c h hl hk hr => runs_status_only rfl h (secKeyRevoke_allowed (by simpa using hl) hk (by simpa using hr))
  case advance =>
    intro c h hl hf hlow hhigh hb
    have hrun := secArbAdvance_unfused (s := opened q (bodySecArbAdvance c) s) (by simpa using hl) hf (by simpa using hlow)
      (by simpa using hhigh) hb
    refine ⟨_, closed_of_accepts rfl h (hrun.trans (congrArg (Prod.mk _) ?_)) (by simp [Reply.ok, le32]), rfl, opened_sec⟩
    rw [opened_sec]
  case erase =>
    exact fun copy h hl hc hr hv =>
      runs_pending rfl h (secFwErase_idle (by simpa using hl) hc (by simpa using hr) hv)
  case write =>
    exact fun c h hl hc hr hlen hw hv =>
      runs_status_only rfl h (secFwWrite_idle (by simpa using hl) hc (by simpa using hr) hlen (by simpa using hw) hv)
  case verify => exact fun copy h hc => runs_pending rfl h (secFwVerify_in_range hc)
  case challenge =>
    intro h hd
    obtain ⟨t, n, hrun, hsec, hfresh⟩ :=
      secDebugChallenge_draws (s := opened q bodySecDebugChallenge s) (by simpa using hd)
    rw [opened_sec] at hrun hsec
    rw [opened_time] at hsec
    rw [opened_fresh] at hfresh
    exact ⟨t, n, closed_of_accepts rfl h hrun (by simp [Reply.ok, le64]), hsec, hfresh⟩
  case unlock =>
    exact fun block h hlen hu he =>
      runs_status_only rfl h (secDebugUnlock_verified hlen (by simpa using hu) (by simpa using he))
  case lock =>
    intro bits h
    refine runs_of_accepts rfl h (Prod.ext rfl ?_) (by simp [Reply.ok, le32])
    show Reply.ok (le32 (((opened q (bodySecSetLock bits) s).sec.lock ||| bits.setWidth 4).setWidth 32)) = _
    rw [opened_sec]

/-- Settles O42: each event has the effect of its own rule. That a released nonce returns to its reset value (log 67), and that a
JTAG instruction of R483 stops by name while debug is OPEN (log 73), are the model's choices. -/
theorem securityEventsComplete : Obligations.SecurityEventsComplete := by
  unfold Obligations.SecurityEventsComplete
  intro s
  refine ⟨?nonce, ?drbg, ?bypass, ?opened, ?boundary⟩
  case nonce => exact fun hheld => next_whenUp_of_eq hheld rfl
  case drbg => exact fun hheld => next_whenUp_of_eq hheld rfl
  case bypass => exact fun hheld hd => (if_neg (by rw [hheld]; decide)).trans (if_neg hd)
  case opened => exact fun hheld hd => (if_neg (by rw [hheld]; decide)).trans (if_pos hd)
  case boundary =>
    intro hheld hp hd
    refine ⟨boundarySelect s, congrArg Host.Outcome.next ?_, boundarySelect_silent⟩
    rw [hp, hd, hheld]
    rfl

end Sys2Proof.Machine
end

section
/-! The two-wire controllers' rows (R495 to R503, R507): each operation in the case in which it acts, and the obligation on
them. -/

namespace Sys2Proof.Machine

section Rules

variable {s : State} {n : Nat}

theorem State.setTwc_setTwc (x y : TwCtl) : (s.setTwc n x).setTwc n y = s.setTwc n y := by
  simp only [State.setTwc, List.set_set]

/-! TW_CTRL (R495, R502). -/

theorem regStore_twCtrl {q : Requester} {w : Word} (hn : n < 4) :
    regStore q (0x6008 + 0xC0 * n) w s = twCtrlWrite n w s := by
  have hbus : (0x6008 + 0xC0 * n - 0x6000) / 0xC0 = n := by omega
  have ho : (0x6008 + 0xC0 * n - 0x6000) % 0xC0 = 0x08 := by omega
  simp only [regStore, twWrite, hbus, ho, if_true]
  rw [if_neg (by omega), if_neg (by omega), if_neg (by omega), if_neg (by omega), if_neg (by omega), if_neg (by omega),
    if_neg (by omega), if_neg (by omega), if_neg (by omega), if_pos (by omega), if_pos (by omega)]

theorem isReg_twCtrl (n : Fin 4) : isReg (0x6008 + 0xC0 * n.val) = true := by decide +revert

/-- An accepted write of TW_CTRL acts on its controller. -/
theorem write_twCtrl {q : Requester} {w : Word} {n : Fin 4} (h : MayWrite s q (0x6008 + 0xC0 * n.val)) :
    whenUp s (busWrite q (0x6008 + 0xC0 * n.val) w true s) = twCtrlWrite n.val w s :=
  (write_runs_regStore h (isReg_twCtrl n) (decide_eq_false (by omega)) (by omega)).trans (regStore_twCtrl n.isLt)

theorem twCtrlWrite_go : twCtrlWrite n 1 s = twGo n s := rfl

theorem twCtrlWrite_abort : twCtrlWrite n 2 s = twAbort n s := rfl

theorem twGo_queues (hs : (s.twc n).state = .idle) (hw : (s.twc n).wcount ≤ 32) (hr : (s.twc n).rcount ≤ 32)
    (hb : (s.twc n).busStuck = false) :
    twGo n s = s.setTwc n { s.twc n with
      doneBytes := 0, addrTries := 0, arbTries := 0, aborting := false, state := .queued, result := 0 } := by
  have hcounts : ¬(32 < (s.twc n).wcount ∨ 32 < (s.twc n).rcount) := by omega
  simp only [twGo, hs, ne_eq, not_true_eq_false, if_false, hcounts, hb, if_neg Bool.false_ne_true]

theorem twAbort_active (hs : (s.twc n).state = .active) :
    twAbort n s = s.setTwc n { s.twc n with aborting := true } := by
  simp only [twAbort, hs]

/-! Transactions. -/

theorem TwCtl.ninth_quiet {c : TwCtl} (h : c.alert = false) : c.ninth = c := by
  simp [TwCtl.ninth, h]

/-- A waiting transaction takes the free bus where nothing of higher priority waits (R496). -/
theorem twServe_queued (hb : (s.twc n).bus = .free) (ha : (s.twc n).alert = false) (hs : (s.twc n).state = .queued)
    (hk : (s.twc n).busStuck = false) (hg : n = 0 → s.fab.xfer = none) :
    twServe n s = s.setTwc n { s.twc n with bus := .host, state := .active, cfgInUse := (s.twc n).cfg } := by
  have hgov : ¬(n = 0 ∧ s.fab.xfer.isSome = true) := by
    rintro ⟨h0, hx⟩
    rw [hg h0] at hx
    cases hx
  simp [twServe, TwCtl.ninth_quiet ha, hb, hgov, TwCtl.wantsAlert, ha, hs, hk]

/-- The model's own end of a transaction of the host. -/
theorem twEnd_host {e : TwEnd} (hb : (s.twc n).bus = .host) (hr : e.recovery = none) :
    twEnd n e s = s.setTwc n ((s.twc n).ended e) := by
  simp only [twEnd, hb, ne_eq, not_true_eq_false, if_false, hr]

theorem TwCtl.ended_done {c : TwCtl} {k : BitVec 6} {rd : List Byte} (ha : c.aborting = false) (hb : c.block = false) :
    c.ended { outcome := .done, doneBytes := k, read := rd, recovery := none } = { c with
      bus := .free, doneBytes := k, rx := (rd ++ c.rx.drop rd.length).take 32, state := .idle, result := 1
      aborting := false, addrTries := 0, arbTries := 0, xferCnt := c.xferCnt + 1 } := by
  simp [TwCtl.ended, TwCtl.badCount, ha, hb, TwCtl.take, TwCtl.finish]

/-- An address that is not acknowledged is tried again while attempts are left (R497). -/
theorem TwCtl.ended_addrNack {c : TwCtl} {k : BitVec 6} {rd : List Byte} (ha : c.aborting = false)
    (ht : c.addrTries < c.addrRetry) :
    c.ended { outcome := .addrNack, doneBytes := k, read := rd, recovery := none } = { c with
      bus := .free, doneBytes := k, state := .retryWait, addrTries := c.addrTries + 1 } := by
  simp [TwCtl.ended, ha, ht]

/-- The further attempt starts at once on a free bus. -/
theorem twRetry_starts (hn : n < s.tw.ctl.length) (hs : (s.twc n).state = .retryWait) (hb : (s.twc n).bus = .free)
    (ha : (s.twc n).alert = false) (hk : (s.twc n).busStuck = false) (hg : n = 0 → s.fab.xfer = none) :
    ((twRetry n s).twc n).state = .active ∧ ((twRetry n s).twc n).bus = .host
      ∧ ((twRetry n s).twc n).retryCnt = (s.twc n).retryCnt + 1 := by
  have htwc := State.twc_setTwc s n { s.twc n with state := .queued, retryCnt := (s.twc n).retryCnt + 1 } hn
  have hserve := twServe_queued (n := n)
    (s := s.setTwc n { s.twc n with state := .queued, retryCnt := (s.twc n).retryCnt + 1 })
    (by rw [htwc, hb]) (by rw [htwc, ha]) (by rw [htwc]) (by rw [htwc, hk]) hg
  rw [twRetry, if_neg (not_not.2 hs), hserve, State.setTwc_setTwc, htwc, State.twc_setTwc _ _ _ hn]
  exact ⟨rfl, rfl, rfl⟩

theorem twRecover_freed : twRecover n true s = s.setTwc n { s.twc n with recoverCnt := (s.twc n).recoverCnt + 1 } := rfl

/-- A host transaction that is stretched too long ends with the result of the timeout (R498, R507). -/
theorem twStretch_host {k : BitVec 6} (hn : n < s.tw.ctl.length) (hb : (s.twc n).bus = .host)
    (hm : (s.twc n).stretchMs n ≠ 0) :
    twStretch n k true s = s.setTwc n { ({ s.twc n with
      bus := .free, doneBytes := k, stretchCnt := (s.twc n).stretchCnt + 1 } : TwCtl).finish 5 with
        recoverCnt := (s.twc n).recoverCnt + 1 } := by
  simp only [twStretch, if_neg hm, hb, twRecover_freed, State.twc_setTwc _ _ _ hn, State.setTwc_setTwc]
  rfl

theorem twSclStuck_host (hb : (s.twc n).bus ≠ .governor) (hk : (s.twc n).busStuck = false) :
    twSclStuck n s = reportOwn (0x0F0 + n) (s.setTwc n (s.twc n).stick) := by
  simp only [twSclStuck, if_neg hb, twStuck, hk, if_neg Bool.false_ne_true]

theorem twRepeat_stuck (hk : (s.twc n).busStuck = true) :
    twRepeat n true s = s.setTwc n { s.twc n with recoverCnt := (s.twc n).recoverCnt + 1 } := if_pos hk

theorem twAlert_new (ha : (s.twc n).alert = false) :
    twAlert n s = s.setTwc n { s.twc n with alert := true, reads := 0, alertStuck := false } := by
  simp only [twAlert, ha, if_neg Bool.false_ne_true]

/-- The response of an alert-response read is logged (R500). -/
theorem twAlertRead_logs {b : Byte} (hb : (s.twc n).bus = .alert) (hk : (s.twc n).busStuck = false)
    (hw : (s.twc n).wantsAlert = true) :
    twAlertRead n (some b) s = s.setTwc n { s.twc n with
      bus := .free, reads := (s.twc n).reads + 1, log := (b :: (s.twc n).log).take 8
      alertCnt := (s.twc n).alertCnt + 1 } := by
  simp [twAlertRead, hb, hk, hw]

/-- Without an acknowledge the episode ends (R501). -/
theorem twAlertRead_unanswered (hb : (s.twc n).bus = .alert) (hk : (s.twc n).busStuck = false)
    (hw : (s.twc n).wantsAlert = true) :
    twAlertRead n none s
      = s.setTwc n { s.twc n with bus := .free, reads := (s.twc n).reads + 1, alertStuck := true } := by
  simp [twAlertRead, hb, hk, hw]

end Rules

/-- Settles O43: each row, where it acts, has the effect of its own rule. That GO resets RESULT and DONE_BYTES is the model's
choice (log 66). -/
theorem twoWireRowsComplete : Obligations.TwoWireRowsComplete := by
  unfold Obligations.TwoWireRowsComplete
  rintro s n c rfl hheld
  refine ⟨?go, ?abort, ?start, ?done, ?nack, ?retry, ?stretch, ?stuck, ?recovery, ?unstick, ?alert, ?gone, ?byte, ?noByte⟩
  case go =>
    exact fun q h hs hw hr hb =>
      congrArg Host.Outcome.next ((write_twCtrl h).trans (twCtrlWrite_go.trans (twGo_queues hs hw hr hb)))
  case abort =>
    exact fun q h hs => congrArg Host.Outcome.next ((write_twCtrl h).trans (twCtrlWrite_abort.trans (twAbort_active hs)))
  case start => exact fun hb ha hs hk hg => next_whenUp_of_eq hheld (twServe_queued hb ha hs hk hg)
  case done =>
    exact fun k rd hb ha hblock =>
      next_whenUp_of_eq hheld ((twEnd_host hb rfl).trans (congrArg _ (TwCtl.ended_done ha hblock)))
  case nack =>
    exact fun k rd hb ha ht =>
      next_whenUp_of_eq hheld ((twEnd_host hb rfl).trans (congrArg _ (TwCtl.ended_addrNack ha ht)))
  case retry =>
    exact fun hs hb ha hk hg hlen =>
      ⟨_, next_whenUp_of_eq hheld rfl, twRetry_starts (by rw [hlen]; exact n.isLt) hs hb ha hk hg⟩
  case stretch =>
    intro k hb hm hlen
    have hn : n.val < s.tw.ctl.length := by rw [hlen]; exact n.isLt
    refine ⟨_, next_whenUp_of_eq hheld (twStretch_host hn hb hm), ?_⟩
    rw [State.twc_setTwc _ _ _ hn]
    exact ⟨rfl, rfl, rfl, rfl, rfl, rfl⟩
  case stuck => exact fun hb hk => next_whenUp_of_eq hheld (twSclStuck_host hb hk)
  case recovery => exact fun hk => next_whenUp_of_eq hheld (twRepeat_stuck hk)
  case unstick => exact next_whenUp_of_eq hheld rfl
  case alert => exact fun ha => next_whenUp_of_eq hheld (twAlert_new ha)
  case gone => exact next_whenUp_of_eq hheld rfl
  case byte => exact fun b hb hk hw => next_whenUp_of_eq hheld (twAlertRead_logs hb hk hw)
  case noByte => exact fun hb hk hw => next_whenUp_of_eq hheld (twAlertRead_unanswered hb hk hw)

end Sys2Proof.Machine
end

section
/-! The target port's rows (R504 to R506, R508): each operation in the case in which it acts, and the obligation on them. -/

namespace Sys2Proof.Machine

section Rules

variable {s : State}

theorem twtReadPage_enabled {n : Byte} (he : s.tw.twt.en = true) :
    twtReadPage n s = s.setTwt { s.tw.twt with
      sent := (List.range n.toNat).map fun i => (twtPage s).getD ((s.tw.twt.pointer.toNat + i) % 128) 0
      pointer := s.tw.twt.pointer + BitVec.ofNat 7 n.toNat } := by
  simp only [twtReadPage, he, Bool.not_true, if_neg Bool.false_ne_true]

theorem twtProto_none : twtProto 0 s = s := rfl

/-- Within 1 s of the last TWT_FAULT an error is counted, and no more (R505). -/
theorem twtProto_again (hf : s.tw.twt.faultAt = some s.time) :
    twtProto 1 s = s.setTwt { s.tw.twt with protoErr := s.tw.twt.protoErr + 1 } := by
  have hdue : decide (s.time + 1000000 ≤ s.time) = false := decide_eq_false (by omega)
  simp only [twtProto, hf, hdue, if_neg Bool.false_ne_true]
  rfl

/-- A write of the pointer alone moves it (R505). -/
theorem twtWritePage_pointer {p : Byte} (he : s.tw.twt.en = true) :
    twtWritePage [p] s = s.setTwt { s.tw.twt with pointer := p.setWidth 7 } := by
  have hp : BitVec.ofNat 7 (p.toNat % 128) = p.setWidth 7 :=
    BitVec.eq_of_toNat_eq (by rw [BitVec.toNat_ofNat, BitVec.toNat_setWidth]; omega)
  simp [twtWritePage, he, twtProto_none, hp]

/-- A byte for the inbound page is written there, beside the pointer and the count (R504, R505). -/
theorem twtWritePage_inbound {p b : Byte} (he : s.tw.twt.en = true) (h0 : 0x40 ≤ p.toNat % 128)
    (h1 : p.toNat % 128 < 0x60) :
    twtWritePage [p, b] s = s.setTwt { s.tw.twt with
      inb := Store.put 0 s.tw.twt.inb (p.toNat % 128 - 0x40) b, pointer := BitVec.ofNat 7 (p.toNat % 128 + 1)
      wrCnt := s.tw.twt.wrCnt + 1 } := by
  simp [twtWritePage, he, h0, h1, Nat.not_lt.2 h0, twtProto_none]

theorem twtError_again (he : s.tw.twt.en = true) (hf : s.tw.twt.faultAt = some s.time) :
    twtError s = s.setTwt { s.tw.twt with protoErr := s.tw.twt.protoErr + 1 } := by
  rw [twtError, if_pos he, twtProto_again hf]

theorem twtTimeout_again (he : s.tw.twt.en = true) (hf : s.tw.twt.faultAt = some s.time) :
    twtTimeout s = s.setTwt { s.tw.twt with pointer := 0, protoErr := s.tw.twt.protoErr + 1 } := by
  rw [twtTimeout, if_pos he]
  exact twtProto_again (s := s.setTwt { s.tw.twt with pointer := 0 }) hf

theorem write_twtAlert {q : Requester} (h : MayWrite s q 0x6304) :
    whenUp s (busWrite q 0x6304 1 true s) = twtAlert s := write_runs_regStore h rfl rfl rfl

theorem twtAlertResponse_requested (he : s.tw.twt.en = true) (ha : s.tw.twt.alertReq = true) :
    twtAlertResponse s = s.setTwt { s.tw.twt with
      alertReq := false, sent := [BitVec.ofNat 8 (2 * s.tw.twt.addr.toNat)] } := if_pos ⟨he, ha⟩

end Rules

/-- Settles O44: each row, where it acts, has the effect of its own rule. The pointer modulo 128, and its return to 0 at the SCL
timeout, are the model's choices (log 66). -/
theorem targetPortRowsComplete : Obligations.TargetPortRowsComplete := by
  unfold Obligations.TargetPortRowsComplete
  rintro s t rfl hheld
  refine ⟨?read, ?pointer, ?inbound, ?error, ?timeout, ?alert, ?response⟩
  case read => exact fun n he => next_whenUp_of_eq hheld (twtReadPage_enabled he)
  case pointer => exact fun p he => next_whenUp_of_eq hheld (twtWritePage_pointer he)
  case inbound => exact fun p b he h0 h1 => next_whenUp_of_eq hheld (twtWritePage_inbound he h0 h1)
  case error => exact fun he hf => next_whenUp_of_eq hheld (twtError_again he hf)
  case timeout => exact fun he hf => next_whenUp_of_eq hheld (twtTimeout_again he hf)
  case alert => exact fun q h => congrArg Host.Outcome.next (write_twtAlert h)
  case response => exact fun he ha => next_whenUp_of_eq hheld (twtAlertResponse_requested he ha)

end Sys2Proof.Machine
end

section
/-! The rows of reset, deep-off and wake (R513, R515, R520, R521, R523 to R525, R541, R542): what the domains leave as they enter
reset, each operation where it acts, and the obligation on them. -/

namespace Sys2Proof.Machine

section Rules

variable {s : State}

/-! What stays as the domains enter reset; all that is not named is that of `State.reset`, by definition (R512, R523). -/

theorem resetDomains_pins : (resetDomains s).pins = s.pins := by
  have h : ((runningJobs s).foldl abandonJob s).pins = s.pins := by rw [foldl_abandonJob_frame]
  rw [← h]
  rfl

theorem resetDomains_otp : (resetDomains s).sec.otp = s.sec.otp := by
  have h : ((runningJobs s).foldl abandonJob s).sec = s.sec := by rw [foldl_abandonJob_frame]
  rw [← h]
  rfl

theorem resetDomains_pending : (resetDomains s).pending = s.pending := by
  have h : ((runningJobs s).foldl abandonJob s).pending = s.pending := by rw [foldl_abandonJob_frame]
  rw [← h]
  rfl

/-! The pins. -/

theorem porstAssert_up (hd : s.ka.deepOff = false) :
    porstAssert s
      = dropShadow (resetDomains { s with pins := { s.pins with porstN := false, boundary := false } }) := by
  simp only [porstAssert, hd, if_neg Bool.false_ne_true]

theorem sysrstAssert_up (hd : s.ka.deepOff = false) :
    sysrstAssert s = resetDomains { s with pins := { s.pins with sysrstN := false } } := by
  simp only [sysrstAssert, hd, if_neg Bool.false_ne_true]

theorem testEnable_high {sel : BitVec 3} (hd : s.ka.deepOff = false) :
    testEnable true sel s = dropShadow (resetDomains { s with pins := { s.pins with testEn := true } }) := by
  simp only [testEnable, hd, if_neg Bool.false_ne_true, if_true]

theorem porstRelease_boots {sel : BitVec 3} {iox : BitVec 9} {settled : Bool} (hp : s.pins.porstN = false)
    (hd : s.ka.deepOff = false) (hr : s.pins.sysrstN = true) (ht : s.pins.testEn = false) :
    porstRelease sel iox settled s
      = beginBoot 1 sel { s with pins := { s.pins with porstN := true, ioxSense := iox } } := by
  simp only [porstRelease, hp, hd, pinsReleased, hr, ht, Bool.not_false, Bool.and_true, if_neg Bool.false_ne_true, if_true]

theorem sysrstRelease_boots {sel : BitVec 3} (hr : s.pins.sysrstN = false) (hd : s.ka.deepOff = false)
    (hp : s.pins.porstN = true) (ht : s.pins.testEn = false) :
    sysrstRelease sel s = beginBoot 3 sel { s with pins := { s.pins with sysrstN := true } } := by
  simp only [sysrstRelease, hr, hd, pinsReleased, hp, ht, Bool.not_false, Bool.not_true, Bool.and_true, Bool.or_self,
    if_neg Bool.false_ne_true]

/-! Deep-off and wake (R520, R521, R525). -/

theorem indWrite_kaCtrl {w : Word} (h7 : s.sys.lock.getLsbD 7 = false) (h8 : s.sys.lock.getLsbD 8 = false) :
    indWrite 0x0300_0000 w s = kaCtrlWrite w s := by
  rw [indWrite, h7, h8]
  rfl

theorem kaCtrlWrite_deepOff (ht : s.boot.teardown = none) :
    kaCtrlWrite 0x4B410001 s = some (kaRequest .deepOff s) := by
  rw [kaCtrlWrite, ht]
  rfl

theorem kaCtrlWrite_restart (ht : s.boot.teardown = none) :
    kaCtrlWrite 0x4B410002 s = some (kaRequest .restart s) := by
  rw [kaCtrlWrite, ht]
  rfl

/-- Partition 0 writes KA_CTRL where neither lock bit covers it (R442, R525). -/
theorem kaWrite_accepted {q : Requester} {w : Word} {t : State} (hp : present s q = true) (h0 : q.part = 0)
    (h7 : s.sys.lock.getLsbD 7 = false) (h8 : s.sys.lock.getLsbD 8 = false) (hw : kaCtrlWrite w s = some t) :
    kaWrite q w s = t := by
  rw [kaWrite, hp, Bool.not_true, if_neg Bool.false_ne_true, if_neg (not_not.2 h0), indWrite_kaCtrl h7 h8, hw]

theorem wake_low (hd : s.ka.deepOff = true) (hp : s.ka.pwrEn = false) (hr : s.ka.reassert = false) :
    wake true s = { s with
      pins := { s.pins with wakeN := false }, ka := { s.ka with pwrEn := true, wakeCnt := s.ka.wakeCnt + 1 } } := by
  simp [wake, hd, hp, hr]

theorem pwrReassert_wanted (hd : s.ka.deepOff = true) (hr : s.ka.reassert = true) :
    pwrReassert s = { s with ka := { s.ka with
      pwrEn := true, reassert := false, wakeCnt := s.ka.wakeCnt + 1 } } := by
  simp only [pwrReassert, hd, hr, Bool.and_self, if_true]

end Rules

/-- Settles O45: each row, in the states that its clause names, has the effect of its own rule. That memory which nothing has
written reads 0 is the model's choice (log 4). -/
theorem resetRowsComplete : Obligations.ResetRowsComplete := by
  unfold Obligations.ResetRowsComplete
  intro s
  refine ⟨?porstLow, ?porstHigh, ?sysrstLow, ?sysrstHigh, ?deepOff, ?restart, ?wakeLow, ?wakeHigh, ?reassert, ?power, ?test,
    ?perst⟩
  case porstLow =>
    intro hd
    refine ⟨_, congrArg Host.Outcome.next (porstAssert_up hd), ?_, rfl, rfl, rfl, rfl, resetDomains_otp,
      resetDomains_pending⟩
    exact congrArg Pins.porstN resetDomains_pins
  case porstHigh =>
    exact fun sel iox hp hd hr ht =>
      ⟨_, congrArg Host.Outcome.next (porstRelease_boots hp hd hr ht), rfl, rfl, rfl, rfl, rfl⟩
  case sysrstLow =>
    exact fun hd =>
      ⟨_, congrArg Host.Outcome.next (sysrstAssert_up hd), congrArg Pins.sysrstN resetDomains_pins, rfl, rfl⟩
  case sysrstHigh =>
    exact fun sel hr hd hp ht => ⟨_, congrArg Host.Outcome.next (sysrstRelease_boots hr hd hp ht), rfl, rfl, rfl⟩
  case deepOff =>
    exact fun q hheld hp h0 h7 h8 ht => next_whenUp_of_eq hheld (kaWrite_accepted hp h0 h7 h8 (kaCtrlWrite_deepOff ht))
  case restart =>
    exact fun q hheld hp h0 h7 h8 ht => next_whenUp_of_eq hheld (kaWrite_accepted hp h0 h7 h8 (kaCtrlWrite_restart ht))
  case wakeLow => exact fun hd hp hr => congrArg Host.Outcome.next (wake_low hd hp hr)
  case wakeHigh => rfl
  case reassert => exact fun hd hr => congrArg Host.Outcome.next (pwrReassert_wanted hd hr)
  case power => exact ⟨_, rfl, rfl, congrArg Pins.porstN resetDomains_pins, rfl⟩
  case test =>
    exact fun sel hd =>
      ⟨_, congrArg Host.Outcome.next (testEnable_high hd), congrArg Pins.testEn resetDomains_pins, rfl⟩
  case perst => exact fun high => rfl

end Sys2Proof.Machine
end

section
/-! The steps of the boot (R427, R477, R478, R516, R517, R557): each operation where it acts, and the obligation on them. -/

namespace Sys2Proof.Machine

section Rules

variable {s : State}

theorem tarnFilled_sensed (ho : s.boot.otpSensed = true) (ht : s.boot.tarnFilled = false) :
    tarnFilled s = { s with
      mem := { s.mem with tarn := [], tarnBad := [] }, boot := { s.boot with tarnFilled := true } } := by
  simp only [tarnFilled, ho, ht, Bool.not_false, Bool.and_self, if_true]

section Dram

variable {bytes : BitVec 4} {rate : BitVec 5}

theorem dramTraining_ok (hf : s.boot.tarnFilled = true) (ht : s.boot.dramTrained = false)
    (hx : s.boot.dramFailed = false) :
    dramTraining true bytes rate s = { s with boot := { s.boot with dramTrained := true, dramRate := rate.toNat } } := by
  simp only [dramTraining, hf, ht, hx, Bool.not_true, Bool.or_self, if_neg Bool.false_ne_true, if_true]

theorem dramTraining_failed (hf : s.boot.tarnFilled = true) (ht : s.boot.dramTrained = false)
    (hx : s.boot.dramFailed = false) :
    dramTraining false bytes rate s = { s with boot := { s.boot with dramFailed := true, dramByte := bytes } } := by
  simp only [dramTraining, hf, ht, hx, Bool.not_true, Bool.or_self, if_neg Bool.false_ne_true]

theorem eccDone_trained (ht : s.boot.dramTrained = true) :
    eccDone s = { s with boot := { s.boot with eccDone := true } } := if_pos ht

theorem dramRetrain_trained (ht : s.boot.dramTrained = true) :
    dramRetrain s = { s with boot := { s.boot with retrainCnt := s.boot.retrainCnt + 1 } } := if_pos ht

end Dram

section Firmware

variable (hr : s.boot.fwRunning = false) (hh : s.boot.halted = false) (ht : s.boot.tarnFilled = true)

include hr hh ht

/-- With no valid copy the boot halts (R478). -/
theorem fwVerified_halts (hc : chosenCopy s = none) :
    fwVerified s = reportOwn 0x0FB { s with
      boot := { s.boot with halted := true }, sec := { s.sec with bootCopy := 3 } } := by
  simp only [fwVerified, hr, hh, ht, hc, Bool.not_true, Bool.or_self, if_neg Bool.false_ne_true]

/-- A copy that was not fallen back to runs, and its version shows (R477). -/
theorem fwVerified_runs {c : Nat} {h : FwHead} (hc : chosenCopy s = some (c, h, false)) :
    (fwVerified s).boot.fwRunning = true ∧ (fwVerified s).sec.bootCopy = c
      ∧ (fwVerified s).sys.fwVersion = h.version := by
  simp only [fwVerified, hr, hh, ht, hc, Bool.not_true, Bool.or_self, if_neg Bool.false_ne_true, and_self]

end Firmware

section Profile

variable {b : Bundle} (hf : s.boot.fwRunning = true) (ha : s.boot.profileApplied = false) (hc : s.boot.failCode = 0)
  (ht : s.boot.teardown = none)

include hf ha hc ht

theorem profileApplied_valid {h : ProfHead} (hs : isSealed s (bootSlot s) = true)
    (hp : profCheck s (bootSlot s) = .ok h) (hb : bundleOk h.parts b = true) :
    profileApplied b s = noteEval s (applyBundle h b s) := by
  simp [profileApplied, hf, ha, hc, ht, hs, hp, hb]

theorem profileApplied_unsealed (hs : isSealed s (bootSlot s) = false) :
    profileApplied b s = profileFail 1 0 0 0 s := by
  simp [profileApplied, hf, ha, hc, ht, hs]

end Profile

section Commands

variable (ha : s.boot.profileApplied = true) (hd : s.boot.bootDone = false) (hr : s.lkt.coresRun = true)

include ha hd hr

/-- The command section has run to its end (R427). -/
theorem bootNext_finishes (hc : s.boot.commands[s.boot.index]? = none) : bootNext s = bootFinish s := by
  simp only [bootNext, ha, hd, hr, hc, Bool.not_true, Bool.or_self, if_neg Bool.false_ne_true]

variable {c : BootCmd} (hj : s.boot.job = none) (hc : s.boot.commands[s.boot.index]? = some c)

include hj hc

/-- A command below 0x0320 waits for no reference. -/
theorem bootNext_starts (ho : c.opcode.toNat < 0x0320) :
    bootNext s = bootStart c { s with boot := { s.boot with acquireWait := false } } := by
  have hlow : ¬0x0320 ≤ c.opcode.toNat := Nat.not_le.2 ho
  simp only [bootNext, ha, hd, hr, hc, hj, hlow, false_and, Bool.not_true, Bool.or_self, if_neg Bool.false_ne_true,
    if_false, decide_false, Bool.or_false]

/-- The first command at 0x0320 or above waits for Polestar to leave ACQUIRE (R517). -/
theorem bootNext_waits (ho : 0x0320 ≤ c.opcode.toNat) (hw : s.boot.acquireWaited = false)
    (hp : s.pst.state = .acquire) : bootNext s = { s with boot := { s.boot with acquireWait := true } } := by
  simp [bootNext, ha, hd, hr, hc, hj, ho, hw, hp]

end Commands

theorem acquireWaitEnd_left (hw : s.boot.acquireWait = true) (hp : s.pst.state ≠ .acquire) :
    acquireWaitEnd s = bootNext s := by
  simp [acquireWaitEnd, hw, hp]

end Rules

/-- Settles O46: each step, where it acts, has the effect of its own rule. Within them, what a profile's sections say comes with
the step (log 5), and the steps wait for one another where one needs the other (log 68), by the model's choice. -/
theorem bootRowsComplete : Obligations.BootRowsComplete := by
  unfold Obligations.BootRowsComplete
  intro s hheld
  refine ⟨?otp, ?tarn, ?trained, ?untrained, ?ecc, ?retrain, ?halt, ?firmware, ?profile, ?noProfile, ?start, ?wait, ?finish,
    ?acquired⟩
  case otp => exact next_whenUp_of_eq hheld rfl
  case tarn => exact fun ho ht => next_whenUp_of_eq hheld (tarnFilled_sensed ho ht)
  case trained => exact fun bytes rate hf ht hx => next_whenUp_of_eq hheld (dramTraining_ok hf ht hx)
  case untrained => exact fun bytes rate hf ht hx => next_whenUp_of_eq hheld (dramTraining_failed hf ht hx)
  case ecc => exact fun ht => next_whenUp_of_eq hheld (eccDone_trained ht)
  case retrain => exact fun ht => next_whenUp_of_eq hheld (dramRetrain_trained ht)
  case halt => exact fun hr hh ht hc => next_whenUp_of_eq hheld (fwVerified_halts hr hh ht hc)
  case firmware => exact fun c h hr hh ht hc => ⟨_, next_whenUp_of_eq hheld rfl, fwVerified_runs hr hh ht hc⟩
  case profile =>
    exact fun b h hf ha hc ht hs hp hb => next_whenUp_of_eq hheld (profileApplied_valid hf ha hc ht hs hp hb)
  case noProfile => exact fun b hf ha hc ht hs => next_whenUp_of_eq hheld (profileApplied_unsealed hf ha hc ht hs)
  case start => exact fun c ha hd hr hj hc ho => next_whenUp_of_eq hheld (bootNext_starts ha hd hr hj hc ho)
  case wait =>
    exact fun c ha hd hr hj hc ho hw hp => next_whenUp_of_eq hheld (bootNext_waits ha hd hr hj hc ho hw hp)
  case finish => exact fun ha hd hr hc => next_whenUp_of_eq hheld (bootNext_finishes ha hd hr hc)
  case acquired => exact fun hw hp => next_whenUp_of_eq hheld (acquireWaitEnd_left hw hp)

end Sys2Proof.Machine
end
